-- ==== Sys2Proof/Word.lean ====
section
/-!
DEFINITION. The word types of the model and the sparse map it keeps memories, registers and tables in.
A sparse map lists (key, value) pairs with the keys strictly rising and lists no entry that equals what an unlisted key
reads as, so that equal contents are equal data.
-/
namespace Sys2Proof

/-- A byte. -/
abbrev Byte := BitVec 8

/-- A 32-bit word: a register word, a slot of a hearth, an FP32 value. -/
abbrev Word := BitVec 32

/-- A sparse map from numbered places to values. -/
abbrev SMap (α : Type) := List (Nat × α)

end Sys2Proof
end

