-- ==== Sys2Proof/Machine/SMap.lean ====
section
/-!
DEFINITION. The operations of a sparse map: reading a key, writing a key in canonical form, clearing and copying a run of
keys, and the byte accesses built on them.  Multi-byte fields are little-endian (R7).
-/
namespace Sys2Proof.Machine

/-- What key `k` reads as; an unlisted key reads as `d`. -/
def SMap.get {α : Type} (m : SMap α) (k : Nat) (d : α) : α :=
  match m with
  | [] => d
  | (k', v) :: r => if k' = k then v else SMap.get r k d

/-- List `v` at key `k`, in the place that its key has among rising keys. -/
def SMap.insert {α : Type} (m : SMap α) (k : Nat) (v : α) : SMap α :=
  match m with
  | [] => [(k, v)]
  | (k', v') :: r =>
    if k < k' then (k, v) :: (k', v') :: r else if k' = k then (k, v) :: r else (k', v') :: SMap.insert r k v

/-- Write `v` at key `k`, where an unlisted key reads as `d`: the keys stay rising, and no entry equal to `d` is listed. -/
def SMap.put {α : Type} [DecidableEq α] (m : SMap α) (k : Nat) (v d : α) : SMap α :=
  if v = d then m.filter (fun e => decide (e.1 ≠ k)) else SMap.insert m k v

/-- Every key listed is at least `lo` and the keys rise. -/
def SMap.rising {α : Type} : Nat → SMap α → Bool
  | _, [] => true
  | lo, (k, _) :: r => decide (lo ≤ k) && SMap.rising (k + 1) r

/-- The canonical form: rising keys, and no entry equal to what its key reads as unlisted. -/
def SMap.wf {α : Type} [DecidableEq α] (d : Nat → α) (m : SMap α) : Bool :=
  SMap.rising 0 m && m.all (fun e => decide (e.2 ≠ d e.1))

/-- Every key from `lo` to `lo + n - 1` reads as unlisted again. -/
def SMap.clear {α : Type} (m : SMap α) (lo n : Nat) : SMap α :=
  m.filter (fun e => decide (e.1 < lo ∨ lo + n ≤ e.1))

/-- Copy the run of `n` keys from `from'` of `src` to the run from `to'` of `dst`. -/
def SMap.copy {α : Type} (dst : SMap α) (to' : Nat) (src : SMap α) (from' n : Nat) : SMap α :=
  dst.filter (fun e => decide (e.1 < to')) ++
  (src.filter (fun e => decide (from' ≤ e.1 ∧ e.1 < from' + n))).map (fun e => (e.1 - from' + to', e.2)) ++
  dst.filter (fun e => decide (to' + n ≤ e.1))

/-- The values of keys `a` to `a + n - 1`. -/
def SMap.getRun {α : Type} (m : SMap α) (a n : Nat) (d : α) : List α :=
  (List.range n).map (fun i => SMap.get m (a + i) d)

/-- Write the values of `vs` to the keys from `a` upwards. -/
def SMap.putRun {α : Type} [DecidableEq α] (m : SMap α) (a : Nat) (vs : List α) (d : α) : SMap α :=
  match vs with
  | [] => m
  | v :: r => SMap.putRun (SMap.put m a v d) (a + 1) r d

/-- The number that bytes give, the first byte the least significant (R7). -/
def leNat : List Byte → Nat
  | [] => 0
  | b :: r => b.toNat + 256 * leNat r

/-- The `n` bytes of a number, the least significant first (R7). -/
def natLe : Nat → Nat → List Byte
  | 0, _ => []
  | n + 1, v => BitVec.ofNat 8 v :: natLe n (v / 256)

/-- Bits [hi:lo] of a number. -/
def bits (v hi lo : Nat) : Nat := v / 2 ^ lo % 2 ^ (hi + 1 - lo)

/-- One bit of a number. -/
def bit (v i : Nat) : Bool := v / 2 ^ i % 2 == 1

/-- A number with bits [hi:lo] replaced by the low bits of `x`. -/
def setBits (v hi lo x : Nat) : Nat :=
  v % 2 ^ lo + (x % 2 ^ (hi + 1 - lo)) * 2 ^ lo + v / 2 ^ (hi + 1) * 2 ^ (hi + 1)

/-- 1 for true, 0 for false. -/
def b2n (b : Bool) : Nat := if b then 1 else 0

/-- A two's-complement number of `w` bits. -/
def signed (w v : Nat) : Int := if v % 2 ^ w < 2 ^ (w - 1) then (v % 2 ^ w : Nat) else (v % 2 ^ w : Nat) - (2 ^ w : Nat)

/-- The `w`-bit two's-complement form of an integer. -/
def unsignedOf (w : Nat) (i : Int) : Nat := (i % (2 ^ w : Nat)).toNat

/-- `a / b` rounded up; 0 when `b` is 0. -/
def ceilDiv (a b : Nat) : Nat := if b = 0 then 0 else (a + b - 1) / b

end Sys2Proof.Machine
end

