-- ==== Sys2Proof/Syntax.lean ====
section
/-!
DEFINITION. The commands of the FY8640: one constructor of `Instr` for each row of the opcode table, with what the command
carries.  A command of the tract format R28 carries its 128-bit layout as `TcCmd` (CLASS and SUBOP are the constructor's);
a command that stands for an access, an event on a pin, or the end of something carries what the outside or the analogue
world contributes to it: addresses, data, measured values, detected errors and the outcomes of physical checks.  An operand
named `at_` is the device time, in nanoseconds, at which the event takes place.
An operand `obs` is what the accesses of the command meet, and `ur` what those to the Unified Range meet where the command
names them apart; the default of an operand is the plain form, which meets nothing.
-/
namespace Sys2Proof

/-- What a check of stored data found at one place (R92, R93, R127): a corrected single-bit error, an uncorrectable error,
a seal that still mismatches after the one retry, or a Sheaf stream that the decoder rejects. -/
inductive ErrKind where
  | corrected | uncorrectable | sealMismatch | stream
deriving DecidableEq, Repr

/-- One error met by a command: in grain `grain` of Bin `bin`, or in grain `grain` of the Unified Range. -/
inductive Obs where
  | bin (bin grain : Nat) (kind : ErrKind)
  | ur (grain : Nat) (kind : ErrKind)
deriving DecidableEq, Repr

/-- The fields of a tract command (R28) but for CLASS and SUBOP. -/
structure TcCmd where
  hgen : Nat
  pb : Nat
  pa : Nat
  opc : Nat
  opb : Nat
  opa : Nat
  tag : Nat
  ser : Bool
  fur : Bool
  fin : Bool
  acc : Bool
  haux : Nat
  hdst : Nat
  outfmt : Nat
deriving DecidableEq, Repr

/-- A Crier frame as it arrives (R352, R353), its OP apart, which the command gives: the transport (0 UDP, 1 raw Ethernet, 2 a frame of
the cascade's master), the sender's addresses, a broadcast destination, and the fields of the frame. -/
structure CrierFrame where
  transport : Nat
  ip : Nat
  mac : Nat
  port : Nat
  broadcast : Bool
  magic : Nat
  flags : Nat
  session : Nat
  len : Nat
  seq : Nat
  ctr : Nat
  payload : List Byte
  tag : List Byte
  crc : Nat
deriving DecidableEq, Repr

/-- How an operation on an object comes: GO on a channel of the window, with the LAST bit and the world of the writer (R343), or a Crier
frame. -/
inductive Via where
  | window (channel : Nat) (last secure : Bool)
  | frame (f : CrierFrame)
deriving DecidableEq, Repr

/-- A command of the FY8640: one constructor for each row of the opcode table. -/
inductive Instr where
  /-- GEMM SUBOP 0x00 multiplies A by B into output tiles on one core or splits columns across a furrow, draining
  each tile to OPC (R35). -/
  | gemmNSplit (core : Nat) (cmd : TcCmd) (obs : List Obs)
  /-- GEMM SUBOP 0x01 in a furrow splits the K positions across members and sums the partial tiles through the
  furrow queues (R39). -/
  | gemmKSplit (core : Nat) (cmd : TcCmd) (obs : List Obs)
  /-- GEMM SUBOP 0x02 multiplies with a transposed B operand (R463). -/
  | gemmBTransposed (core : Nat) (cmd : TcCmd) (obs : List Obs)
  /-- CONV SUBOP 0x00 runs a dense or wide-grouped convolution as a GEMM whose A operand the Walker assembles from
  a window record (R193). -/
  | convDense (core : Nat) (cmd : TcCmd) (obs : List Obs)
  /-- CONV SUBOP 0x01 runs a depth-wise or narrow grouped convolution on the eight diagonal 8 x 8 blocks of the
  array (R195). -/
  | convDiagonal (core : Nat) (cmd : TcCmd) (obs : List Obs)
  /-- ATTN SUBOP 0x00 computes online-softmax attention over a page list, with optional row statistics (R152). -/
  | attnForward (core : Nat) (cmd : TcCmd) (ur obs : List Obs)
  /-- ATTN SUBOP 0x01 recomputes the scores from the statistics and writes dQ, dK and dV (R159). -/
  | attnBackward (core : Nat) (cmd : TcCmd) (ur obs : List Obs)
  /-- SCAN SUBOP 0x00 advances a diagonal state plane by L steps with a parallel prefix scan (R178). -/
  | scanDiagonal (core : Nat) (cmd : TcCmd) (obs : List Obs)
  /-- SCAN SUBOP 0x01 advances a 64 x 64 matrix-valued state by a chunk of L steps (R180). -/
  | scanMatrixValued (core : Nat) (cmd : TcCmd) (obs : List Obs)
  /-- SCAN SUBOP 0x02 advances a diagonal state one step at a time in the vector engine (R178). -/
  | scanStep (core : Nat) (cmd : TcCmd) (obs : List Obs)
  /-- VEC SUBOP 0x00 copies elements with format conversion (R59). -/
  | vecCopy (core : Nat) (cmd : TcCmd) (obs : List Obs)
  /-- VEC SUBOP 0x01 adds element-wise, optionally with a broadcast constant (R29). -/
  | vecAdd (core : Nat) (cmd : TcCmd) (obs : List Obs)
  /-- VEC SUBOP 0x02 multiplies element-wise, optionally with a broadcast constant (R29). -/
  | vecMultiply (core : Nat) (cmd : TcCmd) (obs : List Obs)
  /-- VEC SUBOP 0x03 performs a fused multiply-add with the third operand at OPC (R29). -/
  | vecFusedMultiplyAdd (core : Nat) (cmd : TcCmd) (obs : List Obs)
  /-- VEC SUBOP 0x04 takes the element-wise maximum, with NaN propagated (R60). -/
  | vecMaximum (core : Nat) (cmd : TcCmd) (obs : List Obs)
  /-- VEC SUBOP 0x05 takes the element-wise minimum, with NaN propagated (R60). -/
  | vecMinimum (core : Nat) (cmd : TcCmd) (obs : List Obs)
  /-- VEC SUBOP 0x06 computes exp within 2 ulp (R60). -/
  | vecExp (core : Nat) (cmd : TcCmd) (obs : List Obs)
  /-- VEC SUBOP 0x07 computes log within 2 ulp (R60). -/
  | vecLog (core : Nat) (cmd : TcCmd) (obs : List Obs)
  /-- VEC SUBOP 0x08 computes the reciprocal within 1 ulp (R60). -/
  | vecReciprocal (core : Nat) (cmd : TcCmd) (obs : List Obs)
  /-- VEC SUBOP 0x09 computes the sigmoid (R60). -/
  | vecSigmoid (core : Nat) (cmd : TcCmd) (obs : List Obs)
  /-- VEC SUBOP 0x0A computes tanh (R60). -/
  | vecTanh (core : Nat) (cmd : TcCmd) (obs : List Obs)
  /-- VEC SUBOP 0x0B computes SiLU (R60). -/
  | vecSilu (core : Nat) (cmd : TcCmd) (obs : List Obs)
  /-- VEC SUBOP 0x0C computes the exact-form GELU (R60). -/
  | vecGelu (core : Nat) (cmd : TcCmd) (obs : List Obs)
  /-- VEC SUBOP 0x0D sums along D0 with a pairwise tree in 64-element groups (R60). -/
  | vecSumAlongD0 (core : Nat) (cmd : TcCmd) (obs : List Obs)
  /-- VEC SUBOP 0x0E takes the maximum along D0 (R60). -/
  | vecMaximumAlongD0 (core : Nat) (cmd : TcCmd) (obs : List Obs)
  /-- VEC SUBOP 0x0F requantises with the scale vector of OPC by the drain steps (R58). -/
  | vecRequantise (core : Nat) (cmd : TcCmd) (obs : List Obs)
  /-- POOL SUBOP 0x00 takes the maximum real value over each window (R197). -/
  | poolMax (core : Nat) (cmd : TcCmd) (obs : List Obs)
  /-- POOL SUBOP 0x01 averages over each window, with or without the padding positions (R197). -/
  | poolAverage (core : Nat) (cmd : TcCmd) (obs : List Obs)
  /-- DMA SUBOP 0x00 moves grains from the Unified Range into a Bin as tier requests and counts them in a tally
  (R464). -/
  | dmaUnifiedRangeToBin (core : Nat) (cmd : TcCmd) (ur obs : List Obs)
  /-- DMA SUBOP 0x01 moves grains from a Bin to the Unified Range (R464). -/
  | dmaBinToUnifiedRange (core : Nat) (cmd : TcCmd) (ur obs : List Obs)
  /-- DMA SUBOP 0x02 copies grains between Bins and raises a tally at the destination (R464). -/
  | dmaBinToBin (core : Nat) (cmd : TcCmd) (obs : List Obs)
  /-- DMA SUBOP 0x03 sends grains over the Hedgeline into a gate of another device (R378). -/
  | dmaBinToRemoteGate (core : Nat) (cmd : TcCmd) (obs : List Obs)
  /-- WAIT_TALLY holds issue until its tally reaches the target, then subtracts the target (R102). -/
  | waitTally (core : Nat) (cmd : TcCmd)
  /-- SCALE SUBOP 0x00 derives per-row scales from the row maxima of a full-precision source (R61). -/
  | scalePerRowAbsoluteMaximum (core : Nat) (cmd : TcCmd) (obs : List Obs)
  /-- SCALE SUBOP 0x01 loads FP32 scale values into a scale vector (R61). -/
  | scaleLoad (core : Nat) (cmd : TcCmd) (obs : List Obs)
  /-- SCALE SUBOP 0x02 grows, shrinks or clamps each row scale from the statistics of the last step (R62). -/
  | scaleAdapt (core : Nat) (cmd : TcCmd) (obs : List Obs)
  /-- SPILL SUBOP 0x00 seals a WORK hearth plane and writes it to a spill slot (R462). -/
  | spillOut (core : Nat) (cmd : TcCmd) (obs : List Obs)
  /-- SPILL SUBOP 0x01 reads and verifies a spill slot and writes it into a hearth (R462). -/
  | spillIn (core : Nat) (cmd : TcCmd) (obs : List Obs)
  /-- A STILE command marks a pre-emption point at which the Rota decides whether the job continues (R225). -/
  | stilePoint (core : Nat) (at_ : Nat) (cmd : TcCmd) (obs : List Obs := [])
  /-- An issued command finishes its last write, frees its scoreboard entries and may complete its job (R30). -/
  | commandComplete (core tag : Nat) (last : Bool) (at_ : Nat)
  /-- The timeout of a WAIT_TALLY expires and ends the job FAILED_DATA with TALLY_TIMEOUT (R102). -/
  | waitTallyTimeout (core : Nat)
  /-- The last row of the wanted plane is written, the generation is set and the waiting command issues (R77). -/
  | hearthSwapInComplete (core hearth : Nat) (failed : Bool) (at_ : Nat)
  /-- The Granary acknowledges the last outgoing grain and the displaced lease becomes parked (R77). -/
  | hearthSwapOutComplete (core hearth : Nat)
  /-- A write of HEARTH_CFG.SPLIT changes the split mode, or is refused while leases would change kind (R69). -/
  | hearthCfgWrite (core split : Nat) (secure : Bool)
  /-- An access arrives at a Bin port and is served beat by beat in reserved or open slots, after the world check
  (R89). -/
  | binPortAccess (bin port init : Nat) (secure write : Bool) (off len : Nat) (data : List Byte) (tally : Option Nat) (obs : List Obs)
  /-- A corrected word is written back in the next unreserved slot (R92). -/
  | correctedWordWriteBack (bin : Nat)
  /-- A secure write of BIN_CTRL.INIT starts zeroing every row of the Bin (R95). -/
  | binInit (bin : Nat) (secure : Bool)
  /-- Zeroing of a Bin finishes and READY is set (R95). -/
  | binZeroingComplete (bin : Nat)
  /-- The scrub interval expires and the next row of every bank is read and checked (R96). -/
  | patrolScrub (bin : Nat) (obs : List Obs)
  /-- A write of the Bin slot map is accepted for the next slot 0, or refused and counted when it reserves more
  than 12 slots (R88). -/
  | slotMapWrite (bin word value : Nat) (secure : Bool)
  /-- BIN_REPAIR.GO copies a row to a spare and remaps it (R106). -/
  | binRepair (bin bank row : Nat) (secure : Bool)
  /-- The Reeve repairs a row after an uncorrectable error or after its correctable count reaches ROW_CE_LIMIT,
  and appends a field record (R106). -/
  | fieldRowRepair (bin bank row : Nat)
  /-- Writing 1 to OPEN moves a CLOSED gate to OPEN, or sets OPENFAIL (R99). -/
  | gateOpen (bin gate : Nat) (secure : Bool)
  /-- Writing 0 to OPEN moves an OPEN gate to CLOSING (R99). -/
  | gateClose (bin gate : Nat) (secure : Bool)
  /-- A Hedgeline grain arriving at a gate is checked, written, verified and counted, or rejected with a code
  (R100). -/
  | gateArrival (bin gate off tally sender : Nat) (data : List Byte) (sealWord : Word)
  /-- A write of BIN_TALLY sets the tally to the value written (R101). -/
  | tallyWrite (bin tally value : Nat) (secure : Bool)
  /-- An access to the Unified Range looks up the Granary set and is served from a frame or from the page's DRAM
  home (R115). -/
  | unifiedRangeAccess (init : Nat) (secure write : Bool) (off len : Nat) (data : List Byte) (obs : List Obs)
  /-- A page fill into a Granary frame completes and waiting accesses proceed (R119). -/
  | granaryFillComplete (quarter : Nat) (cause : Option Nat)
  /-- A write-back of a dirty frame to its home completes, with Sheaf encoding where allowed (R119). -/
  | granaryWriteBackComplete (quarter : Nat) (failed : Bool)
  /-- Every MIG_DECAY all candidate counts and directory ACC fields are halved (R117). -/
  | migrationDecay (at_ : Nat)
  /-- UR_PIN with OP = 0 fills a run of pages into the quota and pins them (R116). -/
  | urPin (page quota count : Nat) (secure : Bool)
  /-- UR_PIN with OP = 1 releases the pins of a run of pages (R116). -/
  | urUnpin (page quota count : Nat) (secure : Bool)
  /-- A write of a quota mask is accepted, or refused when it gives a way group to a second quota (R114). -/
  | urQuotaWrite (quota ways : Nat) (secure : Bool)
  /-- A secure write of a page-state entry sets SHEAF or clears Q (R128). -/
  | urPstateWrite (page : Nat) (q sheaf secure : Bool)
  /-- D of a tier request passes with the request unfinished, and the job switches to its fallback (R125). -/
  | deadlineExpiry (core slot : Nat) (at_ : Nat)
  /-- When no command of a switched job is in flight, the fallback tract starts at its entry with the progress
  word (R126). -/
  | fallbackStart (core : Nat)
  /-- The last resident page of a retiring quarter has been written back and the quarter becomes OUT (R129). -/
  | quarterRetireComplete (quarter : Nat)
  /-- A quarter loses power good, its clock fails or it stops answering, and it becomes OUT at once (R129). -/
  | quarterLoss (quarter : Nat)
  /-- A request arrives at a DRAM controller port and takes its starting urgency (R138). -/
  | dramRequest (port off : Nat) (write : Bool) (deadline : Option Nat) (at_ : Nat)
  /-- A DRAM request is served and counted in LATE_REQ if it finished after its port's target (R139). -/
  | dramRequestComplete (channel : Nat) (ce ue : Bool) (at_ : Nat)
  /-- The tREFI interval of a bank expires and a per-bank refresh is due (R140). -/
  | perBankRefresh (channel rank bank : Nat)
  /-- Every 16 ms the controller reads MR4 and rescales refresh (R140). -/
  | mr4Read (channel multiplier : Nat) (hot : Bool)
  /-- Every ACT_WINDOW the activate-count tables are cleared (R141). -/
  | actWindowClear
  /-- Boot training of a quad completes, or a failing channel is retrained or fails start-up (R143). -/
  | dramTrainingComplete (quad : Nat) (failed : Option Nat) (rfm : Nat := 0)
  /-- Every RETRAIN_MS each channel reads its oscillator and updates its delays if they have drifted (R144). -/
  | periodicRetrain (channel drift : Nat) (at_ : Nat)
  /-- A delay update that has waited 50 ms runs at the next command slot (R144). -/
  | forcedRetrainUpdate (channel : Nat) (at_ : Nat)
  /-- After 1 us without requests the memory enters power-down (R145). -/
  | dramPowerDown (at_ : Nat)
  /-- A write of an interleave region is accepted, or refused with CFGERR (R133). -/
  | mcRegionWrite (n word value : Nat) (secure : Bool)
  /-- LG_CMD OPEN allocates the lowest free record of a bank and returns its handle (R167). -/
  | ledgerOpen (type part handle a0 a1 a2 : Nat) (secure : Bool) (obs : List Obs := [])
  /-- LG_CMD CLOSE frees a record and its dependants (R167). -/
  | ledgerClose (handle : Nat) (secure : Bool) (obs : List Obs := [])
  /-- LG_CMD TRUNCATE lowers a KV sequence's LEN and its page counts (R167). -/
  | ledgerTruncate (handle len : Nat) (secure : Bool) (obs : List Obs := [])
  /-- LG_CMD READ returns the 64 B record in LG_DATA (R167). -/
  | ledgerRead (handle : Nat) (secure : Bool)
  /-- A write of SV_LEASE names a new holder, taking effect when the running call completes (R198). -/
  | svLeaseWrite (part : Nat) (en secure : Bool)
  /-- A host write of SV_DOORBELL adds to the Sieve start tally (R199). -/
  | svDoorbell (add : Nat) (secure : Bool)
  /-- The Sieve takes a DECODE call from its ring and decodes, thresholds and suppresses boxes (R203). -/
  | sieveDecode (obs : List Obs)
  /-- The Sieve takes a CROP call from its ring and resamples each box into the output area (R205). -/
  | sieveCrop (obs : List Obs)
  /-- A Sieve call writes its header grain last and raises DONE for the full grain count (R206). -/
  | sieveCallComplete
  /-- A write of PART_APPLY or RT_CTRL.APPLY checks and begins reconfiguring the affected partitions (R213). -/
  | partApply (secure : Bool)
  /-- After the running job has stopped and the furrow is powered, the partition is set and dispatch resumes
  (R213). -/
  | partitionApplyResume (part : Nat)
  /-- A write of RT_DB advances a submission ring's tail and fixes the submission times (R218). -/
  | submissionDoorbell (ring tail at_ : Nat) (secure : Bool)
  /-- A PERIODIC wheel slot reaches its release instant and releases the job at its ring's head (R223). -/
  | periodicRelease (part slot at_ : Nat)
  /-- The save of an outgoing job's live hearths and ranges completes and it is suspended (R228). -/
  | preEmptionSaveComplete (core : Nat) (at_ : Nat)
  /-- The restore of a resumed job completes and its next command issues (R229). -/
  | switchRestoreComplete (core : Nat) (failed : Bool) (at_ : Nat)
  /-- Software advances CQHEAD, freeing space so that a held completion record is written (R221). -/
  | cqheadWrite (ring value : Nat) (secure : Bool)
  /-- An abort by RT_ABORT or the Crier ABORT operation ends the named job WITHDRAWN with ABORTED (R230). -/
  | rotaAbort (via : Option Via) (ring index : Nat) (secure : Bool) (at_ : Nat)
  /-- A guarded network releases a job and places copies on the west and east cores of its active pair (R231). -/
  | guardedRelease (net at_ : Nat)
  /-- A self-test segment ends and is a decision point (R234). -/
  | selftestSegmentEnd (core : Nat) (badRows : List (Nat × Nat × Nat)) (badCores : List Nat) (at_ : Nat)
  /-- Writing EN = 1 of HP_FEEDn enables a feed, or refuses it with a RESULT (R251). -/
  | hpFeedEnable (feed : Nat) (secure : Bool)
  /-- Writing EN = 0 of HP_FEEDn stops the feed and abandons unpublished batches (R250). -/
  | hpFeedDisable (feed : Nat) (secure : Bool)
  /-- The host writes a new sample-ring tail to HP_DB, or it is ignored when it overruns the ring (R240). -/
  | hpDoorbell (feed tail : Nat) (secure : Bool)
  /-- A Hopper lane takes the lowest eligible sample within the window (R244). -/
  | laneSampleStart (lane at_ : Nat)
  /-- A sample is prepared and written to its slot, or the slot is written VOID (R245). -/
  | sampleFinish (lane : Nat) (obs : List Obs) (at_ : Nat)
  /-- A sample's lane time reaches its budget and it is made VOID with cause SLOW (R248). -/
  | sampleBudgetExpiry (lane at_ : Nat)
  /-- A release by HP_RELEASE, or by a raised release tally, frees the oldest occupied batch buffer (R246). -/
  | hpRelease (feed add : Nat) (secure : Bool)
  /-- A frame-start packet is stamped and opens a frame on every stream of its sensor (R255). -/
  | csiFrameStart (link vc number hdr : Nat) (deskewed : Bool) (at_ : Nat)
  /-- A pixel line arrives, is checked and enters the ISP, or is marked, filled or dropped by link mode (R256). -/
  | csiLongPacket (link vc dt : Nat) (line : List Nat) (hdr : Nat) (crcBad : Bool) (overflow at_ : Nat)
  /-- A frame-end packet closes the frame and each stream writes its header grain (R262). -/
  | csiFrameEnd (link vc hdr at_ : Nat)
  /-- An accepted absent hot-plug level loses the sensor and truncates its open frames (R267). -/
  | cameraHotplugLoss (link at_ : Nat)
  /-- The link stays out of high-speed mode for LOSS_TIMEOUT during a frame and the sensor is lost (R267). -/
  | csiLossTimeout (link at_ : Nat)
  /-- No frame start arrives for 2 x PERIOD and the sensor is lost (R267). -/
  | frameStartTimeout (sensor at_ : Nat)
  /-- At each expected frame start of a lost sensor each stream writes a gap record (R268). -/
  | gapRecord (sensor at_ : Nat)
  /-- Writing EN = 1 of an output stream checks its configuration and enables it (R261). -/
  | osEnable (stream : Nat)
  /-- Writing EN = 0 of an output stream stops it after the current frame (R268). -/
  | osDisable (stream : Nat)
  /-- A release frees the oldest occupied buffer of an output stream (R263). -/
  | osRelease (stream add : Nat)
  /-- A new colour blob is written and applies from the sensor's next frame start (R258). -/
  | camColourWrite (sensor : Nat) (blob : List Byte)
  /-- A block of 128 samples is complete and written with its header, or skipped when its buffer is occupied
  (R276). -/
  | audioBlock (mics refs : List (List Int)) (refUnlocked : Bool) (stamp at_ : Nat)
  /-- Writing EN of AUD_STREAM starts or stops the aligned stream after its checks (R276). -/
  | audStreamEnable (en : Bool)
  /-- A raised RELEASE tally frees the oldest occupied audio buffer (R276). -/
  | audioRelease
  /-- Every 10 ms the voice-activity detector and, while voice is reported, the wake array score a frame (R278).
  -/
  | vadFrame (samples : List Int) (vad score at_ : Nat)
  /-- When the verify Bin is READY the Watch pushes the span into it (R281). -/
  | spanPush (at_ : Nat)
  /-- The span push finishes and the verdict window starts (R281). -/
  | spanPushComplete (at_ : Nat)
  /-- An ACCEPT written to WATCH_VERDICT opens the lock and publishes WAKE (R281). -/
  | watchVerdictAccept (at_ : Nat)
  /-- A REJECT written to WATCH_VERDICT zeroes the span and locks the pre-roll (R281). -/
  | watchVerdictReject
  /-- No verdict arrives within VERIFY_MS and the wake is rejected (R281). -/
  | verifyTimeout (at_ : Nat)
  /-- 10,000 ms after ACCEPT the lock moves from OPEN to ERASING (R280). -/
  | lockOpenExpiry (at_ : Nat)
  /-- The pre-roll has been overwritten with silence and the lock returns to LOCKED (R280). -/
  | erasingComplete
  /-- A WATCH_PULL pushes a recorded run of pre-roll samples into a Bin, or is refused (R282). -/
  | watchPull (bin base count tally start : Nat)
  /-- A write of WATCH_SPAN sets the verify Bin and tally, or is ignored while the lock is not LOCKED (R281). -/
  | watchSpanWrite (value : Nat) (secure : Bool)
  /-- MUTE_IN asserts, stopping the microphones, erasing the pre-roll, cancelling a wake and lighting PRIV_LED
  (R283). -/
  | muteAssert (at_ : Nat)
  /-- MUTE_IN has stayed low for 50 ms and the microphones restart (R289). -/
  | muteRelease (at_ : Nat)
  /-- The listening microphone is lost and the Watch moves to the next microphone in LISTEN_ORDER (R284). -/
  | listenMicLost (at_ : Nat)
  /-- A button level held for BTN_DEBOUNCE_MS is accepted as a press or release (R291). -/
  | buttonChange (button : Nat) (pressed : Bool) (edge at_ : Nat)
  /-- A press held for LONGPRESS_MS publishes BUTTON_LONG (R291). -/
  | buttonLong (button at_ : Nat)
  /-- BTN0 and BTN1 held 8,000 ms from the release of nPOR enter recovery (R292). -/
  | recoveryDecision (at_ : Nat)
  /-- Every TOUCH_PERIOD_MS each channel is measured and a touch or release is decided (R293). -/
  | touchScan (meas : List Nat) (at_ : Nat)
  /-- A hot-plug level held for HPD_DEBOUNCE_MS is accepted (R294). -/
  | hpdChange (input : Nat) (present : Bool) (edge at_ : Nat)
  /-- An accepted shutter level publishes SHUTTER_CLOSED or SHUTTER_OPEN (R295). -/
  | shutterChange (link : Nat) (closed : Bool) (edge at_ : Nat)
  /-- A write of DOOR_LEDn ramps the LED duty to its new value (R296). -/
  | doorLedWrite (led value at_ : Nat)
  /-- Both copies of a guarded frame have completed and the comparator starts reading both ranges (R305). -/
  | comparatorStart (net : Nat)
  /-- The comparator delivers or withholds the frame and writes the completion record (R307). -/
  | comparatorComplete (net : Nat) (obs : List Obs) (at_ : Nat)
  /-- WW_KICK with ARM = 1 arms a register-armed watchdog (R309). -/
  | wwKickArm (ww at_ : Nat)
  /-- WW_KICK with ARM = 0 kicks a register-armed watchdog, or is ignored for another ARM (R310). -/
  | wwKick (ww at_ : Nat)
  /-- No kick arrives by LIMIT and the watchdog faults MISSED (R310). -/
  | watchdogLimitExpiry (ww at_ : Nat)
  /-- Secure firmware writes 1 to a SAFE_FAULT bit, which clears unless its cause persists (R312). -/
  | safeFaultClear (mask : Nat) (secure : Bool)
  /-- SAFE_INJECT KIND 1 arms a disagreement in the next compare of a network (R317). -/
  | safeInjectCompare (net : Nat) (secure : Bool)
  /-- SAFE_INJECT KIND 2 arms an EARLY fault on the next kick of a watchdog (R317). -/
  | safeInjectWatchdog (ww : Nat) (secure : Bool)
  /-- A write of word 0 of BR_n checks a region change and starts zeroing any units that become non-secure (R323).
  -/
  | boundaryRegionWrite (n word : Nat) (secure : Bool)
  /-- Zeroing ends, HCACHE is invalidated and the new region setting applies (R323). -/
  | regionZeroingComplete (n : Nat)
  /-- A secure write of SEC_WMAP sets unit worlds, or is ignored while the unit is enabled (R320). -/
  | secWmapWrite (value : Nat) (secure : Bool)
  /-- SEC_KSLOT AGREE runs the link handshake with a peer and loads a link base (R327). -/
  | keySlotAgree (slot part src at_ : Nat) (secure : Bool)
  /-- SEC_KSLOT DERIVE sets a slot from a source slot, a label and a context (R327). -/
  | keySlotDerive (slot part src context : Nat) (secure : Bool)
  /-- SEC_KSLOT CLEAR zeroes a slot (R327). -/
  | keySlotClear (slot : Nat) (secure : Bool)
  /-- SEC_UNWRAP GO checks a model package and starts decrypting it into MODEL regions (R330). -/
  | secUnwrap (src dst : Nat) (secure : Bool)
  /-- An unwrap ends with its result, zeroing written pages on failure and erasing the content key (R330). -/
  | unwrapComplete (obs : List Obs) (at_ : Nat)
  /-- A write of ATTEST_NONCE starts signing a new attestation report (R331). -/
  | attestNonceWrite (nonce : List Byte)
  /-- The new report is signed and replaces the previous one (R331). -/
  | attestReportSigned (at_ : Nat)
  /-- Writes of SEC_MEAS set the MEAS5 digest once per boot, the sixteenth word committing it (R336). -/
  | secMeasWrite (index value : Nat) (secure : Bool)
  /-- At PD47 power-up the device root is formed, or after three failures start-up stops (R325). -/
  | deviceRootFormed (ok : Bool) (at_ : Nat)
  /-- A token written to the 1149.1 port is checked against the challenge and accepted or rejected (R334). -/
  | debugToken (level : Nat) (sig : List Byte)
  /-- After stopping unwraps and zeroing key slots and MODEL regions, debug unlocks at the token's level (R335).
  -/
  | debugUnlock
  /-- The Crier answers IDENTIFY with identity, digest and a fresh nonce (R355). -/
  | crierIdentify (frame : CrierFrame) (at_ : Nat)
  /-- A Crier OPEN opens an open or secure session, or is refused (R357). -/
  | crierOpen (frame : CrierFrame) (at_ : Nat)
  /-- A Crier CLOSE ends the session and releases its resources (R358). -/
  | crierClose (frame : CrierFrame) (at_ : Nat)
  /-- A READ through the window or the Crier returns an object's whole value after the access checks (R340). -/
  | objectRead (via : Via) (at_ : Nat)
  /-- A WRITE through the window or the Crier sets an object's value after the access checks (R340). -/
  | objectWrite (via : Via) (at_ : Nat)
  /-- READ_BLOCK returns sealed grains of a BLOB object with its VERSION (R361). -/
  | readBlock (via : Via) (at_ : Nat)
  /-- WRITE_BLOCK stages sealed grains of a BLOB and commits the object on LAST (R361). -/
  | writeBlock (via : Via) (at_ : Nat)
  /-- SUBSCRIBE adds, replaces or cancels a ring or object subscription (R360). -/
  | crierSubscribe (frame : CrierFrame) (at_ : Nat)
  /-- A subscription whose ring or object has changed sends a NOTIFY at most once per INTERVAL (R360). -/
  | crierNotify (session kind index sub at_ : Nat)
  /-- PULL returns up to COUNT ready records from FIRST, with REPEAT bits (R356). -/
  | crierPull (via : Via) (obs : List Obs) (at_ : Nat)
  /-- ACK raises a ring's RETIRED point (R349). -/
  | crierAck (via : Via) (at_ : Nat)
  /-- TIMEOUT passes without a valid frame and the session ends (R358). -/
  | sessionTimeout (session at_ : Nat)
  /-- A producer writes a sealed result record into its ring and advances NEXT_SEQ (R347). -/
  | resultPublish (core : Option Nat) (handle subject evidence cls flags code : Nat) (payload : List Byte) (at_ : Nat)
  /-- A write of SAVE queues a copy of the persistent objects of the caller's world to the flash (R342). -/
  | almanacSave (secure : Bool)
  /-- The SAVE record is written and becomes the ruling record (R342). -/
  | almanacSaveComplete (ok : Bool)
  /-- A write of RESTORE sets the persistent objects to their defaults and erases their saved values (R342). -/
  | almanacRestore (secure : Bool)
  /-- The device answers an ARP request for its IPv4 address (R352). -/
  | arpRequest (target senderIp senderMac : Nat)
  /-- The device answers an ICMP echo request (R352). -/
  | icmpEcho (target senderIp senderMac : Nat) (payload : List Byte)
  /-- A wake-up pulse on the Ethernet line latches wake source LINK (R365). -/
  | tc10RemoteWake (at_ : Nat)
  /-- An 802.1AS event message is timestamped and disciplines or sources the time base (R366). -/
  | gptpMessage (kind : Nat) (offset : Int) (delay at_ : Nat)
  /-- A Hedgeline port completes training and sends HELLO (R370). -/
  | hlPortUp (port width rate : Nat)
  /-- A port loses lane lock, sees no packet for 10 us or fails 16 replays and goes DOWN (R370). -/
  | hlPortDown (port : Nat)
  /-- Every 10 ms a DOWN port retrains (R370). -/
  | hlRetrain (port : Nat)
  /-- A HELLO from the partner is checked against the cascade wiring rules (R373). -/
  | hlHello (port id : Nat) (master : Bool) (digest : List Byte) (members : Nat) (ring : Bool)
  /-- A DATA packet addressed to the device is decrypted, checked and written into its gate, then REPLY is sent
  (R379). -/
  | hlData (port dst src lseq tally gate offset bin xfer ctr : Nat) (body : List Byte) (crcOk : Bool)
  /-- A REPLY for a sent grain is taken as ACCEPT, triggers a resend or ends the transfer (R378). -/
  | hlReply (port dst src lseq xfer offset code : Nat) (crcOk : Bool)
  /-- A LINKACK frees acknowledged packets from the hop's replay buffer (R372). -/
  | hlLinkack (port lseq : Nat)
  /-- An unacknowledged packet is replayed unchanged from the replay buffer (R372). -/
  | hlReplay (port lseq : Nat)
  /-- A grain without a REPLY after HL_REPLY_TIMEOUT ends the transfer with LINK_DOWN (R378). -/
  | hlReplyTimeout (xfer grain at_ : Nat)
  /-- Every 1 ms the master sends SYNC on each UP port (R375). -/
  | hlSyncSend (at_ : Nat)
  /-- A follower receives SYNC, aligns its time base and forwards it (R375). -/
  | hlSync (port src lseq stamp delay : Nat) (crcOk : Bool) (at_ : Nat)
  /-- No SYNC arrives for 10 ms and the follower runs free (R375). -/
  | hlSyncLoss (at_ : Nat)
  /-- A pulse on nHLWAKE wakes a follower with CASCADE, or the master when CASCADE_WAKE_ALL is set (R376). -/
  | nhlwakePulse (at_ : Nat)
  /-- A MGMT packet carries a forwarded Crier frame between the master and a follower (R380). -/
  | hlMgmt (fromNet : Bool) (port dst src lseq : Nat) (frame : List Byte) (crcOk : Bool)
  /-- Every 1 ms the governor reads the sensors and runs its loops in order (R387). -/
  | governorPeriod (temps : List (Option Int)) (pouts : List (Option Nat)) (status : List Nat) (vout : Nat) (margins ces ues : List Nat) (overrun : Bool) (at_ : Nat)
  /-- nPMB_ALERT makes the Reeve read and log STATUS_WORD (R386). -/
  | pmbusAlert
  /-- Every 100 ms, or at 256 entries, the log buffer is written to flash (R396). -/
  | logFlush (at_ : Nat)
  /-- UPD_CMD BEGIN opens an update's staging area for the named kind and length (R399). -/
  | updBegin (secure : Bool)
  /-- A write of UPD_DATA appends bytes to the staging area (R399). -/
  | updData (bytes : List Byte) (secure : Bool)
  /-- UPD_CMD FINISH ends RECEIVE and starts VERIFY (R399). -/
  | updFinish (secure : Bool)
  /-- UPD_CMD CANCEL ends the update and discards the staging (R399). -/
  | updCancel (secure : Bool)
  /-- UPD_CMD ACTIVATE requests a warm reset at once (R399). -/
  | updActivate (secure : Bool) (at_ : Nat)
  /-- Verification of the staged image completes and WRITE starts, or the update fails (R399). -/
  | updVerifyComplete (result : Nat)
  /-- The inactive slot is programmed and read back, and COMMIT starts (R399). -/
  | updWriteComplete (ok : Bool)
  /-- The trailer is programmed and the update ends OK (R399). -/
  | updCommitComplete (ok : Bool)
  /-- 4 us with no work in flight puts the device in IDLE (R407). -/
  | idleEntry (at_ : Nat)
  /-- The DOZE timer expires and the array domains switch off (R408). -/
  | dozeEntry (at_ : Nat)
  /-- REST_TIMER_S expires in DOZE and entry to REST starts (R409). -/
  | restEntry (at_ : Nat)
  /-- LISTEN_TIMER_S expires in REST and entry to LISTEN starts (R410). -/
  | listenEntry (refused : Bool) (at_ : Nat)
  /-- Entry to a state completes, and a wake latched during entry is replayed (R419). -/
  | stateEntryComplete (bad : List Nat) (at_ : Nat)
  /-- A resume completes, the device is ACTIVE and the wake latches clear (R411). -/
  | resumeComplete (at_ : Nat)
  /-- The time base reaches WAKE_ALARM and latches wake source ALARM (R417). -/
  | wakeAlarm (at_ : Nat)
  /-- The Ringer starts the domain at the head of its queue when the bucket holds its weight (R413). -/
  | domainStart (at_ : Nat)
  /-- A started domain reaches power good (R412). -/
  | domainPowerGood (domain at_ : Nat)
  /-- 1 ms after its Need condition ends, a domain switches off (R406). -/
  | domainSwitchOff (domain at_ : Nat)
  /-- REG_OK rises 50 us after the Watch regulator switches to full mode (R415). -/
  | regOk (at_ : Nat)
  /-- REG_OK has not risen after 200 us and the regulator returns to low-power mode (R415). -/
  | regOkTimeout (at_ : Nat)
  /-- Every 10 ms with the wake latched the regulator tries full mode again (R415). -/
  | regRetry (at_ : Nat)
  /-- The Watch regulator output drops and the Watch resets, losing the pre-roll and PD00 retention (R416). -/
  | brownOut (at_ : Nat)
  /-- A write of CLK_TCSEL GO starts a stop-switch-restart of a core's clock, or is refused (R426). -/
  | clkTcselSwitch (core src : Nat) (secure : Bool)
  /-- The core's clock restarts on its new source (R426). -/
  | tclkSwitchComplete
  /-- A PLL locks after enable or retune (R424). -/
  | pllLock (pll : Nat)
  /-- A clock monitor reports failure and the held outputs are forced at once (R431). -/
  | clockSourceFailure (source at_ : Nat)
  /-- Failed sources return within CLK_RETURN_MS and the Reeve requests a warm reset (R432). -/
  | clockSourceReturn (sources at_ : Nat)
  /-- CLK_RETURN_MS passes without a return and the device stays held (R432). -/
  | clkReturnTimeout (at_ : Nat)
  /-- A write of CLK_EN sets block enables, ignoring clears of blocks whose Need holds (R428). -/
  | clkEnWrite (value : Nat) (secure : Bool)
  /-- A reading of 105 C or more gates the core clocks at half duty until readings stay below 100 C for 1 ms
  (R454). -/
  | hardwareThrottle (highest : Int) (at_ : Nat)
  /-- A reading of 115 C for 10 us forces the outputs, asserts nFAULT and drops RAIL_EN (R454). -/
  | thermalTrip (reading : Int) (since at_ : Nat)
  /-- nPOR low holds the device in power-on reset (R436). -/
  | nporLow (at_ : Nat)
  /-- The release of nPOR samples the straps and starts the cold start (R441). -/
  | nporRelease (masterSel : Bool) (id buttons at_ : Nat)
  /-- nRST low starts a warm reset (R440). -/
  | nrstLow (at_ : Nat)
  /-- RST_CTRL.WARM written by the secure world starts a warm reset (R435). -/
  | rstCtrlWarm (secure : Bool) (at_ : Nat)
  /-- RST_CTRL.PGO resets one partition (R438). -/
  | rstCtrlPartition (part : Nat) (secure : Bool)
  /-- Selecting EXTEST on the 1149.1 port holds the device in warm reset (R334). -/
  | extestSelect (at_ : Nat)
  /-- MODEL regions are zeroed and dirty frames written back, DRAM enters self-refresh and the dies restart
  (R440). -/
  | warmResetZeroingComplete (bad : List Nat) (at_ : Nat)
  /-- Boot ROM has verified the configuration records and a Reeve slot, and the Reeve runs (R332). -/
  | bootRomVerifyComplete (slot version seq : Nat) (rejected : List Nat) (auth reeveMeas confMeas : List Byte) (peers : List Nat) (at_ : Nat)
  /-- The Reeve verifies the Watch image and wake model, or disables audio wake (R332). -/
  | watchImageVerified (ok : Bool) (modelId watchMeas modelMeas : List Byte) (watchVersion modelVersion at_ : Nat)
  /-- The host secure firmware is verified and HC0 to HC3 are released (R332). -/
  | hostFirmwareVerified (slot version wmap : Nat) (regions : List (List Nat)) (measurement : List Byte) (at_ : Nat)
  /-- Writing TC_CTRL.HALT stops issue at the next command boundary (R48). -/
  | tcCtrlHalt (core : Nat) (halt secure : Bool)
  /-- Writing 1 to VALID of a log register clears it so the next event is captured (R461). -/
  | logRegisterClear (which inst : Nat) (secure : Bool)
  /-- A write to a register without its own row updates its fields under its access and world codes (R8). -/
  | registerWrite (addr value : Nat) (secure : Bool) (read : Bool := false)
  /-- A command whose CLASS is 0xB to 0xF reaches issue and faults with code 0x01, ending its job WITHDRAWN (R29).
  -/
  | reservedClassCommand (core : Nat) (cmd : TcCmd)
  /-- A Crier frame or a window CH_CMD with an operation code outside the operations table is answered with BAD_OP
  (R343). -/
  | unknownOperation (op : Nat) (via : Via) (at_ : Nat)
  /-- A Hedgeline packet with a TYPE outside 0x01 to 0x06 is dropped and counted (R371). -/
  | hlUnknownPacket (port : Nat)
  /-- The release of nRST lets the warm reset's start-up resume (R436). -/
  | nrstRelease (at_ : Nat)
  /-- Leaving EXTEST on the 1149.1 port releases the warm reset held while EXTEST was selected (R435). -/
  | extestDeselect (at_ : Nat)
  /-- An overload of the Watch regulator in full mode makes it limit its current, and the device takes a power-on
  reset, CAUSE 2 (R416). -/
  | watchRegulatorOverload (at_ : Nat)
  /-- VDD_AON_IN leaves its range and the device enters OFF, losing PD00 and all retained state (R407). -/
  | vddAonInRemoved (at_ : Nat)
  /-- The AGREE link handshake with the peer ends, loading the link base or ending with RESULT HANDSHAKE when the
  peer has not run AGREE within 100 ms (R377). -/
  | agreeHandshakeEnd (key : List Byte) (fixed : Nat) (ok : Bool) (at_ : Nat)
deriving DecidableEq, Repr

end Sys2Proof
end

