-- ==== Sys2Proof/Decode.lean ====
section
/-!
DEFINITION. The words of the commands.  No row of the opcode table gives bits: a command reaches the block as an access, an event or a
tract command, and no word of the table spells one.  Tract commands have the 128-bit layout of R28 with the CLASS and SUBOP codes
of R29; it is given here in both directions, for statements about it.
-/
namespace Sys2Proof

/-- The command that a word spells by the table's bits: none, as no row gives bits. -/
def decodeTableWord (_nbits _w : Nat) : Option Instr := none

/-! ## The layout of R28 -/

/-- The four words of a command as one number, its CLASS and SUBOP given apart (R28). -/
def TcCmd.word (c : TcCmd) (cls sub : Nat) : Nat :=
  cls + sub * 2 ^ 4 + c.outfmt * 2 ^ 12 + c.hdst * 2 ^ 16 + c.haux * 2 ^ 18 + Machine.b2n c.acc * 2 ^ 20 + Machine.b2n c.fin * 2 ^ 21 +
    Machine.b2n c.fur * 2 ^ 22 + Machine.b2n c.ser * 2 ^ 23 + c.tag * 2 ^ 24 + c.opa * 2 ^ 32 + c.opb * 2 ^ 42 + c.opc * 2 ^ 52 +
    c.pa * 2 ^ 64 + c.pb * 2 ^ 96 + c.hgen * 2 ^ 116

/-- The fields of a command (R28). -/
def TcCmd.ofWord (w : Nat) : TcCmd where
  hgen := Machine.bits w 127 116
  pb := Machine.bits w 115 96
  pa := Machine.bits w 95 64
  opc := Machine.bits w 61 52
  opb := Machine.bits w 51 42
  opa := Machine.bits w 41 32
  tag := Machine.bits w 31 24
  ser := Machine.bit w 23
  fur := Machine.bit w 22
  fin := Machine.bit w 21
  acc := Machine.bit w 20
  haux := Machine.bits w 19 18
  hdst := Machine.bits w 17 16
  outfmt := Machine.bits w 15 12

/-! ## The codes of R29 -/

/-- The CLASS, SUBOP and fields of a tract command; a command of the reserved classes has no code of its own. -/
def Instr.tract (i : Instr) : Option (Nat × Nat × TcCmd) :=
  match i with
  | .gemmNSplit _ c _ => some (0, 0, c)
  | .gemmKSplit _ c _ => some (0, 1, c)
  | .gemmBTransposed _ c _ => some (0, 2, c)
  | .convDense _ c _ => some (1, 0, c)
  | .convDiagonal _ c _ => some (1, 1, c)
  | .attnForward _ c _ _ => some (2, 0, c)
  | .attnBackward _ c _ _ => some (2, 1, c)
  | .scanDiagonal _ c _ => some (3, 0, c)
  | .scanMatrixValued _ c _ => some (3, 1, c)
  | .scanStep _ c _ => some (3, 2, c)
  | .vecCopy _ c _ => some (4, 0, c)
  | .vecAdd _ c _ => some (4, 1, c)
  | .vecMultiply _ c _ => some (4, 2, c)
  | .vecFusedMultiplyAdd _ c _ => some (4, 3, c)
  | .vecMaximum _ c _ => some (4, 4, c)
  | .vecMinimum _ c _ => some (4, 5, c)
  | .vecExp _ c _ => some (4, 6, c)
  | .vecLog _ c _ => some (4, 7, c)
  | .vecReciprocal _ c _ => some (4, 8, c)
  | .vecSigmoid _ c _ => some (4, 9, c)
  | .vecTanh _ c _ => some (4, 10, c)
  | .vecSilu _ c _ => some (4, 11, c)
  | .vecGelu _ c _ => some (4, 12, c)
  | .vecSumAlongD0 _ c _ => some (4, 13, c)
  | .vecMaximumAlongD0 _ c _ => some (4, 14, c)
  | .vecRequantise _ c _ => some (4, 15, c)
  | .poolMax _ c _ => some (5, 0, c)
  | .poolAverage _ c _ => some (5, 1, c)
  | .dmaUnifiedRangeToBin _ c _ _ => some (6, 0, c)
  | .dmaBinToUnifiedRange _ c _ _ => some (6, 1, c)
  | .dmaBinToBin _ c _ => some (6, 2, c)
  | .dmaBinToRemoteGate _ c _ => some (6, 3, c)
  | .waitTally _ c => some (7, 0, c)
  | .scalePerRowAbsoluteMaximum _ c _ => some (8, 0, c)
  | .scaleLoad _ c _ => some (8, 1, c)
  | .scaleAdapt _ c _ => some (8, 2, c)
  | .spillOut _ c _ => some (9, 0, c)
  | .spillIn _ c _ => some (9, 1, c)
  | .stilePoint _ _ c _ => some (10, 0, c)
  | _ => none

/-- The command of a CLASS and a SUBOP, on a core: `time`, `ur` and `obs` are what its arrival adds (the instant of a STILE, and the errors that it
will meet).  CLASS 0xB to 0xF, and a SUBOP that the table does not list, are illegal. -/
def Instr.ofCode (cls sub core time : Nat) (ur obs : List Obs) (c : TcCmd) : Instr :=
  match cls, sub with
  | 0, 0 => .gemmNSplit core c obs
  | 0, 1 => .gemmKSplit core c obs
  | 0, 2 => .gemmBTransposed core c obs
  | 1, 0 => .convDense core c obs
  | 1, 1 => .convDiagonal core c obs
  | 2, 0 => .attnForward core c ur obs
  | 2, 1 => .attnBackward core c ur obs
  | 3, 0 => .scanDiagonal core c obs
  | 3, 1 => .scanMatrixValued core c obs
  | 3, 2 => .scanStep core c obs
  | 4, 0 => .vecCopy core c obs
  | 4, 1 => .vecAdd core c obs
  | 4, 2 => .vecMultiply core c obs
  | 4, 3 => .vecFusedMultiplyAdd core c obs
  | 4, 4 => .vecMaximum core c obs
  | 4, 5 => .vecMinimum core c obs
  | 4, 6 => .vecExp core c obs
  | 4, 7 => .vecLog core c obs
  | 4, 8 => .vecReciprocal core c obs
  | 4, 9 => .vecSigmoid core c obs
  | 4, 10 => .vecTanh core c obs
  | 4, 11 => .vecSilu core c obs
  | 4, 12 => .vecGelu core c obs
  | 4, 13 => .vecSumAlongD0 core c obs
  | 4, 14 => .vecMaximumAlongD0 core c obs
  | 4, 15 => .vecRequantise core c obs
  | 5, 0 => .poolMax core c obs
  | 5, 1 => .poolAverage core c obs
  | 6, 0 => .dmaUnifiedRangeToBin core c ur obs
  | 6, 1 => .dmaBinToUnifiedRange core c ur obs
  | 6, 2 => .dmaBinToBin core c obs
  | 6, 3 => .dmaBinToRemoteGate core c obs
  | 7, 0 => .waitTally core c
  | 8, 0 => .scalePerRowAbsoluteMaximum core c obs
  | 8, 1 => .scaleLoad core c obs
  | 8, 2 => .scaleAdapt core c obs
  | 9, 0 => .spillOut core c obs
  | 9, 1 => .spillIn core c obs
  | 10, 0 => .stilePoint core time c obs
  | _, _ => .reservedClassCommand core c

/-- The 128-bit word of a tract command. -/
def Instr.tractWord (i : Instr) : Option Nat := i.tract.map (fun x => x.2.2.word x.1 x.2.1)

/-- The tract command that a 128-bit word is on a core. -/
def Instr.ofTractWord (core time : Nat) (ur obs : List Obs) (w : Nat) : Instr :=
  Instr.ofCode (Machine.bits w 3 0) (Machine.bits w 11 4) core time ur obs (TcCmd.ofWord w)

end Sys2Proof
end

