-- ==== Sys2Proof/Config.lean ====
section
/-!
DEFINITION. What the spec leaves open: the free values, as opaque constants that nothing can evaluate, and the functions
whose result the spec bounds or names but does not fix (the special functions of R60, the cryptography of spec/17, the
decoders of spec/12 and spec/13).  A statement about one of them holds for every value it may have.
-/
namespace Sys2Proof

/-- A fresh free word; the argument is the counter `free` of the state. -/
opaque Config.freeWord : Nat → Word

/-- A fresh free number. -/
opaque Config.freeNat : Nat → Nat

/-- A fresh free byte: the argument is the counter of the state and the place in the run. -/
opaque Config.freeByte : Nat → Nat → Byte

/-- The CODE that the event log shows for a tag whose number the spec does not give (R395 gives its class only). -/
opaque Config.logCode : Nat → Nat

/-- The result that the exp unit offers for an FP32 value (R60); every core returns the same bits.  The bounds of R60 are put on it, and
on those of the other units below, in Machine/Special.lean. -/
opaque Config.expFn : Word → Word

/-- log of an FP32 value (R60). -/
opaque Config.logFn : Word → Word

/-- The reciprocal of an FP32 value (R60). -/
opaque Config.recipFn : Word → Word

/-- The sigmoid of an FP32 value (R60). -/
opaque Config.sigmoidFn : Word → Word

/-- tanh of an FP32 value (R60). -/
opaque Config.tanhFn : Word → Word

/-- SiLU of an FP32 value (R60). -/
opaque Config.siluFn : Word → Word

/-- The exact-form GELU of an FP32 value (R60). -/
opaque Config.geluFn : Word → Word

/-- The fixed order in which double-word arithmetic adds its three low parts (R179): which of them comes last. -/
opaque Config.lowOrder : Fin 3

/-- The order in which the Sieve's bilinear interpolation takes its steps (R205): across then down, down then across, or the
weighted sum of the four neighbours. -/
opaque Config.bilinearOrder : Fin 3

/-- A self-test segment of a core takes its turn (R234), which the spec leaves to the Rota until half of the core's maximum
interval has passed: the core, and the time since its last full pass. -/
opaque Config.segmentDue : Nat → Nat → Bool

/-- Huffman and DCT decoding of a baseline JPEG (R241), which the spec takes from the JPEG standard: whether the entropy-coded data of
a stream whose headers meet the limits decodes; and the FP32 value, from 0 to 255, of component 0 (Y), 1 (Cb) or 2 (Cr) at a column and a
row, the chroma of 4:2:2 and 4:2:0 brought to full size. -/
opaque Config.jpegDecodes : List Byte → Bool
opaque Config.jpegSample : List Byte → Nat → Nat → Nat → Word

/-! What R258 to R260 leave open of the image pipeline.  The layout of the colour blob is among it: a function of a blob gives what the blob
holds. -/

/-- The scaling to 16 bits of a code above the black level, from the data type and the black level. -/
opaque Config.blackScale : Nat → Nat → Nat → Nat

/-- The same-colour neighbours of a pixel that defect correction compares, as offsets, from the mosaic, the phase, the row and the column; the
threshold of a blob; and the median of an even number of values, from the two in the middle. -/
opaque Config.sameColour : Nat → Nat → Nat → Nat → List (Int × Int)
opaque Config.blobThreshold : List Byte → Nat
opaque Config.evenMedian : Nat → Nat → Nat

/-- The colour (0 R, 1 G, 2 B, 4 W) at a row and a column of the 4 × 4 mosaic 4 of R259. -/
opaque Config.rgbwAt : Nat → Nat → Nat

/-- The white-balance gain of a colour in a blob, and its lens shading there, bilinear from the grid of 17 × 17, in an image of a width and a
height at a row and a column. -/
opaque Config.blobGain : List Byte → Nat → Word
opaque Config.blobShade : List Byte → Nat → Nat → Nat → Nat → Nat → Word

/-- Edge-directed interpolation: a mosaic and its phase, the pixels, and a channel, a row and a column. -/
opaque Config.demosaic : Nat → Nat → List (List Nat) → Nat → Nat → Nat → Nat

/-- The colour matrix of a blob, the order of the three products' sum, and its tone curve. -/
opaque Config.blobMatrix : List Byte → Nat → Nat → Word
opaque Config.matrixOrder : Fin 3
opaque Config.blobTone : List Byte → Word → Byte

/-- The luma of a pixel for PLANE 1, from its three channels; and IR_est where the mosaic has no I pixel. -/
opaque Config.lumaOf : Byte → Byte → Byte → Byte
opaque Config.noIr : List (List Nat) → Nat → Nat → Nat

/-- The statistics page of a frame (R258), from the sensor's settings, its blob and its pixels after gains and shading. -/
opaque Config.ispStats : List Nat → List Byte → List (List Nat) → List Byte

/-- NV12 by MATRIX and RANGE (R261): Y of a pixel from its R, G and B, and Cb and Cr of a 2 × 2 block from its twelve values. -/
opaque Config.nv12Y : Nat → Nat → Word → Word → Word → Byte
opaque Config.nv12C : Nat → Nat → List Word → Byte × Byte

/-- The fractional-delay filter of R273: a TRIM, the stamp of a block (for the samples before it, which the filter reads too), its samples, and
the place of an output sample. -/
opaque Config.fracDelay : Nat → Nat → List Int → Nat → Int

/-- What the pre-roll's codec (R279) gives back for a sample, from the samples before it in its block. -/
opaque Config.prerollCodec : List Int → Int → Int

/-- The next baseline of a touch channel (R293) from its baseline, the measurement and the scan period in ms: it follows slow
drift with a time constant of 2 s. -/
opaque Config.baselineStep : Nat → Nat → Nat → Nat

/-- SHAKE256 of bytes, to a number of bytes (R326). -/
opaque Config.shake256 : List Byte → Nat → List Byte

/-- A signature by a key of the device over bytes (R326, R331); the first argument tells the keys apart. -/
opaque Config.sign : Nat → List Byte → List Byte

/-- A signature is good (R330, R334, R354): a kind (0 a package signer, 1 a debug-token key, 256 and above a Crier controller key), the AUTH
record that lists the signers, the bytes signed, and the signature.  Controller key n of the record is kind 256 + n. -/
opaque Config.signedBy : Nat → List Byte → List Byte → List Byte → Bool

/-- The key that an X448 agreement of the device gives with an ephemeral public key (R329). -/
opaque Config.kek : List Byte → List Byte

/-- The label of DERIVE (R327) as bytes. -/
opaque Config.deriveLabel : List Byte

/-- AES-256-GCM: key, nonce, additional data and plaintext give the ciphertext with its tag. -/
opaque Config.gcmSeal : List Byte → List Byte → List Byte → List Byte → List Byte

/-- Opening what `gcmSeal` makes: key, nonce, additional data and ciphertext with its tag give the plaintext, or nothing when
the tag fails. -/
opaque Config.gcmOpen : List Byte → List Byte → List Byte → List Byte → Option (List Byte)

/-- An ephemeral X448 key of the device, told apart by a free value's place (R357): its public key, and the secret it shares with the
holder of another public key. -/
opaque Config.ephemeral : Nat → List Byte
opaque Config.sharedSecret : Nat → List Byte → List Byte

/-- The transcript of an OPEN (R357), from the NONCE, the request's payload and the device's public key. -/
opaque Config.transcript : List Byte → List Byte → List Byte → List Byte

/-- The device root of R325 and what enrolment fixed: the public keys and the certificate, told apart by a number. -/
opaque Config.enrolled : Nat → List Byte

end Sys2Proof
end

