-- ==== Sys2Proof/Machine/Numbers.lean ====
section
/-!
DEFINITION. The numbers of the device (spec/03): the element formats of R49, exact values as dyadic rationals, the one
rounding mode of R50 (nearest, ties away from zero), the special values of R51, the saturating narrowing of R52, and the
FP32 operations built on them.
-/
namespace Sys2Proof.Machine

/-- An exact value: a NaN, an infinity, or the finite number `± m * 2^e`; a zero keeps its sign. -/
inductive Fp where
  | nan
  | inf (neg : Bool)
  | fin (neg : Bool) (m : Nat) (e : Int)
deriving DecidableEq, Repr

/-- The floating-point formats of R49: exponent bits, mantissa bits, bias, and whether infinities are encoded. -/
structure FpFmt where
  ebits : Nat
  mbits : Nat
  bias : Nat
  hasInf : Bool
deriving DecidableEq, Repr

def fmtE4M3 : FpFmt := ⟨4, 3, 7, false⟩
def fmtE5M2 : FpFmt := ⟨5, 2, 15, true⟩
def fmtBF16 : FpFmt := ⟨8, 7, 127, true⟩
def fmtFP16 : FpFmt := ⟨5, 10, 15, true⟩
def fmtFP32 : FpFmt := ⟨8, 23, 127, true⟩

/-- The largest exponent field that encodes a finite number. -/
def FpFmt.maxExp (f : FpFmt) : Nat := if f.hasInf then 2 ^ f.ebits - 2 else 2 ^ f.ebits - 1

/-- The largest mantissa field under the largest exponent: E4M3 keeps its all-ones pattern for NaN (R49). -/
def FpFmt.maxMant (f : FpFmt) : Nat := if f.hasInf then 2 ^ f.mbits - 1 else 2 ^ f.mbits - 2

/-- The canonical NaN of R51: the positive quiet NaN, or all ones in E4M3 and E5M2. -/
def FpFmt.canonNaN (f : FpFmt) : Nat :=
  if f.mbits ≤ 3 then 2 ^ (f.ebits + f.mbits) - 1
  else (2 ^ f.ebits - 1) * 2 ^ f.mbits + 2 ^ (f.mbits - 1)

/-- The value of an element's bits (R49). -/
def FpFmt.decode (f : FpFmt) (w : Nat) : Fp :=
  let neg := bit w (f.ebits + f.mbits)
  let ex := bits w (f.ebits + f.mbits - 1) f.mbits
  let ma := bits w (f.mbits - 1) 0
  if ex = 2 ^ f.ebits - 1 ∧ (f.hasInf ∨ ma = 2 ^ f.mbits - 1) then
    (if f.hasInf ∧ ma = 0 then .inf neg else .nan)
  else if ex = 0 then .fin neg ma (1 - (f.bias : Int) - f.mbits)
  else .fin neg (2 ^ f.mbits + ma) ((ex : Int) - f.bias - f.mbits)

/-- Divide by `2^d` with one RNA rounding (R50). -/
def rnaShift (m d : Nat) : Nat := if d = 0 then m else (m + 2 ^ (d - 1)) / 2 ^ d

/-- Round `m * 2^e` by RNA to at most `p` significant bits with quantum at least `2^qmin`. -/
def roundDyadic (p : Nat) (qmin : Int) (m : Nat) (e : Int) : Nat × Int :=
  if m = 0 then (0, qmin) else
  let q := max (e + (Nat.log2 m + 1 : Nat) - p) qmin
  let r := if q ≤ e then m * 2 ^ (e - q).toNat else rnaShift m (q - e).toNat
  if r = 2 ^ p then (2 ^ (p - 1), q + 1) else (r, q)

/-- The fields of a rounded finite number: exponent and mantissa, the exponent possibly past the format's largest. -/
def FpFmt.fields (f : FpFmt) (m : Nat) (e : Int) : Nat × Nat :=
  let r := roundDyadic (f.mbits + 1) (1 - (f.bias : Int) - f.mbits) m e
  if r.1 < 2 ^ f.mbits then (0, r.1) else ((r.2 + f.bias + f.mbits).toNat, r.1 - 2 ^ f.mbits)

/-- The bits of sign, exponent and mantissa fields. -/
def FpFmt.pack (f : FpFmt) (neg : Bool) (ex ma : Nat) : Nat :=
  b2n neg * 2 ^ (f.ebits + f.mbits) + ex * 2 ^ f.mbits + ma

/-- A finite number whose fields lie past the largest finite number of the format. -/
def FpFmt.tooBig (f : FpFmt) (fs : Nat × Nat) : Bool :=
  decide (f.maxExp < fs.1) || (decide (fs.1 = f.maxExp) && decide (f.maxMant < fs.2))

/-- A narrowing conversion (R51, R52): the element's bits, and whether a finite value was saturated. -/
def FpFmt.narrow (f : FpFmt) (x : Fp) : Nat × Bool :=
  match x with
  | .nan => (f.canonNaN, false)
  | .inf neg =>
    if f.hasInf then (f.pack neg (2 ^ f.ebits - 1) 0, false) else (f.pack neg f.maxExp f.maxMant, false)
  | .fin neg m e =>
    let fs := f.fields m e
    if f.tooBig fs then (f.pack neg f.maxExp f.maxMant, true) else (f.pack neg fs.1 fs.2, false)

/-- One FP32 result of an exact value: RNA, overflow to infinity (R50, R51, R52). -/
def fp32Of (x : Fp) : Word :=
  match x with
  | .nan => BitVec.ofNat 32 fmtFP32.canonNaN
  | .inf neg => BitVec.ofNat 32 (fmtFP32.pack neg 255 0)
  | .fin neg m e =>
    let fs := fmtFP32.fields m e
    if fmtFP32.tooBig fs then BitVec.ofNat 32 (fmtFP32.pack neg 255 0)
    else BitVec.ofNat 32 (fmtFP32.pack neg fs.1 fs.2)

/-- The exact value of an FP32 word. -/
def fpOf (w : Word) : Fp := fmtFP32.decode w.toNat

/-- The exact value of an integer. -/
def fpInt (i : Int) : Fp := .fin (decide (i < 0)) i.natAbs 0

/-- A finite number as a signed integer multiple of `2^q`, for a `q` not above its exponent. -/
def finInt (neg : Bool) (m : Nat) (e q : Int) : Int :=
  let v : Int := (m * 2 ^ (e - q).toNat : Nat)
  if neg then -v else v

/-- The exact sum; the sign of a zero sum is that of IEEE 754. -/
def Fp.add (x y : Fp) : Fp :=
  match x, y with
  | .nan, _ => .nan
  | _, .nan => .nan
  | .inf a, .inf b => if a = b then .inf a else .nan
  | .inf a, .fin _ _ _ => .inf a
  | .fin _ _ _, .inf b => .inf b
  | .fin a m e, .fin b n f =>
    let q := min e f
    let v := finInt a m e q + finInt b n f q
    if v = 0 then .fin (a && b && decide (m = 0) && decide (n = 0)) 0 q else .fin (decide (v < 0)) v.natAbs q

/-- The negation. -/
def Fp.neg (x : Fp) : Fp :=
  match x with
  | .nan => .nan
  | .inf a => .inf (!a)
  | .fin a m e => .fin (!a) m e

/-- The exact product. -/
def Fp.mul (x y : Fp) : Fp :=
  match x, y with
  | .nan, _ => .nan
  | _, .nan => .nan
  | .inf a, .inf b => .inf (a != b)
  | .inf a, .fin b n _ => if n = 0 then .nan else .inf (a != b)
  | .fin a m _, .inf b => if m = 0 then .nan else .inf (a != b)
  | .fin a m e, .fin b n f => .fin (a != b) (m * n) (e + f)

/-- A quotient with enough bits, and a sticky bit below them, for one correct rounding to any format of R49. -/
def Fp.div (x y : Fp) : Fp :=
  match x, y with
  | .nan, _ => .nan
  | _, .nan => .nan
  | .inf _, .inf _ => .nan
  | .inf a, .fin b _ _ => .inf (a != b)
  | .fin a _ _, .inf b => .fin (a != b) 0 0
  | .fin a m e, .fin b n f =>
    if n = 0 then (if m = 0 then .nan else .inf (a != b))
    else
      let k := Nat.log2 n + 32
      let q := m * 2 ^ k / n
      .fin (a != b) (2 * q + (if m * 2 ^ k % n = 0 then 0 else 1)) (e - f - k - 1)

/-- The magnitude. -/
def Fp.abs (x : Fp) : Fp :=
  match x with
  | .nan => .nan
  | .inf _ => .inf false
  | .fin _ m e => .fin false m e

/-- `x < y` for values that are not NaN; the two zeros are equal. -/
def Fp.lt (x y : Fp) : Bool :=
  match x, y with
  | .nan, _ => false
  | _, .nan => false
  | .inf a, .inf b => a && !b
  | .inf a, .fin _ _ _ => a
  | .fin _ _ _, .inf b => !b
  | .fin a m e, .fin b n f => let q := min e f; decide (finInt a m e q < finInt b n f q)

def Fp.isNan (x : Fp) : Bool := match x with | .nan => true | _ => false
def Fp.isInf (x : Fp) : Bool := match x with | .inf _ => true | _ => false
def Fp.isZero (x : Fp) : Bool := match x with | .fin _ 0 _ => true | _ => false

/-- The larger of two values, a NaN propagated (R60). -/
def Fp.maxNan (x y : Fp) : Fp := if x.isNan || y.isNan then .nan else if Fp.lt x y then y else x

/-- The smaller of two values, a NaN propagated (R60). -/
def Fp.minNan (x y : Fp) : Fp := if x.isNan || y.isNan then .nan else if Fp.lt y x then y else x

/-- The larger of two values, a NaN ignored unless both are NaN. -/
def Fp.maxNum (x y : Fp) : Fp := if x.isNan then y else if y.isNan then x else if Fp.lt x y then y else x

/-- The integer nearest to a finite number, ties away from zero (R50). -/
def rnaInt (neg : Bool) (m : Nat) (e : Int) : Int :=
  let v : Int := if 0 ≤ e then ((m * 2 ^ e.toNat : Nat) : Int) else (rnaShift m (-e).toNat : Nat)
  if neg then -v else v

/-! FP32 operations on words, one RNA rounding each (R50, R60). -/

def fAdd (a b : Word) : Word := fp32Of ((fpOf a).add (fpOf b))
def fSub (a b : Word) : Word := fp32Of ((fpOf a).add (fpOf b).neg)
def fMul (a b : Word) : Word := fp32Of ((fpOf a).mul (fpOf b))
def fDiv (a b : Word) : Word := fp32Of ((fpOf a).div (fpOf b))
def fFma (a b c : Word) : Word := fp32Of (((fpOf a).mul (fpOf b)).add (fpOf c))
def fMax (a b : Word) : Word := fp32Of ((fpOf a).maxNan (fpOf b))
def fMin (a b : Word) : Word := fp32Of ((fpOf a).minNan (fpOf b))
def fNeg (a : Word) : Word := fp32Of (fpOf a).neg
def fAbs (a : Word) : Word := fp32Of (fpOf a).abs
def fLt (a b : Word) : Bool := (fpOf a).lt (fpOf b)
def fIsNan (a : Word) : Bool := (fpOf a).isNan

/-- FP32 one. -/
def fOne : Word := 0x3F800000#32

/-- FP32 zero. -/
def fZero : Word := 0#32

/-- The FP32 value nearest to an integer. -/
def fOfInt (i : Int) : Word := fp32Of (fpInt i)

/-- `w * 2^k`, exact but for FP32's range. -/
def fScale2 (w : Word) (k : Int) : Word :=
  match fpOf w with
  | .fin a m e => fp32Of (.fin a m (e + k))
  | x => fp32Of x

/-- The element formats of the format-code table (R27). -/
inductive Fmt where
  | int8 | uint8 | int4 | e4m3 | e5m2 | bf16 | fp16 | fp32 | int32
deriving DecidableEq, Repr

/-- The format of a code; 0x9 to 0xF are reserved. -/
def Fmt.ofCode (c : Nat) : Option Fmt :=
  match c with
  | 0 => some .int8 | 1 => some .uint8 | 2 => some .int4 | 3 => some .e4m3 | 4 => some .e5m2
  | 5 => some .bf16 | 6 => some .fp16 | 7 => some .fp32 | 8 => some .int32 | _ => none

/-- Bits of one element. -/
def Fmt.bits (f : Fmt) : Nat :=
  match f with
  | .int4 => 4 | .int8 => 8 | .uint8 => 8 | .e4m3 => 8 | .e5m2 => 8 | .bf16 => 16 | .fp16 => 16 | .fp32 => 32 | .int32 => 32

/-- The integer formats. -/
def Fmt.isInt (f : Fmt) : Bool :=
  match f with
  | .int8 => true | .uint8 => true | .int4 => true | .int32 => true | _ => false

/-- The floating-point format behind a format, where it has one. -/
def Fmt.fp (f : Fmt) : Option FpFmt :=
  match f with
  | .e4m3 => some fmtE4M3 | .e5m2 => some fmtE5M2 | .bf16 => some fmtBF16 | .fp16 => some fmtFP16
  | .fp32 => some fmtFP32 | _ => none

/-- The ends of an integer format's range (R52). -/
def Fmt.intRange (f : Fmt) : Int × Int :=
  match f with
  | .int8 => (-128, 127) | .uint8 => (0, 255) | .int4 => (-8, 7) | _ => (-2 ^ 31, 2 ^ 31 - 1)

/-- The zero points a format allows (R21). -/
def Fmt.zpOk (f : Fmt) (zp : Int) : Bool :=
  match f with
  | .uint8 => decide (0 ≤ zp ∧ zp ≤ 255)
  | .int8 => decide (-128 ≤ zp ∧ zp ≤ 127)
  | .int4 => decide (-8 ≤ zp ∧ zp ≤ 7)
  | _ => decide (zp = 0)

/-- The stored integer of an element of an integer format. -/
def Fmt.intOf (f : Fmt) (w : Nat) : Int := if f = .uint8 then (w % 256 : Nat) else signed f.bits w

/-- The exact value of an element before its scale: the integer less its zero point, or the floating-point value (R53). -/
def Fmt.value (f : Fmt) (zp : Int) (w : Nat) : Fp :=
  match f.fp with
  | some g => g.decode w
  | none => fpInt (f.intOf w - zp)

/-- Put an integer into the range of a format (R52): the value kept, and whether it was saturated. -/
def Fmt.clampInt (f : Fmt) (i : Int) : Int × Bool :=
  if i < f.intRange.1 then (f.intRange.1, true) else if f.intRange.2 < i then (f.intRange.2, true) else (i, false)

/-- What one conversion to an element gives: its bits, whether it saturated, and whether a NaN became a zero point. -/
structure Conv where
  raw : Nat
  sat : Bool
  nan : Bool
deriving DecidableEq, Repr

/-- Step 6 of R58: an element of format `f` with zero point `zp` from an FP32 value. -/
def Fmt.encode (f : Fmt) (zp : Int) (x : Fp) : Conv :=
  match f.fp with
  | some g => let r := g.narrow x; ⟨r.1, r.2, false⟩
  | none =>
    match x with
    | .nan => ⟨unsignedOf f.bits zp, false, true⟩
    | .inf neg => ⟨unsignedOf f.bits (if neg then f.intRange.1 else f.intRange.2), true, false⟩
    | .fin neg m e =>
      let c := f.clampInt (rnaInt neg m e + zp)
      ⟨unsignedOf f.bits c.1, c.2, false⟩

/-- `qmax` of an output format for the scale commands (R61). -/
def Fmt.qmax (f : Fmt) : Option Nat :=
  match f with
  | .int8 => some 127 | .int4 => some 7 | .e4m3 => some 448 | .e5m2 => some 57344 | _ => none

/-- A saturating INT32 addition in which a slot that has reached a bound stays there (R56). -/
def accAdd (slot : Word) (v : Int) : Word :=
  let x := slot.toInt
  if x = -2 ^ 31 ∨ x = 2 ^ 31 - 1 then slot else BitVec.ofInt 32 (Fmt.int32.clampInt (x + v)).1

/-- A slot that R56 counts as saturated. -/
def accSaturated (slot : Word) : Bool := decide (slot.toInt = -2 ^ 31 ∨ slot.toInt = 2 ^ 31 - 1)

/-- The least `k` with `a ≤ b * 2^k`, for positive finite values (R62). -/
def ceilLog2Ratio (a b : Fp) : Int :=
  match a, b with
  | .fin _ m e, .fin _ n f =>
    if m = 0 ∨ n = 0 then 0 else
    let k0 : Int := e + Nat.log2 m - (f + Nat.log2 n)
    let le (k : Int) : Bool := !(Fp.lt (.fin false n (f + k)) (.fin false m e))
    if le (k0 - 1) then k0 - 1 else if le k0 then k0 else k0 + 1
  | _, _ => 0

end Sys2Proof.Machine
end

