-- ==== Sys2Proof/Machine/Special.lean ====
section
/-!
DEFINITION. The special functions of the vector engine (R60): for each, a bracket of the exact function of an FP32 input, and the free
result that the device gives, which the bounds of R60 hold near it.  A free value outside its bound gives way to the correctly
rounded one, so that every result lies within the bound, and every result within it can be the device's.
-/
namespace Sys2Proof.Machine

/-! ## Brackets -/

/-- An exact value that lies between `lo * 2^e` and `hi * 2^e`. -/
structure Bracket where
  lo : Int
  hi : Int
  e : Int
deriving DecidableEq, Repr

/-- The dyadic number `i * 2^e`. -/
def fpDyadic (i e : Int) : Fp := .fin (decide (i < 0)) i.natAbs e

/-- The FP32 value nearest to the middle of a bracket. -/
def Bracket.rounded (b : Bracket) : Word := fp32Of (fpDyadic (b.lo + b.hi) (b.e - 1))

/-- Both ends of a bracket lie within `bound` of a value. -/
def Bracket.near (b : Bracket) (v bound : Fp) : Bool :=
  let gap (i : Int) : Fp := (v.add (fpDyadic i b.e).neg).abs
  !(bound.lt (gap b.lo)) && !(bound.lt (gap b.hi))

/-- `n` units in the last place of an FP32 word. -/
def ulps (n : Nat) (w : Word) : Fp := .fin false n (max 1 (bits w.toNat 30 23 : Nat) - 150)

/-- The result of a unit (R60): the free candidate where it lies within `n` ulp, or within the absolute bound when that is larger, of the
bracket; otherwise the rounded value. -/
def Bracket.result (b : Bracket) (n : Nat) (bound : Fp) (candidate : Word) : Word :=
  let r := b.rounded
  let u := ulps n r
  match fpOf r, fpOf candidate with
  | .fin _ _ _, .fin a m e => if b.near (.fin a m e) (if u.lt bound then bound else u) then candidate else r
  | _, _ => r

/-- A word with any NaN made canonical (R51). -/
def canon (w : Word) : Word := if fIsNan w then fp32Of .nan else w

/-! ## Fixed point -/

/-- The product of two numbers with `p` fraction bits. -/
def fxMul (p : Nat) (a b : Int) : Int := a * b / 2 ^ p

/-- A finite number with `p` fraction bits; bits below them are dropped. -/
def fxOf (p : Nat) (neg : Bool) (m : Nat) (e : Int) : Int :=
  let v : Nat := if 0 ≤ e + p then m * 2 ^ (e + p).toNat else m / 2 ^ (-(e + p)).toNat
  if neg then -(v : Int) else v

/-- ln 2 with 128 fraction bits. -/
def fxLn2 : Int := 235865763225513294137944142764154484399

/-- 1 / √(2π) with 256 fraction bits. -/
def fxGauss : Int := 46194360132781112550002021175736725500524138381534012844286371432913401257263

/-- exp of a small number with 128 fraction bits, by 32 terms of its series. -/
def fxExp (x : Int) : Int :=
  (List.range 32).foldl (fun acc k => 2 ^ 128 + fxMul 128 x acc / ((32 - k : Nat) : Int)) (2 ^ 128)

/-- exp of `± m * 2^e`: 2^n times the exp of a remainder below ln 2 / 2; beyond 128 the ends that FP32 cannot tell from it. -/
def expBracket (neg : Bool) (m : Nat) (e : Int) : Bracket :=
  if (fpInt 128).lt (.fin false m e) then (if neg then ⟨0, 1, -184⟩ else ⟨1, 2, 184⟩) else
  let x := fxOf 128 neg m e
  let n := (x + fxLn2 / 2) / fxLn2
  let v := fxExp (x - n * fxLn2)
  if m = 0 then ⟨1, 1, 0⟩ else ⟨v - 2 ^ 40, v + 2 ^ 40, n - 128⟩

/-- log of `m * 2^e`, `m` not 0: its binary exponent times ln 2, and the series of 2 atanh of (u - 1) / (u + 1) for the significand u
from 2/3 to 4/3. -/
def logBracket (m : Nat) (e : Int) : Bracket :=
  let k := Nat.log2 m
  let high := decide (4 * 2 ^ k ≤ 3 * m)
  let u : Int := ((m * 2 ^ 256 / 2 ^ (k + b2n high) : Nat) : Int)
  let z := (u - 2 ^ 256) * 2 ^ 256 / (u + 2 ^ 256)
  let zz := fxMul 256 z z
  let s := ((List.range 48).foldl (fun (a : Int × Int) j =>
    (a.1 + a.2 / ((2 * j + 1 : Nat) : Int), fxMul 256 a.2 zz)) (0, z)).1
  let v := (e + k + b2n high) * (fxLn2 * 2 ^ 128) + 2 * s
  if v = 0 then ⟨0, 0, 0⟩
  else if e + k + b2n high = 0 then ⟨v - 2 ^ 16, v + 2 ^ 16, -256⟩ else ⟨v - 2 ^ 140, v + 2 ^ 140, -256⟩

/-- 1 / (1 + E) for E in a bracket of positive numbers below 2^200. -/
def logisticBracket (b : Bracket) : Bracket :=
  let one : Int := 2 ^ 640
  let ex (i : Int) : Int := fxOf 640 false i.toNat b.e
  ⟨one * one / (one + ex b.hi + 1), one * one / (one + ex b.lo) + 1, -640⟩

/-- The sigmoid of `± m * 2^e`. -/
def sigmoidBracket (neg : Bool) (m : Nat) (e : Int) : Bracket := logisticBracket (expBracket (!neg) m e)

/-- tanh of `± m * 2^e`: 1 - 2 / (e^2x + 1), and near zero x less a cube. -/
def tanhBracket (neg : Bool) (m : Nat) (e : Int) : Bracket :=
  if (Fp.fin false m e).lt (.fin false 1 (-20)) then
    let i : Int := if neg then -(m : Int) else m
    ⟨min (i * (2 ^ 42 - 4)) (i * 2 ^ 42), max (i * (2 ^ 42 - 4)) (i * 2 ^ 42), e - 42⟩
  else
    let s := logisticBracket (expBracket neg m (e + 1))
    ⟨2 ^ 640 - 2 * s.hi, 2 ^ 640 - 2 * s.lo, -640⟩

/-- A bracket times an exact number. -/
def Bracket.times (b : Bracket) (neg : Bool) (m : Nat) (e : Int) : Bracket :=
  if neg then ⟨-(b.hi * m), -(b.lo * m), b.e + e⟩ else ⟨b.lo * m, b.hi * m, b.e + e⟩

/-- The normal distribution function Φ(x) = (1 + erf(x / √2)) / 2 of `± m * 2^e` below 8 in magnitude, by its series about 0. -/
def phiBracket (neg : Bool) (m : Nat) (e : Int) : Bracket :=
  let x := fxOf 256 neg m e
  let y := fxMul 256 x x / 2
  let s := ((List.range 200).foldl (fun (a : Int × Int) n =>
    (a.1 + a.2 / ((2 * n + 1 : Nat) : Int), -(fxMul 256 a.2 y) / ((n + 1 : Nat) : Int))) (0, x)).1
  let v := 2 ^ 255 + fxMul 256 s fxGauss
  ⟨v - 2 ^ 96, v + 2 ^ 96, -256⟩

/-- The exact-form GELU, x Φ(x); from 8 on Φ is 1 less at most 2^-50, and up to -8 the product lies above -2^-47. -/
def geluBracket (neg : Bool) (m : Nat) (e : Int) : Bracket :=
  if (Fp.fin false m e).lt (fpInt 8) then (phiBracket neg m e).times neg m e
  else if neg then ⟨-1, 0, -47⟩ else (⟨2 ^ 50 - 1, 2 ^ 50, -50⟩ : Bracket).times false m e

/-- The reciprocal of `± m * 2^e`, `m` not 0. -/
def recipBracket (neg : Bool) (m : Nat) (e : Int) : Bracket :=
  let k := Nat.log2 m + 200
  let q : Int := ((2 ^ k / m : Nat) : Int)
  let r : Int := if 2 ^ k % m = 0 then q else q + 1
  if neg then ⟨-r, -q, -e - k⟩ else ⟨q, r, -e - k⟩

/-! ## The units -/

/-- No absolute bound. -/
def noBound : Fp := .fin false 0 0

/-- Minus infinity in FP32. -/
def fNegInf : Word := 0xFF800000#32

/-- The exp unit, within 2 ulp; exp(0) is 1, so that a wholly masked block leaves a row of ATTN as it was (DEDUCED from R160,
assumption 23). -/
def expUnit (x : Word) : Word :=
  match fpOf x with
  | .nan => fp32Of .nan
  | .inf neg => if neg then fZero else fp32Of (.inf false)
  | .fin neg m e => if m = 0 then fOne else (expBracket neg m e).result 2 noBound (Config.expFn x)

/-- The log unit, within 2 ulp.  The spec states no log of 0 or of a negative number: a free value (assumption 23). -/
def logUnit (x : Word) : Word :=
  match fpOf x with
  | .nan => fp32Of .nan
  | .inf neg => if neg then canon (Config.logFn x) else x
  | .fin neg m e => if m = 0 ∨ neg = true then canon (Config.logFn x) else (logBracket m e).result 2 noBound (Config.logFn x)

/-- The reciprocal unit, within 1 ulp; that of a zero is the infinity of its sign (R51). -/
def recip (x : Word) : Word :=
  match fpOf x with
  | .fin neg m e => if m = 0 then fDiv fOne x else (recipBracket neg m e).result 1 noBound (Config.recipFn x)
  | _ => fDiv fOne x

/-- The sigmoid unit, within 2 ulp or 2^-24. -/
def sigmoidUnit (x : Word) : Word :=
  match fpOf x with
  | .nan => fp32Of .nan
  | .inf neg => if neg then fZero else fOne
  | .fin neg m e => (sigmoidBracket neg m e).result 2 (.fin false 1 (-24)) (Config.sigmoidFn x)

/-- The tanh unit, within 2 ulp or 2^-24. -/
def tanhUnit (x : Word) : Word :=
  match fpOf x with
  | .nan => fp32Of .nan
  | .inf neg => if neg then fNeg fOne else fOne
  | .fin neg m e => (tanhBracket neg m e).result 2 (.fin false 1 (-24)) (Config.tanhFn x)

/-- The SiLU unit, within 4 ulp or 2^-22.  At minus infinity the spec states no result: a free value (assumption 23). -/
def siluUnit (x : Word) : Word :=
  match fpOf x with
  | .nan => fp32Of .nan
  | .inf neg => if neg then canon (Config.siluFn x) else x
  | .fin neg m e => ((sigmoidBracket neg m e).times neg m e).result 4 (.fin false 1 (-22)) (Config.siluFn x)

/-- The GELU unit, within 4 ulp or 2^-22, and a free value at minus infinity (assumption 23). -/
def geluUnit (x : Word) : Word :=
  match fpOf x with
  | .nan => fp32Of .nan
  | .inf neg => if neg then canon (Config.geluFn x) else x
  | .fin neg m e => (geluBracket neg m e).result 4 (.fin false 1 (-22)) (Config.geluFn x)

end Sys2Proof.Machine
end

