-- ==== Sys2Proof/Machine/Regs.lean ====
section
/-!
DEFINITION. The registers of the FY8640 and their fields, as the register maps of the spec list them (R48, R83, R108, R130,
R147, R171, R172, R210, R235, R251, R269, R287, R298, R317, R336, R367, R382, R403, R421, R433, R443), their places in the
physical address map (R110), and the access and world codes of R8.  Reserved fields are not listed: they read as zero and
their writes are ignored (R9).
-/
namespace Sys2Proof.Machine

/-- The access codes of R8. -/
inductive Access where
  | ro | rw | wo | w1c
deriving DecidableEq, Repr

/-- The world codes of R8, and the codes that name another object whose world decides. -/
inductive WorldCode where
  | s | ns | sns | byGate | byTally | byRing | byPartition | byFeed | bySlot | byChannel | watchWorld
deriving DecidableEq, Repr

/-- The registers, one constructor for each register heading of the spec. -/
inductive Reg where
  | tcCtrl
  | tcStatus
  | tcFault
  | faultInfo
  | tcOptab
  | tcPerf
  | hearthCfg
  | hearthState
  | hearthCnt
  | binCtrl
  | binStatus
  | binSloten
  | binSlotmap
  | binScrub
  | binErrcnt
  | binErrlog
  | binRepair
  | binRmapSel
  | binRmapData
  | binGate
  | binTally
  | urCtrl
  | urStatus
  | urQuota
  | urPin
  | urPstateSel
  | urPstateData
  | urDirSel
  | urDirData
  | urQlog
  | urCnt
  | mcCtrl
  | mcStatus
  | mcRegion
  | mcPort
  | mcActcfg
  | mcErrlog
  | lgCmd
  | lgHandle
  | lgArg
  | lgData
  | tcAttn
  | svLease
  | svStatus
  | svRing0
  | svRing1
  | svDoorbell
  | svErr
  | svCnt
  | rtCtrl
  | rtStatus
  | rtPart
  | rtAbort
  | rtTtbase
  | rtCnt
  | rtRing
  | rtDb
  | rtWheel
  | rtGnet
  | hpStatus
  | hpFeed
  | hpDb
  | hpRelease
  | hpAlarm
  | csiCtrl
  | csiStatus
  | ispSensor
  | os
  | osRelease
  | audStatus
  | audTrim
  | audStream
  | watchStatus
  | watchPull
  | watchVerdict
  | watchSpan
  | doorStatus
  | doorLed
  | doorTouch
  | safeStatus
  | safeFault
  | cmpNet
  | ww
  | wwKick
  | safeInject
  | secStatus
  | secWmap
  | brErrlog
  | secMeas
  | secUnwrap
  | secKslot
  | br
  | chCmd
  | chObj
  | chLen
  | chOffset
  | chSeq
  | chInfo
  | hlCtrl
  | hlStatus
  | rvStatus
  | rvPmbmap
  | pwrStatus
  | pwrPg0
  | pwrPg1
  | pwrWakePend
  | clkStatus
  | clkEn
  | clkTcsel
  | clkSsc
  | clkFail
  | rstStatus
  | rstCtrl
deriving DecidableEq, Repr

/-- The fields of the registers, one constructor for each named row of a register map. -/
inductive Fld where
  | tcCtrlTrace
  | tcCtrlHalt
  | tcCtrlRun
  | tcStatusLasttag
  | tcStatusSbused
  | tcStatusHlease
  | tcStatusFpos
  | tcStatusFwidth
  | tcStatusWaitsb
  | tcStatusWaittally
  | tcStatusWaitdma
  | tcStatusFault
  | tcStatusHalted
  | tcStatusBusy
  | tcFaultValid
  | tcFaultCode
  | tcFaultTag
  | faultInfoMember
  | faultInfoMcode
  | faultInfoWhere
  | tcOptabOptbase
  | tcPerfCount
  | hearthCfgSplit
  | hearthStateGen
  | hearthStateLeases
  | hearthStateKind
  | hearthStatePhase
  | hearthStateDirty
  | hearthStatePinned
  | hearthCntCount
  | binCtrlScrubEn
  | binCtrlCeWb
  | binCtrlInit
  | binStatusSparesMin
  | binStatusDegraded
  | binStatusRepairing
  | binStatusInitbusy
  | binStatusReady
  | binSlotenEn
  | binSlotmapSlot
  | binScrubInterval
  | binErrcntCount
  | binErrlogValid
  | binErrlogType
  | binErrlogBank
  | binErrlogRow
  | binErrlogPort
  | binRepairGo
  | binRepairBusy
  | binRepairResult
  | binRepairBank
  | binRepairRow
  | binRmapSelIndex
  | binRmapDataUsed
  | binRmapDataField
  | binRmapDataRow
  | binGateOpen
  | binGateState
  | binGateOpenfail
  | binGateBase
  | binGateLen
  | binGateKeyslot
  | binGateSrcmask
  | binGateTally
  | binGateReject
  | binTallyCount
  | urCtrlSheafWr
  | urCtrlMigEn
  | urStatusGqDrain
  | urStatusGqOut
  | urStatusReady
  | urQuotaWays
  | urPinPage
  | urPinGo
  | urPinOp
  | urPinQuota
  | urPinCount
  | urPinBusy
  | urPinResult
  | urPinDone
  | urPstateSelPage
  | urPstateDataQ
  | urPstateDataSheaf
  | urPstateDataForm
  | urPstateDataLen
  | urDirSelFrame
  | urDirDataEntry
  | urQlogValid
  | urQlogCause
  | urQlogPage
  | urCntCount
  | mcCtrlRfmEn
  | mcCtrlRetrainEn
  | mcCtrlMaplock
  | mcStatusRate
  | mcStatusRfmAvail
  | mcStatusCfgerr
  | mcStatusTrainfail
  | mcStatusSelfref
  | mcStatusReady
  | mcRegionEn
  | mcRegionBase
  | mcRegionChset
  | mcRegionGrain
  | mcRegionChbase
  | mcPortTarget
  | mcActcfgNeighbours
  | mcActcfgWindow
  | mcActcfgThreshold
  | mcErrlogValid
  | mcErrlogType
  | mcErrlogChannel
  | mcErrlogRank
  | mcErrlogBank
  | mcErrlogRow
  | lgCmdGo
  | lgCmdBusy
  | lgCmdResult
  | lgCmdOp
  | lgCmdType
  | lgCmdPart
  | lgHandleValue
  | lgArgValue
  | lgDataWord
  | tcAttnAttnbase
  | svLeasePending
  | svLeaseEn
  | svLeasePart
  | svStatusQueued
  | svStatusHead
  | svStatusBusy
  | svStatusReady
  | svRing0Bin
  | svRing0Base
  | svRing1Depth
  | svRing1Tally
  | svDoorbellAdd
  | svErrValid
  | svErrCode
  | svErrSlot
  | svCntCount
  | rtCtrlApply
  | rtCtrlEn
  | rtStatusActive
  | rtStatusCfgerr
  | rtStatusApplying
  | rtStatusReady
  | rtPartFurrow
  | rtPartWorld
  | rtPartSize
  | rtPartBase
  | rtAbortGo
  | rtAbortBusy
  | rtAbortResult
  | rtAbortIndex
  | rtAbortRing
  | rtTtbasePage
  | rtCntCount
  | rtRingEn
  | rtRingWorld
  | rtRingPart
  | rtRingDepth
  | rtRingSqpage
  | rtRingCqpage
  | rtRingCqtail
  | rtRingSqhead
  | rtRingCqhead
  | rtDbTail
  | rtWheelEn
  | rtWheelClass
  | rtWheelMode
  | rtWheelCore
  | rtWheelRing
  | rtWheelSlice
  | rtWheelPeriod
  | rtWheelOffset
  | rtGnetEn
  | rtGnetMode
  | rtGnetActive
  | rtGnetNopair
  | rtGnetRing
  | rtGnetPair0West
  | rtGnetPair0East
  | rtGnetPair0Valid
  | rtGnetPair0Suspect
  | rtGnetPair1West
  | rtGnetPair1East
  | rtGnetPair1Valid
  | rtGnetPair1Suspect
  | rtGnetPair2West
  | rtGnetPair2East
  | rtGnetPair2Valid
  | rtGnetPair2Suspect
  | rtGnetPair3West
  | rtGnetPair3East
  | rtGnetPair3Valid
  | rtGnetPair3Suspect
  | rtGnetPeriod
  | rtGnetOffset
  | hpStatusLanes
  | hpStatusActive
  | hpStatusReady
  | hpFeedHandle
  | hpFeedEn
  | hpFeedStopping
  | hpFeedResult
  | hpFeedHead
  | hpFeedAvg
  | hpFeedVoids
  | hpDbValue
  | hpReleaseValue
  | hpAlarmEdge
  | hpAlarmLow
  | csiCtrlMode
  | csiCtrlLanes
  | csiCtrlCamEn
  | csiCtrlEn
  | csiStatusPresent
  | csiStatusInframe
  | csiStatusHpd
  | csiStatusDeskewed
  | csiStatusHs
  | csiStatusOverflow
  | csiStatusReady
  | ispSensorEn
  | ispSensorVc
  | ispSensorDt
  | ispSensorMosaic
  | ispSensorPhase
  | ispSensorHeight
  | ispSensorWidth
  | ispSensorBlack
  | ispSensorPeriod
  | ispSensorKg
  | ispSensorKr
  | ispSensorKb
  | osEn
  | osResult
  | osDual
  | osFmt
  | osPlane
  | osSensor
  | osBin
  | osBin2
  | osNbuf
  | osRange
  | osMatrix
  | osCropx
  | osCropy
  | osCropw
  | osCroph
  | osOutw
  | osOuth
  | osBase
  | osRelease
  | osTally
  | osOscale
  | osOzp
  | osMean0
  | osMean1
  | osMean2
  | osIstd0
  | osIstd1
  | osIstd2
  | osRing
  | osFrameno
  | osReleaseAdd
  | audStatusHpd
  | audStatusMuted
  | audStatusPdmrun
  | audStatusReflock
  | audStatusReady
  | audTrimTrim
  | audStreamEn
  | audStreamResult
  | audStreamBin
  | audStreamNbuf
  | audStreamRefs
  | audStreamChmask
  | audStreamBase
  | audStreamRelease
  | audStreamTally
  | watchStatusWakeOff
  | watchStatusVoice
  | watchStatusMic
  | watchStatusLock
  | watchPullGo
  | watchPullBusy
  | watchPullResult
  | watchPullTally
  | watchPullBin
  | watchPullBase
  | watchPullCount
  | watchPullStart
  | watchVerdictVerdict
  | watchSpanBin
  | watchSpanBase
  | watchSpanEn
  | watchSpanTally
  | doorStatusShut
  | doorStatusCamhpd
  | doorStatusMichpd
  | doorStatusMute
  | doorStatusPriv
  | doorStatusBtn
  | doorStatusTouch
  | doorLedEn
  | doorLedRamp
  | doorLedDuty
  | doorTouchCount
  | doorTouchThreshold
  | safeStatusNfault
  | safeStatusReady
  | safeFaultSelftest
  | safeFaultDramTrain
  | safeFaultClock
  | safeFaultWatchdog
  | safeFaultSuspect
  | cmpNetEn
  | cmpNetFmt
  | cmpNetBase
  | cmpNetCount
  | cmpNetThresh
  | cmpNetTol
  | cmpNetWindow
  | cmpNetSuspect
  | cmpNetOtally
  | wwEn
  | wwAction
  | wwArm
  | wwState
  | wwSrc
  | wwOpen
  | wwClose
  | wwLimit
  | wwKickArm
  | wwKickWw
  | safeInjectGo
  | safeInjectKind
  | safeInjectTarget
  | secStatusLevel
  | secStatusDebugged
  | secStatusRootOk
  | secStatusReady
  | secWmapWatch
  | secWmapAud
  | secWmapOs
  | brErrlogValid
  | brErrlogWrite
  | brErrlogModel
  | brErrlogInit
  | brErrlogSpace
  | brErrlogUnit
  | secMeasWord
  | secUnwrapSrc
  | secUnwrapDst
  | secUnwrapGo
  | secUnwrapBusy
  | secUnwrapResult
  | secUnwrapDone
  | secKslotGo
  | secKslotBusy
  | secKslotResult
  | secKslotOp
  | secKslotPart
  | secKslotSrc
  | secKslotSlot
  | secKslotContextLo
  | secKslotContextHi
  | brEn
  | brWorld
  | brModel
  | brBusy
  | brSpace
  | brBase
  | brLimit
  | brResult
  | chCmdGo
  | chCmdBusy
  | chCmdDone
  | chCmdCode
  | chCmdLast
  | chCmdOp
  | chObjIndex
  | chObjSub
  | chLenLen
  | chOffsetOffset
  | chSeqSeq
  | chInfoRepeat
  | chInfoType
  | chInfoCount
  | hlCtrlRate16
  | hlCtrlEn
  | hlStatusPeer
  | hlStatusPeermaster
  | hlStatusCascadeFault
  | hlStatusWidth
  | hlStatusRate
  | hlStatusState
  | rvStatusTmax
  | rvStatusUpd
  | rvStatusStep
  | rvStatusRestricted
  | rvStatusGov
  | rvStatusReady
  | rvPmbmapMill
  | rvPmbmapPackage
  | rvPmbmapEn
  | rvPmbmapAddr
  | pwrStatusQueued
  | pwrStatusLastsrc
  | pwrStatusRegfail
  | pwrStatusBrownout
  | pwrStatusRegOk
  | pwrStatusRegLp
  | pwrStatusResuming
  | pwrStatusEntering
  | pwrStatusState
  | pwrPg0Pg
  | pwrPg1Pg
  | pwrWakePendPend
  | clkStatusLock
  | clkStatusRefused
  | clkStatusReeveLosc
  | clkStatusHeld
  | clkStatusFail
  | clkEnEn
  | clkTcselGo
  | clkTcselBusy
  | clkTcselResult
  | clkTcselSel
  | clkTcselSrc
  | clkTcselCore
  | clkSscRate
  | clkSscDepth
  | clkFailSrc
  | rstStatusRecovery
  | rstStatusMerged
  | rstStatusMasterSel
  | rstStatusCascadeId
  | rstStatusCause
  | rstCtrlWarm
  | rstCtrlPgo
  | rstCtrlPart
deriving DecidableEq, Repr

/-- Where a field lies in its register and the codes its row gives it. -/
structure FldDesc where
  reg : Reg
  word : Nat
  hi : Nat
  lo : Nat
  access : Access
  world : WorldCode
  reset : Nat
deriving DecidableEq, Repr

/-- The rows of the fields, in the order of `Fld`.  A reset value that depends on the instance stands in `Fld.reset`; a reset value given as "—" is
0 here (R10 leaves it undefined; DESIGN CHOICE, assumption 12). -/
def Fld.rows : List FldDesc :=
  List.flatten [
  [⟨.tcCtrl, 0, 2, 2, .rw, .s, 0⟩,
   ⟨.tcCtrl, 0, 1, 1, .rw, .s, 0⟩,
   ⟨.tcCtrl, 0, 0, 0, .ro, .s, 0⟩,
   ⟨.tcStatus, 0, 31, 24, .ro, .sns, 0⟩,
   ⟨.tcStatus, 0, 23, 15, .ro, .sns, 0⟩,
   ⟨.tcStatus, 0, 14, 11, .ro, .sns, 0⟩,
   ⟨.tcStatus, 0, 10, 8, .ro, .sns, 0⟩,
   ⟨.tcStatus, 0, 7, 6, .ro, .sns, 0⟩,
   ⟨.tcStatus, 0, 5, 5, .ro, .sns, 0⟩,
   ⟨.tcStatus, 0, 4, 4, .ro, .sns, 0⟩,
   ⟨.tcStatus, 0, 3, 3, .ro, .sns, 0⟩,
   ⟨.tcStatus, 0, 2, 2, .ro, .sns, 0⟩],
  [⟨.tcStatus, 0, 1, 1, .ro, .sns, 0⟩,
   ⟨.tcStatus, 0, 0, 0, .ro, .sns, 0⟩,
   ⟨.tcFault, 0, 16, 16, .w1c, .s, 0⟩,
   ⟨.tcFault, 0, 15, 8, .ro, .s, 0⟩,
   ⟨.tcFault, 0, 7, 0, .ro, .s, 0⟩,
   ⟨.faultInfo, 0, 31, 29, .ro, .s, 0⟩,
   ⟨.faultInfo, 0, 28, 25, .ro, .s, 0⟩,
   ⟨.faultInfo, 0, 24, 0, .ro, .s, 0⟩,
   ⟨.tcOptab, 0, 9, 0, .rw, .s, 0⟩,
   ⟨.tcPerf, 0, 63, 0, .ro, .sns, 0⟩,
   ⟨.hearthCfg, 0, 1, 0, .rw, .s, 0⟩,
   ⟨.hearthState, 0, 31, 20, .ro, .sns, 0⟩],
  [⟨.hearthState, 0, 19, 12, .ro, .sns, 0⟩,
   ⟨.hearthState, 0, 11, 10, .ro, .sns, 0⟩,
   ⟨.hearthState, 0, 9, 7, .ro, .sns, 0⟩,
   ⟨.hearthState, 0, 6, 6, .ro, .sns, 0⟩,
   ⟨.hearthState, 0, 5, 5, .ro, .sns, 0⟩,
   ⟨.hearthCnt, 0, 63, 0, .ro, .sns, 0⟩,
   ⟨.binCtrl, 0, 2, 2, .rw, .s, 1⟩,
   ⟨.binCtrl, 0, 1, 1, .rw, .s, 1⟩,
   ⟨.binCtrl, 0, 0, 0, .wo, .s, 0⟩,
   ⟨.binStatus, 0, 20, 16, .ro, .sns, 0⟩,
   ⟨.binStatus, 0, 3, 3, .ro, .sns, 0⟩,
   ⟨.binStatus, 0, 2, 2, .ro, .sns, 0⟩],
  [⟨.binStatus, 0, 1, 1, .ro, .sns, 0⟩,
   ⟨.binStatus, 0, 0, 0, .ro, .sns, 0⟩,
   ⟨.binSloten, 0, 15, 0, .rw, .s, 0⟩,
   ⟨.binSlotmap, 0, 31, 0, .rw, .s, 0⟩,
   ⟨.binScrub, 0, 15, 0, .rw, .s, 10⟩,
   ⟨.binErrcnt, 0, 63, 0, .ro, .sns, 0⟩,
   ⟨.binErrlog, 0, 31, 31, .w1c, .s, 0⟩,
   ⟨.binErrlog, 0, 30, 28, .ro, .s, 0⟩,
   ⟨.binErrlog, 0, 27, 22, .ro, .s, 0⟩,
   ⟨.binErrlog, 0, 21, 11, .ro, .s, 0⟩,
   ⟨.binErrlog, 0, 10, 7, .ro, .s, 0⟩,
   ⟨.binRepair, 0, 31, 31, .wo, .s, 0⟩],
  [⟨.binRepair, 0, 30, 30, .ro, .s, 0⟩,
   ⟨.binRepair, 0, 29, 28, .ro, .s, 0⟩,
   ⟨.binRepair, 0, 27, 22, .rw, .s, 0⟩,
   ⟨.binRepair, 0, 10, 0, .rw, .s, 0⟩,
   ⟨.binRmapSel, 0, 9, 0, .rw, .s, 0⟩,
   ⟨.binRmapData, 0, 31, 31, .ro, .s, 0⟩,
   ⟨.binRmapData, 0, 30, 30, .ro, .s, 0⟩,
   ⟨.binRmapData, 0, 10, 0, .ro, .s, 0⟩,
   ⟨.binGate, 0, 31, 31, .rw, .byGate, 0⟩,
   ⟨.binGate, 0, 30, 29, .ro, .byGate, 0⟩,
   ⟨.binGate, 0, 28, 28, .w1c, .byGate, 0⟩,
   ⟨.binGate, 0, 16, 0, .rw, .byGate, 0⟩],
  [⟨.binGate, 1, 16, 0, .rw, .byGate, 0⟩,
   ⟨.binGate, 2, 25, 18, .rw, .byGate, 0⟩,
   ⟨.binGate, 2, 17, 10, .rw, .byGate, 0⟩,
   ⟨.binGate, 2, 9, 0, .rw, .byGate, 0⟩,
   ⟨.binGate, 3, 31, 0, .ro, .byGate, 0⟩,
   ⟨.binTally, 0, 31, 0, .rw, .byTally, 0⟩,
   ⟨.urCtrl, 0, 1, 1, .rw, .s, 1⟩,
   ⟨.urCtrl, 0, 0, 0, .rw, .s, 1⟩,
   ⟨.urStatus, 0, 8, 5, .ro, .sns, 0⟩,
   ⟨.urStatus, 0, 4, 1, .ro, .sns, 0⟩,
   ⟨.urStatus, 0, 0, 0, .ro, .sns, 0⟩,
   ⟨.urQuota, 0, 15, 0, .rw, .s, 0⟩],
  [⟨.urPin, 0, 23, 0, .rw, .s, 0⟩,
   ⟨.urPin, 1, 31, 31, .wo, .s, 0⟩,
   ⟨.urPin, 1, 17, 17, .rw, .s, 0⟩,
   ⟨.urPin, 1, 16, 13, .rw, .s, 0⟩,
   ⟨.urPin, 1, 12, 0, .rw, .s, 0⟩,
   ⟨.urPin, 2, 31, 31, .ro, .s, 0⟩,
   ⟨.urPin, 2, 30, 29, .ro, .s, 0⟩,
   ⟨.urPin, 2, 12, 0, .ro, .s, 0⟩,
   ⟨.urPstateSel, 0, 23, 0, .rw, .s, 0⟩,
   ⟨.urPstateData, 0, 31, 31, .rw, .s, 0⟩,
   ⟨.urPstateData, 0, 30, 30, .rw, .s, 0⟩,
   ⟨.urPstateData, 0, 29, 29, .ro, .s, 0⟩],
  [⟨.urPstateData, 0, 28, 23, .ro, .s, 0⟩,
   ⟨.urDirSel, 0, 15, 0, .rw, .s, 0⟩,
   ⟨.urDirData, 0, 31, 0, .ro, .s, 0⟩,
   ⟨.urQlog, 0, 31, 31, .w1c, .s, 0⟩,
   ⟨.urQlog, 0, 30, 28, .ro, .s, 0⟩,
   ⟨.urQlog, 0, 23, 0, .ro, .s, 0⟩,
   ⟨.urCnt, 0, 63, 0, .ro, .sns, 0⟩,
   ⟨.mcCtrl, 0, 2, 2, .rw, .s, 1⟩,
   ⟨.mcCtrl, 0, 1, 1, .rw, .s, 1⟩,
   ⟨.mcCtrl, 0, 0, 0, .rw, .s, 0⟩,
   ⟨.mcStatus, 0, 7, 5, .ro, .sns, 0⟩,
   ⟨.mcStatus, 0, 4, 4, .ro, .sns, 0⟩],
  [⟨.mcStatus, 0, 3, 3, .w1c, .s, 0⟩,
   ⟨.mcStatus, 0, 2, 2, .ro, .sns, 0⟩,
   ⟨.mcStatus, 0, 1, 1, .ro, .sns, 0⟩,
   ⟨.mcStatus, 0, 0, 0, .ro, .sns, 0⟩,
   ⟨.mcRegion, 0, 31, 31, .rw, .s, 0⟩,
   ⟨.mcRegion, 0, 30, 16, .rw, .s, 0⟩,
   ⟨.mcRegion, 0, 15, 0, .rw, .s, 65535⟩,
   ⟨.mcRegion, 1, 19, 16, .rw, .s, 12⟩,
   ⟨.mcRegion, 1, 11, 0, .rw, .s, 0⟩,
   ⟨.mcPort, 0, 15, 0, .rw, .s, 0⟩,
   ⟨.mcActcfg, 0, 25, 24, .rw, .s, 1⟩,
   ⟨.mcActcfg, 0, 23, 16, .rw, .s, 32⟩],
  [⟨.mcActcfg, 0, 15, 0, .rw, .s, 1024⟩,
   ⟨.mcErrlog, 0, 31, 31, .w1c, .s, 0⟩,
   ⟨.mcErrlog, 0, 30, 28, .ro, .s, 0⟩,
   ⟨.mcErrlog, 0, 27, 24, .ro, .s, 0⟩,
   ⟨.mcErrlog, 0, 23, 23, .ro, .s, 0⟩,
   ⟨.mcErrlog, 0, 22, 19, .ro, .s, 0⟩,
   ⟨.mcErrlog, 0, 18, 3, .ro, .s, 0⟩,
   ⟨.lgCmd, 0, 31, 31, .wo, .ns, 0⟩,
   ⟨.lgCmd, 0, 30, 30, .ro, .ns, 0⟩,
   ⟨.lgCmd, 0, 29, 27, .ro, .ns, 0⟩,
   ⟨.lgCmd, 0, 19, 16, .rw, .ns, 0⟩,
   ⟨.lgCmd, 0, 15, 8, .rw, .ns, 0⟩],
  [⟨.lgCmd, 0, 2, 0, .rw, .ns, 0⟩,
   ⟨.lgHandle, 0, 31, 0, .rw, .ns, 0⟩,
   ⟨.lgArg, 0, 31, 0, .rw, .ns, 0⟩,
   ⟨.lgData, 0, 31, 0, .ro, .ns, 0⟩,
   ⟨.tcAttn, 0, 7, 0, .rw, .s, 0⟩,
   ⟨.svLease, 0, 4, 4, .ro, .s, 0⟩,
   ⟨.svLease, 0, 3, 3, .rw, .s, 0⟩,
   ⟨.svLease, 0, 2, 0, .rw, .s, 0⟩,
   ⟨.svStatus, 0, 15, 8, .ro, .sns, 0⟩,
   ⟨.svStatus, 0, 7, 2, .ro, .sns, 0⟩,
   ⟨.svStatus, 0, 1, 1, .ro, .sns, 0⟩,
   ⟨.svStatus, 0, 0, 0, .ro, .sns, 0⟩],
  [⟨.svRing0, 0, 19, 17, .rw, .s, 0⟩,
   ⟨.svRing0, 0, 16, 0, .rw, .s, 0⟩,
   ⟨.svRing1, 0, 22, 16, .rw, .s, 0⟩,
   ⟨.svRing1, 0, 9, 0, .rw, .s, 0⟩,
   ⟨.svDoorbell, 0, 7, 0, .wo, .ns, 0⟩,
   ⟨.svErr, 0, 31, 31, .w1c, .s, 0⟩,
   ⟨.svErr, 0, 30, 28, .ro, .s, 0⟩,
   ⟨.svErr, 0, 27, 22, .ro, .s, 0⟩,
   ⟨.svCnt, 0, 63, 0, .ro, .sns, 0⟩,
   ⟨.rtCtrl, 0, 1, 1, .wo, .s, 0⟩,
   ⟨.rtCtrl, 0, 0, 0, .rw, .s, 0⟩,
   ⟨.rtStatus, 0, 15, 8, .ro, .sns, 0⟩],
  [⟨.rtStatus, 0, 2, 2, .w1c, .s, 0⟩,
   ⟨.rtStatus, 0, 1, 1, .ro, .sns, 0⟩,
   ⟨.rtStatus, 0, 0, 0, .ro, .sns, 0⟩,
   ⟨.rtPart, 0, 11, 11, .ro, .sns, 0⟩,
   ⟨.rtPart, 0, 10, 10, .ro, .sns, 0⟩,
   ⟨.rtPart, 0, 9, 8, .ro, .sns, 0⟩,
   ⟨.rtPart, 0, 2, 0, .ro, .sns, 0⟩,
   ⟨.rtAbort, 0, 31, 31, .wo, .byRing, 0⟩,
   ⟨.rtAbort, 0, 30, 30, .ro, .byRing, 0⟩,
   ⟨.rtAbort, 0, 29, 28, .ro, .byRing, 0⟩,
   ⟨.rtAbort, 0, 23, 12, .rw, .byRing, 0⟩,
   ⟨.rtAbort, 0, 7, 0, .rw, .byRing, 0⟩],
  [⟨.rtTtbase, 0, 23, 0, .rw, .s, 0⟩,
   ⟨.rtCnt, 0, 63, 0, .ro, .sns, 0⟩,
   ⟨.rtRing, 0, 31, 31, .rw, .s, 0⟩,
   ⟨.rtRing, 0, 30, 30, .rw, .s, 0⟩,
   ⟨.rtRing, 0, 29, 27, .rw, .s, 0⟩,
   ⟨.rtRing, 0, 26, 23, .rw, .s, 0⟩,
   ⟨.rtRing, 1, 23, 0, .rw, .s, 0⟩,
   ⟨.rtRing, 2, 23, 0, .rw, .s, 0⟩,
   ⟨.rtRing, 3, 27, 16, .ro, .byRing, 0⟩,
   ⟨.rtRing, 3, 11, 0, .ro, .byRing, 0⟩,
   ⟨.rtRing, 4, 11, 0, .rw, .byRing, 0⟩,
   ⟨.rtDb, 0, 11, 0, .wo, .byRing, 0⟩],
  [⟨.rtWheel, 0, 31, 31, .rw, .byPartition, 0⟩,
   ⟨.rtWheel, 0, 30, 29, .rw, .byPartition, 0⟩,
   ⟨.rtWheel, 0, 28, 28, .rw, .byPartition, 0⟩,
   ⟨.rtWheel, 0, 27, 24, .rw, .byPartition, 0⟩,
   ⟨.rtWheel, 0, 7, 0, .rw, .byPartition, 0⟩,
   ⟨.rtWheel, 1, 16, 0, .rw, .byPartition, 0⟩,
   ⟨.rtWheel, 2, 19, 0, .rw, .byPartition, 0⟩,
   ⟨.rtWheel, 3, 19, 0, .rw, .byPartition, 0⟩,
   ⟨.rtGnet, 0, 31, 31, .rw, .s, 0⟩,
   ⟨.rtGnet, 0, 30, 30, .rw, .s, 0⟩,
   ⟨.rtGnet, 0, 29, 28, .ro, .s, 0⟩,
   ⟨.rtGnet, 0, 27, 27, .ro, .s, 0⟩],
  [⟨.rtGnet, 0, 7, 0, .rw, .s, 0⟩,
   ⟨.rtGnet, 1, 1, 0, .rw, .s, 0⟩,
   ⟨.rtGnet, 1, 3, 2, .rw, .s, 0⟩,
   ⟨.rtGnet, 1, 4, 4, .rw, .s, 0⟩,
   ⟨.rtGnet, 1, 5, 5, .w1c, .s, 0⟩,
   ⟨.rtGnet, 1, 9, 8, .rw, .s, 0⟩,
   ⟨.rtGnet, 1, 11, 10, .rw, .s, 0⟩,
   ⟨.rtGnet, 1, 12, 12, .rw, .s, 0⟩,
   ⟨.rtGnet, 1, 13, 13, .w1c, .s, 0⟩,
   ⟨.rtGnet, 1, 17, 16, .rw, .s, 0⟩,
   ⟨.rtGnet, 1, 19, 18, .rw, .s, 0⟩,
   ⟨.rtGnet, 1, 20, 20, .rw, .s, 0⟩],
  [⟨.rtGnet, 1, 21, 21, .w1c, .s, 0⟩,
   ⟨.rtGnet, 1, 25, 24, .rw, .s, 0⟩,
   ⟨.rtGnet, 1, 27, 26, .rw, .s, 0⟩,
   ⟨.rtGnet, 1, 28, 28, .rw, .s, 0⟩,
   ⟨.rtGnet, 1, 29, 29, .w1c, .s, 0⟩,
   ⟨.rtGnet, 2, 19, 0, .rw, .s, 0⟩,
   ⟨.rtGnet, 3, 19, 0, .rw, .s, 0⟩,
   ⟨.hpStatus, 0, 20, 16, .ro, .sns, 0⟩,
   ⟨.hpStatus, 0, 15, 8, .ro, .sns, 0⟩,
   ⟨.hpStatus, 0, 0, 0, .ro, .sns, 0⟩,
   ⟨.hpFeed, 0, 31, 0, .rw, .ns, 0⟩,
   ⟨.hpFeed, 1, 31, 31, .rw, .byFeed, 0⟩],
  [⟨.hpFeed, 1, 30, 30, .ro, .byFeed, 0⟩,
   ⟨.hpFeed, 1, 29, 28, .ro, .byFeed, 0⟩,
   ⟨.hpFeed, 1, 11, 0, .ro, .byFeed, 0⟩,
   ⟨.hpFeed, 2, 31, 0, .ro, .byFeed, 0⟩,
   ⟨.hpFeed, 3, 31, 0, .ro, .byFeed, 0⟩,
   ⟨.hpDb, 0, 11, 0, .wo, .byFeed, 0⟩,
   ⟨.hpRelease, 0, 11, 0, .wo, .byFeed, 0⟩,
   ⟨.hpAlarm, 0, 15, 8, .ro, .sns, 0⟩,
   ⟨.hpAlarm, 0, 7, 0, .w1c, .ns, 0⟩,
   ⟨.csiCtrl, 0, 4, 4, .rw, .ns, 0⟩,
   ⟨.csiCtrl, 0, 3, 2, .rw, .ns, 2⟩,
   ⟨.csiCtrl, 0, 1, 1, .rw, .ns, 0⟩],
  [⟨.csiCtrl, 0, 0, 0, .rw, .ns, 0⟩,
   ⟨.csiStatus, 0, 12, 9, .ro, .ns, 0⟩,
   ⟨.csiStatus, 0, 8, 5, .ro, .ns, 0⟩,
   ⟨.csiStatus, 0, 4, 4, .ro, .ns, 0⟩,
   ⟨.csiStatus, 0, 3, 3, .ro, .ns, 0⟩,
   ⟨.csiStatus, 0, 2, 2, .ro, .ns, 0⟩,
   ⟨.csiStatus, 0, 1, 1, .w1c, .ns, 0⟩,
   ⟨.csiStatus, 0, 0, 0, .ro, .ns, 0⟩,
   ⟨.ispSensor, 0, 31, 31, .rw, .ns, 0⟩,
   ⟨.ispSensor, 0, 30, 27, .rw, .ns, 0⟩,
   ⟨.ispSensor, 0, 26, 21, .rw, .ns, 43⟩,
   ⟨.ispSensor, 0, 20, 18, .rw, .ns, 1⟩],
  [⟨.ispSensor, 0, 17, 16, .rw, .ns, 0⟩,
   ⟨.ispSensor, 1, 31, 16, .rw, .ns, 0⟩,
   ⟨.ispSensor, 1, 15, 0, .rw, .ns, 0⟩,
   ⟨.ispSensor, 2, 15, 0, .rw, .ns, 0⟩,
   ⟨.ispSensor, 3, 19, 0, .rw, .ns, 0⟩,
   ⟨.ispSensor, 4, 31, 16, .rw, .ns, 0⟩,
   ⟨.ispSensor, 4, 15, 0, .rw, .ns, 0⟩,
   ⟨.ispSensor, 5, 15, 0, .rw, .ns, 0⟩,
   ⟨.os, 0, 31, 31, .rw, .ns, 0⟩,
   ⟨.os, 0, 30, 28, .ro, .ns, 0⟩,
   ⟨.os, 0, 27, 27, .rw, .ns, 0⟩,
   ⟨.os, 0, 26, 25, .rw, .ns, 0⟩],
  [⟨.os, 0, 24, 23, .rw, .ns, 0⟩,
   ⟨.os, 0, 22, 19, .rw, .ns, 0⟩,
   ⟨.os, 0, 18, 16, .rw, .ns, 0⟩,
   ⟨.os, 0, 15, 13, .rw, .ns, 0⟩,
   ⟨.os, 0, 12, 10, .rw, .ns, 0⟩,
   ⟨.os, 0, 9, 9, .rw, .ns, 0⟩,
   ⟨.os, 0, 8, 8, .rw, .ns, 0⟩,
   ⟨.os, 1, 15, 0, .rw, .ns, 0⟩,
   ⟨.os, 1, 31, 16, .rw, .ns, 0⟩,
   ⟨.os, 2, 15, 0, .rw, .ns, 0⟩,
   ⟨.os, 2, 31, 16, .rw, .ns, 0⟩,
   ⟨.os, 3, 15, 0, .rw, .ns, 0⟩],
  [⟨.os, 3, 31, 16, .rw, .ns, 0⟩,
   ⟨.os, 4, 23, 0, .rw, .ns, 0⟩,
   ⟨.os, 5, 19, 10, .rw, .ns, 0⟩,
   ⟨.os, 5, 9, 0, .rw, .ns, 0⟩,
   ⟨.os, 6, 31, 0, .rw, .ns, 0⟩,
   ⟨.os, 7, 15, 0, .rw, .ns, 0⟩,
   ⟨.os, 8, 31, 0, .rw, .ns, 0⟩,
   ⟨.os, 9, 31, 0, .rw, .ns, 0⟩,
   ⟨.os, 10, 31, 0, .rw, .ns, 0⟩,
   ⟨.os, 11, 31, 0, .rw, .ns, 0⟩,
   ⟨.os, 12, 31, 0, .rw, .ns, 0⟩,
   ⟨.os, 13, 31, 0, .rw, .ns, 0⟩],
  [⟨.os, 14, 31, 0, .rw, .ns, 0⟩,
   ⟨.os, 15, 31, 0, .ro, .ns, 0⟩,
   ⟨.osRelease, 0, 2, 0, .wo, .ns, 0⟩,
   ⟨.audStatus, 0, 6, 5, .ro, .ns, 0⟩,
   ⟨.audStatus, 0, 4, 4, .ro, .ns, 0⟩,
   ⟨.audStatus, 0, 3, 2, .ro, .ns, 0⟩,
   ⟨.audStatus, 0, 1, 1, .ro, .ns, 0⟩,
   ⟨.audStatus, 0, 0, 0, .ro, .ns, 0⟩,
   ⟨.audTrim, 0, 7, 0, .rw, .ns, 0⟩,
   ⟨.audStream, 0, 31, 31, .rw, .ns, 0⟩,
   ⟨.audStream, 0, 30, 28, .ro, .ns, 0⟩,
   ⟨.audStream, 0, 27, 25, .rw, .ns, 0⟩],
  [⟨.audStream, 0, 24, 19, .rw, .ns, 0⟩,
   ⟨.audStream, 0, 18, 17, .rw, .ns, 0⟩,
   ⟨.audStream, 0, 15, 0, .rw, .ns, 0⟩,
   ⟨.audStream, 1, 16, 0, .rw, .ns, 0⟩,
   ⟨.audStream, 2, 19, 10, .rw, .ns, 0⟩,
   ⟨.audStream, 2, 9, 0, .rw, .ns, 0⟩,
   ⟨.watchStatus, 0, 8, 8, .ro, .ns, 0⟩,
   ⟨.watchStatus, 0, 7, 7, .ro, .ns, 0⟩,
   ⟨.watchStatus, 0, 6, 3, .ro, .ns, 0⟩,
   ⟨.watchStatus, 0, 2, 0, .ro, .ns, 0⟩,
   ⟨.watchPull, 0, 31, 31, .wo, .ns, 0⟩,
   ⟨.watchPull, 0, 30, 30, .ro, .ns, 0⟩],
  [⟨.watchPull, 0, 29, 28, .ro, .ns, 0⟩,
   ⟨.watchPull, 0, 27, 18, .rw, .ns, 0⟩,
   ⟨.watchPull, 1, 31, 29, .rw, .ns, 0⟩,
   ⟨.watchPull, 1, 28, 12, .rw, .ns, 0⟩,
   ⟨.watchPull, 1, 11, 0, .rw, .ns, 0⟩,
   ⟨.watchPull, 2, 20, 0, .rw, .ns, 0⟩,
   ⟨.watchVerdict, 0, 1, 0, .wo, .ns, 0⟩,
   ⟨.watchSpan, 0, 31, 29, .rw, .watchWorld, 0⟩,
   ⟨.watchSpan, 0, 28, 12, .rw, .watchWorld, 0⟩,
   ⟨.watchSpan, 0, 10, 10, .rw, .watchWorld, 0⟩,
   ⟨.watchSpan, 0, 9, 0, .rw, .watchWorld, 0⟩,
   ⟨.doorStatus, 0, 23, 20, .ro, .ns, 0⟩],
  [⟨.doorStatus, 0, 19, 16, .ro, .ns, 0⟩,
   ⟨.doorStatus, 0, 15, 14, .ro, .ns, 0⟩,
   ⟨.doorStatus, 0, 13, 13, .ro, .ns, 0⟩,
   ⟨.doorStatus, 0, 12, 12, .ro, .ns, 0⟩,
   ⟨.doorStatus, 0, 11, 8, .ro, .ns, 0⟩,
   ⟨.doorStatus, 0, 7, 0, .ro, .ns, 0⟩,
   ⟨.doorLed, 0, 31, 31, .rw, .ns, 0⟩,
   ⟨.doorLed, 0, 27, 16, .rw, .ns, 0⟩,
   ⟨.doorLed, 0, 11, 0, .rw, .ns, 0⟩,
   ⟨.doorTouch, 0, 31, 16, .ro, .ns, 0⟩,
   ⟨.doorTouch, 0, 15, 0, .rw, .ns, 400⟩,
   ⟨.safeStatus, 0, 1, 1, .ro, .sns, 0⟩],
  [⟨.safeStatus, 0, 0, 0, .ro, .sns, 0⟩,
   ⟨.safeFault, 0, 4, 4, .w1c, .s, 0⟩,
   ⟨.safeFault, 0, 3, 3, .w1c, .s, 0⟩,
   ⟨.safeFault, 0, 2, 2, .w1c, .s, 0⟩,
   ⟨.safeFault, 0, 1, 1, .w1c, .s, 0⟩,
   ⟨.safeFault, 0, 0, 0, .w1c, .s, 0⟩,
   ⟨.cmpNet, 0, 31, 31, .rw, .s, 0⟩,
   ⟨.cmpNet, 0, 27, 24, .rw, .s, 0⟩,
   ⟨.cmpNet, 0, 16, 0, .rw, .s, 0⟩,
   ⟨.cmpNet, 1, 16, 0, .rw, .s, 0⟩,
   ⟨.cmpNet, 2, 31, 16, .rw, .s, 0⟩,
   ⟨.cmpNet, 2, 15, 8, .rw, .s, 1⟩],
  [⟨.cmpNet, 3, 31, 20, .rw, .s, 1000⟩,
   ⟨.cmpNet, 3, 19, 16, .rw, .s, 3⟩,
   ⟨.cmpNet, 3, 9, 0, .rw, .s, 0⟩,
   ⟨.ww, 0, 31, 31, .rw, .s, 0⟩,
   ⟨.ww, 0, 30, 30, .rw, .s, 0⟩,
   ⟨.ww, 0, 29, 28, .rw, .s, 0⟩,
   ⟨.ww, 0, 27, 25, .ro, .s, 0⟩,
   ⟨.ww, 0, 7, 0, .rw, .s, 0⟩,
   ⟨.ww, 1, 19, 0, .rw, .s, 0⟩,
   ⟨.ww, 2, 19, 0, .rw, .s, 0⟩,
   ⟨.ww, 3, 19, 0, .rw, .s, 0⟩,
   ⟨.wwKick, 0, 8, 8, .wo, .ns, 0⟩],
  [⟨.wwKick, 0, 4, 0, .wo, .ns, 0⟩,
   ⟨.safeInject, 0, 31, 31, .wo, .s, 0⟩,
   ⟨.safeInject, 0, 30, 29, .wo, .s, 0⟩,
   ⟨.safeInject, 0, 4, 0, .wo, .s, 0⟩,
   ⟨.secStatus, 0, 4, 3, .ro, .sns, 0⟩,
   ⟨.secStatus, 0, 2, 2, .ro, .sns, 0⟩,
   ⟨.secStatus, 0, 1, 1, .ro, .sns, 0⟩,
   ⟨.secStatus, 0, 0, 0, .ro, .sns, 0⟩,
   ⟨.secWmap, 0, 17, 17, .rw, .s, 0⟩,
   ⟨.secWmap, 0, 16, 16, .rw, .s, 0⟩,
   ⟨.secWmap, 0, 15, 0, .rw, .s, 0⟩,
   ⟨.brErrlog, 0, 63, 63, .w1c, .s, 0⟩],
  [⟨.brErrlog, 0, 62, 62, .ro, .s, 0⟩,
   ⟨.brErrlog, 0, 61, 61, .ro, .s, 0⟩,
   ⟨.brErrlog, 0, 60, 56, .ro, .s, 0⟩,
   ⟨.brErrlog, 0, 55, 52, .ro, .s, 0⟩,
   ⟨.brErrlog, 0, 23, 0, .ro, .s, 0⟩,
   ⟨.secMeas, 0, 31, 0, .wo, .s, 0⟩,
   ⟨.secUnwrap, 0, 23, 0, .rw, .s, 0⟩,
   ⟨.secUnwrap, 1, 23, 0, .rw, .s, 0⟩,
   ⟨.secUnwrap, 2, 31, 31, .wo, .s, 0⟩,
   ⟨.secUnwrap, 2, 30, 30, .ro, .s, 0⟩,
   ⟨.secUnwrap, 2, 29, 26, .ro, .s, 0⟩,
   ⟨.secUnwrap, 3, 31, 0, .ro, .s, 0⟩],
  [⟨.secKslot, 0, 31, 31, .wo, .bySlot, 0⟩,
   ⟨.secKslot, 0, 30, 30, .ro, .bySlot, 0⟩,
   ⟨.secKslot, 0, 29, 27, .ro, .bySlot, 0⟩,
   ⟨.secKslot, 0, 26, 25, .rw, .bySlot, 0⟩,
   ⟨.secKslot, 0, 24, 22, .rw, .bySlot, 0⟩,
   ⟨.secKslot, 0, 15, 8, .rw, .bySlot, 0⟩,
   ⟨.secKslot, 0, 7, 0, .rw, .bySlot, 0⟩,
   ⟨.secKslot, 1, 31, 0, .rw, .bySlot, 0⟩,
   ⟨.secKslot, 2, 31, 0, .rw, .bySlot, 0⟩,
   ⟨.br, 0, 31, 31, .rw, .s, 0⟩,
   ⟨.br, 0, 30, 30, .rw, .s, 0⟩,
   ⟨.br, 0, 29, 29, .rw, .s, 0⟩],
  [⟨.br, 0, 28, 28, .ro, .s, 0⟩,
   ⟨.br, 0, 27, 24, .rw, .s, 0⟩,
   ⟨.br, 1, 23, 0, .rw, .s, 0⟩,
   ⟨.br, 2, 23, 0, .rw, .s, 0⟩,
   ⟨.br, 3, 31, 30, .ro, .s, 0⟩,
   ⟨.chCmd, 0, 31, 31, .wo, .byChannel, 0⟩,
   ⟨.chCmd, 0, 30, 30, .ro, .byChannel, 0⟩,
   ⟨.chCmd, 0, 29, 29, .w1c, .byChannel, 0⟩,
   ⟨.chCmd, 0, 23, 16, .ro, .byChannel, 0⟩,
   ⟨.chCmd, 0, 8, 8, .rw, .byChannel, 0⟩,
   ⟨.chCmd, 0, 7, 0, .rw, .byChannel, 0⟩,
   ⟨.chObj, 0, 23, 8, .rw, .byChannel, 0⟩],
  [⟨.chObj, 0, 7, 0, .rw, .byChannel, 0⟩,
   ⟨.chLen, 0, 15, 0, .rw, .byChannel, 0⟩,
   ⟨.chOffset, 0, 15, 0, .rw, .byChannel, 0⟩,
   ⟨.chSeq, 0, 63, 0, .rw, .byChannel, 0⟩,
   ⟨.chInfo, 0, 31, 16, .ro, .byChannel, 0⟩,
   ⟨.chInfo, 0, 15, 8, .ro, .byChannel, 0⟩,
   ⟨.chInfo, 0, 7, 0, .rw, .byChannel, 0⟩,
   ⟨.hlCtrl, 0, 1, 1, .rw, .s, 0⟩,
   ⟨.hlCtrl, 0, 0, 0, .rw, .s, 1⟩,
   ⟨.hlStatus, 0, 11, 9, .ro, .sns, 0⟩,
   ⟨.hlStatus, 0, 8, 8, .ro, .sns, 0⟩,
   ⟨.hlStatus, 0, 7, 7, .w1c, .s, 0⟩],
  [⟨.hlStatus, 0, 6, 5, .ro, .sns, 0⟩,
   ⟨.hlStatus, 0, 4, 4, .ro, .sns, 0⟩,
   ⟨.hlStatus, 0, 1, 0, .ro, .sns, 0⟩,
   ⟨.rvStatus, 0, 31, 16, .ro, .sns, 0⟩,
   ⟨.rvStatus, 0, 7, 5, .ro, .sns, 0⟩,
   ⟨.rvStatus, 0, 4, 3, .ro, .sns, 0⟩,
   ⟨.rvStatus, 0, 2, 2, .ro, .sns, 0⟩,
   ⟨.rvStatus, 0, 1, 1, .ro, .sns, 0⟩,
   ⟨.rvStatus, 0, 0, 0, .ro, .sns, 0⟩,
   ⟨.rvPmbmap, 0, 9, 9, .rw, .s, 0⟩,
   ⟨.rvPmbmap, 0, 8, 8, .rw, .s, 0⟩,
   ⟨.rvPmbmap, 0, 7, 7, .rw, .s, 0⟩],
  [⟨.rvPmbmap, 0, 6, 0, .rw, .s, 0⟩,
   ⟨.pwrStatus, 0, 23, 16, .ro, .sns, 0⟩,
   ⟨.pwrStatus, 0, 15, 12, .ro, .sns, 0⟩,
   ⟨.pwrStatus, 0, 8, 8, .w1c, .s, 0⟩,
   ⟨.pwrStatus, 0, 7, 7, .w1c, .s, 0⟩,
   ⟨.pwrStatus, 0, 6, 6, .ro, .sns, 0⟩,
   ⟨.pwrStatus, 0, 5, 5, .ro, .sns, 0⟩,
   ⟨.pwrStatus, 0, 4, 4, .ro, .sns, 0⟩,
   ⟨.pwrStatus, 0, 3, 3, .ro, .sns, 0⟩,
   ⟨.pwrStatus, 0, 2, 0, .ro, .sns, 0⟩,
   ⟨.pwrPg0, 0, 31, 0, .ro, .sns, 0⟩,
   ⟨.pwrPg1, 0, 17, 0, .ro, .sns, 0⟩],
  [⟨.pwrWakePend, 0, 10, 1, .ro, .sns, 0⟩,
   ⟨.clkStatus, 0, 23, 13, .ro, .sns, 0⟩,
   ⟨.clkStatus, 0, 3, 3, .w1c, .s, 0⟩,
   ⟨.clkStatus, 0, 2, 2, .ro, .sns, 0⟩,
   ⟨.clkStatus, 0, 1, 1, .ro, .sns, 0⟩,
   ⟨.clkStatus, 0, 0, 0, .ro, .sns, 0⟩,
   ⟨.clkEn, 0, 14, 0, .rw, .s, 0⟩,
   ⟨.clkTcsel, 0, 31, 31, .wo, .s, 0⟩,
   ⟨.clkTcsel, 0, 30, 30, .ro, .s, 0⟩,
   ⟨.clkTcsel, 0, 29, 28, .ro, .s, 0⟩,
   ⟨.clkTcsel, 0, 11, 4, .ro, .s, 240⟩,
   ⟨.clkTcsel, 0, 3, 3, .rw, .s, 0⟩],
  [⟨.clkTcsel, 0, 2, 0, .rw, .s, 0⟩,
   ⟨.clkSsc, 0, 14, 8, .rw, .s, 40⟩,
   ⟨.clkSsc, 0, 4, 0, .rw, .s, 0⟩,
   ⟨.clkFail, 0, 15, 0, .ro, .s, 0⟩,
   ⟨.rstStatus, 0, 11, 11, .ro, .sns, 0⟩,
   ⟨.rstStatus, 0, 10, 10, .w1c, .s, 0⟩,
   ⟨.rstStatus, 0, 9, 9, .ro, .sns, 0⟩,
   ⟨.rstStatus, 0, 8, 6, .ro, .sns, 0⟩,
   ⟨.rstStatus, 0, 2, 0, .ro, .sns, 1⟩,
   ⟨.rstCtrl, 0, 31, 31, .wo, .s, 0⟩,
   ⟨.rstCtrl, 0, 8, 8, .wo, .s, 0⟩,
   ⟨.rstCtrl, 0, 2, 0, .wo, .s, 0⟩]]

/-- The row of a field. -/
def Fld.desc (f : Fld) : FldDesc := Fld.rows.getD f.ctorIdx ⟨.tcCtrl, 0, 0, 0, .ro, .s, 0⟩

/-- The width of a field in bits. -/
def Fld.width (f : Fld) : Nat := f.desc.hi + 1 - f.desc.lo

/-- Every field, in the order of the register maps. -/
def Fld.all : List Fld :=
  List.flatten [
  [.tcCtrlTrace, .tcCtrlHalt, .tcCtrlRun, .tcStatusLasttag, .tcStatusSbused, .tcStatusHlease, .tcStatusFpos, .tcStatusFwidth, .tcStatusWaitsb, .tcStatusWaittally, .tcStatusWaitdma, .tcStatusFault, .tcStatusHalted, .tcStatusBusy, .tcFaultValid, .tcFaultCode, .tcFaultTag, .faultInfoMember, .faultInfoMcode, .faultInfoWhere, .tcOptabOptbase, .tcPerfCount, .hearthCfgSplit, .hearthStateGen, .hearthStateLeases, .hearthStateKind, .hearthStatePhase, .hearthStateDirty, .hearthStatePinned, .hearthCntCount, .binCtrlScrubEn, .binCtrlCeWb, .binCtrlInit, .binStatusSparesMin, .binStatusDegraded, .binStatusRepairing, .binStatusInitbusy, .binStatusReady, .binSlotenEn, .binSlotmapSlot],
  [.binScrubInterval, .binErrcntCount, .binErrlogValid, .binErrlogType, .binErrlogBank, .binErrlogRow, .binErrlogPort, .binRepairGo, .binRepairBusy, .binRepairResult, .binRepairBank, .binRepairRow, .binRmapSelIndex, .binRmapDataUsed, .binRmapDataField, .binRmapDataRow, .binGateOpen, .binGateState, .binGateOpenfail, .binGateBase, .binGateLen, .binGateKeyslot, .binGateSrcmask, .binGateTally, .binGateReject, .binTallyCount, .urCtrlSheafWr, .urCtrlMigEn, .urStatusGqDrain, .urStatusGqOut, .urStatusReady, .urQuotaWays, .urPinPage, .urPinGo, .urPinOp, .urPinQuota, .urPinCount, .urPinBusy, .urPinResult, .urPinDone],
  [.urPstateSelPage, .urPstateDataQ, .urPstateDataSheaf, .urPstateDataForm, .urPstateDataLen, .urDirSelFrame, .urDirDataEntry, .urQlogValid, .urQlogCause, .urQlogPage, .urCntCount, .mcCtrlRfmEn, .mcCtrlRetrainEn, .mcCtrlMaplock, .mcStatusRate, .mcStatusRfmAvail, .mcStatusCfgerr, .mcStatusTrainfail, .mcStatusSelfref, .mcStatusReady, .mcRegionEn, .mcRegionBase, .mcRegionChset, .mcRegionGrain, .mcRegionChbase, .mcPortTarget, .mcActcfgNeighbours, .mcActcfgWindow, .mcActcfgThreshold, .mcErrlogValid, .mcErrlogType, .mcErrlogChannel, .mcErrlogRank, .mcErrlogBank, .mcErrlogRow, .lgCmdGo, .lgCmdBusy, .lgCmdResult, .lgCmdOp, .lgCmdType],
  [.lgCmdPart, .lgHandleValue, .lgArgValue, .lgDataWord, .tcAttnAttnbase, .svLeasePending, .svLeaseEn, .svLeasePart, .svStatusQueued, .svStatusHead, .svStatusBusy, .svStatusReady, .svRing0Bin, .svRing0Base, .svRing1Depth, .svRing1Tally, .svDoorbellAdd, .svErrValid, .svErrCode, .svErrSlot, .svCntCount, .rtCtrlApply, .rtCtrlEn, .rtStatusActive, .rtStatusCfgerr, .rtStatusApplying, .rtStatusReady, .rtPartFurrow, .rtPartWorld, .rtPartSize, .rtPartBase, .rtAbortGo, .rtAbortBusy, .rtAbortResult, .rtAbortIndex, .rtAbortRing, .rtTtbasePage, .rtCntCount, .rtRingEn, .rtRingWorld],
  [.rtRingPart, .rtRingDepth, .rtRingSqpage, .rtRingCqpage, .rtRingCqtail, .rtRingSqhead, .rtRingCqhead, .rtDbTail, .rtWheelEn, .rtWheelClass, .rtWheelMode, .rtWheelCore, .rtWheelRing, .rtWheelSlice, .rtWheelPeriod, .rtWheelOffset, .rtGnetEn, .rtGnetMode, .rtGnetActive, .rtGnetNopair, .rtGnetRing, .rtGnetPair0West, .rtGnetPair0East, .rtGnetPair0Valid, .rtGnetPair0Suspect, .rtGnetPair1West, .rtGnetPair1East, .rtGnetPair1Valid, .rtGnetPair1Suspect, .rtGnetPair2West, .rtGnetPair2East, .rtGnetPair2Valid, .rtGnetPair2Suspect, .rtGnetPair3West, .rtGnetPair3East, .rtGnetPair3Valid, .rtGnetPair3Suspect, .rtGnetPeriod, .rtGnetOffset, .hpStatusLanes],
  [.hpStatusActive, .hpStatusReady, .hpFeedHandle, .hpFeedEn, .hpFeedStopping, .hpFeedResult, .hpFeedHead, .hpFeedAvg, .hpFeedVoids, .hpDbValue, .hpReleaseValue, .hpAlarmEdge, .hpAlarmLow, .csiCtrlMode, .csiCtrlLanes, .csiCtrlCamEn, .csiCtrlEn, .csiStatusPresent, .csiStatusInframe, .csiStatusHpd, .csiStatusDeskewed, .csiStatusHs, .csiStatusOverflow, .csiStatusReady, .ispSensorEn, .ispSensorVc, .ispSensorDt, .ispSensorMosaic, .ispSensorPhase, .ispSensorHeight, .ispSensorWidth, .ispSensorBlack, .ispSensorPeriod, .ispSensorKg, .ispSensorKr, .ispSensorKb, .osEn, .osResult, .osDual, .osFmt],
  [.osPlane, .osSensor, .osBin, .osBin2, .osNbuf, .osRange, .osMatrix, .osCropx, .osCropy, .osCropw, .osCroph, .osOutw, .osOuth, .osBase, .osRelease, .osTally, .osOscale, .osOzp, .osMean0, .osMean1, .osMean2, .osIstd0, .osIstd1, .osIstd2, .osRing, .osFrameno, .osReleaseAdd, .audStatusHpd, .audStatusMuted, .audStatusPdmrun, .audStatusReflock, .audStatusReady, .audTrimTrim, .audStreamEn, .audStreamResult, .audStreamBin, .audStreamNbuf, .audStreamRefs, .audStreamChmask, .audStreamBase],
  [.audStreamRelease, .audStreamTally, .watchStatusWakeOff, .watchStatusVoice, .watchStatusMic, .watchStatusLock, .watchPullGo, .watchPullBusy, .watchPullResult, .watchPullTally, .watchPullBin, .watchPullBase, .watchPullCount, .watchPullStart, .watchVerdictVerdict, .watchSpanBin, .watchSpanBase, .watchSpanEn, .watchSpanTally, .doorStatusShut, .doorStatusCamhpd, .doorStatusMichpd, .doorStatusMute, .doorStatusPriv, .doorStatusBtn, .doorStatusTouch, .doorLedEn, .doorLedRamp, .doorLedDuty, .doorTouchCount, .doorTouchThreshold, .safeStatusNfault, .safeStatusReady, .safeFaultSelftest, .safeFaultDramTrain, .safeFaultClock, .safeFaultWatchdog, .safeFaultSuspect, .cmpNetEn, .cmpNetFmt],
  [.cmpNetBase, .cmpNetCount, .cmpNetThresh, .cmpNetTol, .cmpNetWindow, .cmpNetSuspect, .cmpNetOtally, .wwEn, .wwAction, .wwArm, .wwState, .wwSrc, .wwOpen, .wwClose, .wwLimit, .wwKickArm, .wwKickWw, .safeInjectGo, .safeInjectKind, .safeInjectTarget, .secStatusLevel, .secStatusDebugged, .secStatusRootOk, .secStatusReady, .secWmapWatch, .secWmapAud, .secWmapOs, .brErrlogValid, .brErrlogWrite, .brErrlogModel, .brErrlogInit, .brErrlogSpace, .brErrlogUnit, .secMeasWord, .secUnwrapSrc, .secUnwrapDst, .secUnwrapGo, .secUnwrapBusy, .secUnwrapResult, .secUnwrapDone],
  [.secKslotGo, .secKslotBusy, .secKslotResult, .secKslotOp, .secKslotPart, .secKslotSrc, .secKslotSlot, .secKslotContextLo, .secKslotContextHi, .brEn, .brWorld, .brModel, .brBusy, .brSpace, .brBase, .brLimit, .brResult, .chCmdGo, .chCmdBusy, .chCmdDone, .chCmdCode, .chCmdLast, .chCmdOp, .chObjIndex, .chObjSub, .chLenLen, .chOffsetOffset, .chSeqSeq, .chInfoRepeat, .chInfoType, .chInfoCount, .hlCtrlRate16, .hlCtrlEn, .hlStatusPeer, .hlStatusPeermaster, .hlStatusCascadeFault, .hlStatusWidth, .hlStatusRate, .hlStatusState, .rvStatusTmax],
  [.rvStatusUpd, .rvStatusStep, .rvStatusRestricted, .rvStatusGov, .rvStatusReady, .rvPmbmapMill, .rvPmbmapPackage, .rvPmbmapEn, .rvPmbmapAddr, .pwrStatusQueued, .pwrStatusLastsrc, .pwrStatusRegfail, .pwrStatusBrownout, .pwrStatusRegOk, .pwrStatusRegLp, .pwrStatusResuming, .pwrStatusEntering, .pwrStatusState, .pwrPg0Pg, .pwrPg1Pg, .pwrWakePendPend, .clkStatusLock, .clkStatusRefused, .clkStatusReeveLosc, .clkStatusHeld, .clkStatusFail, .clkEnEn, .clkTcselGo, .clkTcselBusy, .clkTcselResult, .clkTcselSel, .clkTcselSrc, .clkTcselCore, .clkSscRate, .clkSscDepth, .clkFailSrc, .rstStatusRecovery, .rstStatusMerged, .rstStatusMasterSel, .rstStatusCascadeId],
  [.rstStatusCause, .rstCtrlWarm, .rstCtrlPgo, .rstCtrlPart]]

/-- Where a register lies in the physical address map (R110): `blocks` blocks `blockStride` apart from `base`, and in each
block `count` registers `stride` apart, each of `words` 32-bit words. -/
structure RegPlace where
  base : Nat
  blocks : Nat
  blockStride : Nat
  count : Nat
  stride : Nat
  words : Nat
deriving DecidableEq, Repr

/-- The places of the registers, in the order of `Reg`. -/
def Reg.places : List RegPlace :=
  List.flatten [
  [⟨0x02000000, 8, 0x1000, 1, 0x0, 1⟩,
   ⟨0x02000004, 8, 0x1000, 1, 0x0, 1⟩,
   ⟨0x02000008, 8, 0x1000, 1, 0x0, 1⟩,
   ⟨0x0200000C, 8, 0x1000, 1, 0x0, 1⟩,
   ⟨0x02000010, 8, 0x1000, 1, 0x0, 1⟩,
   ⟨0x02000020, 8, 0x1000, 4, 0x8, 2⟩,
   ⟨0x02000100, 8, 0x1000, 1, 0x0, 1⟩,
   ⟨0x02000104, 8, 0x1000, 4, 0x4, 1⟩,
   ⟨0x02000120, 8, 0x1000, 4, 0x8, 2⟩,
   ⟨0x02010000, 8, 0x2000, 1, 0x0, 1⟩,
   ⟨0x02010004, 8, 0x2000, 1, 0x0, 1⟩,
   ⟨0x02010010, 8, 0x2000, 1, 0x0, 1⟩],
  [⟨0x02010014, 8, 0x2000, 2, 0x4, 1⟩,
   ⟨0x0201001C, 8, 0x2000, 1, 0x0, 1⟩,
   ⟨0x02010040, 8, 0x2000, 5, 0x8, 2⟩,
   ⟨0x02010068, 8, 0x2000, 1, 0x0, 1⟩,
   ⟨0x02010070, 8, 0x2000, 1, 0x0, 1⟩,
   ⟨0x02010078, 8, 0x2000, 1, 0x0, 1⟩,
   ⟨0x0201007C, 8, 0x2000, 1, 0x0, 1⟩,
   ⟨0x02010800, 8, 0x2000, 64, 0x10, 4⟩,
   ⟨0x02011000, 8, 0x2000, 1024, 0x4, 1⟩,
   ⟨0x02020000, 1, 0x0, 1, 0x0, 1⟩,
   ⟨0x02020004, 1, 0x0, 1, 0x0, 1⟩,
   ⟨0x02020010, 1, 0x0, 9, 0x4, 1⟩],
  [⟨0x02020040, 1, 0x0, 1, 0x0, 3⟩,
   ⟨0x02020050, 1, 0x0, 1, 0x0, 1⟩,
   ⟨0x02020054, 1, 0x0, 1, 0x0, 1⟩,
   ⟨0x02020060, 1, 0x0, 1, 0x0, 1⟩,
   ⟨0x02020064, 1, 0x0, 1, 0x0, 1⟩,
   ⟨0x02020070, 1, 0x0, 1, 0x0, 1⟩,
   ⟨0x02020080, 1, 0x0, 6, 0x8, 2⟩,
   ⟨0x02030000, 1, 0x0, 1, 0x0, 1⟩,
   ⟨0x02030004, 1, 0x0, 1, 0x0, 1⟩,
   ⟨0x02030040, 1, 0x0, 8, 0x8, 2⟩,
   ⟨0x02030100, 1, 0x0, 16, 0x4, 1⟩,
   ⟨0x02030180, 1, 0x0, 1, 0x0, 1⟩],
  [⟨0x02030190, 1, 0x0, 1, 0x0, 1⟩,
   ⟨0x02048000, 1, 0x0, 1, 0x0, 1⟩,
   ⟨0x02048004, 1, 0x0, 1, 0x0, 1⟩,
   ⟨0x02048008, 1, 0x0, 3, 0x4, 1⟩,
   ⟨0x02048040, 1, 0x0, 16, 0x4, 1⟩,
   ⟨0x02000140, 8, 0x1000, 1, 0x0, 1⟩,
   ⟨0x0204C000, 1, 0x0, 1, 0x0, 1⟩,
   ⟨0x0204C004, 1, 0x0, 1, 0x0, 1⟩,
   ⟨0x0204C010, 1, 0x0, 1, 0x0, 1⟩,
   ⟨0x0204C014, 1, 0x0, 1, 0x0, 1⟩,
   ⟨0x0204C018, 1, 0x0, 1, 0x0, 1⟩,
   ⟨0x0204C020, 1, 0x0, 1, 0x0, 1⟩],
  [⟨0x0204C040, 1, 0x0, 4, 0x8, 2⟩,
   ⟨0x02040000, 1, 0x0, 1, 0x0, 1⟩,
   ⟨0x02040004, 1, 0x0, 1, 0x0, 1⟩,
   ⟨0x02040010, 1, 0x0, 8, 0x4, 1⟩,
   ⟨0x02040020, 1, 0x0, 1, 0x0, 1⟩,
   ⟨0x02040040, 1, 0x0, 8, 0x4, 1⟩,
   ⟨0x02040080, 1, 0x0, 6, 0x8, 2⟩,
   ⟨0x02041000, 1, 0x0, 256, 0x20, 5⟩,
   ⟨0x02043000, 1, 0x0, 256, 0x4, 1⟩,
   ⟨0x02044000, 1, 0x0, 512, 0x10, 4⟩,
   ⟨0x02046000, 1, 0x0, 16, 0x10, 4⟩,
   ⟨0x03100004, 1, 0x0, 1, 0x0, 1⟩],
  [⟨0x03100100, 1, 0x0, 8, 0x10, 4⟩,
   ⟨0x03100200, 1, 0x0, 8, 0x4, 1⟩,
   ⟨0x03100240, 1, 0x0, 8, 0x4, 1⟩,
   ⟨0x03100300, 1, 0x0, 1, 0x0, 1⟩,
   ⟨0x03200000, 1, 0x0, 4, 0x10, 1⟩,
   ⟨0x03200004, 1, 0x0, 4, 0x10, 1⟩,
   ⟨0x03200100, 1, 0x0, 16, 0x20, 6⟩,
   ⟨0x03200400, 1, 0x0, 16, 0x40, 16⟩,
   ⟨0x03200800, 1, 0x0, 16, 0x4, 1⟩,
   ⟨0x03300004, 1, 0x0, 1, 0x0, 1⟩,
   ⟨0x03300040, 1, 0x0, 16, 0x4, 1⟩,
   ⟨0x03300100, 1, 0x0, 1, 0x0, 3⟩],
  [⟨0x03300200, 1, 0x0, 1, 0x0, 1⟩,
   ⟨0x03300210, 1, 0x0, 1, 0x0, 3⟩,
   ⟨0x03300220, 1, 0x0, 1, 0x0, 1⟩,
   ⟨0x03300228, 1, 0x0, 1, 0x0, 1⟩,
   ⟨0x03400000, 1, 0x0, 1, 0x0, 1⟩,
   ⟨0x03400040, 1, 0x0, 6, 0x4, 1⟩,
   ⟨0x03400080, 1, 0x0, 8, 0x4, 1⟩,
   ⟨0x03500000, 1, 0x0, 1, 0x0, 1⟩,
   ⟨0x03500004, 1, 0x0, 1, 0x0, 1⟩,
   ⟨0x03500100, 1, 0x0, 16, 0x10, 4⟩,
   ⟨0x03500400, 1, 0x0, 32, 0x10, 4⟩,
   ⟨0x03500600, 1, 0x0, 1, 0x0, 1⟩],
  [⟨0x03500700, 1, 0x0, 1, 0x0, 1⟩,
   ⟨0x03600000, 1, 0x0, 1, 0x0, 1⟩,
   ⟨0x03600008, 1, 0x0, 1, 0x0, 1⟩,
   ⟨0x03600010, 1, 0x0, 1, 0x0, 2⟩,
   ⟨0x03600020, 1, 0x0, 16, 0x4, 1⟩,
   ⟨0x03600040, 1, 0x0, 1, 0x0, 4⟩,
   ⟨0x03600060, 1, 0x0, 1, 0x0, 3⟩,
   ⟨0x03601000, 1, 0x0, 256, 0x10, 4⟩,
   ⟨0x01000000, 16, 0x1000, 1, 0x0, 1⟩,
   ⟨0x01000004, 16, 0x1000, 1, 0x0, 1⟩,
   ⟨0x01000008, 16, 0x1000, 1, 0x0, 1⟩,
   ⟨0x0100000C, 16, 0x1000, 1, 0x0, 1⟩],
  [⟨0x01000010, 16, 0x1000, 1, 0x0, 2⟩,
   ⟨0x01000018, 16, 0x1000, 1, 0x0, 1⟩,
   ⟨0x03700000, 1, 0x0, 2, 0x40, 1⟩,
   ⟨0x03700004, 1, 0x0, 2, 0x40, 1⟩,
   ⟨0x03800000, 1, 0x0, 1, 0x0, 1⟩,
   ⟨0x03800010, 1, 0x0, 8, 0x4, 1⟩,
   ⟨0x03900000, 1, 0x0, 1, 0x0, 1⟩,
   ⟨0x03900010, 1, 0x0, 1, 0x0, 1⟩,
   ⟨0x03900014, 1, 0x0, 1, 0x0, 1⟩,
   ⟨0x03900020, 1, 0x0, 1, 0x0, 1⟩,
   ⟨0x03A00000, 1, 0x0, 1, 0x0, 1⟩,
   ⟨0x03A00004, 1, 0x0, 1, 0x0, 1⟩],
  [⟨0x03A00010, 1, 0x0, 1, 0x0, 1⟩,
   ⟨0x03A00020, 1, 0x0, 4, 0x4, 1⟩,
   ⟨0x03A00030, 1, 0x0, 1, 0x0, 1⟩,
   ⟨0x03B00000, 1, 0x0, 1, 0x0, 1⟩,
   ⟨0x03B00004, 1, 0x0, 1, 0x0, 1⟩]]

/-- The place of a register. -/
def Reg.place (r : Reg) : RegPlace := Reg.places.getD r.ctorIdx ⟨0, 0, 0, 0, 0, 0⟩

/-- Every register, in the order in which an address is looked up.  `rtAbort` stands before `rtPart`, since the maps of R235
give offset 0x020 both to RT_ABORT and to RT_PART4 (assumption 10). -/
def Reg.all : List Reg :=
  List.flatten [
  [.tcCtrl, .tcStatus, .tcFault, .faultInfo, .tcOptab, .tcPerf, .hearthCfg, .hearthState, .hearthCnt, .binCtrl, .binStatus, .binSloten, .binSlotmap, .binScrub, .binErrcnt, .binErrlog, .binRepair, .binRmapSel, .binRmapData, .binGate],
  [.binTally, .urCtrl, .urStatus, .urQuota, .urPin, .urPstateSel, .urPstateData, .urDirSel, .urDirData, .urQlog, .urCnt, .mcCtrl, .mcStatus, .mcRegion, .mcPort, .mcActcfg, .mcErrlog, .lgCmd, .lgHandle, .lgArg],
  [.lgData, .tcAttn, .svLease, .svStatus, .svRing0, .svRing1, .svDoorbell, .svErr, .svCnt, .rtCtrl, .rtStatus, .rtAbort, .rtPart, .rtTtbase, .rtCnt, .rtRing, .rtDb, .rtWheel, .rtGnet, .hpStatus],
  [.hpFeed, .hpDb, .hpRelease, .hpAlarm, .csiCtrl, .csiStatus, .ispSensor, .os, .osRelease, .audStatus, .audTrim, .audStream, .watchStatus, .watchPull, .watchVerdict, .watchSpan, .doorStatus, .doorLed, .doorTouch, .safeStatus],
  [.safeFault, .cmpNet, .ww, .wwKick, .safeInject, .secStatus, .secWmap, .brErrlog, .secMeas, .secUnwrap, .secKslot, .br, .chCmd, .chObj, .chLen, .chOffset, .chSeq, .chInfo, .hlCtrl, .hlStatus],
  [.rvStatus, .rvPmbmap, .pwrStatus, .pwrPg0, .pwrPg1, .pwrWakePend, .clkStatus, .clkEn, .clkTcsel, .clkSsc, .clkFail, .rstStatus, .rstCtrl]]

end Sys2Proof.Machine
end

