-- ==== Sys2Proof/Machine/Objs.lean ====
section
/-!
DEFINITION. The Almanac objects of the FY8640, as the object tables of the spec list them (R65, R84, R109, R131, R148, R173,
R189, R211, R236, R252, R270, R288, R299, R318, R337, R368, R383, R404, R422, R434, R444).  The result-ring objects
0x1rrr of R346 are held with their rings.
-/
namespace Sys2Proof.Machine

/-- The value types of R339 that the object tables use. -/
inductive ObjType where
  | bool | u8 | u16 | u32 | u64 | i16 | i32 | f32 | time64 | handle32 | str | blob
deriving DecidableEq, Repr

/-- The value an object holds: a number (kept as its unsigned bits) or bytes. -/
inductive Val where
  | num (n : Nat)
  | bytes (b : List (BitVec 8))
deriving DecidableEq, Repr

/-- The number an object's value holds; bytes hold none. -/
def Val.toNat : Val → Nat
  | .num n => n
  | .bytes _ => 0

/-- The bytes an object's value holds; a number holds none. -/
def Val.toBytes : Val → List (BitVec 8)
  | .num _ => []
  | .bytes b => b

/-- The Almanac objects, one constructor for each row of an object table. -/
inductive Obj where
  | adaptEn
  | holdSteps
  | scaleMin
  | scaleMax
  | satAlarm
  | adaptFreeze
  | grow
  | shrink
  | satElems
  | clamp
  | nanElems
  | accSat
  | spillSlots
  | pinMax
  | hearthSplit
  | leasesLive
  | swaps
  | refused
  | stateLost
  | scrubInterval
  | rowCeLimit
  | sparesLeft
  | binDegraded
  | ceCount
  | ueCount
  | gateRejects
  | migPromote
  | migPromoteMin
  | migPromoteMax
  | migDecay
  | victimMax
  | gqRetireCe
  | gqUeLimit
  | gqOut
  | quarantined
  | fallbacks
  | dramRate
  | portTarget
  | actThreshold
  | actWindow
  | neighbours
  | rfmEn
  | retrainMs
  | dramChset
  | lateReq
  | linkCe
  | linkUe
  | neighbourRefreshes
  | ledgerFree
  | ledgerMisses
  | ledgerBase
  | kvMaxTokens
  | lengthRefused
  | attnSkipped
  | scanRowsteps
  | scanResets
  | scanNonfinite
  | sieveLease
  | sieveCalls
  | sieveFails
  | sieveCapped
  | partBase
  | partSize
  | partWorld
  | partFurrow
  | partWays
  | partApply
  | dispatches
  | preemptions
  | switchMax
  | stileGapMax
  | stileOver
  | missedRelease
  | pinShort
  | selftestDeferred
  | cqWriteFails
  | samples
  | voidSamples
  | batches
  | lowAlarms
  | edgeTime
  | ringOver
  | camColour
  | camStats
  | lossTimeout
  | crcErrors
  | hdrErrors
  | unmapped
  | unsupported
  | overflows
  | frames
  | notOk
  | skipped
  | audioWakeEn
  | wakeThreshold
  | vadThreshold
  | listenOrder
  | spanMs
  | verifyMs
  | wakeOnMicLoss
  | audRate
  | audTdm
  | wakeModelId
  | wakes
  | wakesAccepted
  | wakesIgnored
  | verdictLate
  | micChanges
  | audSkipped
  | beamBase
  | beamPages
  | btnDebounceMs
  | longpressMs
  | touchPeriodMs
  | hpdDebounceMs
  | doorWakeMask
  | ledPwmHz
  | cmpWithheld
  | cmpDataFail
  | wwFaults
  | wwLate
  | selftestMaxMs
  | selftestLast
  | selftestOverdue
  | marchSkipped
  | vendor
  | part
  | stepping
  | identityPub
  | agreePub
  | vendorCert
  | attestNonce
  | attestReport
  | rootOk
  | debugLevel
  | brFaults
  | unwraps
  | unwrapFails
  | configSeq
  | macAddr
  | ipv4Addr
  | ipv4Mask
  | ipv4Gw
  | crierPort
  | vlanId
  | ethRole
  | crierOpenEn
  | sessionMax
  | timeMode
  | timeSynced
  | sessionsOpen
  | crcDrops
  | tagDrops
  | duplicates
  | ringDrops
  | save
  | restore
  | saveState
  | cascadeId
  | master
  | members
  | timeAligned
  | timeOffset
  | hlReplyTimeout
  | cascadeWakeAll
  | replays
  | keyRejects
  | linkDrops
  | tclkMaxStep
  | throttleC
  | throttleHyst
  | powerCapW
  | avsEn
  | tclkStep
  | vddMillMv
  | pkgPowerMw
  | temp
  | stepChanges
  | govOverruns
  | logNext
  | logOldest
  | logSelect
  | logBlock
  | logSuppressed
  | updCmd
  | updKind
  | updLen
  | updOffset
  | updData
  | updState
  | updResult
  | slotSeq
  | slotActive
  | dozeTimerMs
  | dozeTimerMaxMs
  | dozeTimerEff
  | restTimerS
  | listenTimerS
  | pwrDeepest
  | inrushBudget
  | pwrState
  | lastWakeSource
  | lastWakeTime
  | lastWakeFrom
  | lastWakeArg
  | lastWakeReplayed
  | wakeAlarm
  | brownouts
  | wakesReplayed
  | regFails
  | clkEnBoot
  | clkReturnMs
  | sscDepth
  | sscRate
  | clkFails
  | gatedAccesses
  | tclkSwitches
  | resetCause
  | warmResets
  | partResets
  | resetLostCq
  | startTime
deriving DecidableEq, Repr

/-- The row of an object: its index, its sub-indices from `subLo` to `subHi`, and the codes and default of the table. -/
structure ObjDesc where
  index : Nat
  subLo : Nat
  subHi : Nat
  type : ObjType
  access : Access
  world : WorldCode
  default : Val
  persistent : Bool
deriving DecidableEq, Repr

/-- The bytes of an ASCII text. -/
def asciiBytes (t : String) : List (BitVec 8) := t.toList.map (fun c => BitVec.ofNat 8 c.toNat)

/-- The rows of the objects, in the order of `Obj`.  A default given as "—" is 0 or no bytes here (DESIGN CHOICE, assumption 12); defaults that
depend on the sub-index stand in `Obj.reset`. -/
def Obj.rows : List ObjDesc :=
  List.flatten [
  [⟨0x0C30, 0x01, 0x08, .bool, .rw, .byPartition, .num 1, true⟩,
   ⟨0x0C31, 0x01, 0x08, .u16, .rw, .byPartition, .num 16, true⟩,
   ⟨0x0C32, 0x01, 0x08, .f32, .rw, .byPartition, .num 864026624, true⟩,
   ⟨0x0C33, 0x01, 0x08, .f32, .rw, .byPartition, .num 1199570944, true⟩,
   ⟨0x0C34, 0x01, 0x08, .u32, .rw, .byPartition, .num 1000, true⟩,
   ⟨0x0C35, 0x01, 0x08, .bool, .rw, .s, .num 0, true⟩,
   ⟨0x0C36, 0x01, 0x08, .u64, .ro, .sns, .num 0, false⟩,
   ⟨0x0C37, 0x01, 0x08, .u64, .ro, .sns, .num 0, false⟩,
   ⟨0x0C38, 0x01, 0x08, .u64, .ro, .sns, .num 0, false⟩,
   ⟨0x0C39, 0x01, 0x08, .u64, .ro, .sns, .num 0, false⟩],
  [⟨0x0C3A, 0x01, 0x08, .u64, .ro, .sns, .num 0, false⟩,
   ⟨0x0C3B, 0x01, 0x08, .u64, .ro, .sns, .num 0, false⟩,
   ⟨0x0C40, 0x01, 0x08, .u32, .rw, .s, .num 1024, true⟩,
   ⟨0x0C41, 0x01, 0x08, .u8, .rw, .s, .num 1, true⟩,
   ⟨0x0C42, 0x01, 0x08, .u8, .rw, .s, .num 0, true⟩,
   ⟨0x0C43, 0x01, 0x08, .u32, .ro, .sns, .num 0, false⟩,
   ⟨0x0C44, 0x01, 0x08, .u64, .ro, .sns, .num 0, false⟩,
   ⟨0x0C45, 0x01, 0x08, .u64, .ro, .sns, .num 0, false⟩,
   ⟨0x0C46, 0x01, 0x08, .u64, .ro, .sns, .num 0, false⟩,
   ⟨0x0D10, 0x01, 0x08, .u16, .rw, .s, .num 10, true⟩],
  [⟨0x0D11, 0x01, 0x08, .u8, .rw, .s, .num 8, true⟩,
   ⟨0x0D12, 0x01, 0x08, .u16, .ro, .sns, .num 768, false⟩,
   ⟨0x0D13, 0x01, 0x08, .bool, .ro, .sns, .num 0, false⟩,
   ⟨0x0D14, 0x01, 0x08, .u64, .ro, .sns, .num 0, false⟩,
   ⟨0x0D15, 0x01, 0x08, .u64, .ro, .sns, .num 0, false⟩,
   ⟨0x0D16, 0x01, 0x08, .u64, .ro, .sns, .num 0, false⟩,
   ⟨0x0D20, 0x00, 0x00, .u8, .rw, .s, .num 32, false⟩,
   ⟨0x0D21, 0x00, 0x00, .u8, .rw, .s, .num 8, true⟩,
   ⟨0x0D22, 0x00, 0x00, .u8, .rw, .s, .num 128, true⟩,
   ⟨0x0D23, 0x00, 0x00, .u32, .rw, .s, .num 1000, true⟩],
  [⟨0x0D24, 0x00, 0x00, .u8, .rw, .s, .num 8, true⟩,
   ⟨0x0D25, 0x00, 0x00, .u32, .rw, .s, .num 10000, true⟩,
   ⟨0x0D26, 0x00, 0x00, .u8, .rw, .s, .num 4, true⟩,
   ⟨0x0D27, 0x00, 0x00, .u8, .ro, .sns, .num 0, false⟩,
   ⟨0x0D28, 0x00, 0x00, .u32, .ro, .sns, .num 0, false⟩,
   ⟨0x0D29, 0x01, 0x08, .u64, .ro, .sns, .num 0, false⟩,
   ⟨0x0D30, 0x00, 0x00, .u16, .rw, .s, .num 10667, true⟩,
   ⟨0x0D31, 0x01, 0x10, .u16, .rw, .s, .num 0, true⟩,
   ⟨0x0D32, 0x00, 0x00, .u16, .rw, .s, .num 1024, true⟩,
   ⟨0x0D33, 0x00, 0x00, .u8, .rw, .s, .num 32, true⟩],
  [⟨0x0D34, 0x00, 0x00, .u8, .rw, .s, .num 2, true⟩,
   ⟨0x0D35, 0x00, 0x00, .bool, .rw, .s, .num 1, true⟩,
   ⟨0x0D36, 0x00, 0x00, .u16, .rw, .s, .num 100, true⟩,
   ⟨0x0D37, 0x01, 0x08, .u16, .rw, .s, .num 65535, true⟩,
   ⟨0x0D38, 0x01, 0x10, .u64, .ro, .sns, .num 0, false⟩,
   ⟨0x0D39, 0x00, 0x00, .u64, .ro, .sns, .num 0, false⟩,
   ⟨0x0D3A, 0x00, 0x00, .u64, .ro, .sns, .num 0, false⟩,
   ⟨0x0D3B, 0x00, 0x00, .u64, .ro, .sns, .num 0, false⟩,
   ⟨0x0D50, 0x01, 0x04, .u32, .ro, .sns, .num 65536, false⟩,
   ⟨0x0D51, 0x00, 0x00, .u64, .ro, .sns, .num 0, false⟩],
  [⟨0x0D52, 0x00, 0x00, .u32, .ro, .s, .num 0, false⟩,
   ⟨0x0D53, 0x00, 0x00, .u32, .ro, .sns, .num 131072, false⟩,
   ⟨0x0D54, 0x01, 0x08, .u64, .ro, .sns, .num 0, false⟩,
   ⟨0x0D55, 0x01, 0x08, .u64, .ro, .sns, .num 0, false⟩,
   ⟨0x0C50, 0x01, 0x08, .u64, .ro, .sns, .num 0, false⟩,
   ⟨0x0C51, 0x01, 0x08, .u64, .ro, .sns, .num 0, false⟩,
   ⟨0x0C52, 0x01, 0x08, .u64, .ro, .sns, .num 0, false⟩,
   ⟨0x0C60, 0x00, 0x00, .u8, .rw, .s, .num 255, true⟩,
   ⟨0x0C61, 0x00, 0x00, .u64, .ro, .sns, .num 0, false⟩,
   ⟨0x0C62, 0x00, 0x00, .u64, .ro, .sns, .num 0, false⟩],
  [⟨0x0C63, 0x00, 0x00, .u64, .ro, .sns, .num 0, false⟩,
   ⟨0x0C00, 0x01, 0x08, .u8, .rw, .s, .num 0, true⟩,
   ⟨0x0C01, 0x01, 0x08, .u8, .rw, .s, .num 8, true⟩,
   ⟨0x0C02, 0x01, 0x08, .u8, .rw, .s, .num 0, true⟩,
   ⟨0x0C03, 0x01, 0x08, .bool, .rw, .s, .num 0, true⟩,
   ⟨0x0C04, 0x01, 0x08, .u16, .rw, .s, .num 65535, true⟩,
   ⟨0x0C0F, 0x00, 0x00, .bool, .wo, .s, .num 0, false⟩,
   ⟨0x0C10, 0x01, 0x08, .u64, .ro, .sns, .num 0, false⟩,
   ⟨0x0C11, 0x01, 0x08, .u64, .ro, .sns, .num 0, false⟩,
   ⟨0x0C12, 0x01, 0x08, .u32, .ro, .sns, .num 0, false⟩],
  [⟨0x0C13, 0x01, 0x08, .u32, .ro, .sns, .num 0, false⟩,
   ⟨0x0C14, 0x01, 0x08, .u64, .ro, .sns, .num 0, false⟩,
   ⟨0x0C15, 0x01, 0x08, .u64, .ro, .sns, .num 0, false⟩,
   ⟨0x0C16, 0x01, 0x08, .u64, .ro, .sns, .num 0, false⟩,
   ⟨0x0C17, 0x01, 0x08, .u64, .ro, .sns, .num 0, false⟩,
   ⟨0x0C18, 0x01, 0x08, .u64, .ro, .sns, .num 0, false⟩,
   ⟨0x0A00, 0x01, 0x08, .u64, .ro, .sns, .num 0, false⟩,
   ⟨0x0A01, 0x01, 0x08, .u64, .ro, .sns, .num 0, false⟩,
   ⟨0x0A02, 0x01, 0x08, .u64, .ro, .sns, .num 0, false⟩,
   ⟨0x0A03, 0x01, 0x08, .u64, .ro, .sns, .num 0, false⟩],
  [⟨0x0A04, 0x01, 0x08, .u64, .ro, .sns, .num 0, false⟩,
   ⟨0x0A05, 0x01, 0x08, .u64, .ro, .sns, .num 0, false⟩,
   ⟨0x0900, 0x01, 0x10, .blob, .rw, .ns, .bytes [], true⟩,
   ⟨0x0901, 0x01, 0x10, .u32, .rw, .ns, .num 0, false⟩,
   ⟨0x0902, 0x00, 0x00, .u32, .rw, .ns, .num 1000, true⟩,
   ⟨0x0903, 0x01, 0x04, .u64, .ro, .ns, .num 0, false⟩,
   ⟨0x0904, 0x01, 0x04, .u64, .ro, .ns, .num 0, false⟩,
   ⟨0x0905, 0x01, 0x04, .u64, .ro, .ns, .num 0, false⟩,
   ⟨0x0906, 0x01, 0x04, .u64, .ro, .ns, .num 0, false⟩,
   ⟨0x0907, 0x01, 0x04, .u64, .ro, .ns, .num 0, false⟩],
  [⟨0x0908, 0x01, 0x10, .u64, .ro, .ns, .num 0, false⟩,
   ⟨0x0909, 0x01, 0x10, .u64, .ro, .ns, .num 0, false⟩,
   ⟨0x090A, 0x01, 0x10, .u64, .ro, .ns, .num 0, false⟩,
   ⟨0x0800, 0x00, 0x00, .bool, .rw, .ns, .num 1, true⟩,
   ⟨0x0801, 0x00, 0x00, .u16, .rw, .ns, .num 49152, true⟩,
   ⟨0x0802, 0x00, 0x00, .u16, .rw, .ns, .num 256, true⟩,
   ⟨0x0803, 0x00, 0x00, .u16, .rw, .ns, .num 0xF840, true⟩,
   ⟨0x0804, 0x00, 0x00, .u16, .rw, .ns, .num 3000, true⟩,
   ⟨0x0805, 0x00, 0x00, .u16, .rw, .ns, .num 2000, true⟩,
   ⟨0x0806, 0x00, 0x00, .bool, .rw, .ns, .num 0, true⟩],
  [⟨0x0807, 0x00, 0x00, .u8, .rw, .ns, .num 16, true⟩,
   ⟨0x0808, 0x00, 0x00, .u16, .rw, .ns, .num 264, true⟩,
   ⟨0x0809, 0x00, 0x00, .str, .ro, .ns, .bytes [], false⟩,
   ⟨0x080A, 0x00, 0x00, .u64, .ro, .ns, .num 0, false⟩,
   ⟨0x080B, 0x00, 0x00, .u64, .ro, .ns, .num 0, false⟩,
   ⟨0x080C, 0x00, 0x00, .u64, .ro, .ns, .num 0, false⟩,
   ⟨0x080D, 0x00, 0x00, .u64, .ro, .ns, .num 0, false⟩,
   ⟨0x080E, 0x00, 0x00, .u64, .ro, .ns, .num 0, false⟩,
   ⟨0x080F, 0x00, 0x00, .u64, .ro, .ns, .num 0, false⟩,
   ⟨0x0816, 0x01, 0x08, .u32, .rw, .sns, .num 0, true⟩],
  [⟨0x0817, 0x01, 0x08, .u16, .rw, .sns, .num 0, true⟩,
   ⟨0x0810, 0x00, 0x00, .u8, .rw, .ns, .num 20, true⟩,
   ⟨0x0811, 0x00, 0x00, .u16, .rw, .ns, .num 2000, true⟩,
   ⟨0x0812, 0x00, 0x00, .u8, .rw, .ns, .num 20, true⟩,
   ⟨0x0813, 0x00, 0x00, .u8, .rw, .ns, .num 10, true⟩,
   ⟨0x0814, 0x00, 0x00, .u16, .rw, .ns, .num 15, true⟩,
   ⟨0x0815, 0x00, 0x00, .u16, .rw, .ns, .num 1000, true⟩,
   ⟨0x0600, 0x01, 0x10, .u64, .ro, .sns, .num 0, false⟩,
   ⟨0x0601, 0x01, 0x10, .u64, .ro, .sns, .num 0, false⟩,
   ⟨0x0602, 0x01, 0x20, .u64, .ro, .sns, .num 0, false⟩],
  [⟨0x0603, 0x01, 0x20, .u64, .ro, .sns, .num 0, false⟩,
   ⟨0x0604, 0x01, 0x08, .u16, .rw, .s, .num 100, true⟩,
   ⟨0x0605, 0x01, 0x08, .time64, .ro, .sns, .num 0, false⟩,
   ⟨0x0606, 0x01, 0x08, .u64, .ro, .sns, .num 0, false⟩,
   ⟨0x0607, 0x01, 0x08, .u64, .ro, .sns, .num 0, false⟩,
   ⟨0x0100, 0x01, 0x01, .str, .ro, .sns, .bytes (asciiBytes "Gelris Microdevices"), false⟩,
   ⟨0x0100, 0x02, 0x02, .str, .ro, .sns, .bytes (asciiBytes "FY8640"), false⟩,
   ⟨0x0100, 0x03, 0x03, .str, .ro, .sns, .bytes (asciiBytes "B1"), false⟩,
   ⟨0x0100, 0x04, 0x04, .blob, .ro, .sns, .bytes [], false⟩,
   ⟨0x0100, 0x05, 0x05, .blob, .ro, .sns, .bytes [], false⟩],
  [⟨0x0100, 0x06, 0x06, .blob, .ro, .sns, .bytes [], false⟩,
   ⟨0x0100, 0x07, 0x07, .blob, .wo, .ns, .bytes [], false⟩,
   ⟨0x0100, 0x08, 0x08, .blob, .ro, .sns, .bytes [], false⟩,
   ⟨0x0500, 0x01, 0x01, .bool, .ro, .sns, .num 0, false⟩,
   ⟨0x0500, 0x02, 0x02, .u8, .ro, .sns, .num 0, false⟩,
   ⟨0x0500, 0x03, 0x03, .u64, .ro, .sns, .num 0, false⟩,
   ⟨0x0500, 0x04, 0x04, .u64, .ro, .sns, .num 0, false⟩,
   ⟨0x0500, 0x05, 0x05, .u64, .ro, .sns, .num 0, false⟩,
   ⟨0x0500, 0x06, 0x06, .u32, .ro, .sns, .num 0, false⟩,
   ⟨0x0200, 0x00, 0x00, .blob, .ro, .sns, .bytes [], false⟩],
  [⟨0x0201, 0x00, 0x00, .u32, .rw, .s, .num 0, true⟩,
   ⟨0x0202, 0x00, 0x00, .u32, .rw, .s, .num 4294967040, true⟩,
   ⟨0x0203, 0x00, 0x00, .u32, .rw, .s, .num 0, true⟩,
   ⟨0x0204, 0x00, 0x00, .u16, .rw, .s, .num 47310, true⟩,
   ⟨0x0205, 0x00, 0x00, .u16, .rw, .s, .num 0, true⟩,
   ⟨0x0206, 0x00, 0x00, .u8, .rw, .s, .num 0, true⟩,
   ⟨0x0207, 0x00, 0x00, .bool, .rw, .s, .num 1, true⟩,
   ⟨0x0208, 0x00, 0x00, .u8, .rw, .s, .num 64, true⟩,
   ⟨0x0209, 0x00, 0x00, .u8, .rw, .s, .num 0, true⟩,
   ⟨0x020A, 0x00, 0x00, .bool, .ro, .sns, .num 0, false⟩],
  [⟨0x020B, 0x00, 0x00, .u8, .ro, .sns, .num 0, false⟩,
   ⟨0x020C, 0x00, 0x00, .u64, .ro, .sns, .num 0, false⟩,
   ⟨0x020D, 0x00, 0x00, .u64, .ro, .sns, .num 0, false⟩,
   ⟨0x020E, 0x00, 0x00, .u64, .ro, .sns, .num 0, false⟩,
   ⟨0x020F, 0x00, 0x00, .u64, .ro, .sns, .num 0, false⟩,
   ⟨0x0401, 0x00, 0x00, .bool, .wo, .ns, .num 0, false⟩,
   ⟨0x0402, 0x00, 0x00, .bool, .wo, .ns, .num 0, false⟩,
   ⟨0x0403, 0x00, 0x00, .u8, .ro, .sns, .num 0, false⟩,
   ⟨0x0E00, 0x00, 0x00, .u8, .ro, .sns, .num 0, false⟩,
   ⟨0x0E01, 0x00, 0x00, .bool, .ro, .sns, .num 0, false⟩],
  [⟨0x0E02, 0x00, 0x00, .u8, .ro, .sns, .num 0, false⟩,
   ⟨0x0E03, 0x00, 0x00, .bool, .ro, .sns, .num 0, false⟩,
   ⟨0x0E04, 0x00, 0x00, .i32, .ro, .sns, .num 0, false⟩,
   ⟨0x0E05, 0x00, 0x00, .u32, .rw, .s, .num 200, true⟩,
   ⟨0x0E06, 0x00, 0x00, .bool, .rw, .s, .num 1, true⟩,
   ⟨0x0E07, 0x01, 0x02, .u64, .ro, .sns, .num 0, false⟩,
   ⟨0x0E08, 0x01, 0x02, .u64, .ro, .sns, .num 0, false⟩,
   ⟨0x0E09, 0x01, 0x02, .u64, .ro, .sns, .num 0, false⟩,
   ⟨0x0300, 0x00, 0x00, .u8, .rw, .s, .num 0, true⟩,
   ⟨0x0301, 0x00, 0x00, .u8, .rw, .s, .num 95, true⟩],
  [⟨0x0302, 0x00, 0x00, .u8, .rw, .s, .num 5, true⟩,
   ⟨0x0303, 0x00, 0x00, .u8, .rw, .s, .num 65, true⟩,
   ⟨0x0304, 0x00, 0x00, .bool, .rw, .s, .num 1, true⟩,
   ⟨0x0305, 0x00, 0x00, .u8, .ro, .sns, .num 0, false⟩,
   ⟨0x0306, 0x00, 0x00, .u16, .ro, .sns, .num 900, false⟩,
   ⟨0x0307, 0x00, 0x00, .u32, .ro, .sns, .num 0, false⟩,
   ⟨0x0308, 0x01, 0x28, .i16, .ro, .sns, .num 0, false⟩,
   ⟨0x0309, 0x00, 0x00, .u64, .ro, .sns, .num 0, false⟩,
   ⟨0x030A, 0x00, 0x00, .u64, .ro, .sns, .num 0, false⟩,
   ⟨0x0410, 0x00, 0x00, .u32, .ro, .sns, .num 0, false⟩],
  [⟨0x0411, 0x00, 0x00, .u32, .ro, .sns, .num 0, false⟩,
   ⟨0x0412, 0x00, 0x00, .u32, .rw, .ns, .num 0, false⟩,
   ⟨0x0413, 0x00, 0x00, .blob, .ro, .sns, .bytes [], false⟩,
   ⟨0x0414, 0x00, 0x00, .u64, .ro, .sns, .num 0, false⟩,
   ⟨0x0420, 0x00, 0x00, .u8, .wo, .s, .num 0, false⟩,
   ⟨0x0421, 0x00, 0x00, .u8, .rw, .s, .num 0, false⟩,
   ⟨0x0422, 0x00, 0x00, .u32, .rw, .s, .num 0, false⟩,
   ⟨0x0423, 0x00, 0x00, .u32, .ro, .s, .num 0, false⟩,
   ⟨0x0424, 0x00, 0x00, .blob, .wo, .s, .bytes [], false⟩,
   ⟨0x0425, 0x00, 0x00, .u8, .ro, .sns, .num 0, false⟩],
  [⟨0x0426, 0x00, 0x00, .u8, .ro, .sns, .num 0, false⟩,
   ⟨0x0427, 0x01, 0x04, .u32, .ro, .sns, .num 0, false⟩,
   ⟨0x0428, 0x01, 0x04, .u8, .ro, .sns, .num 0, false⟩,
   ⟨0x0320, 0x00, 0x00, .u32, .rw, .s, .num 200, true⟩,
   ⟨0x0321, 0x00, 0x00, .u32, .rw, .s, .num 2000, true⟩,
   ⟨0x0322, 0x00, 0x00, .u32, .ro, .sns, .num 200, false⟩,
   ⟨0x0323, 0x00, 0x00, .u16, .rw, .s, .num 30, true⟩,
   ⟨0x0324, 0x00, 0x00, .u16, .rw, .s, .num 300, true⟩,
   ⟨0x0325, 0x00, 0x00, .u8, .rw, .s, .num 3, true⟩,
   ⟨0x0326, 0x00, 0x00, .u8, .rw, .s, .num 6, true⟩],
  [⟨0x0327, 0x00, 0x00, .u8, .ro, .sns, .num 0, false⟩,
   ⟨0x0328, 0x01, 0x01, .u8, .ro, .sns, .num 0, false⟩,
   ⟨0x0328, 0x02, 0x02, .time64, .ro, .sns, .num 0, false⟩,
   ⟨0x0328, 0x03, 0x03, .u8, .ro, .sns, .num 0, false⟩,
   ⟨0x0328, 0x04, 0x04, .u32, .ro, .sns, .num 0, false⟩,
   ⟨0x0328, 0x05, 0x05, .bool, .ro, .sns, .num 0, false⟩,
   ⟨0x0329, 0x00, 0x00, .time64, .rw, .s, .num 0, false⟩,
   ⟨0x032A, 0x00, 0x00, .u64, .ro, .sns, .num 0, false⟩,
   ⟨0x032B, 0x00, 0x00, .u64, .ro, .sns, .num 0, false⟩,
   ⟨0x032C, 0x00, 0x00, .u64, .ro, .sns, .num 0, false⟩],
  [⟨0x0330, 0x00, 0x00, .u16, .rw, .s, .num 16383, true⟩,
   ⟨0x0331, 0x00, 0x00, .u16, .rw, .s, .num 100, true⟩,
   ⟨0x0332, 0x01, 0x04, .u8, .rw, .s, .num 0, true⟩,
   ⟨0x0333, 0x01, 0x04, .u8, .rw, .s, .num 40, true⟩,
   ⟨0x0334, 0x00, 0x00, .u64, .ro, .sns, .num 0, false⟩,
   ⟨0x0335, 0x00, 0x00, .u64, .ro, .sns, .num 0, false⟩,
   ⟨0x0336, 0x00, 0x00, .u64, .ro, .sns, .num 0, false⟩,
   ⟨0x0430, 0x00, 0x00, .u8, .ro, .sns, .num 1, false⟩,
   ⟨0x0431, 0x00, 0x00, .u64, .ro, .sns, .num 0, false⟩,
   ⟨0x0432, 0x01, 0x08, .u64, .ro, .sns, .num 0, false⟩],
  [⟨0x0433, 0x00, 0x00, .u64, .ro, .sns, .num 0, false⟩,
   ⟨0x0434, 0x00, 0x00, .time64, .ro, .sns, .num 0, false⟩]]

/-- The row of an object. -/
def Obj.desc (o : Obj) : ObjDesc := Obj.rows.getD o.ctorIdx ⟨0, 0, 0, .bool, .ro, .s, .num 0, false⟩

/-- Every object, in the order of the object tables. -/
def Obj.all : List Obj :=
  List.flatten [
  [.adaptEn, .holdSteps, .scaleMin, .scaleMax, .satAlarm, .adaptFreeze, .grow, .shrink, .satElems, .clamp, .nanElems, .accSat, .spillSlots, .pinMax, .hearthSplit, .leasesLive, .swaps, .refused, .stateLost, .scrubInterval, .rowCeLimit, .sparesLeft, .binDegraded, .ceCount, .ueCount, .gateRejects, .migPromote, .migPromoteMin, .migPromoteMax, .migDecay, .victimMax, .gqRetireCe, .gqUeLimit, .gqOut, .quarantined, .fallbacks, .dramRate, .portTarget, .actThreshold, .actWindow],
  [.neighbours, .rfmEn, .retrainMs, .dramChset, .lateReq, .linkCe, .linkUe, .neighbourRefreshes, .ledgerFree, .ledgerMisses, .ledgerBase, .kvMaxTokens, .lengthRefused, .attnSkipped, .scanRowsteps, .scanResets, .scanNonfinite, .sieveLease, .sieveCalls, .sieveFails, .sieveCapped, .partBase, .partSize, .partWorld, .partFurrow, .partWays, .partApply, .dispatches, .preemptions, .switchMax, .stileGapMax, .stileOver, .missedRelease, .pinShort, .selftestDeferred, .cqWriteFails, .samples, .voidSamples, .batches, .lowAlarms],
  [.edgeTime, .ringOver, .camColour, .camStats, .lossTimeout, .crcErrors, .hdrErrors, .unmapped, .unsupported, .overflows, .frames, .notOk, .skipped, .audioWakeEn, .wakeThreshold, .vadThreshold, .listenOrder, .spanMs, .verifyMs, .wakeOnMicLoss, .audRate, .audTdm, .wakeModelId, .wakes, .wakesAccepted, .wakesIgnored, .verdictLate, .micChanges, .audSkipped, .beamBase, .beamPages, .btnDebounceMs, .longpressMs, .touchPeriodMs, .hpdDebounceMs, .doorWakeMask, .ledPwmHz, .cmpWithheld, .cmpDataFail, .wwFaults],
  [.wwLate, .selftestMaxMs, .selftestLast, .selftestOverdue, .marchSkipped, .vendor, .part, .stepping, .identityPub, .agreePub, .vendorCert, .attestNonce, .attestReport, .rootOk, .debugLevel, .brFaults, .unwraps, .unwrapFails, .configSeq, .macAddr, .ipv4Addr, .ipv4Mask, .ipv4Gw, .crierPort, .vlanId, .ethRole, .crierOpenEn, .sessionMax, .timeMode, .timeSynced, .sessionsOpen, .crcDrops, .tagDrops, .duplicates, .ringDrops, .save, .restore, .saveState, .cascadeId, .master],
  [.members, .timeAligned, .timeOffset, .hlReplyTimeout, .cascadeWakeAll, .replays, .keyRejects, .linkDrops, .tclkMaxStep, .throttleC, .throttleHyst, .powerCapW, .avsEn, .tclkStep, .vddMillMv, .pkgPowerMw, .temp, .stepChanges, .govOverruns, .logNext, .logOldest, .logSelect, .logBlock, .logSuppressed, .updCmd, .updKind, .updLen, .updOffset, .updData, .updState, .updResult, .slotSeq, .slotActive, .dozeTimerMs, .dozeTimerMaxMs, .dozeTimerEff, .restTimerS, .listenTimerS, .pwrDeepest, .inrushBudget],
  [.pwrState, .lastWakeSource, .lastWakeTime, .lastWakeFrom, .lastWakeArg, .lastWakeReplayed, .wakeAlarm, .brownouts, .wakesReplayed, .regFails, .clkEnBoot, .clkReturnMs, .sscDepth, .sscRate, .clkFails, .gatedAccesses, .tclkSwitches, .resetCause, .warmResets, .partResets, .resetLostCq, .startTime]]

end Sys2Proof.Machine
end

