-- ==== Sys2Proof/Machine/State.lean ====
section
/-!
DEFINITION. The state of the FY8640: every register, object, memory, queue, lease, key and line the spec gives the device,
as plain data, the queue of waiting commands, and the state right after a power-on reset.  The values of register fields
(`regs`) and of Almanac objects (`objs`) are the rows of Regs.lean and Objs.lean; the structures below hold what lies
behind them.  A table of like things is an `SMap` from its number to its contents, an unlisted number reading as the
contents after reset.
-/
namespace Sys2Proof.Machine

/-! ## Bins (spec/05) -/

/-- One entry of a bank's repair map (R105): the spare is in use, it was mapped in the field, and the logical row. -/
structure RmapEntry where
  used : Bool
  field : Bool
  row : Nat
deriving DecidableEq, Repr

/-- One entry of a Bin's correctable-row table (R106). -/
structure CeRow where
  bank : Nat
  row : Nat
  count : Nat
deriving DecidableEq, Repr

/-- A slot map (R88): SLOTEN and the two SLOTMAP words. -/
structure SlotMap where
  en : Nat
  map0 : Nat
  map1 : Nat
deriving DecidableEq, Repr

/-- The eight Bins. -/
structure BinGroup where
  /-- Contents, keyed `bin * 2^25 + offset`; an unlisted byte is 0, as R95 zeroes every row. -/
  mem : SMap Byte
  /-- The stored seal of a grain, as its difference from the seal of the data; keyed `bin * 2^17 + grain`. -/
  sealX : SMap Word
  /-- The poison bit of a grain (R93), keyed as `sealX`. -/
  poison : SMap Bool
  /-- The repair map (R105), keyed `bin * 768 + bank * 16 + spare`. -/
  rmap : SMap RmapEntry
  /-- The repair-map copy of PD00 retention memory (R105), keyed as `rmap`. -/
  rmapCopy : SMap RmapEntry
  /-- The copy of R105 is valid. -/
  copyValid : Bool
  /-- The correctable-row table of each Bin, at most 32 rows. -/
  ceRows : SMap (List CeRow)
  /-- The next logical row of the patrol of each Bin (R96). -/
  patrol : SMap Nat
  /-- The slot map in force in each Bin, where it differs from the written one (R88). -/
  slotNow : SMap SlotMap
  /-- The corrected words that wait to be written back (R92), as bin and grain. -/
  writeBacks : List (Nat × Nat)
  /-- Rows that an uncorrectable error has made due for a repair, as Bin, bank and row (R106). -/
  due : List (Nat × Nat × Nat)
  /-- The repair records of the boot flash, as the entries they give, keyed as `rmap` (R105). -/
  records : SMap RmapEntry
deriving DecidableEq, Repr

/-! ## The Unified Range (spec/06) -/

/-- The state of a Granary frame (R113). -/
inductive FrameState where
  | invalid | clean | dirty | filling | writeback | quarantined | out
deriving DecidableEq, Repr

/-- One entry of the Granary directory (R113). -/
structure DirEntry where
  page : Nat
  state : FrameState
  pin : Bool
  acc : Nat
deriving DecidableEq, Repr

/-- One page-state entry (R120). -/
structure PageState where
  q : Bool
  sheaf : Bool
  form : Bool
  len : Nat
deriving DecidableEq, Repr

/-- One way of the candidate table (R117): its page, none before the first, and its count. -/
structure Cand where
  page : Option Nat
  count : Nat
deriving DecidableEq, Repr

/-- A page fill in progress (R117, R119): into a frame, with the deadline of what triggered it and the DRAM port of R137, pinned when it
ends or not, and written while it was under way or not (R115). -/
structure Fill where
  page : Nat
  frame : Nat
  deadline : Option Nat
  port : Nat
  pin : Bool
  written : Bool
deriving DecidableEq, Repr

/-- A write-back in progress (R119): the frame, its page, the deadline it takes, and the fill that waits for the frame. -/
structure WriteBack where
  frame : Nat
  page : Nat
  deadline : Option Nat
  fill : Option Fill
deriving DecidableEq, Repr

/-- The Unified Range and the Granary. -/
structure UrGroup where
  /-- Page homes in DRAM as stored, raw or in the Sheaf form, keyed by Unified Range offset (R111, R121). -/
  home : SMap Byte
  /-- The seal carve-out (R111, R127): the seal of a grain of a page home, as its difference from the seal of the grain's data, keyed by
  Unified Range grain. -/
  sealX : SMap Word
  /-- Granary frames, keyed `frame * 4096 + byte` (R112), and the seals of their side-band (R127), keyed `frame * 16 + grain`. -/
  frame : SMap Byte
  frameSealX : SMap Word
  /-- The Granary directory, keyed by frame (R113). -/
  dir : SMap DirEntry
  /-- The page-state table, keyed by page (R120). -/
  pstate : SMap PageState
  /-- The candidate table, keyed `set * 4 + way` (R117). -/
  cand : SMap Cand
  /-- Fills in progress, earliest deadline first (R119). -/
  fills : List Fill
  /-- Write-backs in progress (R119). -/
  writeBacks : List WriteBack
  /-- The request of UR_PIN in progress (R116, R130): the pages that it has taken, and the RESULT that it ends with. -/
  pinning : Option (List Nat × Nat)
  /-- What DRAM has delivered to the tier requests of each partition: when, and the stored bytes (R125). -/
  delivered : SMap (List (Nat × Nat))
  /-- Evictions of unpinned frames since the last governor period (R392). -/
  evictions : Nat
  /-- The DRAM capacity in GiB, which the board fixes. -/
  dramGiB : Nat
deriving DecidableEq, Repr

/-! ## The DRAM controller (spec/07) -/

/-- A request at the DRAM controller (R138): its port, its starting level, when it arrived, the DRAM offset of its first grain, where that
lands (R134), the channels of that grain's seal and of the page's page-state entry (R135), and the level that it has at least. -/
structure McReq where
  port : Nat
  write : Bool
  l0 : Nat
  arrival : Nat
  off : Nat
  channel : Nat
  rank : Nat
  bank : Nat
  row : Nat
  column : Nat
  sealChannel : Nat
  stateChannel : Nat
  floor : Nat
deriving DecidableEq, Repr

/-- One entry of an activate-count table (R141): its row, none while it is clear, and its count. -/
structure ActEntry where
  row : Option Nat
  count : Nat
deriving DecidableEq, Repr

/-- The DRAM controller. -/
structure McGroup where
  /-- The queue of each channel, oldest first (R139). -/
  queue : SMap (List McReq)
  /-- Requests that find no entry they may use, oldest first. -/
  held : List McReq
  /-- The bus of a channel is turned to writes (R139). -/
  turned : SMap Bool
  /-- The open row of a bank, plus one, keyed `channel * 32 + rank * 16 + bank`. -/
  opened : SMap Nat
  /-- Row hits of a channel in a row that have passed an older request of the same level. -/
  passed : SMap Nat
  /-- The activate-count table of a bank, keyed as `opened`. -/
  act : SMap (List ActEntry)
  /-- Rows whose neighbour refresh is queued, of each bank, keyed as `opened` (R141). -/
  near : SMap (List Nat)
  /-- The rolling activate counters of the device and the RFM commands issued, keyed as `opened` (R142), and the threshold that the device
  states, 0 for a device that does not advertise refresh management. -/
  rolling : SMap Nat
  rfms : SMap Nat
  rfmLimit : Nat
  /-- Per-bank refreshes that a bank has postponed, or pulled in where it is negative, keyed as `opened` (R140). -/
  owed : SMap Int
  /-- The refresh multiplier that each channel's MR4 reported. -/
  mr4 : SMap Nat
  /-- Delay updates of a channel that wait, as the time since when, plus one (R144). -/
  update : SMap Nat
  /-- The quads that have been trained, and the channels that were retrained at a lower rate, as masks (R143). -/
  trained : Nat
  retried : Nat
  /-- The training values are held in PD00 retention memory (R145), and the code of the data rate that they are for. -/
  kept : Bool
  keptRate : Nat
  /-- The time of the last request, and whether the memory is in power-down (R145). -/
  lastReq : Nat
  powerDown : Bool
  /-- Ranks of each channel, which the board fixes. -/
  ranks : Nat
deriving DecidableEq, Repr

/-! ## Hearths (spec/04) -/

/-- The kinds of lease (R68); a pair is the compensated STATE lease of R70. -/
inductive LeaseKind where
  | work | state | pair
deriving DecidableEq, Repr

/-- Where the plane of a lease is (R68, R75). -/
inductive LeasePhase where
  | resident | parked | movingOut | movingIn
deriving DecidableEq, Repr

/-- A lease (R68): on hearth `hearth` of core `core`, and on the same hearth of each of the `width` members of a furrow
(R71); a pair also holds the next hearth (R70). -/
structure Lease where
  kind : LeaseKind
  core : Nat
  width : Nat
  hearth : Nat
  gen : Nat
  part : Nat
  /-- The first of the spill slots that hold its planes when it is parked. -/
  slot : Nat
  pinned : Bool
  phase : LeasePhase
  dirty : Bool
  /-- The handle of the stream record that holds it; 0 for a WORK lease. -/
  owner : Nat
  /-- A release that waits for the end of a swap (R79). -/
  releasing : Bool
  /-- The members of the set whose planes have moved, in a swap in progress, as a mask (R71). -/
  moved : Nat
deriving DecidableEq, Repr

/-- The hearths of the eight cores, and what their arrays have added. -/
structure HearthGroup where
  /-- The planes, keyed `(core * 4 + hearth) * 4096 + row * 64 + column`. -/
  plane : SMap Word
  /-- The generation counter of hearth `core * 4 + hearth` (R72). -/
  gen : SMap Nat
  /-- The live leases, in the order of their grants. -/
  leases : List Lease
  /-- The spill slots of each partition, keyed `(part * 2^20 + slot) * 4096 + row * 64 + column` (R75). -/
  spill : SMap Word
  /-- Spill slots whose contents are lost with their Granary quarter (R82, R129), keyed `part * 2^20 + slot`. -/
  spillLost : SMap Bool
  /-- PE-products that the array of each core has added since reset, the source of TC_PERF1 (R48). -/
  products : SMap Nat
deriving DecidableEq, Repr

/-! ## Jobs and the Rota (spec/11) -/

/-- The fields of a job descriptor (R219). -/
structure JobDesc where
  tract : Nat
  fallback : Nat
  part : Nat
  cls : Nat
  core : Nat
  cookie : Nat
  deadline : Nat
  append : Nat
  ledger : Nat
  inH : Nat
  outH : Nat
  keyslot : Nat
  args : List Byte
  /-- Every reserved field is zero. -/
  clean : Bool
deriving DecidableEq, Repr

/-- The fields of a tract-table entry (R215). -/
structure Tract where
  entry : Nat
  argbase : Nat
  stbase : Nat
  stcount : Nat
  optbase : Nat
  fwidth : Nat
  world : Nat
  pinpage : Nat
  pincount : Nat
deriving DecidableEq, Repr

/-- A job that the Rota has dispatched: its descriptor's place, what serves it, and how far it has come. -/
structure Job where
  ring : Nat
  index : Nat
  part : Nat
  /-- The wheel slot that serves it, or none for a guarded copy. -/
  slot : Option Nat
  /-- The guarded network and the copy, 0 for A and 1 for B. -/
  net : Option (Nat × Nat)
  /-- The core, or the lead of the furrow. -/
  core : Nat
  desc : JobDesc
  tract : Tract
  fbTract : Option Tract
  submit : Nat
  release : Nat
  /-- STAGE_END and RESERVE of the stile last passed, in microseconds; none before the first (R124). -/
  stage : Option (Nat × Nat)
  /-- A switch to the fallback has been decided and waits for the commands in flight (R126). -/
  switching : Bool
  /-- The job runs on its fallback tract (R126). -/
  degraded : Bool
  late : Bool
  preempted : Bool
  progress : Nat
  /-- The Bin offset of the next command. -/
  fetch : Nat
  /-- The time of its last dispatch or resume (R225). -/
  since : Nat
  /-- The time of its last stile, for STILE_GAP_MAX (R217). -/
  lastStile : Nat
  /-- The ready time of its last record on its OUT ring (R13, R222). -/
  lastReady : Option Nat
  /-- The pages pinned for the job (R116). -/
  pins : List Nat
  /-- The records the job has published on its OUT ring, and whether one of them carries LATE (R13, R222). -/
  records : Nat
  recordLate : Bool
deriving DecidableEq, Repr

/-- What a save holds (R227, R228): the live hearths of the members, and the live grains. -/
structure SaveArea where
  planes : SMap Word
  hearths : List (Nat × Nat)
  bytes : SMap Byte
  grains : List (Nat × Nat)
  /-- A saved grain carries a seal that does not match, or poison: its restore will fail (R228). -/
  bad : Bool
deriving DecidableEq, Repr

/-- A suspended job with its save area (R227). -/
structure Suspended where
  job : Job
  save : SaveArea
deriving DecidableEq, Repr

/-- The kinds of tract command (R29), one for each CLASS and SUBOP of the operation table. -/
inductive TcOp where
  | gemmN | gemmK | gemmT | convDense | convDiag | attnFwd | attnBwd | scanDiag | scanMat | scanStep
  | vecCopy | vecAdd | vecMul | vecFma | vecMax | vecMin | vecExp | vecLog | vecRecip | vecSigmoid | vecTanh | vecSilu
  | vecGelu | vecSum | vecMaxD0 | vecRequant | poolMax | poolAvg | dmaIn | dmaOut | dmaBin | dmaGate | waitTally
  | scaleAbsMax | scaleLoad | scaleAdapt | spillOut | spillIn | stile | reserved
deriving DecidableEq, Repr

/-- A command at issue, or behind one that waits at issue. -/
structure Issue where
  op : TcOp
  cmd : TcCmd
  obs : List Obs
deriving DecidableEq, Repr

/-- A command in flight on one core (R30, R31): the grain ranges it reads and writes (first grain and count), the hearths
it uses as a mask, the DMA descriptors it holds, and the deadline of its tier request. -/
structure InFlight where
  tag : Nat
  op : TcOp
  reads : List (Nat × Nat)
  writes : List (Nat × Nat)
  hearths : Nat
  dma : Nat
  deadline : Option Nat
  /-- Issued as a furrow command by the lead. -/
  fur : Bool
  /-- The Bins of other cores that it reads through REMOTE or copies into (R95). -/
  remote : List Nat
  /-- The stored bytes of its tier requests, and those of them that DRAM delivers (R125). -/
  bytes : Nat
  dram : Nat
deriving DecidableEq, Repr

/-- What a core waits for (R48). -/
inductive Wait where
  | none | scoreboard | tally | dma
deriving DecidableEq, Repr

/-- How a job ends (R221): a status of R222 or none of its own, the detail code and its argument and data. -/
structure Ending where
  status : Nat
  detail : Nat
  darg : Nat
  data : Nat
  /-- The end of a guarded copy that R307 counts as a disagreement: a watchdog fault, or a data fault in its own Bin. -/
  counts : Bool
deriving DecidableEq, Repr

/-- One tensor core. -/
structure Core where
  job : Option Job
  /-- The commands of the job that have not issued, in tract order; the first waits at issue. -/
  queue : List Issue
  inflight : List InFlight
  wait : Wait
  /-- The end of a WAIT_TALLY's timeout, and its tally (R102). -/
  tallyWait : Option (Nat × Nat)
  /-- When the switch in progress began (R228), for SWITCH_MAX. -/
  switchAt : Nat
  /-- The self-test segment that runs (R234). -/
  selftest : Option Nat
  /-- A switch is in progress (R228): 1 the save, 2 the restore. -/
  switching : Nat
  /-- The job that comes in when the save ends. -/
  incoming : Option Job
  /-- The job whose save is in progress. -/
  outgoing : Option Suspended
  /-- The running job has ended with this status and these details; its record waits for the commands in flight (R46,
  R221). -/
  ending : Option Ending
  /-- The job ends at its next stile, not to be resumed (R213). -/
  lastStileDue : Bool
deriving DecidableEq, Repr

/-- A descriptor that the Rota has taken at its release (R218, R223): its ring and index, when it was submitted, and when it
was released. -/
structure Taken where
  ring : Nat
  index : Nat
  submit : Nat
  release : Nat
deriving DecidableEq, Repr

/-- A wheel slot (R223): its job released and not yet dispatched, its job running, and its suspended job. -/
structure WheelSlot where
  taken : Option Taken
  running : Bool
  suspended : Option Suspended
  /-- The completion of its previous job (R223). -/
  lastDone : Nat
  /-- Jobs released at their instants behind it, the oldest first (R223). -/
  due : List Taken
deriving DecidableEq, Repr

/-- A guarded network at work (R231, R232): its frame in progress, where its copies run, and what has ended. -/
structure GuardRun where
  /-- The job of the frame, from its release until its completion record. -/
  taken : Option Taken
  west : Nat
  east : Nat
  /-- The copies that wait for their core: 0 for A, 1 for B. -/
  waiting : List Nat
  /-- The copies that have ended, with their outcome. -/
  ended : List (Nat × Job × Ending)
  /-- Both copies have ended well and their writes are committed (R305), and the comparator reads. -/
  comparing : Bool
  reading : Bool
  /-- The copies of the frame run their fallback, and those of the next frame (R126). -/
  fallback : Bool
  fallbackNext : Bool
  /-- Jobs released at their instants behind the frame, the oldest first (R223). -/
  due : List Taken
deriving DecidableEq, Repr

/-- Self-test of a core (R313 to R315): the next segment of its pass, 0 to 4 the Bin marches and 5 to 12 the logic tests, and
whether that segment is the repeat of one whose signature mismatched. -/
structure TestProg where
  next : Nat
  again : Bool
deriving DecidableEq, Repr

/-- The configuration of a partition (R212, R213): a size of 0 is an unused partition. -/
structure PartCfg where
  base : Nat
  size : Nat
  world : Nat
  furrow : Bool
  ways : Nat
  splits : List Nat
deriving DecidableEq, Repr

/-- The Rota. -/
structure RotaGroup where
  cores : SMap Core
  /-- The submission tail of each ring (R218). -/
  tail : SMap Nat
  /-- Descriptors submitted and not yet taken, and completion records not yet acknowledged. -/
  sqCount : SMap Nat
  cqCount : SMap Nat
  /-- The submission time of descriptor `ring * 4096 + index`. -/
  submit : SMap Nat
  /-- Completion records that wait for space in their ring (R221), each as its 32 bytes. -/
  held : SMap (List (List Byte))
  wheel : SMap WheelSlot
  nets : SMap GuardRun
  /-- The slot that each class last served in a partition, keyed `part * 4 + class` (R224). -/
  lastServed : SMap Nat
  /-- The partitions whose APPLY waits for a job to stop (R213), as a bit mask. -/
  applying : Nat
  /-- What the APPLY in progress will set each of them to. -/
  plan : SMap PartCfg
  /-- One more than the world of the last partition that a core was in; 0 for none (R213 step 3). -/
  lastWorld : SMap Nat
  /-- The self-tests of the cores. -/
  tests : SMap TestProg
deriving DecidableEq, Repr

/-! ## The Session Ledger and the result rings (spec/08, spec/18) -/

/-- A result ring (R346 to R350). -/
structure Ring where
  isOpen : Bool
  handle : Nat
  secure : Bool
  store : Nat
  nextSeq : Nat
  retired : Nat
  drops : Nat
deriving DecidableEq, Repr

/-- The Ledger and the rings. -/
structure LedgerGroup where
  /-- The 64 B record in slot `bank * 65536 + index`, as its little-endian number (R163, R164). -/
  recs : SMap Nat
  rings : SMap Ring
  /-- The read bit of the record in slot `ring * 4096 + slot` (R348). -/
  readBit : SMap Bool
deriving DecidableEq, Repr

/-! ## The Reeve's log (spec/20) -/

/-- One entry of the event log (R395) but for its CRC. -/
structure LogEntry where
  time : Nat
  seq : Nat
  code : Nat
  source : Nat
  flags : Nat
  arg0 : Nat
  arg1 : Nat
  arg2 : Nat
deriving DecidableEq, Repr

/-- The Reeve's log: the buffer of PD00 and the entries in flash (R396). -/
structure LogGroup where
  buf : List LogEntry
  flash : List LogEntry
deriving DecidableEq, Repr

/-! ## The safety monitor (spec/16) -/

/-- An open window of a watchdog (R309): the job that it watches, by ring, index and copy, or none for a register-armed
stage; and the instant it was armed. -/
structure Window where
  job : Option (Nat × Nat × Nat)
  armed : Nat
deriving DecidableEq, Repr

/-- The history of a guarded network's active pair (R308): the pair, and the last outcomes, true for a disagreement. -/
structure NetHist where
  pair : Nat
  outs : List Bool
deriving DecidableEq, Repr

/-- The safety monitor. -/
structure SafeGroup where
  windows : SMap (List Window)
  /-- The last window of the watchdog ended in a fault (WWn.STATE 4). -/
  faulted : SMap Bool
  hist : SMap NetHist
  /-- Injections armed by SAFE_INJECT (R317), for networks and for watchdogs. -/
  injectNet : SMap Bool
  injectWw : SMap Bool
  /-- Cores that failed their logic self-test (R314). -/
  failed : SMap Bool
deriving DecidableEq, Repr

/-! ## Security (spec/17) -/

/-- A boundary region in force (R321). -/
structure Region where
  en : Bool
  secure : Bool
  model : Bool
  space : Nat
  base : Nat
  limit : Nat
deriving DecidableEq, Repr

/-- A key slot (R327): loaded; a link base of AGREE, or a job key; its key; the fixed field of its nonces; its message
counter; and its owning partition, 8 for none. -/
structure KeySlot where
  loaded : Bool
  link : Bool
  key : List Byte
  fixed : Nat
  ctr : Nat
  part : Nat
deriving DecidableEq, Repr

/-- An AGREE handshake in progress (R327, R377). -/
structure AgreeRun where
  slot : Nat
  part : Nat
  src : Nat
  start : Nat
deriving DecidableEq, Repr

/-- A change of a boundary region that waits for its zeroing (R323): the new region, and the units to be zeroed, as
space and unit. -/
structure BrChange where
  region : Region
  units : List (Nat × Nat)
deriving DecidableEq, Repr

/-- The security engine. -/
structure SecGroup where
  /-- The regions in force; the registers BR_n hold what was last written (R323). -/
  regions : SMap Region
  /-- The last time a refusal of each initiator was offered to BR_ERRLOG, plus one (R324). -/
  lastRefusal : SMap Nat
  /-- The key slots (R327). -/
  slots : SMap KeySlot
  /-- Changes of regions that wait for their zeroing. -/
  changes : SMap (Option BrChange)
  /-- The AGREE handshake in progress; the unwrap in progress, as SRC and DST (R330). -/
  agree : Option AgreeRun
  unwrap : Option (Nat × Nat)
  /-- The nonce that a new report will answer (R331). -/
  nonce : Option (List Byte)
  /-- The measurements MEAS0 to MEAS5 and the versions of the images (R331, R332); the words of SEC_MEAS written so far, and
  whether MEAS5 has been committed in this boot (R336). -/
  meas : SMap (List Byte)
  versions : SMap Nat
  measWords : SMap Nat
  measDone : Bool
  /-- The ruling AUTH record (R333), and the CASCADE_IDs of the peers whose identities it lists. -/
  auth : List Byte
  peers : List Nat
  /-- Debug (R334): attempts and rejected tokens since power-on, the free value of the present challenge, and the level that an accepted
  token will unlock. -/
  attempts : Nat
  rejected : Nat
  challenge : Nat
  unlocking : Option Nat
deriving DecidableEq, Repr

/-! ## The Hedgeline (spec/19) -/

/-- A packet of a hop (R371), its header field by field and what follows the header. -/
structure HlPacket where
  type : Nat
  dst : Nat
  src : Nat
  lseq : Nat
  tally : Nat
  gate : Nat
  offset : Nat
  bin : Nat
  code : Nat
  xfer : Nat
  ctr : Nat
  body : List Byte
deriving DecidableEq, Repr

/-- A grain of a transfer that has been sent and has no reply (R372, R378). -/
structure OutGrain where
  grain : Nat
  resends : Nat
  port : Nat
  at_ : Nat
deriving DecidableEq, Repr

/-- A transfer into a gate (R378): the command that sends it, its source run, its destination, and how far it has come. -/
structure Transfer where
  xfer : Nat
  core : Nat
  tag : Nat
  bin : Nat
  first : Nat
  count : Nat
  dst : Nat
  dbin : Nat
  offset : Nat
  gate : Nat
  tally : Nat
  slot : Nat
  sent : Nat
  out : List OutGrain
  accepted : Nat
deriving DecidableEq, Repr

/-- A Hedgeline port: the next LSEQ, the packets sent and not acknowledged with the consecutive replays of each, and the LSEQs
of the last packets taken (R370, R372). -/
structure HlPort where
  lseq : Nat
  replay : List (HlPacket × Nat)
  seen : List Nat
  /-- The CASCADE_IDs that can be reached through the port, as a mask (R373, R383). -/
  reach : Nat
  /-- A HELLO that follows the wiring rules has been received (R373). -/
  joined : Bool
deriving DecidableEq, Repr

/-- The Hedgeline. -/
structure HedgeGroup where
  ports : SMap HlPort
  transfers : List Transfer
  nextXfer : Nat
  /-- The highest CTR accepted, plus one, of slot × 8 + sender (R377). -/
  rxCtr : SMap Nat
  /-- The cascade is a ring (R373, R374). -/
  isRing : Bool
  /-- The time of the last SYNC (R375). -/
  lastSync : Nat
  /-- The time base has been stepped once to the master's (R375). -/
  stepped : Bool
  /-- The difference from the master's time base that is still to be slewed away, in ns. -/
  slew : Int
  /-- Ticks since the last nanosecond of slewing. -/
  slewTicks : Nat
  /-- Packets of an unknown TYPE dropped on each port (R371). -/
  unknown : SMap Nat
deriving DecidableEq, Repr

/-! ## The Sieve (spec/10) -/

/-- The call that the Sieve runs (R199): its ring slot, the Bins that it reads, where its output area begins, the tally it raises, and what
it will write: the header's fields (R204) and the bytes of the other grains. -/
structure SvCall where
  slot : Nat
  sources : List Nat
  bin : Nat
  grain : Nat
  done : Nat
  tag : Nat
  status : Nat
  flags : Nat
  count : Nat
  passed : Nat
  body : List Byte
deriving DecidableEq, Repr

/-- The Sieve: the partition that holds the lease (R198), and the call that runs. -/
structure SvGroup where
  holder : Option Nat
  run : Option SvCall
deriving DecidableEq, Repr

/-! ## The Hopper (spec/12) -/

/-- The configuration of a feed (R238), with the means and inverse deviations of an image feed. -/
structure HpCfg where
  tally : Nat
  base : Nat
  bin : Nat
  budget : Nat
  low : Nat
  qdepth : Nat
  release : Nat
  depth : Nat
  sqpage : Nat
  fmt : Nat
  audio : Bool
  grains : Nat
  b : Nat
  outw : Nat
  outh : Nat
  outlen : Nat
  c : Nat
  oscale : Word
  ozp : Int
  noiseBase : Nat
  noiseCount : Nat
  stats : List Word
deriving DecidableEq, Repr

/-- An enabled feed (R237 to R248): how far its samples have come. -/
structure HpFeed where
  handle : Nat
  secure : Bool
  cfg : HpCfg
  /-- Samples submitted, samples started, and batches published, counted from 0. -/
  tail : Nat
  started : Nat
  published : Nat
  /-- Published batches not yet released. -/
  occupied : Nat
  /-- Finished samples of batches not yet published, each with its VOID cause or 0, and whether its slot's grains were committed. -/
  finished : List (Nat × Nat × Bool)
  /-- The lane times of the last 256 samples that were not VOID. -/
  times : List Nat
  /-- The low-water alarm is armed (R247). -/
  armed : Bool
  /-- The time since which the feed has been held at its window edge (R248, R252). -/
  edge : Option Nat
deriving DecidableEq, Repr

/-- A busy lane: its feed, its sample, and when it started. -/
structure HpLane where
  lane : Nat
  feed : Nat
  sample : Nat
  start : Nat
deriving DecidableEq, Repr

/-- The Hopper: its enabled feeds, its busy lanes, and the feed that a lane served last (R244). -/
structure HpGroup where
  feeds : SMap (Option HpFeed)
  lanes : List HpLane
  turn : Nat
deriving DecidableEq, Repr

/-! ## The camera links and the image pipeline (spec/13) -/

/-- A frame that is open on a sensor: its start stamp, its number, the lines that have entered the ISP, the last good line,
what its header will count, what has happened to it, and the colour blob it is processed with (R255 to R258). -/
structure CamFrame where
  sof : Nat
  number : Nat
  lines : List (List Nat)
  lastGood : Option (List Nat)
  crcErr : Nat
  hdrErr : Nat
  filled : Nat
  marked : Bool
  dropped : Bool
  overflow : Bool
  resumed : Bool
  blob : List Byte
deriving DecidableEq, Repr

/-- A sensor has not been seen, is present, or is lost (R267). -/
inductive SensorPhase where
  | unseen | present | lost
deriving DecidableEq, Repr

/-- A sensor: its phase, its open frame, its last frame start, its last eight frame intervals, and the next expected start
of a lost sensor (R267, R268). -/
structure CamSensor where
  phase : SensorPhase
  frame : Option CamFrame
  lastSof : Option Nat
  intervals : List Nat
  expected : Nat
deriving DecidableEq, Repr

/-- An enabled output stream (R261 to R264). -/
structure OsRun where
  frameNo : Nat
  /-- Buffers written and not yet released. -/
  occupied : Nat
  /-- With DUAL, the releases that only BIN, or only BIN2, has had taken. -/
  ahead : Nat
  ahead2 : Nat
  skipped : Nat
  resumed : Bool
  /-- The output rows of the frame that it writes, each as FP32 values, channel last; none between frames. -/
  rows : Option (List (List Word))
  /-- EN has been written to 0 (R268): it stops after its current frame. -/
  stopping : Bool
  /-- The device is on its way to REST or LISTEN, or there (R268). -/
  off : Bool
deriving DecidableEq, Repr

/-- The camera links, sensors and output streams. -/
structure CamGroup where
  sensors : SMap CamSensor
  streams : SMap (Option OsRun)
deriving DecidableEq, Repr

/-! ## Microphones and the Watch (spec/14) -/

/-- The aligned stream while it is enabled (R276). -/
structure AudRun where
  bin : Nat
  nbuf : Nat
  refs : Nat
  chmask : Nat
  blockNo : Nat
  occupied : Nat
  skipped : Nat
  resumed : Bool
  off : Bool
deriving DecidableEq, Repr

/-- The lock of the pre-roll (R280). -/
inductive Lock where
  | locked | span | open | erasing
deriving DecidableEq, Repr

/-- A span in a Bin (R281): where it begins, its grains with the header, and whether the whole push has ended. -/
structure SpanPush where
  bin : Nat
  base : Nat
  grains : Nat
  done : Bool
  ended : Nat
deriving DecidableEq, Repr

/-- The Watch. -/
structure WatchGroup where
  lock : Lock
  /-- The pre-roll (R279): the silent samples of erased blocks, then the samples recorded since, oldest first, as the codec
  gives them back. -/
  silent : Nat
  recent : List Int
  /-- Samples recorded since the recording began, and the time of the last of them. -/
  count : Nat
  lastTime : Nat
  /-- The detection sample of the last accepted detection: its place in that count, and its time. -/
  detIndex : Nat
  detTime : Nat
  /-- The push of the span, and when the lock opened. -/
  span : Option SpanPush
  openAt : Nat
  /-- Frames since the last one above VAD_THRESHOLD, plus one; 0 for no voice (R278). -/
  voiceHold : Nat
  /-- The listening microphone; none when audio wake is off (R284). -/
  mic : Option Nat
deriving DecidableEq, Repr

/-- Audio: the aligned stream. -/
structure AudGroup where
  stream : Option AudRun
deriving DecidableEq, Repr

/-! ## Buttons, touch, lights (spec/15) -/

/-- A touch channel (R293): its baseline, the consecutive scans that ask for a change, and the time of the first of them. -/
structure TouchCh where
  baseline : Nat
  streak : Nat
  first : Nat
deriving DecidableEq, Repr

/-- The ramp of an LED driver (R296): the duty that it starts from, and when. -/
structure LedRamp where
  from' : Nat
  at_ : Nat
deriving DecidableEq, Repr

/-- The person-facing inputs and outputs. -/
structure DoorGroup where
  /-- The first edge of the accepted press of each button, and the presses that publish no BUTTON_LONG (any more), as a mask. -/
  pressedAt : SMap Nat
  longDone : Nat
  touch : SMap TouchCh
  leds : SMap LedRamp
deriving DecidableEq, Repr

/-! ## Power (spec/21) -/

/-- A latched wake source (R417): its code, its evidence time and its argument. -/
structure Wake where
  code : Nat
  at_ : Nat
  arg : Nat
deriving DecidableEq, Repr

/-- An EVENT record that waits for the resume (R297): subject, code, ARG and evidence time. -/
structure LateEvent where
  subject : Nat
  code : Nat
  arg : Nat
  at_ : Nat
deriving DecidableEq, Repr

/-- Power management, the Ringer and the wake latches. -/
structure PwrGroup where
  /-- The end of the last resume to ACTIVE, and of the last from REST or LISTEN (R14). -/
  resumeEnd : Nat
  deepEnd : Nat
  wakes : List Wake
  events : List LateEvent
  /-- The state that an entry in progress leads to, as PWR_STATUS.STATE (R409, R410). -/
  target : Nat
  /-- Start requests of the Ringer, oldest first, and the domains started and not yet at power good (R412 to R414). -/
  queue : List Nat
  started : List Nat
  /-- Since when the Need condition of a powered domain has not held, plus one (R406). -/
  leaving : SMap Nat
  /-- The Ringer's bucket, in units of a token per 10,000, when it was last drawn, and the time of the last start, plus one
  (R413). -/
  level : Nat
  levelAt : Nat
  lastStart : Nat
  /-- Every Need condition is taken as holding, until the Reeve has written CLK_EN_BOOT (R414). -/
  allNeeds : Bool
  /-- The regulator has switched to full mode and REG_OK is awaited (R415). -/
  regTry : Bool
  /-- The link partner refused TC10 sleep: PD02 stays on in LISTEN (R365). -/
  tc10Refused : Bool
  /-- The time of the last entry to DOZE, the times of the DOZE periods shorter than 1 ms, and of the last halving (R393). -/
  dozeAt : Nat
  shortDozes : List Nat
  lastHalving : Nat
  /-- WAKE_ALARM has been written and has not fired (R417). -/
  alarmSet : Bool
  /-- The entry to REST or LISTEN that waits for the end of an update's COMMIT, as PWR_STATUS.STATE; 0 for none (R402). -/
  deferred : Nat
deriving DecidableEq, Repr

/-! ## Clocks (spec/22) and the protections of R454 -/

/-- The clock block: switches of R426 that wait or run, as core and target PLL; the sources whose monitor reports failure, as
a mask in the order of CLK_FAIL; when the device was first held, and whether the wait of CLK_RETURN_MS has passed (R432). -/
structure ClkGroup where
  switches : List (Nat × Nat)
  failing : Nat
  heldAt : Nat
  gaveUp : Bool
  /-- The depth and rate of the spread spectrum that PLL_T0, PLL_T1, PLL_H and PLL_N apply since their last lock (R429). -/
  spread : SMap (Nat × Nat)
  /-- The core and host clocks are gated at half duty; and since when every reading has been below 100 °C, plus one (R454). -/
  throttled : Bool
  coolSince : Nat
deriving DecidableEq, Repr

/-! ## The Reeve (spec/20) -/

/-- A change of TCLK step in progress (R390): the new step, and the stage, 0 before the voltage is confirmed, then 1 to 5. -/
structure StepChange where
  goal : Nat
  stage : Nat
deriving DecidableEq, Repr

/-- The governor: sensors excluded (R385); the thermal and power indices, when each last rose, plus one, and the consecutive
periods that call for a fall (R388, R389); package powers of the last periods; each regulator's last power and its failures to
answer in a row (R386); the consecutive periods with a slack margin (R391); the counters of R64 at the last period; the overdue
intervals of each core already reported (R315); the change of step in progress; a PMBus alert that waits; and the time of
the last period. -/
structure ReeveGroup where
  excluded : Nat
  thermal : Nat
  thermalAt : Nat
  coolRun : Nat
  power : Nat
  powerAt : Nat
  lowRun : Nat
  powers : List Nat
  lastPower : SMap Nat
  misses : SMap Nat
  slackRun : Nat
  satLast : SMap Nat
  clampLast : SMap Nat
  overdue : SMap Nat
  change : Option StepChange
  alert : Bool
  lastPeriod : Nat
deriving DecidableEq, Repr

/-- A firmware update (R399): its kind, its length, and the bytes staged so far.  The stage is RV_STATUS.UPD. -/
structure UpdGroup where
  kind : Nat
  len : Nat
  staged : List Byte
deriving DecidableEq, Repr

/-! ## The Almanac and the Crier (spec/18) -/

/-- The other end of a Crier frame: 0 UDP, 1 raw Ethernet, 2 an MGMT packet of the master; its addresses. -/
structure Peer where
  transport : Nat
  ip : Nat
  mac : Nat
  port : Nat
deriving DecidableEq, Repr

/-- The block transfer that WRITE_BLOCK stages (R361): the object, its TOTAL, and the blocks received. -/
structure Staging where
  index : Nat
  sub : Nat
  total : Nat
  blocks : List (Nat × List Byte)
deriving DecidableEq, Repr

/-- A subscription (R360): of a ring (0) or an object (1), its INTERVAL in ms, the state last sent, and when. -/
structure Subscription where
  kind : Nat
  index : Nat
  sub : Nat
  interval : Nat
  shown : List Byte
  at_ : Nat
deriving DecidableEq, Repr

/-- A request that has been answered (R359): its SEQ, and its response while it is held. -/
structure Answer where
  seq : Nat
  op : Nat
  payload : Option (List Byte)
deriving DecidableEq, Repr

/-- A Crier session (R357 to R361): its world and peer, its TIMEOUT in s, its key slot and key, its record's handle, the highest
CTR received plus one, the highest SEQ answered, the last answers newest first, its subscriptions, its staging, and the time of
the last frame that passed R354. -/
structure Session where
  secure : Bool
  peer : Peer
  timeout : Nat
  slot : Nat
  keyid : Nat
  record : Nat
  rxCtr : Nat
  maxSeq : Option Nat
  answers : List Answer
  subs : List Subscription
  staging : Option Staging
  lastFrame : Nat
deriving DecidableEq, Repr

/-- The NONCE of an IDENTIFY response: to whom, its free value's place, and when (R357). -/
structure Nonce where
  peer : Peer
  place : Nat
  at_ : Nat
deriving DecidableEq, Repr

/-- A SAVE or a RESTORE that waits or runs (R342): whether it is a RESTORE, the keys of the objects that it covers, and the values to be
saved. -/
structure SaveJob where
  restore : Bool
  scope : List Nat
  values : SMap Val
deriving DecidableEq, Repr

/-- A record of the persistence area (R342). -/
structure SaveRec where
  seq : Nat
  values : SMap Val
deriving DecidableEq, Repr

/-- A request that waits for a resume (R417): its session, 0 for IDENTIFY and OPEN, its peer, and what the frame carried. -/
structure Waiting where
  session : Nat
  peer : Peer
  seq : Nat
  op : Nat
  last : Bool
  payload : List Byte
deriving DecidableEq, Repr

/-- The network settings in force since the last start of PD02 (R368). -/
structure NetCfg where
  ip : Nat
  mask : Nat
  gw : Nat
  port : Nat
  vlan : Nat
  role : Nat
deriving DecidableEq, Repr

/-- The Almanac and the Crier: sessions by number; nonces not yet used; the device's own SEQ of NOTIFY; the data areas of the
window's channels, keyed `channel * 4096 + offset`, and their staging; the VERSION of BLOB objects written, by object key;
the SAVE and RESTORE requests, in arrival order; the two records of the persistence area; the precise-time state of R366,
the offset from the grandmaster in ns and the peer delay; the requests that wait for a resume; and the network settings. -/
structure CrierGroup where
  sessions : SMap (Option Session)
  nonces : List Nonce
  notifySeq : Nat
  window : SMap Byte
  winStaging : SMap (Option Staging)
  versions : SMap Nat
  saves : List SaveJob
  persist : List SaveRec
  gptpOffset : Int
  peerDelay : Nat
  waiting : List Waiting
  net : NetCfg
deriving DecidableEq, Repr

/-! ## Reset and start-up (spec/23) -/

/-- How far a reset or a start-up has come (R436, R440 to R442): OFF; held in reset; the steps of a warm reset before the dies
restart; the recovery decision of R292; the regulator and the Ringer; Boot ROM; the Reeve; running; or stopped by a root that
did not form, or by the thermal trip. -/
inductive BootStage where
  | off | held | warm | buttons | powering | rom | reeve | run | stopped | tripped
deriving DecidableEq, Repr

/-- Reset and start-up: the stage; the inputs that hold the device in reset, 1 for nPOR, 2 for nRST and 4 for EXTEST; the
instant from which START_TIME counts; whether the straps make this start-up a recovery; whether HC0 to HC3 run; and a thermal
trip that has not been logged (R454). -/
structure BootGroup where
  stage : BootStage
  holds : Nat
  startAt : Nat
  recovery : Bool
  hostRun : Bool
  tripLog : Bool
deriving DecidableEq, Repr

/-! ## The device -/

/-- Something the device has sent out: on which line, and its bytes. -/
inductive Line where
  | crier | ethernet | hedgeline (port : Nat) | hostIrq | boot | trace | bus | pmbus
deriving DecidableEq, Repr

/-- One message sent. -/
structure Sent where
  line : Line
  kind : Nat
  args : List Nat
  payload : List Byte
deriving DecidableEq, Repr

/-- The state of the device. -/
structure State where
  /-- Commands that wait, first in first out. -/
  pending : List Instr
  /-- The device time base, TIME64 in nanoseconds. -/
  time : Nat
  /-- The model's own counter for fresh free values. -/
  free : Nat
  /-- Register fields, keyed by `Fld.key`. -/
  regs : SMap Nat
  /-- Almanac objects, keyed by `Obj.key`. -/
  objs : SMap Val
  /-- What the device has sent, oldest first: the model's own record of its outputs. -/
  sent : List Sent
  bin : BinGroup
  ur : UrGroup
  mc : McGroup
  hearth : HearthGroup
  rota : RotaGroup
  ledger : LedgerGroup
  log : LogGroup
  safe : SafeGroup
  sec : SecGroup
  hedge : HedgeGroup
  sv : SvGroup
  hp : HpGroup
  cam : CamGroup
  aud : AudGroup
  watch : WatchGroup
  door : DoorGroup
  pwr : PwrGroup
  clk : ClkGroup
  reeve : ReeveGroup
  upd : UpdGroup
  crier : CrierGroup
  boot : BootGroup
deriving DecidableEq, Repr

/-- The reasons for which the machine stops.  None is raised: every behaviour the spec names goes on. -/
inductive Fault where
  /-- Kept for an access that the spec gives no outcome; no meaning raises it (safe). -/
  | noOutcome
deriving DecidableEq, Repr

/-- The reasons for which a command is not taken. -/
inductive Refusal where
  /-- The command has no meaning yet; raised by the arms of `exec` that name it (safe). -/
  | notModelled (mnemonic : String)
deriving DecidableEq, Repr

/-- A core that runs nothing. -/
def Core.idle : Core := ⟨none, [], [], .none, none, 0, none, 0, none, none, none, false⟩

/-- A result ring that is not open; its counter of dropped publications outlives a close (R350). -/
def Ring.closed : Ring := ⟨false, 0, false, 0, 1, 1, 0⟩

/-- The state right after a power-on reset, before the release of nPOR.  Every register field and object reads its reset
value or default; ring 0x1000 is opened by the Reeve at boot (R346).  The board is one with 16 GiB of DRAM and one rank (DESIGN CHOICE,
assumption 5); free value 0 is the first challenge (R334). -/
def State.reset : State where
  pending := []
  time := 0
  free := 1
  regs := []
  objs := []
  sent := []
  bin := ⟨[], [], [], [], [], false, [], [], [], [], [], []⟩
  ur := ⟨[], [], [], [], [], [], [], [], [], none, [], 0, 16⟩
  mc := ⟨[], [], [], [], [], [], [], [], [], 0, [], [], [], 0, 0, false, 0, 0, false, 1⟩
  hearth := ⟨[], [], [], [], [], []⟩
  rota := ⟨[], [], [], [], [], [], [], [], [], 0, [], [], []⟩
  ledger := ⟨[], [], []⟩
  log := ⟨[], []⟩
  safe := ⟨[], [], [], [], [], []⟩
  sec := ⟨[], [], [], [], none, none, none, [], [], [], false, [], [], 0, 0, 0, none⟩
  hedge := ⟨[], [], 0, [], false, 0, false, 0, 0, []⟩
  sv := ⟨none, none⟩
  hp := ⟨[], [], 0⟩
  cam := ⟨[], []⟩
  aud := ⟨none⟩
  watch := ⟨.locked, 0, [], 0, 0, 0, 0, none, 0, 0, some 0⟩
  door := ⟨[], 0, [], []⟩
  pwr := ⟨0, 0, [], [], 0, [], [], [], 0, 0, 0, true, false, false, 0, [], 0, false, 0⟩
  clk := ⟨[], 0, 0, false, [], false, 0⟩
  reeve := ⟨0, 0, 0, 0, 0, 0, 0, [], [], [], 0, [], [], [], none, false, 0⟩
  upd := ⟨0, 0, []⟩
  crier := ⟨[], [], 0, [], [], [], [], [], 0, 0, [], ⟨0, 0xFFFFFF00, 0, 47310, 0, 0⟩⟩
  boot := ⟨.held, 1, 0, false, false, false⟩

end Sys2Proof.Machine
end

