-- ==== Sys2Proof/Machine/Ops.lean ====
section
/-!
DEFINITION. The named operations every unit uses: reading and writing register fields and Almanac objects, free values,
the seal function of R300, the event log's buffer (R396), the check of an access against the boundary regions (R321, R322)
and what a refusal leaves (R324).
-/
namespace Sys2Proof.Machine

/-! ## Commands -/

/-- A command has its effect on everything but the queue of waiting commands. -/
def State.command (s : State) (f : State → Host.Outcome State Fault Refusal) : Host.Outcome State Fault Refusal :=
  match f s with
  | .next t => .next { t with pending := s.pending }
  | .fault r => .fault r
  | .refused r => .refused r

/-! ## Register fields -/

/-- The key of field `f` of instance `i` of its register. -/
def Fld.key (f : Fld) (i : Nat) : Nat := f.ctorIdx * 65536 + i

/-- The reset value of field `f` of instance `i`: the table's, or the one the table gives in words (R114, R133, R137). -/
def Fld.reset (f : Fld) (i : Nat) : Nat :=
  match f with
  | .urQuotaWays => if i = 0 then 0xFFFF else 0
  | .mcRegionEn => if i = 0 then 1 else 0
  | .mcPortTarget => [2000, 2000, 2000, 2000, 2000, 2000, 2000, 2000, 4000, 500, 1000, 10000, 2000, 2000, 1000, 2000].getD i 0
  | f => f.desc.reset

/-- The value of a register field. -/
def State.fld (s : State) (f : Fld) (i : Nat) : Nat := SMap.get s.regs (f.key i) (f.reset i)

/-- A one-bit field as a Bool. -/
def State.flag (s : State) (f : Fld) (i : Nat) : Bool := s.fld f i == 1

/-- Set a register field to the low bits of `v`. -/
def State.setFld (s : State) (f : Fld) (i v : Nat) : State :=
  { s with regs := SMap.put s.regs (f.key i) (v % 2 ^ f.width) (f.reset i) }

/-- Set several fields of one instance. -/
def State.setFlds (s : State) (i : Nat) (l : List (Fld × Nat)) : State :=
  l.foldl (fun s e => s.setFld e.1 i e.2) s

/-- Add to a counter field, which wraps at its width (R65, R334). -/
def State.bumpFld (s : State) (f : Fld) (i n : Nat) : State := s.setFld f i (s.fld f i + n)

/-! ## Almanac objects -/

/-- The key of sub-index `sub` of an object. -/
def Obj.key (o : Obj) (sub : Nat) : Nat := o.desc.index * 256 + sub

/-- The default of sub-index `sub` of an object: the table's, or the one the table gives in words (R137, R236). -/
def Obj.reset (o : Obj) (sub : Nat) : Val :=
  match o with
  | .portTarget => .num (Fld.mcPortTarget.reset (sub - 1))
  | .partBase => .num (if sub = 1 then 0 else 0xFF)
  | .partSize => .num (if sub = 1 then 8 else 0)
  | .partWays => .num (if sub = 1 then 0xFFFF else 0)
  | o => o.desc.default

/-- The stored value of an object. -/
def State.objVal (s : State) (o : Obj) (sub : Nat) : Val := SMap.get s.objs (o.key sub) (o.reset sub)

/-- The stored number of an object. -/
def State.obj (s : State) (o : Obj) (sub : Nat) : Nat := (s.objVal o sub).toNat

/-- Store a value in an object. -/
def State.setObjVal (s : State) (o : Obj) (sub : Nat) (v : Val) : State :=
  { s with objs := SMap.put s.objs (o.key sub) v (o.reset sub) }

/-- Store a number in an object. -/
def State.setObj (s : State) (o : Obj) (sub v : Nat) : State := s.setObjVal o sub (.num v)

/-- Add to a counter object, which wraps at 2^64 (R65). -/
def State.bumpObj (s : State) (o : Obj) (sub n : Nat) : State := s.setObj o sub ((s.obj o sub + n) % 2 ^ 64)

/-- A write changes the VERSION of a BLOB object (R361), told apart by its key. -/
def State.bumpVersion (s : State) (key : Nat) : State :=
  { s with crier := { s.crier with
      versions := SMap.put s.crier.versions key ((SMap.get s.crier.versions key 0 + 1) % 2 ^ 32) 0 } }

/-! ## Free values and outputs -/

/-- A fresh free value's place: the counter, and the state with the counter advanced. -/
def State.fresh (s : State) : Nat × State := (s.free, { s with free := s.free + 1 })

/-- The device sends something. -/
def State.send (s : State) (m : Sent) : State := { s with sent := s.sent ++ [m] }

/-- The time does not run back: a command that carries its instant brings the time base up to it. -/
def State.reach (s : State) (t : Nat) : State := { s with time := max s.time t }

/-- The nanoseconds of a tick of TIMECLK: 4, or one more or less every 10 µs while a difference from the master's time base is
slewed away at 100 ppm (R375). -/
def State.tickNs (s : State) : Nat :=
  if s.hedge.slew = 0 ∨ s.hedge.slewTicks + 1 < 2500 then 4 else if 0 < s.hedge.slew then 5 else 3

/-- One tick of the 250 MHz TIMECLK (DESIGN CHOICE, assumption 1): 4 ns pass, and the Bins reach a new slot 0 (R88). -/
def State.tick (s : State) : State :=
  let due := decide (s.hedge.slew ≠ 0 ∧ 2500 ≤ s.hedge.slewTicks + 1)
  let n := s.hedge.slewTicks + 1
  { s with
    time := s.time + s.tickNs
    bin := { s.bin with slotNow := [] }
    hedge := { s.hedge with
      slew := if due then s.hedge.slew - s.hedge.slew.sign else s.hedge.slew
      slewTicks := if s.hedge.slew = 0 ∨ due = true then 0 else n } }

/-- A bus answers an access: its initiator, whether it succeeded, and the data read. -/
def State.answer (s : State) (init : Nat) (ok : Bool) (data : List Byte) : State := s.send ⟨.bus, b2n ok, [init], data⟩

/-! ## Seals -/

/-- One bit step of the reflected CRC-32C of R300. -/
def crcBit (c : Word) : Word := if c.getLsbD 0 then (c >>> 1) ^^^ 0x82F63B78#32 else c >>> 1

/-- The CRC register after one byte, least significant bit first (R300). -/
def crcByte (c : Word) (b : Byte) : Word :=
  crcBit (crcBit (crcBit (crcBit (crcBit (crcBit (crcBit (crcBit (c ^^^ b.setWidth 32))))))))

/-- The CRC-32C of bytes (R300). -/
def crc32c (bs : List Byte) : Word := bs.foldl crcByte 0xFFFFFFFF#32 ^^^ 0xFFFFFFFF#32

/-- The grains of a run of bytes, each with whether the run covers it whole. -/
def grainsOfRun (off n : Nat) : List (Nat × Bool) :=
  if n = 0 then [] else
  (List.range ((off + n - 1) / 256 + 1 - off / 256)).map (fun i =>
    let g := off / 256 + i
    (g, decide (off ≤ g * 256 ∧ g * 256 + 256 ≤ off + n)))

/-! ## The event log -/

/-- What an entry of the event log is about, where the spec gives its class of R395 and no number: the hexadecimal
thousands are the class, the rest tells the kinds apart in this model.  The CODE that a reader of the log sees is the free
value `Config.logCode` of the tag; an EVENT code of R345 is its own tag. -/
inductive LogTag where
  | event (code : Nat)
  | governorStep | governorOverrun | throttle | pmbus | pmbusFail | thermalAlarm | capStep | avs | restricted
  | update
  | boundary | keySlot | unwrap | debugToken | debugUnlock | rootFail | record | session | tagDrop
  | binError | binRepair | quarantine | quarter | dram | ledger | ring | completionLost | cqHeld | link
  | coreFault | guard | watchdog | selftest | safety | clock | power | reset | tractCount | audio | camera | sieve
deriving DecidableEq, Repr

/-- The number that stands for a tag in a log entry: an EVENT code, or the class of R395 and the kind. -/
def LogTag.num (t : LogTag) : Nat :=
  match t with
  | .event c => c
  | t =>
    let k := t.ctorIdx
    if k ≤ 9 then 0x8000 + k else if k = 10 then 0x9000 + k else if k ≤ 19 then 0xA000 + k
    else if k ≤ 29 then 0xB000 + k else 0xC000 + k

/-- Append an event to the log's buffer, or count it when the buffer is full; at 256 entries the buffer goes to flash
(R396).  `source` is an initiator of R319, 0xFF for the Reeve. -/
def State.logEvent (s : State) (tag : LogTag) (source flags a0 a1 a2 : Nat) : State :=
  if s.log.buf.length < 512 then
    let e : LogEntry := ⟨s.time, s.obj .logNext 0, tag.num, source, flags, a0, a1, a2⟩
    let s := s.setObj .logNext 0 ((s.obj .logNext 0 + 1) % 2 ^ 32)
    { s with log := { s.log with buf := s.log.buf ++ [e] } }
  else s.bumpObj .logSuppressed 0 1

/-- Write the buffer to flash; a ring of 131,072 entries gives up its oldest sector of 2,048 (R395, R396). -/
def State.flushLog (s : State) : State :=
  let all := s.log.flash ++ s.log.buf
  let drop := if 131072 < all.length then 2048 * ceilDiv (all.length - 131072) 2048 else 0
  let kept := all.drop drop
  let s := s.setObj .logOldest 0 ((kept.head?.map (·.seq)).getD (s.obj .logOldest 0))
  { s with log := ⟨[], kept⟩ }

/-- Append an event and flush at 256 entries. -/
def State.logIt (s : State) (tag : LogTag) (source flags a0 a1 a2 : Nat) : State :=
  let s := s.logEvent tag source flags a0 a1 a2
  if 256 ≤ s.log.buf.length ∧ s.flag .rvStatusReady 0 = true then s.flushLog else s

/-- A register access that the world of its field refuses returns a bus error and is logged (R8). -/
def State.worldError (s : State) (f : Fld) (i : Nat) : State :=
  (s.send ⟨.bus, 0, [f.ctorIdx, i], []⟩).logIt .boundary 0 8 f.ctorIdx i 0

/-- An access to an address that the map reserves, or beyond the end of the Unified Range, returns a bus error and is logged (R110). -/
def State.reservedAccess (s : State) (addr : Nat) : State :=
  (s.send ⟨.bus, 0, [addr], []⟩).logIt .boundary 0 8 (addr % 2 ^ 32) (addr / 2 ^ 32) 0

/-- An access to an Almanac object that its world refuses is logged (R8, R340). -/
def State.objRefused (s : State) (index sub : Nat) : State := s.logIt .boundary 0x12 4 index sub 0

/-! ## Boundary regions -/

/-- The region in force that holds a unit of a space (R321): space 0 is the Unified Range in pages, 1 to 8 the Bins in
grains. -/
def State.regionAt (s : State) (space unit : Nat) : Option Region :=
  (s.sec.regions.find? (fun e => e.2.en && e.2.space == space && decide (e.2.base ≤ unit ∧ unit ≤ e.2.limit))).map (·.2)

/-- A unit in no enabled region is secure (R321). -/
def State.unitSecure (s : State) (space unit : Nat) : Bool :=
  match s.regionAt space unit with
  | none => true
  | some r => r.secure

/-- A unit lies in a MODEL region (R322). -/
def State.unitModel (s : State) (space unit : Nat) : Bool :=
  match s.regionAt space unit with
  | none => false
  | some r => r.model

/-- Who makes an access: the initiator of R319 and its world; `fromModel` marks a DMA write whose source is MODEL. -/
structure Requester where
  init : Nat
  secure : Bool
  /-- The quota its promotions use (R114). -/
  quota : Nat
  fromModel : Bool
  deadline : Option Nat
deriving DecidableEq, Repr

/-- An access is allowed by the regions: R321 for the world, R322 for MODEL. -/
def State.allowed (s : State) (q : Requester) (write : Bool) (space unit : Nat) : Bool :=
  if s.unitModel space unit then
    if q.init = 0x16 then write
    else if 0x04 ≤ q.init ∧ q.init ≤ 0x0B ∧ q.secure then !write || q.fromModel
    else false
  else if write && q.fromModel then false
  else q.secure || !s.unitSecure space unit

/-- What a refused access leaves (R324): the count, and at most one entry per initiator and millisecond in BR_ERRLOG, kept
under R461, and in the Reeve's log. -/
def State.refuseAccess (s : State) (q : Requester) (write : Bool) (space unit : Nat) : State :=
  let model := b2n (s.unitModel space unit || (write && q.fromModel))
  let s := s.bumpObj .brFaults 3 1
  let last := SMap.get s.sec.lastRefusal q.init 0
  if last ≠ 0 ∧ s.time < last - 1 + 1000000 then s.bumpObj .logSuppressed 0 1
  else
    let s := { s with sec := { s.sec with lastRefusal := SMap.put s.sec.lastRefusal q.init (s.time + 1) 0 } }
    let s := if s.flag .brErrlogValid 0 then s else
      s.setFlds 0 [(.brErrlogValid, 1), (.brErrlogWrite, b2n write), (.brErrlogModel, model), (.brErrlogInit, q.init),
        (.brErrlogSpace, space), (.brErrlogUnit, unit)]
    s.logIt .boundary q.init 2 unit space model

end Sys2Proof.Machine
end

