-- ==== Sys2Proof/Machine/Mc.lean ====
section
/-!
DEFINITION. The DRAM controller's shared operations (spec/07): the interleave regions, where an address lands with its seal and its
page-state entry, the urgency of requests, their queues, and the activates of a bank with what they set off.
-/
namespace Sys2Proof.Machine

/-! ## Regions and addresses -/

/-- An interleave region as its registers hold it (R133). -/
structure McRegion where
  n : Nat
  base : Nat
  chset : Nat
  grain : Nat
  chbase : Nat
deriving DecidableEq, Repr

/-- The DRAM capacity in bytes, the bytes of page homes (R111), and the bytes of one channel. -/
def State.dramBytes (s : State) : Nat := s.ur.dramGiB * 2 ^ 30
def State.homeBytes (s : State) : Nat := s.dramBytes * 1007 / 1024
def State.channelBytes (s : State) : Nat := s.dramBytes / 16

/-- The enabled regions in order. -/
def State.mcRegions (s : State) : List McRegion :=
  ((List.range 8).filter (fun n => s.flag .mcRegionEn n)).map (fun n =>
    ⟨n, s.fld .mcRegionBase n * 2 ^ 24, s.fld .mcRegionChset n, s.fld .mcRegionGrain n, s.fld .mcRegionChbase n * 2 ^ 20⟩)

/-- The channels of a set, lowest first. -/
def channelsOf (set : Nat) : List Nat := (List.range 16).filter (bit set)

/-- The bytes of a region that fall in each of its channels. -/
def McRegion.perChannel (r : McRegion) (last : Nat) : Nat :=
  ceilDiv (ceilDiv (last - r.base) (2 ^ r.grain)) (channelsOf r.chset).length * 2 ^ r.grain

/-- Each region with the offset at which it ends (R133). -/
def withEnds (limit : Nat) : List McRegion → List (McRegion × Nat)
  | [] => []
  | [r] => [(r, limit)]
  | r :: x :: t => (r, x.base) :: withEnds limit (x :: t)

/-- A channel set of 1, 2, 4, 8 or 16 channels, and a grain from 256 B to 64 KiB. -/
def regionShape (chset grain : Nat) : Bool :=
  [1, 2, 4, 8, 16].contains (channelsOf chset).length && decide (8 ≤ grain ∧ grain ≤ 16)

/-- The rules of R133 for a set of regions. -/
def State.mcLegal (s : State) (rs : List McRegion) : Bool :=
  let es := withEnds s.homeBytes rs
  let share (e : McRegion × Nat) : Nat × Nat := (e.1.chbase, e.1.chbase + e.1.perChannel e.2)
  (match rs with | [] => false | r :: _ => r.n == 0 && r.base == 0) &&
  es.all (fun e => decide (e.1.base < e.2) && regionShape e.1.chset e.1.grain &&
    decide ((share e).2 ≤ s.channelBytes * 1007 / 1024)) &&
  es.all (fun e => es.all (fun f => e.1.n == f.1.n ||
    !(channelsOf e.1.chset).any (channelsOf f.1.chset).contains ||
    decide ((share e).2 ≤ (share f).1 ∨ (share f).2 ≤ (share e).1)))

/-- Where a DRAM offset lands (R134). -/
structure DramPlace where
  channel : Nat
  rank : Nat
  bank : Nat
  row : Nat
  column : Nat
deriving DecidableEq, Repr

/-- The channel of a DRAM offset, and the byte address in it. -/
def State.channelAt (s : State) (o : Nat) : Nat × Nat :=
  match (s.mcRegions.filter (fun r => decide (r.base ≤ o))).getLast? with
  | none => (0, 0)
  | some r =>
    let set := channelsOf r.chset
    let g := 2 ^ r.grain
    let i := (o - r.base) / g
    (set.getD (i % set.length) 0, r.chbase + i / set.length * g + (o - r.base) % g)

/-- Rows of a bank. -/
def State.bankRows (s : State) : Nat := s.channelBytes / s.mc.ranks / 2 ^ 15

/-- Where a DRAM offset lands (R134): the rank bit is the one above the row, on devices of two ranks. -/
def State.dramPlace (s : State) (o : Nat) : DramPlace :=
  let ca := s.channelAt o
  let per := s.channelBytes / s.mc.ranks
  let row := ca.2 % per / 2 ^ 15
  ⟨ca.1, if s.mc.ranks = 1 then 0 else ca.2 / per % 2, (bits ca.2 14 11) ^^^ (row % 16), row, bits ca.2 10 0⟩

/-- The seal of the grain at a DRAM offset lies in the channel that holds the grain, in the share of the carve-out at the channel's top
(R135): its channel, and its byte address in it. -/
def State.sealPlace (s : State) (o : Nat) : Nat × Nat :=
  let ca := s.channelAt o
  (ca.1, s.channelBytes - s.channelBytes / 64 + 4 * (ca.2 / 256))

/-- The page-state entry of a page lies in the channel that holds the page's first grain (R135). -/
def State.stateChannel (s : State) (o : Nat) : Nat := (s.channelAt (o / 4096 * 4096)).1

/-! ## Urgency and order -/

/-- The port of the controller that an initiator of R319 uses (R137); debug enters with the Reeve's (DESIGN CHOICE, assumption 30). -/
def portOf (init : Nat) : Nat :=
  if init < 4 then 9
  else if init < 0x0C then init - 4
  else if init = 0x0C then 13
  else if init = 0x0D then 11
  else if init = 0x0E then 10
  else if init = 0x12 then 15
  else if init = 0x13 then 12
  else 14

/-- The latency target of a port in ns (R137). -/
def State.mcTarget (s : State) (port : Nat) : Nat := s.fld .mcPortTarget port

/-- The starting level of a request (R138): from its slack against the target, or 0 without a deadline. -/
def startLevel (t arrival : Nat) (deadline : Option Nat) : Nat :=
  match deadline with
  | none => 0
  | some d =>
    let slack := d - arrival
    if 8 * t < slack then 0 else if 4 * t < slack then 2 else if 2 * t < slack then 4 else if t < slack then 6 else 7

/-- The level of a request now (R138): it rises with its age, and never falls, though its port's target be raised. -/
def State.levelOf (s : State) (r : McReq) : Nat :=
  let t := s.mcTarget r.port
  max r.floor (if t = 0 then 7 else min 7 (r.l0 + 8 * (s.time - r.arrival) / t))

/-- The code of a data rate (R147). -/
def rateCode (mts : Nat) : Nat :=
  if mts = 7500 then 1 else if mts = 8533 then 2 else if mts = 9600 then 3 else if mts = 10667 then 4 else 0

/-- The key of a bank. -/
def bankKeyOf (channel rank bank : Nat) : Nat := channel * 32 + rank * 16 + bank
def McReq.bankKey (r : McReq) : Nat := bankKeyOf r.channel r.rank r.bank

def State.mcQueue (s : State) (c : Nat) : List McReq := SMap.get s.mc.queue c []
def State.setMcQueue (s : State) (c : Nat) (l : List McReq) : State :=
  { s with mc := { s.mc with queue := SMap.put s.mc.queue c l [] } }

/-- A waiting request keeps at least the level that it has now. -/
def State.keepLevel (s : State) (port : Nat) (r : McReq) : McReq :=
  if r.port = port then { r with floor := s.levelOf r } else r

/-- A new latency target of a port (R137): the level of its waiting requests does not fall (R138). -/
def State.setTarget (s : State) (port v : Nat) : State :=
  ({ s with mc := { s.mc with
      queue := s.mc.queue.map (fun e : Nat × List McReq => (e.1, e.2.map (s.keepLevel port)))
      held := s.mc.held.map (s.keepLevel port) } }).setFld .mcPortTarget port v

/-- A channel's queue takes a request while the controller serves: 128 entries, of which the top 8 are for levels 6 and 7 (R139). -/
def State.mcAccepts (s : State) (r : McReq) : Bool :=
  s.flag .mcStatusReady 0 && decide ((s.mcQueue r.channel).length < (if 6 ≤ s.levelOf r then 128 else 120))

/-- A request that is held back enters its queue when it finds an entry it may use, unless an older request of its port still waits: then
the port is held back (R139). -/
def State.mcTake (s : State) (r : McReq) : State :=
  if (s.mc.held.find? (fun x => x.port == r.port)) == some r && s.mcAccepts r then
    let s := s.setMcQueue r.channel (s.mcQueue r.channel ++ [r])
    { s with mc := { s.mc with held := s.mc.held.erase r } }
  else s

/-- Requests held back enter their queues as entries come free, the oldest first. -/
def State.mcAdmit (s : State) : State := s.mc.held.foldl State.mcTake s

/-- A request arrives (R138, R139): it takes its starting level, and no request is dropped; one that finds no entry is held back, also
while the controller is not READY (DESIGN CHOICE, assumption 31). -/
def State.mcRequest (s : State) (port off : Nat) (write : Bool) (deadline : Option Nat) : State :=
  let p := s.dramPlace off
  let l0 := startLevel (s.mcTarget port) s.time deadline
  let r : McReq := ⟨port, write, l0, s.time, off, p.channel, p.rank, p.bank, p.row, p.column, (s.sealPlace off).1, s.stateChannel off, l0⟩
  ({ s with mc := { s.mc with lastReq := s.time, powerDown := false, held := s.mc.held ++ [r] } }).mcTake r

/-! ## Activates -/

/-- The index of the entry with the lowest count, the lowest index first. -/
def lowestAct : List ActEntry → Nat
  | [] => 0
  | e :: r =>
    match r with
    | [] => 0
    | _ :: _ =>
      let j := lowestAct r
      if (r.getD j e).count < e.count then j + 1 else 0

/-- An activate-count table that is clear. -/
def actClear : List ActEntry := List.replicate 16 ⟨none, 0⟩

/-- The rows within `n` of a row that exist in a bank of `rows` rows. -/
def nearRows (rows row n : Nat) : List Nat :=
  ((List.range n).filter (fun i => decide (i < row))).map (fun i => row - 1 - i) ++
  ((List.range n).filter (fun i => decide (row + 1 + i < rows))).map (fun i => row + 1 + i)

/-- The device's rolling activate counter of a bank (R142): at the threshold that the device states, an RFM command is issued and the
counter falls by the threshold (PRESUMED from JESD209-5, assumption 32). -/
def State.rollAct (s : State) (key : Nat) : State :=
  if s.flag .mcStatusRfmAvail 0 && s.flag .mcCtrlRfmEn 0 && s.mc.rfmLimit ≠ 0 then
    let n := SMap.get s.mc.rolling key 0 + 1
    if s.mc.rfmLimit ≤ n then
      { s with mc := { s.mc with
          rolling := SMap.put s.mc.rolling key (n - s.mc.rfmLimit) 0
          rfms := SMap.put s.mc.rfms key (SMap.get s.mc.rfms key 0 + 1) 0 } }
    else { s with mc := { s.mc with rolling := SMap.put s.mc.rolling key n 0 } }
  else s

/-- An ACT of a row of a bank (R141, R142): the row is open and its count rises; at the threshold the refresh of its neighbours is queued,
and its count starts again. -/
def State.activate (s : State) (key row : Nat) : State :=
  let t := SMap.get s.mc.act key actClear
  let i := match t.findIdx? (fun e => e.row == some row) with
    | some i => i
    | none => lowestAct t
  let c := (t.getD i ⟨none, 0⟩).count + 1
  let hit := decide (s.fld .mcActcfgThreshold 0 ≤ c)
  let rows := nearRows s.bankRows row (s.fld .mcActcfgNeighbours 0 + 1)
  let s := { s with mc := { s.mc with
    act := SMap.put s.mc.act key (t.set i ⟨some row, if hit then 0 else c⟩) actClear
    opened := SMap.put s.mc.opened key (row + 1) 0
    near := if hit then SMap.put s.mc.near key (SMap.get s.mc.near key [] ++ rows) [] else s.mc.near } }
  s.rollAct key

/-- The neighbour refreshes queued in a bank take place (R141): each is an ACT and a PRE of its row, and counts as an ACT. -/
def State.nearRefresh (s : State) (key : Nat) : State :=
  let rows := SMap.get s.mc.near key []
  let s := { s with mc := { s.mc with near := SMap.put s.mc.near key [] [] } }
  rows.foldl (fun s row =>
    let s := s.activate key row
    ({ s with mc := { s.mc with opened := SMap.put s.mc.opened key 0 0 } }).bumpObj .neighbourRefreshes 0 1) s

/-- The next command slot of a channel: a queued neighbour refresh, whose postponement limit is 0, goes before any request (rule 1 of
R139). -/
def State.mcSlot (s : State) (channel : Nat) : State :=
  ((s.mc.near.map (·.1)).filter (fun k => k / 32 == channel)).foldl State.nearRefresh s

end Sys2Proof.Machine
end

