-- ==== Sys2Proof/Machine/Sheaf.lean ====
section
/-!
DEFINITION. Sheaf, the per-grain compressed form of a page (R121, R122): the encoder, which takes the shortest of RAW, ZERO
and PACKED for each grain, and the decoder, which rejects a stream by the conditions of R122.
-/
namespace Sys2Proof.Machine

/-- The low `n` bits of a number, least significant first. -/
def natBits : Nat → Nat → List Bool
  | 0, _ => []
  | n + 1, v => (v % 2 == 1) :: natBits n (v / 2)

/-- The number that bits give, least significant first. -/
def bitsNat : List Bool → Nat
  | [] => 0
  | b :: r => b2n b + 2 * bitsNat r

/-- Bits packed into bytes, least significant first, the last byte padded with zero bits. -/
def packBits (bs : List Bool) : List Byte :=
  (List.range (ceilDiv bs.length 8)).map (fun i => BitVec.ofNat 8 (bitsNat ((bs.drop (8 * i)).take 8)))

/-- The bits of bytes, least significant first. -/
def unpackBits (bs : List Byte) : List Bool := bs.flatMap (fun b => natBits 8 b.toNat)

/-- The elements of a block: nibbles, low first, or bytes (R121). -/
def blockElems (packed4 : Bool) (blk : List Byte) : List Nat :=
  if packed4 then blk.flatMap (fun b => [b.toNat % 16, b.toNat / 16]) else blk.map (·.toNat)

/-- An element of `w` bits fits `k` bits in two's complement. -/
def fitsBits (w k v : Nat) : Bool := decide (-(2 ^ (k - 1) : Int) ≤ signed w v ∧ signed w v < 2 ^ (k - 1))

/-- The smallest width, 1 to `w`, that holds every element of a block. -/
def blockWidth (w : Nat) (es : List Nat) : Nat :=
  ((List.range w).find? (fun i => es.all (fitsBits w (i + 1)))).getD (w - 1) + 1

/-- The 32 blocks of 8 bytes of a grain. -/
def blocksOf (g : List Byte) : List (List Byte) := (List.range 32).map (fun i => (g.drop (8 * i)).take 8)

/-- The PACKED stream of a grain (R121). -/
def packGrain (packed4 : Bool) (g : List Byte) : List Byte :=
  let w := if packed4 then 4 else 8
  let blks := blocksOf g
  let nz := blks.filter (fun b => b.any (· != 0))
  let elems := nz.map (blockElems packed4)
  let widths := elems.map (blockWidth w)
  let mask := packBits (blks.map (fun b => b.any (· != 0)))
  let codes := packBits (widths.flatMap (fun k => natBits 3 (k - 1)))
  let payload := packBits ((elems.zip widths).flatMap (fun p => p.1.flatMap (natBits p.2)))
  (if packed4 then 0x80#8 else 0xC0#8) :: (mask ++ codes ++ payload)

/-- The stream of a grain: the shortest of ZERO, PACKED4, PACKED8 and RAW (R122). -/
def sheafGrain (g : List Byte) : List Byte :=
  if g.all (· == 0) then [0x40#8]
  else
    let p4 := packGrain true g
    let p8 := packGrain false g
    let raw := 0x00#8 :: g
    let a := if p8.length < p4.length then p8 else p4
    if raw.length < a.length then raw else a

/-- The 16 grains of a page. -/
def pageGrains (p : List Byte) : List (List Byte) := (List.range 16).map (fun i => (p.drop (256 * i)).take 256)

/-- The Sheaf form of a page, padded to 64 B (R121). -/
def sheafPage (p : List Byte) : List Byte :=
  let streams := (pageGrains p).map sheafGrain
  let offs := (streams.foldl (fun (a : List Nat × Nat) st => (a.1 ++ [a.2], a.2 + st.length)) ([], 32)).1
  let body := offs.flatMap (natLe 2) ++ streams.flatten
  body ++ List.replicate (ceilDiv body.length 64 * 64 - body.length) 0

/-- The stored length of a page in bytes, or none when it is stored raw (R122). -/
def sheafStored (p : List Byte) : Option Nat :=
  let n := (sheafPage p).length
  if n < 4096 then some n else none

/-- Decode one PACKED stream after its GHDR; none when it runs out or a width code is too large (R122). -/
def unpackGrain (packed4 : Bool) (st : List Byte) : Option (List Byte) :=
  let w := if packed4 then 4 else 8
  if st.length < 4 then none else
  let mask := unpackBits (st.take 4)
  let n := (mask.filter id).length
  let cb := ceilDiv (3 * n) 8
  let codes := unpackBits ((st.drop 4).take cb)
  let widths := (List.range n).map (fun i => bitsNat ((codes.drop (3 * i)).take 3) + 1)
  let pay := unpackBits (st.drop (4 + cb))
  let per := if packed4 then 16 else 8
  if st.length < 4 + cb ∨ widths.any (fun k => decide (w < k)) ∨ pay.length < (widths.map (· * per)).sum then none
  else
    let step (acc : List (List Byte) × List Nat × List Bool) (m : Bool) : List (List Byte) × List Nat × List Bool :=
      if m then
        let k := acc.2.1.headD 1
        let es := (List.range per).map (fun i =>
          unsignedOf w (signed k (bitsNat ((acc.2.2.drop (k * i)).take k))))
        let bytes := if packed4 then (List.range 8).map (fun i => BitVec.ofNat 8 (es.getD (2 * i) 0 + 16 * es.getD (2 * i + 1) 0))
          else es.map (BitVec.ofNat 8)
        (acc.1 ++ [bytes], acc.2.1.drop 1, acc.2.2.drop (k * per))
      else (acc.1 ++ [List.replicate 8 0], acc.2)
    some (mask.foldl step ([], widths, pay)).1.flatten

/-- Decode the stream of one grain (R121, R122). -/
def unsheafGrain (st : List Byte) : Option (List Byte) :=
  match st with
  | [] => none
  | h :: r =>
    let h := h.toNat
    if h % 64 ≠ 0 then none
    else if h / 64 = 0 then (if r.length < 256 then none else some (r.take 256))
    else if h / 64 = 1 then some (List.replicate 256 0)
    else unpackGrain (h / 64 == 2) r

/-- Decode grain `g` of a stored page of `len` bytes: the table starts at 32, its entries do not decrease at this grain, and the stream
ends within the next entry and within LEN (R122). -/
def unsheafAt (page : List Byte) (len g : Nat) : Option (List Byte) :=
  let off (i : Nat) : Nat := leNat ((page.drop (2 * i)).take 2)
  let next := if g = 15 then len else off (g + 1)
  if off 0 ≠ 32 ∨ (g ≠ 15 ∧ next < off g) ∨ off g < off (g - 1) then none
  else unsheafGrain ((page.drop (off g)).take (min next len - off g))

/-- The grains of a stored page; a rejected stream stands as none (R122). -/
def unsheafPage (page : List Byte) (len : Nat) : List (Option (List Byte)) := (List.range 16).map (unsheafAt page len)

end Sys2Proof.Machine
end

