-- ==== Sys2Proof/Machine/UrOps.lean ====
section
/-!
DEFINITION. The operations of the Unified Range that every unit uses (spec/06): the stored form of a page and its seals (R120 to R123,
R127), the lookup of R115 with its counts (R113, R117), promotion, the choice of a victim and pins (R116, R117, R119), and reads and
writes with the world check of R321 and the quarantine of R127 and R128.  A fill takes its page's bytes into the frame when it starts: no
write reaches the home while it runs (R115), so they are the bytes that arrive.
-/
namespace Sys2Proof.Machine

/-- Pages of the Unified Range: C × 1,007 / 2^22 (R111), 1,007 × 256 to a GiB of C. -/
def State.urPages (s : State) : Nat := 257792 * s.ur.dramGiB

/-- The Ledger's first page, and the first of the 64 pages of ring 0x1000 below it (R163). -/
def State.ledgerBase (s : State) : Nat := s.urPages - 4096
def State.ring0Base (s : State) : Nat := s.urPages - 4160

/-- The set of a page (R112). -/
def setOf (p : Nat) : Nat := ((p % 4096) ^^^ (p / 4096)) % 4096

/-- The frame of way `w` of a set (R112). -/
def frameOf (w set : Nat) : Nat := 4096 * w + set

/-- The quarter of a page's set (R112). -/
def quarterOf (p : Nat) : Nat := setOf p % 4

/-- The frames of a page's set. -/
def framesFor (p : Nat) : List Nat := (List.range 16).map (fun w => frameOf w (setOf p))

/-! ## The directory and the page-state table -/

/-- A directory entry that holds nothing. -/
def DirEntry.empty : DirEntry := ⟨0, .invalid, false, 0⟩

/-- A page-state entry as it stands before anything is written. -/
def PageState.clear : PageState := ⟨false, false, false, 0⟩

/-- A quarter that is not OUT (R129); a retiring quarter still serves. -/
def State.quarterIn (s : State) (q : Nat) : Bool := !bit (s.fld .urStatusGqOut 0) q

/-- A quarter that takes fills: neither OUT nor retiring (R129). -/
def State.quarterFills (s : State) (q : Nat) : Bool := s.quarterIn q && !bit (s.fld .urStatusGqDrain 0) q

/-- The directory entry of a frame: every frame of a removed quarter is OUT (R113, R129). -/
def State.dirAt (s : State) (f : Nat) : DirEntry :=
  if s.quarterIn (f % 4) then SMap.get s.ur.dir f DirEntry.empty else ⟨0, .out, false, 0⟩
def State.setDir (s : State) (f : Nat) (e : DirEntry) : State :=
  { s with ur := { s.ur with dir := SMap.put s.ur.dir f e DirEntry.empty } }

def State.pageState (s : State) (p : Nat) : PageState := SMap.get s.ur.pstate p PageState.clear
def State.setPageState (s : State) (p : Nat) (e : PageState) : State :=
  { s with ur := { s.ur with pstate := SMap.put s.ur.pstate p e PageState.clear } }

/-- The frame that holds a page and serves it (R115): CLEAN, DIRTY or in WRITEBACK, or FILLING, when an access waits for its grain. -/
def State.frameHolding (s : State) (p : Nat) : Option Nat :=
  (framesFor p).find? (fun f =>
    let e := s.dirAt f
    decide (e.page = p ∧ (e.state = .clean ∨ e.state = .dirty ∨ e.state = .writeback ∨ e.state = .filling)))

/-- The page is on its way into a frame, or waits for one to be written back. -/
def State.moving (s : State) (p : Nat) : Bool :=
  s.ur.fills.any (fun x => x.page == p) ||
  s.ur.writeBacks.any (fun w => match w.fill with | some x => x.page == p | none => false)

/-! ## The stored form of a page -/

/-- The bytes of a page's home as they are stored: 4 KiB raw, or a Sheaf page of LEN (R120). -/
def State.homeStored (s : State) (p : Nat) : List Byte :=
  let e := s.pageState p
  SMap.getRun s.ur.home (p * 4096) (if e.form then 64 * (e.len + 1) else 4096) 0

/-- The grains of a page's home in uncompressed form; none where the decoder rejects a stream (R122). -/
def State.homeGrains (s : State) (p : Nat) : List (Option (List Byte)) :=
  let b := s.homeStored p
  if (s.pageState p).form then unsheafPage b b.length else (pageGrains b).map some

/-- The uncompressed bytes of a page's home. -/
def State.homePage (s : State) (p : Nat) : List Byte :=
  if (s.pageState p).form then ((s.homeGrains p).map (fun g => g.getD (List.replicate 256 0))).flatten else s.homeStored p

/-- The stored bytes of a page that a read of its home moves, for a part of it in sixteenths (R125). -/
def State.storedShare (s : State) (p grains : Nat) : Nat :=
  let e := s.pageState p
  if e.form then 64 * (e.len + 1) * grains / 16 else 256 * grains

/-- The bytes of a page from where it is served. -/
def State.pageBytes (s : State) (p : Nat) : List Byte :=
  match s.frameHolding p with
  | some f => SMap.getRun s.ur.frame (f * 4096) 4096 0
  | none => s.homePage p

/-- The bytes of a run within one page, from where the page is served. -/
def State.urPeek (s : State) (off n : Nat) : List Byte :=
  match s.frameHolding (off / 4096) with
  | some f => SMap.getRun s.ur.frame (f * 4096 + off % 4096) n 0
  | none =>
    if (s.pageState (off / 4096)).form then ((s.homePage (off / 4096)).drop (off % 4096)).take n
    else SMap.getRun s.ur.home off n 0

/-- The stored seal of a grain of a page, as its difference from the seal of the grain's data, where the page is served (R127). -/
def State.urSeal (s : State) (p g : Nat) : Word :=
  match s.frameHolding p with
  | some f => SMap.get s.ur.frameSealX (f * 16 + g) 0#32
  | none => SMap.get s.ur.sealX (p * 16 + g) 0#32

/-- Put raw bytes in a page's home, as uncompressed; the seals of the grains given match. -/
def State.putHome (s : State) (off : Nat) (bs : List Byte) (gs : List Nat) : State :=
  { s with ur := { s.ur with
      home := SMap.putRun s.ur.home off bs 0
      sealX := gs.foldl (fun m g => SMap.put m g 0#32 0#32) s.ur.sealX } }

/-- The Sheaf encoder (R122, R123): a home that holds its page raw takes the Sheaf form when that is shorter than the page; FORM and LEN
are written with it. -/
def State.encodeHome (s : State) (p : Nat) (encode : Bool) : State :=
  let e := s.pageState p
  let st := sheafPage (SMap.getRun s.ur.home (p * 4096) 4096 0)
  if encode && decide (st.length < 4096) then
    (s.putHome (p * 4096) st []).setPageState p { e with form := true, len := st.length / 64 - 1 }
  else s.setPageState p { e with form := false, len := 0 }

/-- A page that is written whole is encoded when its SHEAF bit and UR_CTRL.SHEAF_WR are 1 (R123). -/
def State.encodes (s : State) (p : Nat) : Bool := (s.pageState p).sheaf && s.flag .urCtrlSheafWr 0

/-- Write a part of a page to its home (R123): a raw home takes the bytes; a Sheaf page is expanded, merged and encoded again. -/
def State.mergeHome (s : State) (off : Nat) (bs : List Byte) (gs : List Nat) : State :=
  let p := off / 4096
  if (s.pageState p).form then
    ((s.putHome (p * 4096) (s.homePage p) []).putHome off bs gs).encodeHome p true
  else s.putHome off bs gs

/-- Write a whole page to its home with seals that match. -/
def State.wholeHome (s : State) (p : Nat) (bs : List Byte) : State :=
  (s.putHome (p * 4096) bs ((List.range 16).map (p * 16 + ·))).encodeHome p (s.encodes p)

/-- Copy a frame to its page's home, with the seals of its side-band unchanged (R119, R127). -/
def State.frameToHome (s : State) (f p : Nat) : State :=
  ({ s with ur := { s.ur with
      home := SMap.copy s.ur.home (p * 4096) s.ur.frame (f * 4096) 4096
      sealX := SMap.copy s.ur.sealX (p * 16) s.ur.frameSealX (f * 16) 16 } }).encodeHome p (s.encodes p)

/-- Copy a page's home into a frame, with its seals. -/
def State.homeToFrame (s : State) (p f : Nat) : State :=
  let s : State := { s with ur := { s.ur with
    frameSealX := SMap.copy s.ur.frameSealX (f * 16) s.ur.sealX (p * 16) 16 } }
  if (s.pageState p).form then
    { s with ur := { s.ur with frame := SMap.putRun s.ur.frame (f * 4096) (s.homePage p) 0 } }
  else { s with ur := { s.ur with frame := SMap.copy s.ur.frame (f * 4096) s.ur.home (p * 4096) 4096 } }

/-! ## Fills, write-backs and moves -/

/-- A frame gives up its contents. -/
def State.dropFrame (s : State) (f : Nat) (st : FrameState) : State :=
  ({ s with ur := { s.ur with
      frame := SMap.clear s.ur.frame (f * 4096) 4096
      frameSealX := SMap.clear s.ur.frameSealX (f * 16) 16 } }).setDir f ⟨0, st, false, 0⟩

/-- A deadline comes before another; none comes last. -/
def sooner (a b : Option Nat) : Bool :=
  match a, b with
  | some x, some y => decide (x < y)
  | some _, none => true
  | none, _ => false

/-- Insert a fill in order of deadline, earliest first, those without one in order of arrival (R119). -/
def insertFill (x : Fill) : List Fill → List Fill
  | [] => [x]
  | y :: r => if sooner x.deadline y.deadline then x :: y :: r else y :: insertFill x r

/-- Pin a page, or release its pin, wherever it is: in a frame, on its way, or behind a write-back (R116). -/
def State.setPinOf (s : State) (p : Nat) (v : Bool) : State :=
  let s := match s.frameHolding p with
    | some f => s.setDir f { s.dirAt f with pin := v }
    | none => s
  { s with ur := { s.ur with
      fills := s.ur.fills.map (fun x : Fill => if x.page = p then { x with pin := v } else x)
      writeBacks := s.ur.writeBacks.map (fun w : WriteBack => { w with
        fill := w.fill.map (fun x => if x.page = p then { x with pin := v } else x) }) } }

/-- The fill of a page from its home into a frame that is free (R119): the frame is FILLING, and the request for the page enters the
controller through the fill's port (R137).  A page that has come in meanwhile, or whose quarter takes no fills any more, leaves the frame
free. -/
def State.fillHome (s : State) (x : Fill) : State :=
  if (s.frameHolding x.page).isSome then (if x.pin then s.setPinOf x.page true else s)
  else if !s.quarterFills (quarterOf x.page) then s
  else
    let s := ((s.homeToFrame x.page x.frame).setDir x.frame ⟨x.page, .filling, x.pin, 0⟩).mcRequest x.port (x.page * 4096) false x.deadline
    { s with ur := { s.ur with fills := insertFill x s.ur.fills } }

/-- A frame becomes free before its write-back has ended: the write-back is dropped, and the fill that waited for the frame starts. -/
def State.freeFrame (s : State) (f : Nat) : State :=
  let s := s.dropFrame f .invalid
  match s.ur.writeBacks.find? (fun w => w.frame == f) with
  | none => s
  | some w =>
    let s := { s with ur := { s.ur with writeBacks := s.ur.writeBacks.erase w } }
    match w.fill with
    | none => s
    | some y => s.fillHome y

/-- Move a page from the frame it is in to a free frame of its set (R116), with its state and its seals; a page that was on its way out
stays, and is DIRTY again. -/
def State.moveFrame (s : State) (f : Nat) (x : Fill) : State :=
  let e := s.dirAt f
  let st := if e.state = .writeback then .dirty else e.state
  let s := ({ s with ur := { s.ur with
      frame := SMap.copy s.ur.frame (x.frame * 4096) s.ur.frame (f * 4096) 4096
      frameSealX := SMap.copy s.ur.frameSealX (x.frame * 16) s.ur.frameSealX (f * 16) 16
      fills := s.ur.fills.map (fun y : Fill => if y.page = x.page then { y with frame := x.frame, pin := x.pin } else y) } }).setDir x.frame
    { e with state := st, pin := x.pin }
  s.freeFrame f

/-- A page goes into a free frame: from another frame when it is resident, else from its home. -/
def State.beginFill (s : State) (x : Fill) : State :=
  match s.frameHolding x.page with
  | some f => s.moveFrame f x
  | none => s.fillHome x

/-- Queue the write-back of a frame (R119), with the deadline and the port of the fill that it makes room for, or through port 8
(R137). -/
def State.queueWriteBack (s : State) (f : Nat) (fill : Option Fill) : State :=
  let e := s.dirAt f
  let dl := fill.bind (·.deadline)
  let s := (s.setDir f { e with state := .writeback }).mcRequest ((fill.map (·.port)).getD 8) (e.page * 4096) true dl
  { s with ur := { s.ur with writeBacks := s.ur.writeBacks ++ [⟨f, e.page, dl, fill⟩] } }

/-- Bring a page into the frame of a victim (R117, R119): a DIRTY victim is written back first, a CLEAN one is dropped. -/
def State.startFill (s : State) (x : Fill) : State :=
  let e := s.dirAt x.frame
  let s : State := if e.state = .dirty ∨ e.state = .clean then
    { s with ur := { s.ur with evictions := s.ur.evictions + 1 } } else s
  if e.state = .dirty then s.queueWriteBack x.frame (some x) else (s.dropFrame x.frame .invalid).beginFill x

/-- A fill ends (R115, R119): the frame is CLEAN, or DIRTY when it was written meanwhile. -/
def State.endFill (s : State) (x : Fill) : State :=
  let e := s.dirAt x.frame
  let s := s.setDir x.frame { e with state := if x.written then .dirty else .clean }
  let s := { s with ur := { s.ur with fills := s.ur.fills.filter (fun y => decide (y ≠ x)) } }
  s.bumpFld .urCntCount 2 1

/-! ## Quarantine -/

/-- Quarantine a page (R127): Q is set, a frame that holds it becomes QUARANTINED, and the event is entered in UR_QLOG
(under R461), in UR_CNT5 and in the Reeve's log. -/
def State.quarantine (s : State) (p cause : Nat) : State :=
  let s := s.setPageState p { s.pageState p with q := true }
  let s := match s.frameHolding p with
    | some f => s.setDir f { s.dirAt f with state := .quarantined }
    | none => s
  let s := { s with ur := { s.ur with fills := s.ur.fills.filter (fun x => x.page != p) } }
  let s := if s.flag .urQlogValid 0 then s
    else s.setFlds 0 [(.urQlogValid, 1), (.urQlogCause, cause), (.urQlogPage, p)]
  (s.bumpFld .urCntCount 5 1).logIt .quarantine 0x14 8 p cause 0

/-- A QUARANTINED frame that holds the page returns to INVALID (R128). -/
def State.freeQuarantined (s : State) (p : Nat) : State :=
  match (framesFor p).find? (fun f => decide ((s.dirAt f).page = p ∧ (s.dirAt f).state = .quarantined)) with
  | some f => s.freeFrame f
  | none => s

/-- Clear the quarantine of a page without changing its data (R128). -/
def State.clearQ (s : State) (p : Nat) : State :=
  let s := s.freeQuarantined p
  s.setPageState p { s.pageState p with q := false }

/-! ## Migration -/

/-- The candidate set of a page (R117). -/
def candSet (p : Nat) : Nat := ((p % 2048) ^^^ (p / 2048 % 2048) ^^^ (p / 2 ^ 22)) % 2048

def Cand.empty : Cand := ⟨none, 0⟩
def State.candAt (s : State) (k : Nat) : Cand := SMap.get s.ur.cand k Cand.empty
def State.setCand (s : State) (k : Nat) (c : Cand) : State :=
  { s with ur := { s.ur with cand := SMap.put s.ur.cand k c Cand.empty } }

/-- The key in the candidate table that counts a page: its own entry, or the entry with the lowest count in its set, the
lowest way among equals (R117). -/
def State.candKey (s : State) (p : Nat) : Nat :=
  let ks := (List.range 4).map (fun w => candSet p * 4 + w)
  match ks.find? (fun k => (s.candAt k).page == some p) with
  | some k => k
  | none => ks.foldl (fun b k => if (s.candAt k).count < (s.candAt b).count then k else b) (candSet p * 4)

/-- Count one grain access in DRAM to a page that is not resident (R117). -/
def State.countCand (s : State) (p : Nat) : State :=
  let k := s.candKey p
  let c := s.candAt k
  if c.page = some p then s.setCand k ⟨some p, min (c.count + 1) 255⟩ else s.setCand k ⟨some p, 1⟩

/-- The ways of a quota (R114). -/
def State.quotaWays (s : State) (quota : Nat) : List Nat :=
  (List.range 16).filter (fun w => bit (s.fld .urQuotaWays quota) w)

/-- The way that gives its frame up for a page (R116, R117): an INVALID way; otherwise the unpinned way with the lowest ACC,
below `limit` where there is one; among equals a CLEAN way before a DIRTY way, then the lowest way. -/
def State.victim (s : State) (p quota : Nat) (limit : Option Nat) : Option Nat :=
  let fs := (s.quotaWays quota).map (fun w => frameOf w (setOf p))
  match fs.find? (fun f => decide ((s.dirAt f).state = .invalid)) with
  | some f => some f
  | none =>
    let free := fs.filter (fun f =>
      let e := s.dirAt f
      decide ((e.state = .clean ∨ e.state = .dirty) ∧ e.pin = false) &&
        (match limit with | some l => decide (e.acc < l) | none => true))
    let rank (f : Nat) : Nat := 2 * (s.dirAt f).acc + b2n (decide ((s.dirAt f).state = .dirty))
    match free with
    | [] => none
    | f :: r => some (r.foldl (fun b g => if rank g < rank b then g else b) f)

/-- Who makes an access sets the port of the fill that it triggers (R137). -/
def Requester.port (q : Requester) : Nat := portOf q.init

/-- A promotion when the page's count has reached MIG_PROMOTE and a way qualifies (R117); the page then gives its entry up (DEDUCED,
assumption 33). -/
def State.promote (s : State) (q : Requester) (p : Nat) : State :=
  let k := s.candKey p
  let c := s.candAt k
  if s.flag .urCtrlMigEn 0 ∧ c.page = some p ∧ s.obj .migPromote 0 ≤ c.count ∧ !s.moving p ∧
      s.quarterFills (quarterOf p) then
    match s.victim p q.quota (some (s.obj .victimMax 0)) with
    | some f => (s.setCand k Cand.empty).startFill ⟨p, f, q.deadline, q.port, false, false⟩
    | none => s
  else s

/-- Count the grains of one access to a page (R113, R115, R117): a hit raises the frame's ACC, and a miss the page's count, which
may promote it.  A miss is a request to the controller. -/
def State.urTouch (s : State) (q : Requester) (p grains : Nat) (write : Bool) : State :=
  match s.frameHolding p with
  | some f =>
    let e := s.dirAt f
    (s.setDir f { e with acc := min (e.acc + grains) 15 }).bumpFld .urCntCount 0 1
  | none =>
    let s := (s.bumpFld .urCntCount 1 1).mcRequest q.port (p * 4096) write q.deadline
    (List.range grains).foldl (fun s _ => (s.countCand p).promote q p) s

/-! ## Reads and writes -/

/-- Why an access to the Unified Range fails: beyond its end, a world refusal, or a data failure of R127. -/
inductive UrErr where
  | range | world | data (page : Nat) (code : Nat)
deriving DecidableEq, Repr

/-- The fault code of R46 for a failed access. -/
def UrErr.code (e : UrErr) : Nat :=
  match e with
  | .range => 0x09 | .world => 0x06 | .data _ c => c

/-- The pages of a run of bytes. -/
def pagesOfRun (off n : Nat) : List Nat :=
  if n = 0 then [] else (List.range ((off + n - 1) / 4096 + 1 - off / 4096)).map (fun i => off / 4096 + i)

/-- The part of a run that lies in one page: its offset and length. -/
def runInPage (off n p : Nat) : Nat × Nat :=
  let lo := max off (p * 4096)
  let hi := min (off + n) (p * 4096 + 4096)
  (lo, hi - lo)

/-- The grains of a run. -/
def grainCount (off n : Nat) : Nat := if n = 0 then 0 else (off + n - 1) / 256 + 1 - off / 256

/-- What a command observed of one grain of the Unified Range, after its one retry (R127). -/
def obsUr (obs : List Obs) (g : Nat) (k : ErrKind) : Bool := obs.contains (.ur g k)

/-- What the read of grain `g` of the Unified Range meets, as a fault code and a CAUSE of UR_QLOG (R122, R127): an uncorrectable error of the
Granary or of DRAM; a stream that the decoder rejects, of a page that comes from its home; and, where its seal is verified, a seal that
does not match. -/
def State.grainFails (s : State) (g : Nat) (verify : Bool) (obs : List Obs) : Option (Nat × Nat) :=
  let p := g / 16
  let home := match s.frameHolding p with | none => true | some f => decide ((s.dirAt f).state = .filling)
  if obsUr obs g .uncorrectable then some (4, if home then 3 else 2)
  else if home && (s.pageState p).form && (obsUr obs g .stream || (((s.homeGrains p).getD (g % 16) none).isNone)) then some (5, 4)
  else if verify && (obsUr obs g .sealMismatch || s.urSeal p (g % 16) != 0#32) then some (5, 1)
  else none

/-- What a write of part of a page meets (R123, R127): a grain covered in part is read and verified before it is sealed again, and so are
the grains that a write touches in a home of the Sheaf form, which is expanded whole; the seal that comes with a grain covered whole is
verified as its last beat is written. -/
def State.writeFails (s : State) (p : Nat) (gs : List (Nat × Bool)) (whole : Bool) (obs : List Obs) : Option (Nat × Nat) :=
  let sheaf := (s.frameHolding p).isNone && (s.pageState p).form && !whole
  let old := if sheaf then (List.range 16).map (fun i => (p * 16 + i, gs.any (fun g => g.1 == p * 16 + i)))
    else (gs.filter (fun g => !g.2)).map (fun g => (g.1, true))
  match old.findSome? (fun g => s.grainFails g.1 g.2 obs) with
  | some e => some e
  | none => if gs.any (fun g => g.2 && obsUr obs g.1 .sealMismatch) then some (5, 1) else none

/-- A write that R128 lets through to a quarantined page: a DMA write that covers it whole.  The zeroing writes of the security engine go
through `urPutWhole`. -/
def Requester.wholeOk (q : Requester) (write whole : Bool) : Bool := write && whole && decide (0x04 ≤ q.init ∧ q.init ≤ 0x0B)

/-- The checks of one access to part of a page, before any data moves: the end of the range, the regions (R321), the
quarantine (R128) and what its data meets (R127), which quarantines the page. -/
def State.urCheck (s : State) (q : Requester) (write : Bool) (off n p : Nat) (obs : List Obs) : Option UrErr × State :=
  let run := runInPage off n p
  let whole := decide (run.2 = 4096)
  let gs := grainsOfRun run.1 run.2
  if s.urPages ≤ p then (some .range, s)
  else if !s.allowed q write 0 p then (some .world, s.refuseAccess q write 0 p)
  else if (s.pageState p).q && !q.wholeOk write whole then (some (.data p 0x05), s)
  else match (if write then s.writeFails p gs whole obs else gs.findSome? (fun g => s.grainFails g.1 g.2 obs)) with
    | some e => (some (.data p e.1), s.quarantine p e.2)
    | none => (none, s)

/-- One page's part of a read (R115, R127): the check, then the bytes. -/
def State.urReadPage (s : State) (q : Requester) (off n : Nat) (obs : List Obs) (p : Nat) : Except UrErr (List Byte) × State :=
  let run := runInPage off n p
  match s.urCheck q false off n p obs with
  | (some e, s') => (.error e, s')
  | (none, s') => (.ok (s'.urPeek run.1 run.2), s'.urTouch q p (grainCount run.1 run.2) false)

/-- A read of several pages goes on with the next page only while no page before it failed. -/
def State.urReadNext (q : Requester) (off n : Nat) (obs : List Obs) (a : Except UrErr (List Byte) × State) (p : Nat) :
    Except UrErr (List Byte) × State :=
  match a.1 with
  | .error _ => a
  | .ok bs =>
    match a.2.urReadPage q off n obs p with
    | (.error e, s') => (.error e, s')
    | (.ok more, s') => (.ok (bs ++ more), s')

/-- Read a run of the Unified Range page by page: the first failure ends the access. -/
def State.urReadPages (s : State) (q : Requester) (off n : Nat) (obs : List Obs) (ps : List Nat) :
    Except UrErr (List Byte) × State :=
  ps.foldl (State.urReadNext q off n obs) (.ok [], s)

/-- Read `n` bytes at an offset of the Unified Range. -/
def State.urRead (s : State) (q : Requester) (off n : Nat) (obs : List Obs) : Except UrErr (List Byte) × State :=
  s.urReadPages q off n obs (pagesOfRun off n)

/-- Put bytes of one page where the page is served (R115): in its frame, which is DIRTY then, or will be when its fill ends; or in its
home. -/
def State.urPut (s : State) (off : Nat) (bs : List Byte) : State :=
  let p := off / 4096
  let gs := (grainsOfRun off bs.length).map (·.1)
  match s.frameHolding p with
  | some f =>
    let e := s.dirAt f
    let s := s.setDir f { e with state := if e.state = .clean then .dirty else e.state }
    { s with ur := { s.ur with
        frame := SMap.putRun s.ur.frame (f * 4096 + off % 4096) bs 0
        frameSealX := gs.foldl (fun m g => SMap.put m (f * 16 + g % 16) 0#32 0#32) s.ur.frameSealX
        fills := s.ur.fills.map (fun x : Fill => if x.page = p then { x with written := true } else x) } }
  | none => if bs.length = 4096 then s.wholeHome p bs else s.mergeHome off bs gs

/-- A write of all 16 grains of a page with their seals (R128): of a quarantined page, any QUARANTINED frame returns to INVALID, the page is
written to its home, and Q is cleared. -/
def State.urPutWhole (s : State) (p : Nat) (bs : List Byte) : State :=
  if (s.pageState p).q then
    let s := (s.freeQuarantined p).wholeHome p bs
    s.setPageState p { s.pageState p with q := false }
  else s.urPut (p * 4096) bs

/-- One page's part of a write that has passed its checks (R115): a resident page is counted as a hit and written in its frame; a write to
a page that is not resident goes to DRAM first, and may then promote the page. -/
def State.urPutPage (s : State) (q : Requester) (off : Nat) (bs : List Byte) (p : Nat) : State :=
  let run := runInPage off bs.length p
  let part := (bs.drop (run.1 - off)).take run.2
  (if run.2 = 4096 then s.urPutWhole p part else s.urPut run.1 part).urTouch q p (grainCount run.1 run.2) true

/-- The checks of the pages of a write; the first failure ends the access. -/
def State.urCheckPages (q : Requester) (off n : Nat) (obs : List Obs) (a : Option UrErr × State) (p : Nat) : Option UrErr × State :=
  match a.1 with
  | some _ => a
  | none => a.2.urCheck q true off n p obs

/-- Check a write of `n` bytes at an offset, page by page. -/
def State.urAdmit (s : State) (q : Requester) (off n : Nat) (obs : List Obs) : Option UrErr × State :=
  (pagesOfRun off n).foldl (State.urCheckPages q off n obs) (none, s)

/-- Write the pages of a run that has passed its checks. -/
def State.urStore (s : State) (q : Requester) (off : Nat) (bs : List Byte) : State :=
  (pagesOfRun off bs.length).foldl (fun s p => s.urPutPage q off bs p) s

/-- Write bytes at an offset of the Unified Range: every page is checked before any is written. -/
def State.urWrite (s : State) (q : Requester) (off : Nat) (bs : List Byte) (obs : List Obs) : Option UrErr × State :=
  match s.urAdmit q off bs.length obs with
  | (some e, s') => (some e, s')
  | (none, s') => (none, s'.urStore q off bs)

/-! ## Pins -/

/-- Take a way of the quota for a page, in the order of R117 without the VICTIM_MAX limit, and bring it in pinned (R116). -/
def State.pinInto (s : State) (p quota port : Nat) (deadline : Option Nat) : Bool × State :=
  match s.victim p quota none with
  | some f => (true, s.startFill ⟨p, f, deadline, port, true, false⟩)
  | none => (false, s)

/-- Pin one page for a quota (R116): a page in a way of the quota is pinned there; one in another way, or on its way out, is moved; one that
waits for a way of the quota is pinned when it comes; any other is filled.  False is the RESULT FULL. -/
def State.pinPage (s : State) (p quota port : Nat) (deadline : Option Nat) : Bool × State :=
  let own := (s.quotaWays quota).map (fun w => frameOf w (setOf p))
  match s.frameHolding p with
  | some f =>
    if own.contains f && decide ((s.dirAt f).state ≠ .writeback) then (true, s.setPinOf p true)
    else s.pinInto p quota port deadline
  | none =>
    match s.ur.writeBacks.find? (fun w => match w.fill with | some x => x.page == p | none => false) with
    | none => s.pinInto p quota port deadline
    | some w =>
      if own.contains w.frame then (true, s.setPinOf p true)
      else
        -- the page waits for a frame of another quota: that frame's write-back goes on, and the page takes a way of this one
        match s.victim p quota none with
        | none => (false, s)
        | some _ =>
          ({ s with ur := { s.ur with
              writeBacks := s.ur.writeBacks.map (fun x : WriteBack => if x = w then { x with fill := none } else x) } }).pinInto p quota port deadline

/-- Release the pin of a page, wherever it is. -/
def State.unpinPage (s : State) (p : Nat) : State := s.setPinOf p false

/-- Keep the request of UR_PIN in progress. -/
def State.setPinning (s : State) (x : Option (List Nat × Nat)) : State := { s with ur := { s.ur with pinning := x } }

/-- The pages of the request of UR_PIN that are still on their way (R130). -/
def State.pinComing (s : State) : List Nat := ((s.ur.pinning.map (·.1)).getD []).filter s.moving

/-- UR_PIN2.BUSY: the request is in progress; and DONE, the pages completed (R130). -/
def State.pinBusy (s : State) : Bool := !s.pinComing.isEmpty
def State.pinDone (s : State) : Nat := ((s.ur.pinning.map (·.1)).getD []).length - s.pinComing.length

/-! ## Removal of a quarter -/

/-- The frames of a quarter that hold or expect something. -/
def State.liveFrames (s : State) (quarter : Nat) : List Nat :=
  (s.ur.dir.filter (fun e => e.1 % 4 == quarter && decide (e.2.state ≠ .invalid))).map (·.1)

/-- A fill into a frame ends with the quarter's removal (R129): what waited for it is served from the home. -/
def State.stopFill (s : State) (f : Nat) : State :=
  match s.ur.fills.find? (fun x => x.frame == f) with
  | none => s
  | some x =>
    let s := if x.written then s.frameToHome f x.page else s
    ({ s with ur := { s.ur with fills := s.ur.fills.erase x } }).dropFrame f .invalid

/-- What a frame of a quarter does when the quarter begins to retire (R129): a CLEAN page is dropped, a DIRTY one queued to go home, a fill
ends, and a write-back goes on though the fill that waited for it does not; pins are released. -/
def State.retireFrame (s : State) (f : Nat) : State :=
  match (s.dirAt f).state with
  | .clean => s.dropFrame f .invalid
  | .dirty => (s.setDir f { s.dirAt f with pin := false }).queueWriteBack f none
  | .filling => s.stopFill f
  | .writeback =>
    let s := s.setDir f { s.dirAt f with pin := false }
    { s with ur := { s.ur with
        writeBacks := s.ur.writeBacks.map (fun w : WriteBack => if w.frame = f then { w with fill := none } else w) } }
  | _ => s

/-- A quarter begins to retire (R129): its resident pages are served until each is home. -/
def State.startRetire (s : State) (quarter : Nat) : State :=
  let s := s.setFld .urStatusGqDrain 0 (setBits (s.fld .urStatusGqDrain 0) quarter quarter 1)
  (s.liveFrames quarter).foldl State.retireFrame s

/-- A requester that is not a tensor core: no quota of its own but Q8, and no deadline (R114, R124). -/
def unitReq (init : Nat) (secure : Bool) : Requester := ⟨init, secure, 8, false, none⟩

end Sys2Proof.Machine
end

