-- ==== Sys2Proof/Machine/Records.lean ====
section
/-!
DEFINITION. The records of the Session Ledger as every unit sees them (R163, R164), and the publication of a result record
into its ring (R344 to R350), with the deadline rules R11 to R14.
-/
namespace Sys2Proof.Machine

/-! ## HANDLE32 and the 64 B records -/

/-- The slot `bank * 65536 + index` that a HANDLE32 names (R163). -/
def handleSlot (h : Nat) : Nat := bits h 31 30 * 65536 + bits h 29 14
def handleGen (h : Nat) : Nat := bits h 13 0
def handleOf (slot gen : Nat) : Nat := slot / 65536 * 2 ^ 30 + slot % 65536 * 2 ^ 14 + gen

/-- The record in a slot. -/
def State.recAt (s : State) (slot : Nat) : Nat := SMap.get s.ledger.recs slot 0
def State.setRec (s : State) (slot v : Nat) : State :=
  { s with ledger := { s.ledger with recs := SMap.put s.ledger.recs slot v 0 } }

/-! The header fields of R164. -/

def recGen (r : Nat) : Nat := bits r 29 16
def recPart (r : Nat) : Nat := bits r 14 12
def recWorld (r : Nat) : Nat := bits r 11 11
def recState (r : Nat) : Nat := bits r 10 8
def recType (r : Nat) : Nat := bits r 7 0
def recOwner (r : Nat) : Nat := bits r 63 32

/-- Field [hi:lo] of the 32-bit word at byte `b` of a record. -/
def recField (r b hi lo : Nat) : Nat := bits r (8 * b + hi) (8 * b + lo)
def setRecField (r b hi lo v : Nat) : Nat := setBits r (8 * b + hi) (8 * b + lo) v
def setRecState (r v : Nat) : Nat := setBits r 10 8 v

/-- A handle is stale: it is null, its GEN differs from the record's, or the record is closed (R163). -/
def State.stale (s : State) (h : Nat) : Bool :=
  let r := s.recAt (handleSlot h)
  handleGen h == 0 || handleGen h != recGen r || recState r == 0

/-- The record a handle names. -/
def State.recOf (s : State) (h : Nat) : Nat := s.recAt (handleSlot h)

/-! ## Result rings -/

def State.ring (s : State) (r : Nat) : Ring := SMap.get s.ledger.rings r Ring.closed
def State.setRing (s : State) (r : Nat) (x : Ring) : State :=
  { s with ledger := { s.ledger with rings := SMap.put s.ledger.rings r x Ring.closed } }

/-- The oldest readable sequence number (R347). -/
def Ring.oldest (x : Ring) : Nat := max (max x.retired (x.nextSeq - 4096)) 1

/-- The deadline of a class, in nanoseconds (R11): FRAME, TRACK, TOKEN, SPEAKER, EVENT; the spec gives none to the reserved classes of R344,
which are published with 0 ns (DESIGN CHOICE, assumption 20). -/
def classDeadline (cls : Nat) : Nat := [40000000, 40000000, 250000000, 500000000, 100000000].getD cls 0

/-- The end of the last resume of the domains that produce a record (R14, R405): a tract's arrays are off in DOZE too; every other
producer and the rings' memory go off in REST and LISTEN only. -/
def State.resumeOf (s : State) (tract : Bool) : Nat := if tract then s.pwr.resumeEnd else s.pwr.deepEnd

/-- The instant by which a record must be ready: from its evidence time, or from the end of the last resume of its producing domains when
the evidence lies before it (R11, R14). -/
def State.readyBy (s : State) (tract : Bool) (cls evidence : Nat) : Nat := max evidence (s.resumeOf tract) + classDeadline cls

/-- The bytes of a result record (R344), its seal made over them with the seal field zero (R304). -/
def resultBytes (seq subject evidence ready cls flags code : Nat) (payload : List Byte) : List Byte :=
  let tail := natLe 8 evidence ++ natLe 8 ready ++ natLe 1 cls ++ natLe 1 flags ++ natLe 2 code ++
    (payload ++ List.replicate 28 0).take 28
  let head := natLe 8 seq ++ natLe 4 subject
  head ++ natLe 4 (crc32c (head ++ natLe 4 0 ++ tail)).toNat ++ tail

/-- A publication that is dropped (R350). -/
def State.dropRecord (s : State) (r : Nat) : State :=
  let x := s.ring r
  let s := s.bumpObj .ringDrops 0 1
  if x.isOpen then s.setRing r { x with drops := (x.drops + 1) % 2 ^ 64 } else s

/-- Publish a record in ring `r` (R347): the slot is written, then NEXT_SEQ advances; `due` is the instant after which the
record carries LATE (R12).  The bits of `flags` other than LATE are the producer's. -/
def State.publishDue (s : State) (r subject evidence cls flags code : Nat) (payload : List Byte) (due : Option Nat) :
    State :=
  let x := s.ring r
  if !x.isOpen then s.dropRecord r else
  let late := match due with | some d => b2n (decide (d < s.time)) | none => 0
  let bs := resultBytes x.nextSeq subject evidence s.time cls (flags / 2 * 2 + late) code payload
  match s.urWrite (unitReq 0x17 (x.secure || r == 0)) (x.store * 4096 + x.nextSeq % 4096 * 64) bs [] with
  | (some _, s') => (s'.dropRecord r).logIt .ring 0x17 4 r x.nextSeq 0
  | (none, s') =>
    let s' := s'.setRing r { s'.ring r with nextSeq := x.nextSeq + 1 }
    { s' with ledger := { s'.ledger with
        readBit := SMap.put s'.ledger.readBit (r * 4096 + x.nextSeq % 4096) false false } }

/-- Publish a record under the deadline of its class. -/
def State.publish (s : State) (r subject evidence cls flags code : Nat) (payload : List Byte) : State :=
  s.publishDue r subject evidence cls flags code payload (some (s.readyBy false cls evidence))

/-- Publish to the ring of a result-ring record (R350): a stale handle, or one of another type, drops the publication. -/
def State.publishTo (s : State) (h subject evidence cls flags code : Nat) (payload : List Byte) : State :=
  let r := s.recOf h
  if s.stale h || recType r != 6 then s.dropRecord (if recType r = 6 then recField r 8 11 0 else 0xFFFF)
  else s.publish (recField r 8 11 0) subject evidence cls flags code payload

/-- Publish an EVENT record on ring 0x1000 (R345): CLASS 4, the code, and ARG in bytes 36 to 39.  Before start-up has reached a
running Almanac, and in a warm reset, the record waits (R345, R440). -/
def State.eventOn (s : State) (subject code arg evidence : Nat) : State :=
  if s.boot.stage = .run then s.publish 0 subject evidence 4 0 code (natLe 4 arg)
  else { s with pwr := { s.pwr with events := s.pwr.events ++ [LateEvent.mk subject code arg evidence] } }

/-- An EVENT record that names no subject. -/
def State.event (s : State) (code arg evidence : Nat) : State := s.eventOn 0 code arg evidence

end Sys2Proof.Machine
end

