-- ==== Sys2Proof/Machine/Hearth.lean ====
section
/-!
DEFINITION. The hearths and their allocator (spec/04): planes, split modes, leases and generations, the spill slots, swaps
and the loss of a parked plane.
-/
namespace Sys2Proof.Machine

/-! ## Planes -/

/-- The key of a slot of a plane (R24). -/
def planeKey (core h row col : Nat) : Nat := (core * 4 + h) * 4096 + row * 64 + col

/-- The key of a slot of a plane in a spill slot. -/
def spillKey (part slot : Nat) : Nat := (part * 2 ^ 20 + slot) * 4096

def State.slotAt (s : State) (core h row col : Nat) : Word := SMap.get s.hearth.plane (planeKey core h row col) 0#32

def State.setSlot (s : State) (core h row col : Nat) (v : Word) : State :=
  { s with hearth := { s.hearth with plane := SMap.put s.hearth.plane (planeKey core h row col) v 0#32 } }

/-- Set a plane to zeros. -/
def State.zeroPlane (s : State) (core h : Nat) : State :=
  { s with hearth := { s.hearth with plane := SMap.clear s.hearth.plane (planeKey core h 0 0) 4096 } }

/-- Copy a plane to a spill slot (R76). -/
def State.planeToSpill (s : State) (core h part slot : Nat) : State :=
  { s with hearth := { s.hearth with
      spill := SMap.copy s.hearth.spill (spillKey part slot) s.hearth.plane (planeKey core h 0 0) 4096
      spillLost := SMap.put s.hearth.spillLost (part * 2 ^ 20 + slot) false false } }

/-- Copy a spill slot to a plane. -/
def State.spillToPlane (s : State) (part slot core h : Nat) : State :=
  { s with hearth := { s.hearth with
      plane := SMap.copy s.hearth.plane (planeKey core h 0 0) s.hearth.spill (spillKey part slot) 4096 } }

/-- Write zeros, sealed, into a spill slot (R68). -/
def State.zeroSpill (s : State) (part slot : Nat) : State :=
  { s with hearth := { s.hearth with
      spill := SMap.clear s.hearth.spill (spillKey part slot) 4096
      spillLost := SMap.put s.hearth.spillLost (part * 2 ^ 20 + slot) false false } }

def State.spillGone (s : State) (part slot : Nat) : Bool :=
  SMap.get s.hearth.spillLost (part * 2 ^ 20 + slot) false

/-! ## Split modes and leases -/

/-- The WORK and the STATE hearths of a split mode (R69). -/
def workHearths (split : Nat) : List Nat := if split = 0 then [0, 1] else if split = 1 then [0] else []
def stateHearths (split : Nat) : List Nat := if split = 0 then [2, 3] else if split = 1 then [1, 2, 3] else [0, 1, 2, 3]

/-- The even hearths that a compensated pair may take (R69, R70). -/
def pairHearths (split : Nat) : List Nat := if split = 2 then [0, 2] else [2]

/-- The hearths a lease holds on each of its members. -/
def Lease.hearths (l : Lease) : List Nat := if l.kind = .pair then [l.hearth, l.hearth + 1] else [l.hearth]

/-- The cores a lease holds. -/
def Lease.cores (l : Lease) : List Nat := (List.range l.width).map (l.core + ·)

/-- A lease holds hearth `h` of core `c`. -/
def Lease.covers (l : Lease) (c h : Nat) : Bool := l.cores.contains c && l.hearths.contains h

/-- A plane of the lease, its number among the lease's planes, for the spill slot it takes. -/
def Lease.planes (l : Lease) : List (Nat × Nat × Nat) :=
  let hs := l.hearths
  l.cores.flatMap (fun c => hs.map (fun h => (c, h, l.slot + (c - l.core) * hs.length + (h - l.hearth))))

/-- The leases on a hearth. -/
def State.leasesOn (s : State) (c h : Nat) : List Lease := s.hearth.leases.filter (·.covers c h)

/-- The lease whose plane is in a hearth (R68). -/
def State.residentOn (s : State) (c h : Nat) : Option Lease :=
  (s.leasesOn c h).find? (fun l => decide (l.phase = .resident))

def State.setLeases (s : State) (ls : List Lease) : State := { s with hearth := { s.hearth with leases := ls } }

/-- Replace one lease, told by its place and generation. -/
def State.updLease (s : State) (l : Lease) (f : Lease → Lease) : State :=
  s.setLeases (s.hearth.leases.map (fun x => if x = l then f x else x))

def State.dropLease (s : State) (l : Lease) : State := s.setLeases (s.hearth.leases.filter (fun x => decide (x ≠ l)))

def State.genOf (s : State) (c h : Nat) : Nat := SMap.get s.hearth.gen (c * 4 + h) 0

/-- The next generation that no live lease on the set holds, from 1 to 4,095 (R72). -/
def nextGen (used : List Nat) (g : Nat) : Nat :=
  let cands := (List.range 4095).map (fun i => (g + i) % 4095 + 1)
  (cands.find? (fun x => !used.contains x)).getD 1

/-- Give a lease its generation: the counter of its lead hearth steps, and every hearth of the set takes the value (R72). -/
def State.stepGen (s : State) (cells : List (Nat × Nat)) : Nat × State :=
  let used := cells.flatMap (fun x => (s.leasesOn x.1 x.2).map (·.gen))
  let lead := cells.headD (0, 0)
  let g := nextGen used (s.genOf lead.1 lead.2)
  (g, { s with hearth := { s.hearth with
      gen := cells.foldl (fun m x => SMap.put m (x.1 * 4 + x.2) g 0) s.hearth.gen } })

/-- Grant the WORK leases of a job on a core, or on the members of its furrow: one on every WORK hearth of each member's own split mode,
with a generation of its own (R68, R69, R72, Granting). -/
def State.grantWork (s : State) (core width part : Nat) : State :=
  ((List.range width).map (core + ·)).foldl (fun s c =>
    (workHearths (s.fld .hearthCfgSplit c)).foldl (fun s h =>
      let g := s.stepGen [(c, h)]
      g.2.setLeases (g.2.hearth.leases ++ [⟨.work, c, 1, h, g.1, part, 0, false, .resident, false, 0, false, 0⟩])) s) s

/-- Release the WORK leases of a core (R68). -/
def State.releaseWork (s : State) (core : Nat) : State :=
  s.setLeases (s.hearth.leases.filter (fun l => !(decide (l.kind = .work) && l.cores.contains core)))

/-! ## Spill slots -/

/-- Cores of a partition, from RT_PART. -/
def State.partBase (s : State) (p : Nat) : Nat := s.fld .rtPartBase p
def State.partSize (s : State) (p : Nat) : Nat := 2 ^ s.fld .rtPartSize p
def State.partActive (s : State) (p : Nat) : Bool := bit (s.fld .rtStatusActive 0) p
def State.partFurrow (s : State) (p : Nat) : Bool := s.flag .rtPartFurrow p
def State.partSecure (s : State) (p : Nat) : Bool := s.flag .rtPartWorld p

/-- The partition of a core (R212). -/
def State.partOf (s : State) (core : Nat) : Option Nat :=
  (List.range 8).find? (fun p =>
    s.partActive p && decide (s.partBase p ≤ core ∧ core < s.partBase p + s.partSize p))

/-- The lead and the width of the furrow a core runs in; a width of 1 for a core that runs alone. -/
def State.furrowOf (s : State) (core : Nat) : Nat × Nat :=
  match s.partOf core with
  | some p => if s.partFurrow p then (s.partBase p, s.partSize p) else (core, 1)
  | none => (core, 1)

/-- Spill slots reserved for save areas: 68 for each core and enabled wheel slot (R227). -/
def State.saveSlots (s : State) (p : Nat) : Nat :=
  ((List.range 64).filter (fun i => s.flag .rtWheelEn (p * 64 + i))).length * 68 * s.partSize p

/-- A spill slot lies in a save area: the areas are at the top of the spill area (R462). -/
def State.inSaveArea (s : State) (p slot : Nat) : Bool :=
  decide (s.obj .spillSlots (p + 1) ≤ slot + s.saveSlots p ∧ slot < s.obj .spillSlots (p + 1))

/-- Spill slots that a STATE lease of a partition holds. -/
def State.leaseSlots (s : State) (p : Nat) : List Nat :=
  (s.hearth.leases.filter (fun l => decide (l.kind ≠ .work ∧ l.part = p))).flatMap (fun l => l.planes.map (·.2.2))

/-- The highest free run of `n` spill slots of a partition below its save areas (R462). -/
def State.freeSlots (s : State) (p n : Nat) : Option Nat :=
  let top := s.obj .spillSlots (p + 1) - s.saveSlots p
  let used := s.leaseSlots p
  if top < n then none else
  ((List.range (top + 1 - n)).map (fun i => top - n - i)).find? (fun a =>
    (List.range n).all (fun j => !used.contains (a + j)))

/-- Park a resident lease at once, outside a swap: a dirty plane is written out, a clean one only marked (R75, R83). -/
def State.parkNow (s : State) (l : Lease) : State :=
  let s := l.planes.foldl (fun s x =>
    if l.dirty then (s.planeToSpill x.1 x.2.1 l.part x.2.2).bumpFld .hearthCntCount (x.1 * 4 + 1) 1
    else s.bumpFld .hearthCntCount (x.1 * 4 + 2) 1) s
  s.updLease l (fun x => { x with phase := .parked, dirty := false })

/-- A pinned lease takes its hearth (R80): the lease in it is parked, and a swap that was bringing one in does not take place (R75), so
that lease stays parked. -/
def State.giveWay (s : State) (l : Lease) : State :=
  match l.phase with
  | .resident => s.parkNow l
  | .movingIn => if l.releasing then s.dropLease l else s.updLease l (fun x => { x with phase := .parked, moved := 0 })
  | _ => s

/-! ## Granting a STATE lease -/

/-- The pinned leases of a core. -/
def State.pinnedOn (s : State) (core : Nat) : Nat :=
  (s.hearth.leases.filter (fun l => l.pinned && l.cores.contains core)).length

/-- Grant a STATE lease in a core, or in its furrow: on the hearth that is a STATE hearth of every member with the fewest live leases, the
lowest number among equals; resident on an empty hearth or when pinned, parked otherwise (R68, R69, R80, Granting).  None when R81
refuses.  A stream record carries no class, so PINNED is taken as the opener gives it (DESIGN CHOICE, assumption 29). -/
def State.grantState (s : State) (core part owner : Nat) (pair pinned : Bool) : Option State :=
  let fw := s.furrowOf core
  let width := fw.2
  let members := (List.range width).map (fw.1 + ·)
  let hsOf (h : Nat) : List Nat := if pair then [h, h + 1] else [h]
  let cand := [0, 1, 2, 3].filter (fun h => members.all (fun c =>
    let split := s.fld .hearthCfgSplit c
    (hsOf h).all (stateHearths split).contains && (!pair || (pairHearths split).contains h)))
  let live (h : Nat) : Nat := (members.flatMap (fun c => (hsOf h).map (fun x => (s.leasesOn c x).length))).foldl max 0
  let ok (h : Nat) : Bool := decide (live h < 255) &&
    (hsOf h).all (fun x => members.all (fun c => !(s.leasesOn c x).any (·.pinned)))
  let best := (cand.filter ok).foldl (fun (b : Option Nat) h =>
    match b with
    | none => some h
    | some x => if live h < live x then some h else some x) none
  if pinned && decide (s.obj .pinMax (part + 1) < s.pinnedOn fw.1 + 1) then none
  else match best with
    | none => none
    | some h =>
      match s.freeSlots part (width * (hsOf h).length) with
      | none => none
      | some slot =>
        let cells := (hsOf h).flatMap (fun x => members.map (fun c => (c, x)))
        let g := s.stepGen (members.flatMap (fun c => (hsOf h).map (fun x => (c, x))))
        let s := g.2
        let busy := cells.any (fun x => (s.leasesOn x.1 x.2).any (fun l => decide (l.phase ≠ .parked)))
        let l : Lease := ⟨if pair then .pair else .state, fw.1, width, h, g.1, part, slot, pinned,
          if busy && !pinned then .parked else .resident, false, owner, false, 0⟩
        let s := if busy && pinned then
            (s.hearth.leases.filter (fun x => cells.any (fun y => x.covers y.1 y.2))).foldl State.giveWay s
          else s
        let s := l.planes.foldl (fun s x => s.zeroSpill part x.2.2) s
        let s := if l.phase = .resident then cells.foldl (fun s x => s.zeroPlane x.1 x.2) s else s
        some (s.setLeases (s.hearth.leases ++ [l]))

/-- Release a lease, or note the release when its swap is in progress (R79). -/
def State.releaseLease (s : State) (l : Lease) : State :=
  if l.phase = .movingIn ∨ l.phase = .movingOut then s.updLease l (fun x => { x with releasing := true }) else s.dropLease l

/-! ## Swaps -/

/-- Park the resident lease of a hearth for a swap (R75): a clean plane is only marked, a dirty one starts to move out. -/
def State.parkOut (s : State) (l : Lease) : State :=
  if l.dirty then
    let s := l.planes.foldl (fun s x => s.planeToSpill x.1 x.2.1 l.part x.2.2) s
    s.updLease l (fun x => { x with phase := .movingOut, moved := 0 })
  else s.parkNow l

/-- Start the swap that brings a parked lease in (R75, R77): nothing starts while the lease is still on its way out, while the lease in
the hearth is pinned, while another swap holds the hearth, or while a quarter of the Granary is being taken out of service: every slot
has a page in each quarter (R79, R112). -/
def State.startSwap (s : State) (l : Lease) : State :=
  if l.phase ≠ .parked ∨ s.fld .urStatusGqDrain 0 ≠ 0 then s else
  let others := s.hearth.leases.filter (fun x =>
    decide (x ≠ l) && l.cores.any (fun c => l.hearths.any (fun h => x.covers c h)))
  if others.any (fun x => decide (x.phase = .movingIn ∨ x.phase = .movingOut)) ||
      others.any (fun x => x.pinned && decide (x.phase = .resident)) then s
  else
    let s := (others.filter (fun x => decide (x.phase = .resident))).foldl (fun s x => s.parkOut x) s
    s.updLease l (fun x => { x with phase := .movingIn, moved := 0 })

/-- A lease's slots cannot be read back: their quarter is lost, or the read meets an error that its retry does not cure. -/
def State.swapLost (s : State) (l : Lease) (failed : Bool) : Bool :=
  failed || l.planes.any (fun x => s.spillGone l.part x.2.2)

/-- The mask of a lease in motion once the planes of core `core` have moved, and whether every member's have (R71). -/
def Lease.movedBy (l : Lease) (core : Nat) : Nat :=
  if bit l.moved (core - l.core) then l.moved else l.moved + 2 ^ (core - l.core)
def Lease.allMoved (l : Lease) (core : Nat) : Bool := l.movedBy core + 1 == 2 ^ l.width

/-- The swap-in of one member ends well (R77 event 7): its planes are in its hearths, and the lease is resident once every member's are
(R71). -/
def State.swapIn (s : State) (l : Lease) (core : Nat) : State :=
  let s := (l.planes.filter (fun x => x.1 == core)).foldl (fun s x =>
    (s.spillToPlane l.part x.2.2 x.1 x.2.1).bumpFld .hearthCntCount (x.1 * 4) 1) s
  if !l.allMoved core then s.updLease l (fun x => { x with moved := l.movedBy core }) else
  let s := s.bumpObj .swaps (l.part + 1) 1
  if l.releasing then s.dropLease l else s.updLease l (fun x => { x with phase := .resident, dirty := false, moved := 0 })

/-- The parked plane is lost (R82): the lease and its generation are released, the stream's record is marked STATE_LOST, and
the loss counted. -/
def State.loseLease (s : State) (l : Lease) : State :=
  let s := (s.dropLease l).bumpObj .stateLost (l.part + 1) 1
  if l.owner ≠ 0 ∧ !s.stale l.owner then
    s.setRec (handleSlot l.owner) (setRecState (s.recOf l.owner) 4)
  else s

/-- The swap-out of one member ends (R77 event 8): the Granary has its outgoing grains, and the lease is parked once it has every
member's. -/
def State.swapOut (s : State) (l : Lease) (core : Nat) : State :=
  let s := (l.planes.filter (fun x => x.1 == core)).foldl (fun s x => s.bumpFld .hearthCntCount (x.1 * 4 + 1) 1) s
  if !l.allMoved core then s.updLease l (fun x => { x with moved := l.movedBy core }) else
  if l.releasing then s.dropLease l else s.updLease l (fun x => { x with phase := .parked, dirty := false, moved := 0 })

/-- Mark the resident plane of a hearth as written (R75). -/
def State.markDirty (s : State) (c h : Nat) : State :=
  match s.residentOn c h with
  | some l => s.updLease l (fun x => { x with dirty := true })
  | none => s

/-! ## The generation check at issue -/

/-- What R73 decides for a command that names a hearth. -/
inductive GenCheck where
  | issues | waits (l : Lease) | fault
deriving DecidableEq, Repr

/-- The generation check of R73 on one hearth of one core for a job of partition `part`. -/
def State.genCheck (s : State) (c h hgen part : Nat) : GenCheck :=
  match s.residentOn c h with
  | some l =>
    if hgen = 0 then (if l.kind = .work then .issues else .fault)
    else if l.gen = hgen then .issues
    else match (s.leasesOn c h).find? (fun l => decide (l.gen = hgen ∧ l.part = part ∧ l.phase ≠ .resident)) with
      | some l => .waits l
      | none => .fault
  | none =>
    if hgen = 0 then .fault
    else match (s.leasesOn c h).find? (fun l => decide (l.gen = hgen ∧ l.part = part)) with
      | some l => .waits l
      | none => .fault

end Sys2Proof.Machine
end

