-- ==== Sys2Proof/Machine/BinOps.lean ====
section
/-!
DEFINITION. The operations of a Bin that every port uses (spec/05): the placement of R86, reads with the checks of R92, R93
and R98, writes with the merge of R94, tallies (R101), and the error counters and log of R108.
-/
namespace Sys2Proof.Machine

/-- The bytes of a Bin and its grains (R85). -/
def binBytes : Nat := 0x1800000
def binGrains : Nat := 98304

/-- The key of a byte of a Bin. -/
def binAddr (b off : Nat) : Nat := b * 2 ^ 25 + off

/-- The key of a grain of a Bin. -/
def grainKey (b g : Nat) : Nat := b * 2 ^ 17 + g

/-- The bank and the logical row of a grain (R86). -/
def placeGrain (g : Nat) : Nat × Nat :=
  let row := g / 16 % 2048
  let fold := (row % 16) ^^^ (row / 16 % 16) ^^^ (row / 256)
  let b16 := (g % 16) ^^^ fold
  (16 * ((2 * (g / 32768) + row) % 3) + b16, row)

/-- The bytes of a Bin from an offset. -/
def State.binRead (s : State) (b off n : Nat) : List Byte := SMap.getRun s.bin.mem (binAddr b off) n 0

/-- A little-endian number in a Bin. -/
def State.binNat (s : State) (b off n : Nat) : Nat := leNat (s.binRead b off n)

/-- The Bin serves accesses (R95). -/
def State.binReady (s : State) (b : Nat) : Bool := s.flag .binStatusReady b

/-- Capture an error in BIN_ERRLOG unless an entry is held (R461). -/
def State.binCapture (s : State) (b type bank row port : Nat) : State :=
  if s.flag .binErrlogValid b then s
  else s.setFlds b [(.binErrlogValid, 1), (.binErrlogType, type), (.binErrlogBank, bank), (.binErrlogRow, row),
    (.binErrlogPort, port)]

/-- An error of a Bin is offered to BIN_ERRLOG and enters the Reeve's log (R461).  A world refusal is logged under R324 alone. -/
def State.binErrlog (s : State) (b type bank row port : Nat) : State :=
  let s := s.binCapture b type bank row port
  if type = 4 then s else s.logIt .binError 0xFF (if type = 1 then 0 else 8) (b + type * 256) (bank * 2048 + row) port

/-- Poison a grain, or clear its poison. -/
def State.setPoison (s : State) (b g : Nat) (v : Bool) : State :=
  { s with bin := { s.bin with poison := SMap.put s.bin.poison (grainKey b g) v false } }

def State.poisoned (s : State) (b g : Nat) : Bool := SMap.get s.bin.poison (grainKey b g) false

/-- The seal stored with a grain (R300): the seal of its data, changed by what `sealX` holds. -/
def State.sealStored (s : State) (b g : Nat) : Word :=
  crc32c (s.binRead b (g * 256) 256) ^^^ SMap.get s.bin.sealX (grainKey b g) 0#32

/-- Why a Bin access fails: READY is 0, a world refusal, a poisoned grain, an uncorrectable error, a seal mismatch, or an
offset outside the Bin. -/
inductive BinErr where
  | notReady | world | poison (g : Nat) | uncorrectable (g : Nat) | sealMismatch (g : Nat) | range
deriving DecidableEq, Repr

/-- The fault code of R46 for a failed Bin access. -/
def BinErr.code (e : BinErr) : Nat :=
  match e with
  | .notReady => 0x09 | .world => 0x06 | .poison _ => 0x04 | .uncorrectable _ => 0x04 | .sealMismatch _ => 0x05
  | .range => 0x09

/-- Count a corrected error on a row in the correctable-row table of 32 entries; a full table gives up the entry with the
lowest count (R106). -/
def ceBump (rows : List CeRow) (bank row : Nat) : List CeRow :=
  if rows.any (fun r => r.bank == bank && r.row == row) then
    rows.map (fun r => if r.bank == bank && r.row == row then { r with count := r.count + 1 } else r)
  else if rows.length < 32 then rows ++ [⟨bank, row, 1⟩]
  else
    let low := (rows.map (·.count)).foldl min (rows.headD ⟨0, 0, 0⟩).count
    let i := (rows.findIdx? (fun r => r.count == low)).getD 0
    rows.set i ⟨bank, row, 1⟩

/-- A corrected single-bit error on a grain (R92): counted, entered in the row table, and due for a write-back. -/
def State.binCorrected (s : State) (b g port : Nat) : State :=
  let p := placeGrain g
  let s := (s.bumpFld .binErrcntCount (b * 5) 1).binErrlog b 1 p.1 p.2 port
  let rows := ceBump (SMap.get s.bin.ceRows b []) p.1 p.2
  { s with bin := { s.bin with
      ceRows := SMap.put s.bin.ceRows b rows []
      writeBacks := if s.flag .binCtrlCeWb b then s.bin.writeBacks ++ [(b, g)] else s.bin.writeBacks } }

/-- An uncorrectable error on a grain (R92): the grain is poisoned, and the error counted and logged. -/
def State.binUncorrectable (s : State) (b g port : Nat) : State :=
  let p := placeGrain g
  let s := ((s.setPoison b g true).bumpFld .binErrcntCount (b * 5 + 1) 1).binErrlog b 2 p.1 p.2 port
  if s.bin.due.contains (b, p.1, p.2) then s else { s with bin := { s.bin with due := s.bin.due ++ [(b, p.1, p.2)] } }

/-- A seal mismatch that the retry does not cure (R93): the grain is poisoned, and the mismatch counted and logged. -/
def State.binSealBad (s : State) (b g port : Nat) : State :=
  let p := placeGrain g
  ((s.setPoison b g true).bumpFld .binErrcntCount (b * 5 + 2) 1).binErrlog b 3 p.1 p.2 port

/-- An access to a poisoned grain, logged under TYPE 5 (R108). -/
def State.binPoisonHit (s : State) (b g port : Nat) : State :=
  let p := placeGrain g
  s.binErrlog b 5 p.1 p.2 port

/-- An access that the boundary regions refuse at the Bin port (R98). -/
def State.binWorldError (s : State) (q : Requester) (write : Bool) (b g port : Nat) : State :=
  let p := placeGrain g
  ((s.refuseAccess q write (b + 1) g).bumpFld .binErrcntCount (b * 5 + 3) 1).binErrlog b 4 p.1 p.2 port

/-- What a command observed of one grain of a Bin. -/
def obsBin (obs : List Obs) (b g : Nat) (k : ErrKind) : Bool := obs.contains (.bin b g k)

/-- Check the read of one grain, read whole or in part (R92, R93). -/
def State.checkGrain (s : State) (port b g : Nat) (whole : Bool) (obs : List Obs) : Option BinErr × State :=
  if s.poisoned b g then (some (.poison g), s.binPoisonHit b g port)
  else if obsBin obs b g .uncorrectable then (some (.uncorrectable g), s.binUncorrectable b g port)
  else
    let s := if obsBin obs b g .corrected then s.binCorrected b g port else s
    if whole && (obsBin obs b g .sealMismatch || SMap.get s.bin.sealX (grainKey b g) 0#32 != 0#32) then
      (some (.sealMismatch g), s.binSealBad b g port)
    else (none, s)

/-- Check the reads of grains in order; the first that fails ends the access. -/
def State.checkGrains (s : State) (port b : Nat) (gs : List (Nat × Bool)) (obs : List Obs) : Option BinErr × State :=
  match gs with
  | [] => (none, s)
  | (g, w) :: r =>
    match s.checkGrain port b g w obs with
    | (some e, s') => (some e, s')
    | (none, s') => s'.checkGrains port b r obs

/-- The world check of an access to grains of a Bin before any of them is read or written (R98); READY comes first. -/
def State.binAdmit (s : State) (q : Requester) (write : Bool) (port b : Nat) (gs : List Nat) : Option BinErr × State :=
  if !s.binReady b then (some .notReady, s)
  else if gs.any (fun g => decide (binGrains ≤ g)) then (some .range, s)
  else match gs.find? (fun g => !s.allowed q write (b + 1) g) with
    | some g => (some .world, s.binWorldError q write b g port)
    | none => (none, s)

/-- The grains of a list of byte offsets, each with whether all of its 256 bytes are listed. -/
def grainsOf (offs : List Nat) : List (Nat × Bool) :=
  ((offs.map (· / 256)).eraseDups).map
    (fun g => (g, (List.range 256).all (fun i => offs.contains (g * 256 + i))))

/-- Store bytes at places of a Bin; each touched grain is sealed again, and one covered whole loses its poison (R93). -/
def State.binStore (s : State) (b : Nat) (ws : List (Nat × Byte)) (gs : List (Nat × Bool)) : State :=
  { s with bin := { s.bin with
      mem := ws.foldl (fun m w => SMap.put m (binAddr b w.1) w.2 0) s.bin.mem
      sealX := gs.foldl (fun m g => SMap.put m (grainKey b g.1) 0#32 0#32) s.bin.sealX
      poison := gs.foldl (fun m g => if g.2 then SMap.put m (grainKey b g.1) false false else m) s.bin.poison } }

/-- The merge check of R94: a partial write first verifies the stored grain. -/
def State.mergeCheck (s : State) (port b : Nat) (gs : List (Nat × Bool)) (obs : List Obs) : Option BinErr × State :=
  s.checkGrains port b ((gs.filter (fun g => !g.2)).map (fun g => (g.1, true))) obs

/-- Write bytes at places of a Bin under R94, all or nothing. -/
def State.binWrite (s : State) (port b : Nat) (ws : List (Nat × Byte)) (obs : List Obs) : Option BinErr × State :=
  let gs := grainsOf (ws.map (·.1))
  match s.mergeCheck port b gs obs with
  | (some e, s') => (some e, s')
  | (none, s') => (none, s'.binStore b ws gs)

/-- Number the bytes of a run that starts at an offset. -/
def placed (off : Nat) (bs : List Byte) : List (Nat × Byte) := bs.mapIdx (fun i v => (off + i, v))

/-- Write a run of bytes of a Bin under R94. -/
def State.binWriteRun (s : State) (port b off : Nat) (bs : List Byte) (obs : List Obs) : Option BinErr × State :=
  let gs := grainsOfRun off bs.length
  match s.mergeCheck port b gs obs with
  | (some e, s') => (some e, s')
  | (none, s') => (none, s'.binStore b (placed off bs) gs)

/-- A write by a unit outside the core, of whole grains, so that no stored grain is read: admitted, then written under R94. -/
def State.binUnitWrite (s : State) (q : Requester) (port b off : Nat) (bs : List Byte) : Option BinErr × State :=
  match s.binAdmit q true port b ((grainsOfRun off bs.length).map (·.1)) with
  | (some e, s') => (some e, s')
  | (none, s') => s'.binWriteRun port b off bs []

/-- A read by a unit outside the core, which may observe errors: admitted, checked, and the bytes. -/
def State.binUnitRead (s : State) (q : Requester) (port b off n : Nat) (obs : List Obs) : Except BinErr (List Byte) × State :=
  let gs := grainsOfRun off n
  match s.binAdmit q false port b (gs.map (·.1)) with
  | (some e, s') => (.error e, s')
  | (none, s') =>
    match s'.checkGrains port b gs obs with
    | (some e, s'') => (.error e, s'')
    | (none, s'') => (.ok (s''.binRead b off n), s'')

/-- Raise a tally, which saturates at 2^32 - 1 (R101). -/
def State.raiseTally (s : State) (b t n : Nat) : State :=
  s.setFld .binTallyCount (b * 1024 + t) (min (s.fld .binTallyCount (b * 1024 + t) + n) (2 ^ 32 - 1))

/-- The count of a tally. -/
def State.tally (s : State) (b t : Nat) : Nat := s.fld .binTallyCount (b * 1024 + t)

/-- A tally's world: 0 to 511 are non-secure (R101). -/
def tallySecure (t : Nat) : Bool := decide (512 ≤ t)

/-! ## Slot maps -/

/-- The port that a slot map names for a slot. -/
def SlotMap.port (m : SlotMap) (i : Nat) : Nat := if i < 8 then bits m.map0 (4 * i + 3) (4 * i) else bits m.map1 (4 * i - 29) (4 * i - 32)

/-- The rules of R88: at least 4 slots stay unreserved, and a reserved slot names a port from 0x0 to 0x9. -/
def SlotMap.ok (m : SlotMap) : Bool :=
  decide (((List.range 16).filter (bit m.en)).length ≤ 12) &&
  ((List.range 16).filter (bit m.en)).all (fun i => decide (m.port i ≤ 9))

/-- The slot map as written. -/
def State.slotMap (s : State) (b : Nat) : SlotMap :=
  ⟨s.fld .binSlotenEn b, s.fld .binSlotmapSlot (b * 2), s.fld .binSlotmapSlot (b * 2 + 1)⟩

/-- Write a slot map; the map in force stays until the next slot 0 (R88). -/
def State.setSlotMap (s : State) (b : Nat) (m : SlotMap) : State :=
  let now := SMap.get s.bin.slotNow b (s.slotMap b)
  let s := { s with bin := { s.bin with slotNow := SMap.put s.bin.slotNow b now m } }
  ((s.setFld .binSlotenEn b m.en).setFld .binSlotmapSlot (b * 2) m.map0).setFld .binSlotmapSlot (b * 2 + 1) m.map1

/-- The Rota writes the slot map of a Bin (R88): the spec gives the rules it keeps and no values, so the map is free. -/
def State.rotaSlotMap (s : State) (b : Nat) : State :=
  let f0 := s.fresh
  let f1 := f0.2.fresh
  let f2 := f1.2.fresh
  let m : SlotMap := ⟨Config.freeNat f0.1 % 65536, Config.freeNat f1.1 % 2 ^ 32, Config.freeNat f2.1 % 2 ^ 32⟩
  if m.ok then f2.2.setSlotMap b m else f2.2

end Sys2Proof.Machine
end

