-- ==== Sys2Proof/Machine/Streams.lean ====
section
/-!
DEFINITION. How the units that stream into Bins stop (spec/12, spec/13, spec/14): Hopper feeds, camera output streams, the
aligned audio stream and the Watch's span, as a partition reset and a power transition stop them.
-/
namespace Sys2Proof.Machine

/-! ## Hopper feeds -/

def State.hpFeed (s : State) (n : Nat) : Option HpFeed := SMap.get s.hp.feeds n none
def State.setHpFeed (s : State) (n : Nat) (f : Option HpFeed) : State :=
  { s with hp := { s.hp with feeds := SMap.put s.hp.feeds n f none } }

/-- E of R244: the lowest sample whose slot is not finished. -/
def HpFeed.edgeIndex (f : HpFeed) : Nat :=
  let first := f.published * f.cfg.b
  ((List.range (f.started - first + 1)).map (first + ·)).find? (fun j => !f.finished.any (fun x => x.1 == j)) |>.getD f.started

/-- The feed is held at its window edge (R248): a submitted sample has a buffer and waits only for the window. -/
def HpFeed.atEdge (f : HpFeed) : Bool := decide (f.started < f.tail ∧ f.edgeIndex + 256 ≤ f.started)

/-- Note for how long a feed is held at its edge (R252). -/
def State.hpEdge (s : State) (n : Nat) : State :=
  match s.hpFeed n with
  | none => s
  | some f =>
    match f.atEdge, f.edge with
    | true, none => s.setHpFeed n (some { f with edge := some s.time })
    | false, some t => (s.setHpFeed n (some { f with edge := none })).bumpObj .edgeTime (n + 1) (s.time - t)
    | _, _ => s

/-- A feed stops (R250): its lanes abandon their samples, and batches not yet published never appear. -/
def State.hpStop (s : State) (n : Nat) : State :=
  let s := s.hpEdge n
  let s := match s.hpFeed n with
    | some f => (match f.edge with | some t => s.bumpObj .edgeTime (n + 1) (s.time - t) | none => s)
    | none => s
  let s := s.setHpFeed n none
  ({ s with hp := { s.hp with lanes := s.hp.lanes.filter (fun l => decide (l.feed ≠ n)) } }).setFld .hpFeedEn n 0

/-! ## Camera output streams -/

def OsRun.start : OsRun := ⟨0, 0, 0, 0, 0, false, none, false, false⟩

def State.osRun (s : State) (n : Nat) : Option OsRun := SMap.get s.cam.streams n none
def State.setOsRun (s : State) (n : Nat) (r : Option OsRun) : State :=
  { s with cam := { s.cam with streams := SMap.put s.cam.streams n r none } }

/-- A stream has stopped: EN and RESULT. -/
def State.osOff (s : State) (n result : Nat) : State := (s.setOsRun n none).setFlds n [(.osEn, 0), (.osResult, result)]

/-- A stream writes into a Bin (R261, R264). -/
def State.osInBin (s : State) (n b : Nat) : Bool :=
  s.fld .osFmt n == 2 && (s.fld .osBin n == b || (s.flag .osDual n && s.fld .osBin2 n == b))

/-! ## Audio and the Watch -/

/-- The aligned stream stops with a RESULT (R285, R287). -/
def State.audOff (s : State) (result : Nat) : State :=
  ({ s with aud := { s.aud with stream := none } }).setFlds 0 [(.audStreamEn, 0), (.audStreamResult, result)]

/-- The Watch as an initiator of its pushes (R319). -/
def State.watchReq (s : State) : Requester := unitReq 0x10 (s.flag .secWmapWatch 0)

/-- The span in a Bin is zeroed, with seals and without raising the tally (R281). -/
def State.zeroSpan (s : State) : State :=
  match s.watch.span with
  | none => s
  | some x =>
    let w := s.binUnitWrite s.watchReq 5 x.bin (x.base * 256) (List.replicate (x.grains * 256) 0)
    { w.2 with watch := { w.2.watch with span := none } }

/-- The listening microphone as the ARG of an event: 0xF when there is none. -/
def State.micArg (s : State) : Nat := s.watch.mic.getD 0xF

/-- A wake is rejected (R281): the span is zeroed, WAKE_REJECTED is published, and the lock returns to LOCKED. -/
def State.watchReject (s : State) : State :=
  let s := s.zeroSpan
  let s : State := { s with watch := { s.watch with lock := .locked } }
  s.event 0x0002 s.micArg s.watch.detTime

/-! ## A partition reset -/

/-- A feed stops when its record belongs to the partition (R250). -/
def State.stopFeed (s : State) (part n : Nat) : State :=
  match s.hpFeed n with
  | some f => if recPart (s.recOf f.handle) = part then s.hpStop n else s
  | none => s

/-- A camera stream into a Bin of the partition stops (R268). -/
def State.stopCamera (s : State) (cores : List Nat) (n : Nat) : State :=
  if (s.osRun n).isSome && cores.any (s.osInBin n) then s.osOff n 4 else s

/-- The aligned stream into a Bin of the partition stops (R285). -/
def State.stopAligned (s : State) (cores : List Nat) : State :=
  match s.aud.stream with
  | some a => if cores.contains a.bin then s.audOff 3 else s
  | none => s

/-- A push of the span into a Bin of the partition is rejected (R285). -/
def State.stopSpan (s : State) (cores : List Nat) : State :=
  match s.watch.span with
  | some x => if cores.contains x.bin && !x.done then s.watchReject else s
  | none => s

/-- What streams into the Bins of a partition stops at its reset: its feeds (R250), the camera streams into its Bins (R268), the
aligned stream and a push of the span (R285). -/
def State.stopStreams (s : State) (part : Nat) (cores : List Nat) : State :=
  let s := (List.range 8).foldl (fun s n => s.stopFeed part n) s
  let s := (List.range 16).foldl (fun s n => s.stopCamera cores n) s
  (s.stopAligned cores).stopSpan cores

end Sys2Proof.Machine
end

