-- ==== Sys2Proof/Machine/PowerOps.lean ====
section
/-!
DEFINITION. The power domains as other units see them (spec/21): power good, the Need conditions of R405, the Ringer's requests,
the wake latches (R417 to R419), the events that wait for a resume (R297), and the block enables of R428.
-/
namespace Sys2Proof.Machine

/-! ## Domains -/

/-- A domain has power good. -/
def State.powerGood (s : State) (d : Nat) : Bool :=
  if d < 32 then bit (s.fld .pwrPg0Pg 0) d else bit (s.fld .pwrPg1Pg 0) (d - 32)
def State.setPower (s : State) (d : Nat) (on : Bool) : State :=
  if d < 32 then s.setFld .pwrPg0Pg 0 (setBits (s.fld .pwrPg0Pg 0) d d (b2n on))
  else s.setFld .pwrPg1Pg 0 (setBits (s.fld .pwrPg1Pg 0) (d - 32) (d - 32) (b2n on))

/-- The clock of a block with an enable runs (R428). -/
def State.clocked (s : State) (block : Nat) : Bool := bit (s.fld .clkEnEn 0) block

/-- PLL_I, which feeds ISPCLK, SIEVECLK, HOPPERCLK and SECCLK, is locked (R423, R424). -/
def State.pllILocked (s : State) : Bool := bit (s.fld .clkStatusLock 0) 8

/-- An access to a block without its clock (R428): a bus error, counted. -/
def State.gatedError (s : State) : State := (s.send ⟨.bus, 0, [], []⟩).bumpObj .gatedAccesses 0 1

/-- The core is in a partition, or in one that an APPLY is setting (R212). -/
def State.coreInPart (s : State) (c : Nat) : Bool :=
  (List.range 8).any (fun p => s.partActive p && decide (s.partBase p ≤ c ∧ c < s.partBase p + s.partSize p)) ||
  s.rota.plan.any (fun e => decide (e.2.base ≤ c ∧ c < e.2.base + e.2.size))

/-- The Need condition of a domain (R405), which holds only while its block's enable is 1 (R428). -/
def State.needOf (s : State) (d : Nat) : Bool :=
  if s.pwr.allNeeds then true
  else if 5 ≤ d ∧ d ≤ 8 then s.flag .csiCtrlEn (d - 5) && s.clocked (d - 2)
  else if 9 ≤ d ∧ d ≤ 11 then (List.range 16).any (fun n => (s.osRun n).isSome) && s.clocked (d - 2)
  else if d = 12 then s.sv.holder.isSome && s.clocked 10
  else if d = 13 then (List.range 8).any (fun n => (s.hpFeed n).isSome) && s.clocked 11
  else if d = 14 ∨ d = 15 then s.flag .hlCtrlEn (d - 14) && s.clocked (d - 2)
  else if 31 ≤ d ∧ d ≤ 38 then s.coreInPart (d - 31)
  else if 39 ≤ d ∧ d ≤ 46 then s.coreInPart (d - 39)
  else if d = 49 then (s.fld .secStatusLevel 0 != 0 || (List.range 8).any (fun c => s.flag .tcCtrlTrace c)) && s.clocked 14
  else true

/-- A domain is powered in a state (R405), given as PWR_STATUS.STATE; in recovery the arrays stay off (R442), and in LISTEN a source
failure keeps the Reeve on (R432). -/
def State.wanted (s : State) (state d : Nat) : Bool :=
  if d = 0 then true
  else if s.flag .rstStatusRecovery 0 && decide (31 ≤ d ∧ d ≤ 38) then false
  else if state ≤ 1 then s.needOf d
  else if state = 2 then !(decide (31 ≤ d ∧ d ≤ 38)) && s.needOf d
  else if state = 3 then ([1, 2, 3, 4, 47, 48].contains d || d == 49) && s.needOf d
  else (d == 2 && s.pwr.tc10Refused) || (d == 1 && s.flag .clkStatusHeld 0)

/-- The order of requests of a cold start or a resume (R414). -/
def startOrder : List Nat :=
  [48, 47, 1, 3, 2, 49] ++ [16, 17, 18, 19] ++ [4, 5, 6, 7, 8] ++ [14, 15] ++ [24, 25, 30] ++ [26, 27, 28, 29] ++
  [20, 21, 22, 23] ++ [9, 10, 11, 12, 13] ++ [39, 40, 41, 42, 43, 44, 45, 46] ++ [31, 32, 33, 34, 35, 36, 37, 38]

/-- The fields of pair `i` of a guarded network (R235): west core, east core − 4, valid and suspect. -/
def pairFlds (i : Nat) : Fld × Fld × Fld × Fld :=
  if i = 0 then (.rtGnetPair0West, .rtGnetPair0East, .rtGnetPair0Valid, .rtGnetPair0Suspect)
  else if i = 1 then (.rtGnetPair1West, .rtGnetPair1East, .rtGnetPair1Valid, .rtGnetPair1Suspect)
  else if i = 2 then (.rtGnetPair2West, .rtGnetPair2East, .rtGnetPair2Valid, .rtGnetPair2Suspect)
  else (.rtGnetPair3West, .rtGnetPair3East, .rtGnetPair3Valid, .rtGnetPair3Suspect)

def State.pairWest (s : State) (k i : Nat) : Nat := s.fld (pairFlds i).1 k
def State.pairEast (s : State) (k i : Nat) : Nat := s.fld (pairFlds i).2.1 k + 4

/-- The active pair: the first valid pair that is not marked suspect (R231). -/
def State.activePair (s : State) (k : Nat) : Option Nat :=
  (List.range 4).find? (fun i => s.flag (pairFlds i).2.2.1 k && !s.flag (pairFlds i).2.2.2 k)

/-- A request that goes ahead of others (R414): PD48, or the array or Bin of a core of an active guarded pair. -/
def State.urgent (s : State) (d : Nat) : Bool :=
  d == 48 || (decide (31 ≤ d) && decide (d ≤ 46) &&
    (let c := if d ≤ 38 then d - 31 else d - 39
     (List.range 16).any (fun k =>
      s.flag .rtGnetEn k && (match s.activePair k with
        | some i => s.pairWest k i == c || s.pairEast k i == c
        | none => false))))

/-- Ask the Ringer for a start (R414). -/
def State.requestStart (s : State) (d : Nat) : State :=
  if s.powerGood d ∨ s.pwr.queue.contains d ∨ s.pwr.started.contains d then s
  else
    let q := if s.urgent d then
        s.pwr.queue.filter (fun x => s.urgent x) ++ [d] ++ s.pwr.queue.filter (fun x => !s.urgent x)
      else s.pwr.queue ++ [d]
    { s with pwr := { s.pwr with queue := q } }

/-- An entry or a resume is in progress; the device state. -/
def State.entering (s : State) : Bool := s.flag .pwrStatusEntering 0
def State.resuming (s : State) : Bool := s.flag .pwrStatusResuming 0
def State.pwrState (s : State) : Nat := s.fld .pwrStatusState 0

/-- The device is in ACTIVE or IDLE and not on its way out of them. -/
def State.awake (s : State) : Bool := decide (s.pwrState ≤ 1) && !s.entering

/-- Follow the conditions of R405 (R406): a domain that is wanted and off is requested, and one that is no longer wanted begins
its 1 ms. -/
def State.pwrSync (s : State) : State :=
  if s.entering then s else
  let g := if s.resuming then 0 else s.pwrState
  startOrder.foldl (fun (s : State) d =>
    let on := s.powerGood d
    let since := SMap.get s.pwr.leaving d 0
    let set (v : Nat) : State := { s with pwr := { s.pwr with leaving := SMap.put s.pwr.leaving d v 0 } }
    if s.wanted g d then (if on then (if since = 0 then s else set 0) else s.requestStart d)
    else if on ∧ since = 0 then set (s.time + 1) else s) s

/-! ## Wakes -/

/-- The states a source wakes from (R417); a Crier frame wakes from LISTEN when TC10 sleep was refused (R420). -/
def State.wakesFrom (s : State) (code state : Nat) : Bool :=
  match code with
  | 5 | 9 => state == 4
  | 7 => state == 3 || (state == 4 && s.pwr.tc10Refused)
  | 10 => state == 2
  | _ => decide (2 ≤ state)

/-- The latched source with the earliest evidence time (R418). -/
def earliestWake : List Wake → Option Wake
  | [] => none
  | w :: r => match earliestWake r with
    | none => some w
    | some x => if x.at_ < w.at_ then some x else some w

/-- This device is the master of its cascade (R373). -/
def State.isMaster (s : State) : Bool := s.obj .master 0 == 1

/-- The regulator switches to full mode, and REG_OK is awaited (R415). -/
def State.regFull (s : State) : State :=
  if s.flag .pwrStatusRegOk 0 then s
  else { s.setFld .pwrStatusRegLp 0 0 with pwr := { s.pwr with regTry := true } }

/-- The Ringer is asked for every domain in the order of R414, whatever its Need condition. -/
def State.requestAll (s : State) : State :=
  (startOrder.filter (fun d => s.wanted 0 d)).foldl (fun s d => s.requestStart d) s

/-- Start-up goes on to its power stage (R441): the regulator in full mode, and the starts once REG_OK is there. -/
def State.startPower (s : State) : State :=
  let s : State := { s with boot := { s.boot with stage := .powering }, pwr := { s.pwr with allNeeds := true } }
  if s.flag .pwrStatusRegOk 0 then s.requestAll else s.regFull

/-- BTN0 or BTN1 is released before the recovery decision (R292): start-up continues from that moment. -/
def State.buttonsUp (s : State) : State :=
  if s.boot.stage ≠ .buttons then s
  else if s.boot.holds = 0 then s.startPower
  else { s with boot := { s.boot with stage := .held } }

/-- The start of a resume to ACTIVE (R411, R418): the last-wake record, the regulator, and the starts; a master wakes its
followers, a follower that wakes on a local source the master (R376), and the Ethernet port sends its wake-up pulse on a resume from LISTEN (R365). -/
def State.startResume (s : State) (replayed : Bool) : State :=
  match earliestWake s.pwr.wakes with
  | none => s
  | some w =>
    let from' := s.pwrState
    let s := ((((s.setObj .lastWakeSource 1 w.code).setObj .lastWakeTime 2 w.at_).setObj .lastWakeFrom 3 from').setObj
      .lastWakeArg 4 w.arg).setObj .lastWakeReplayed 5 (b2n replayed)
    let s := s.setFlds 0 [(.pwrStatusLastsrc, w.code), (.pwrStatusResuming, 1)]
    let s := if s.isMaster || w.code != 6 then s.send ⟨.hedgeline 0, 0x100, [], []⟩ else s
    if from' = 4 then
      (s.send ⟨.ethernet, 0x100, [], []⟩).regFull
    else s.pwrSync

/-- A wake source fires (R417, R419, R420): latched unless the device is awake, and a resume starts from the states it wakes.  A
device held by a source failure stays in its state (R432). -/
def State.wake (s : State) (code at_ arg : Nat) : State :=
  if s.awake && !s.resuming then s else
  let s : State := if s.pwr.wakes.any (fun w => w.code == code) then s else
    ({ s with pwr := { s.pwr with wakes := s.pwr.wakes ++ [Wake.mk code at_ arg] } } : State).setFld .pwrWakePendPend 0
      (setBits (s.fld .pwrWakePendPend 0) (code - 1) (code - 1) 1)
  if s.resuming || s.entering || s.flag .clkStatusHeld 0 || !s.wakesFrom code s.pwrState then s else s.startResume false

/-- A latched source is cancelled. -/
def State.cancelWake (s : State) (code : Nat) : State :=
  ({ s with pwr := { s.pwr with wakes := s.pwr.wakes.filter (fun w => w.code != code) } }).setFld .pwrWakePendPend 0
    (setBits (s.fld .pwrWakePendPend 0) (code - 1) (code - 1) 0)

/-- An EVENT record of a person-facing input (R297): published at once in ACTIVE and IDLE, and after the resume otherwise. -/
def State.doorEvent (s : State) (code arg at_ : Nat) : State :=
  if s.awake && !s.resuming then s.event code arg at_
  else { s with pwr := { s.pwr with events := s.pwr.events ++ [LateEvent.mk 0 code arg at_] } }

/-- A message that only a powered chip can publish (R284): at once unless the device is in REST or LISTEN. -/
def State.watchEvent (s : State) (code arg at_ : Nat) : State :=
  if s.pwrState ≤ 2 ∧ s.entering = false ∧ s.resuming = false then s.event code arg at_
  else { s with pwr := { s.pwr with events := s.pwr.events ++ [LateEvent.mk 0 code arg at_] } }

end Sys2Proof.Machine
end

