-- ==== Sys2Proof/Machine/Kv.lean ====
section
/-!
DEFINITION. The KV sequences and pages of the Ledger as jobs use them (R151, R166, R168, R169, R466).
-/
namespace Sys2Proof.Machine

/-- Committed tokens of a KV sequence: LEN, or 131,072 when FULL is set (R166). -/
def kvLen (r : Nat) : Nat := if recField r 12 31 31 = 1 then 131072 else recField r 8 16 0

/-- A KV sequence record with a new LEN (R166). -/
def setKvLen (r n : Nat) : Nat :=
  if n = 131072 then setRecField (setRecField r 8 16 0 0x1FFFF) 12 31 31 1
  else setRecField (setRecField r 8 16 0 n) 12 31 31 0

/-! A page-list entry, and bytes 8 to 15 of a KV page record (R151). -/

def pgBase (e : Nat) : Nat := bits e 23 0
def pgCount (e : Nat) : Nat := bits e 32 24
def pgPidx (e : Nat) : Nat := bits e 41 33
def pgQ (e : Nat) : Nat := bits e 42 42
def pgRecord (e : Nat) : Nat := bits e 60 43
def pgEntry (slot q pidx count base : Nat) : Nat :=
  base + count * 2 ^ 24 + pidx * 2 ^ 33 + q * 2 ^ 42 + slot * 2 ^ 43

/-- The layout word of a KV page record: bytes 8 to 15. -/
def pageWord (r : Nat) : Nat := bits r 127 64
def setPageWord (r e : Nat) : Nat := setBits r 127 64 e

/-- The slot of the open page record of a sequence for a page index (R168). -/
def State.pageSlot (s : State) (seq pidx : Nat) : Option Nat :=
  (s.ledger.recs.find? (fun e => decide (recType e.2 = 2 ∧ recState e.2 ≠ 0 ∧ recOwner e.2 = seq ∧
    pgPidx (pageWord e.2) = pidx))).map (·.1)

/-- The world in which the Ledger writes a sequence's page table (R466). -/
def ledgerReq (secure : Bool) : Requester := unitReq 0x11 secure

/-- The record fetch of a unit: whether it missed the record cache is free (R163, R173). -/
def State.lgFetch (s : State) : State := let f := s.fresh; f.2.bumpObj .ledgerMisses 0 (Config.freeNat f.1 % 2)

/-- The place of the page-table entry of page `pidx` of a sequence (R151, R166). -/
def State.entryAt (s : State) (seq pidx : Nat) : Nat := recField (s.recOf seq) 16 23 0 * 4096 + pidx * 8

/-- The Ledger writes a page-table entry in the world of the sequence (R466): what the write met. -/
def State.putEntry (s : State) (seq pidx v : Nat) (obs : List Obs) : Option UrErr × State :=
  s.urWrite (ledgerReq (recWorld (s.recOf seq) == 1)) (s.entryAt seq pidx) (natLe 8 v) obs

/-- Check the entry writes of several pages, before any of them is made: the first that is refused or fails. -/
def State.admitEntries (s : State) (seq : Nat) (pidxs : List Nat) (obs : List Obs) : Option UrErr × State :=
  pidxs.foldl (fun (a : Option UrErr × State) p => match a.1 with
    | some _ => a
    | none => a.2.urAdmit (ledgerReq (recWorld (a.2.recOf seq) == 1)) (a.2.entryAt seq p) 8 obs) (none, s)

/-- Write the page-table entry of a page record (R166, R466). -/
def State.writePageEntry (s : State) (seq slot q count : Nat) (obs : List Obs) : Option UrErr × State :=
  let e := pageWord (s.recAt slot)
  s.putEntry seq (pgPidx e) (pgEntry slot q (pgPidx e) count (pgBase e)) obs

/-- Set COUNT and Q of a page record with its page-table entry in one update; a refused or failed write leaves the record
(R466). -/
def State.setPageCount (s : State) (seq slot q count : Nat) : Option UrErr × State :=
  match s.writePageEntry seq slot q count [] with
  | (some e, s') => (some e, s'.logIt .ledger 0x11 4 slot 0 0)
  | (none, s') =>
    let e := pageWord (s'.recAt slot)
    (none, s'.setRec slot (setPageWord (s'.recAt slot) (pgEntry 0 q (pgPidx e) count (pgBase e))))

/-- Add appended tokens to the pages they touch (R169), whose entry writes have been admitted. -/
def State.appendPages (s : State) (seq len n : Nat) (pidxs : List Nat) : Option UrErr × State :=
  match pidxs with
  | [] => (none, s)
  | p :: r =>
    match s.pageSlot seq p with
    | none => s.appendPages seq len n r
    | some slot =>
      let cnt := min (len + n) (256 * p + 256) - 256 * p
      match s.setPageCount seq slot (pgQ (pageWord (s.recAt slot))) cnt with
      | (some e, s') => (some e, s')
      | (none, s') => s'.appendPages seq len n r

/-- A job's KV sequence at its completion (R169, R466): the status that replaces the job's, or none.  When the write of one entry is
refused or fails, no page and no LEN changes. -/
def State.kvFinish (s : State) (h append progress : Nat) (ok : Bool) : Option Nat × State :=
  if s.stale h ∨ recType (s.recOf h) ≠ 1 then (none, s) else
  let free (s : State) : State :=
    let r := s.recOf h
    s.setRec (handleSlot h) (setRecField (setRecState r (if recState r = 2 then 1 else recState r)) 32 31 0 0)
  if !ok then (none, free s) else
  let told := progress % 2 ^ 18
  let s := if append < told then s.logIt .tractCount 0x18 4 h told append else s
  let n := min told append
  let len := kvLen (s.recOf h)
  if n = 0 then (none, free s) else
  let first := len / 256
  let pidxs := (List.range ((len + n - 1) / 256 + 1 - first)).map (first + ·)
  match (match s.admitEntries h (pidxs.filter (fun p => (s.pageSlot h p).isSome)) [] with
    | (some e, s) => (some e, s.logIt .ledger 0x11 4 (handleSlot h) 0 0)
    | (none, s) => s.appendPages h len n pidxs) with
  | (some .world, s') => (some 5, free s')
  | (some _, s') => (some 3, free s')
  | (none, s') => (none, free (s'.setRec (handleSlot h) (setKvLen (s'.recOf h) (len + n))))

/-- What R168 decides for a job on a KV sequence. -/
inductive KvAdmit where
  | ok | reject (status detail data : Nat) | wait
deriving DecidableEq, Repr

/-- The admission of a job on a KV sequence after its handle and world are checked (R168). -/
def State.kvAdmit (s : State) (h append : Nat) : KvAdmit :=
  let r := s.recOf h
  if 131072 < kvLen r + append then .reject 4 0 0
  else
    match (List.range (ceilDiv (kvLen r + append) 256)).find? (fun p => (s.pageSlot h p).isNone) with
    | some p => .reject 2 4 p
    | none => if recState r = 2 then .wait else .ok

end Sys2Proof.Machine
end

