-- ==== Sys2Proof/Machine/Rota.lean ====
section
/-!
DEFINITION. The Rota's shared operations (spec/11): reading descriptors and tract-table entries, and completion records
(R221, R222).
-/
namespace Sys2Proof.Machine

def State.core (s : State) (c : Nat) : Core := SMap.get s.rota.cores c Core.idle
def State.setCore (s : State) (c : Nat) (x : Core) : State :=
  { s with rota := { s.rota with cores := SMap.put s.rota.cores c x Core.idle } }
def State.updCore (s : State) (c : Nat) (f : Core → Core) : State := s.setCore c (f (s.core c))

def WheelSlot.empty : WheelSlot := ⟨none, false, none, 0, []⟩
def State.wslot (s : State) (p i : Nat) : WheelSlot := SMap.get s.rota.wheel (p * 64 + i) WheelSlot.empty
def State.setWslot (s : State) (p i : Nat) (x : WheelSlot) : State :=
  { s with rota := { s.rota with wheel := SMap.put s.rota.wheel (p * 64 + i) x WheelSlot.empty } }

def GuardRun.idle : GuardRun := ⟨none, 0, 0, [], [], false, false, false, false, []⟩
def State.net (s : State) (k : Nat) : GuardRun := SMap.get s.rota.nets k GuardRun.idle
def State.setNet (s : State) (k : Nat) (x : GuardRun) : State :=
  { s with rota := { s.rota with nets := SMap.put s.rota.nets k x GuardRun.idle } }

/-- Descriptors of ring `r` that have been submitted and not taken; completion records not yet acknowledged. -/
def State.sqLen (s : State) (r : Nat) : Nat := SMap.get s.rota.sqCount r 0
def State.cqLen (s : State) (r : Nat) : Nat := SMap.get s.rota.cqCount r 0
def State.setSqLen (s : State) (r n : Nat) : State :=
  { s with rota := { s.rota with sqCount := SMap.put s.rota.sqCount r n 0 } }
def State.setCqLen (s : State) (r n : Nat) : State :=
  { s with rota := { s.rota with cqCount := SMap.put s.rota.cqCount r n 0 } }

/-- Descriptors in a ring of this depth (R218). -/
def State.ringSize (s : State) (r : Nat) : Nat := 2 ^ s.fld .rtRingDepth r
def State.ringSecure (s : State) (r : Nat) : Bool := s.flag .rtRingWorld r

/-- The Rota as an initiator (R319). -/
def rotaReq (secure : Bool) : Requester := unitReq 0x18 secure

/-- A record of ring `r` is held: its completion ring is full (R221). -/
def State.ringHeld (s : State) (r : Nat) : Bool := (SMap.get s.rota.held r []) != []

/-- The completion ring of `r` has no free slot, so that nothing is dispatched from its submission ring (R221). -/
def State.ringFull (s : State) (r : Nat) : Bool := decide (s.ringSize r ≤ s.cqLen r) || s.ringHeld r

/-! ## Descriptors and tracts -/

/-- The descriptor of 64 bytes (R219). -/
def parseDesc (b : List Byte) : JobDesc :=
  let n (i k : Nat) : Nat := leNat ((b.drop i).take k)
  ⟨n 0 2, n 2 2, bits (n 4 1) 2 0, bits (n 4 1) 5 4, bits (n 5 1) 3 0, n 8 4, n 12 4, n 16 4, n 20 4, n 24 4, n 28 4,
    n 32 1, (b.drop 40).take 24,
    decide (bits (n 4 1) 3 3 = 0 ∧ bits (n 4 1) 7 6 = 0 ∧ bits (n 5 1) 7 4 = 0 ∧ n 6 2 = 0 ∧ bits (n 16 4) 31 18 = 0 ∧
      n 33 7 = 0 ∧ n 0 2 ≤ 1023 ∧ (n 2 2 ≤ 1023 ∨ n 2 2 = 0xFFFF) ∧ n 16 4 ≤ 131072)⟩

/-- The tract-table entry of 32 bytes (R215). -/
def parseTract (b : List Byte) : Tract :=
  let w (i : Nat) : Nat := leNat ((b.drop (4 * i)).take 4)
  ⟨bits (w 0) 24 0, bits (w 1) 24 0, bits (w 2) 24 0, bits (w 3) 15 0, bits (w 3) 25 16, bits (w 3) 27 26, bits (w 3) 28 28,
    bits (w 4) 23 0, leNat ((b.drop 20).take 2)⟩

/-- The code of a furrow width (R48). -/
def widthCode (n : Nat) : Nat := if n = 2 then 1 else if n = 4 then 2 else if n = 8 then 3 else 0

/-- Read a tract-table entry in the world of the partition and check it (R215). -/
def State.readTract (s : State) (p idx ringWorld : Nat) : Option Tract × State :=
  match s.urRead (rotaReq (s.partSecure p)) (s.fld .rtTtbasePage p * 4096 + idx * 32) 32 [] with
  | (.error _, s') => (none, s')
  | (.ok b, s') =>
    let t := parseTract b
    let fw := if s.partFurrow p then widthCode (s.partSize p) else 0
    if t.fwidth = fw ∧ t.world = ringWorld then (some t, s') else (none, s')

/-! ## Completion records -/

/-- The 32 bytes of a completion record (R221). -/
def cqBytes (cookie index status flags detail darg data endT progress : Nat) : List Byte :=
  natLe 4 cookie ++ natLe 2 index ++ natLe 1 status ++ natLe 1 flags ++ natLe 1 detail ++ natLe 3 darg ++ natLe 4 data ++
    natLe 8 endT ++ natLe 4 progress ++ natLe 4 0

/-- Write a completion record at CQTAIL, or hold it while the ring is full; a write that is refused or fails loses it
(R221). -/
def State.writeCq (s : State) (r : Nat) (b : List Byte) : State :=
  if s.ringSize r ≤ s.cqLen r then
    { s with rota := { s.rota with held := SMap.put s.rota.held r (SMap.get s.rota.held r [] ++ [b]) [] } }
  else
    let tail := s.fld .rtRingCqtail r
    let part := s.fld .rtRingPart r
    let res := s.urWrite (rotaReq (s.ringSecure r)) (s.fld .rtRingCqpage r * 4096 + tail * 32) b []
    let s := res.2
    let s := match res.1 with
      | some _ => (s.logIt .completionLost 0x18 8 (leNat (b.take 4)) (leNat ((b.drop 4).take 2)) r).bumpObj .cqWriteFails
          (part + 1) 1
      | none => s
    (s.setFld .rtRingCqtail r ((tail + 1) % s.ringSize r)).setCqLen r (s.cqLen r + 1)

/-- The status a job's record carries (R222). -/
def finalStatus (e : Ending) (late degraded : Bool) : Nat :=
  if 3 ≤ e.status ∧ e.status ≤ 5 then e.status
  else if e.status = 2 then 2 else if late then 6 else if degraded then 1 else 0

/-- The job misses its DEADLINE when it completes now (R222). -/
def State.missed (s : State) (j : Job) : Bool :=
  decide (j.desc.deadline ≠ 0 ∧ j.submit + j.desc.deadline * 1000 < s.time ∧ (j.desc.append = 0 ∨ j.records = 0)) ||
  (decide (j.desc.append ≠ 0) && j.recordLate)

/-- Write the completion record of a dispatched job (R169, R221, R222). -/
def State.completeJob (s : State) (j : Job) (e : Ending) : State :=
  let late := j.late || s.missed j
  let k := if j.desc.ledger = 0 then (none, s)
    else s.kvFinish j.desc.ledger j.desc.append j.progress (decide (e.status = 0))
  let e := match k.1 with | some st => ⟨st, 0, 0, 0, false⟩ | none => e
  let flags := b2n late + 2 * b2n j.degraded + 4 * b2n j.preempted
  k.2.writeCq j.ring (cqBytes j.desc.cookie j.index (finalStatus e late j.degraded) flags e.detail e.darg e.data k.2.time
    j.progress)

/-! ## The end of a job -/

/-- The members of the core's furrow, or the core alone. -/
def State.members (s : State) (c : Nat) : List Nat :=
  let f := s.furrowOf c
  (List.range f.2).map (f.1 + ·)

/-- No command is in flight on any member. -/
def State.quiet (s : State) (c : Nat) : Bool := (s.members c).all (fun m => (s.core m).inflight.isEmpty)

/-- The job on a core ends with this status and detail: issue stops at once, and the record waits for the commands in flight
(R46, R221).  A job that is already ending keeps its first cause. -/
def State.endJob (s : State) (c : Nat) (e : Ending) : State :=
  match (s.core c).job with
  | none => s
  | some _ =>
    if (s.core c).ending.isSome then s else
    let s := s.updCore c (fun x => { x with ending := some e, queue := [], wait := .none, tallyWait := none })
    (s.members c).foldl (fun s m => s.setFld .tcCtrlRun m 0) s

/-- Release what a job held on its cores: WORK leases, pins, and its run enable (R68, R116). -/
def State.freeCores (s : State) (c : Nat) : State :=
  let s : State := match (s.core c).job with
    | some j => j.pins.foldl (fun s p => s.unpinPage p) s
    | none => s
  let s := (s.members c).foldl (fun s m => (s.releaseWork m).setFld .tcCtrlRun m 0) s
  s.updCore c (fun x => { x with
    job := none, queue := [], wait := .none, tallyWait := none, ending := none, lastStileDue := false })

end Sys2Proof.Machine
end

