-- ==== Sys2Proof/Machine/Guard.lean ====
section
/-!
DEFINITION. How jobs end: guarded copies and the suspect marks of R308 and R233, the end of a job's cores (R221), the
withdrawal of a job wherever it stands (R230), and the window watchdogs of R309 to R311.
-/
namespace Sys2Proof.Machine

/-! ## Suspect pairs -/

/-- nFAULT is asserted while any bit of SAFE_FAULT is set (R312), while a clock source has failed and the device is held (R431),
and by the thermal trip (R454). -/
def State.nfault (s : State) : Bool :=
  s.flag .safeFaultSuspect 0 || s.flag .safeFaultWatchdog 0 || s.flag .safeFaultClock 0 || s.flag .safeFaultDramTrain 0 ||
  s.flag .safeFaultSelftest 0 || s.clk.failing != 0 || s.flag .clkStatusHeld 0 || s.boot.stage == .tripped

/-- Mark a pair suspect (R233, R308, R312): the next pair is active from the next release, and NOPAIR is set with none left. -/
def State.markSuspect (s : State) (k i : Nat) : State :=
  let s := (s.setFld (pairFlds i).2.2.2 k 1).setFld .safeFaultSuspect 0 1
  (s.setFld .rtGnetNopair k (b2n (s.activePair k).isNone)).logIt .guard 0x14 8 k i 0

/-- Enter an outcome of a frame in the history of the network's active pair, which restarts when the pair changes; the pair
is suspect at SUSPECT disagreements among the last WINDOW outcomes (R308). -/
def State.countOutcome (s : State) (k : Nat) (disagrees : Bool) : State :=
  let pair := s.fld .rtGnetActive k
  let h := SMap.get s.safe.hist k ⟨0, []⟩
  let outs := (disagrees :: (if h.pair = pair then h.outs else [])).take (s.fld .cmpNetWindow k)
  let s := { s with safe := { s.safe with hist := SMap.put s.safe.hist k ⟨pair, outs⟩ ⟨0, []⟩ } }
  if disagrees && decide (s.fld .cmpNetSuspect k ≤ outs.count true) then s.markSuspect k pair else s

/-- The completion record of a job that never ran on a core: LATE stands in its FLAGS when its DEADLINE has passed (R222). -/
def State.recordOf (s : State) (t : Taken) (d : JobDesc) (e : Ending) : State :=
  let late := decide (d.deadline ≠ 0 ∧ t.submit + d.deadline * 1000 < s.time)
  s.writeCq t.ring (cqBytes d.cookie t.index (finalStatus e late false) (b2n late) e.detail e.darg e.data s.time 0)

/-- The end of a copy that its network stops because the other copy failed (R232). -/
def stopEnding : Ending := ⟨7, 0, 0, 0, false⟩

/-- The frame of a guarded network ends without a compare: the record takes the failing copy's status (R232), and a watchdog
fault or a data fault of one copy counts as a disagreement, but not when both copies failed alike (R307). -/
def State.failFrame (s : State) (k : Nat) : State :=
  let n := s.net k
  match n.ended.find? (fun x => decide (x.2.2.status ≠ 0 ∧ x.2.2.status ≠ 7)) with
  | none => s.setNet k { GuardRun.idle with fallbackNext := n.fallbackNext, due := n.due }
  | some (copy, j, e) =>
    let alike := n.ended.any (fun x => decide (x.1 ≠ copy ∧ x.2.2.status = e.status ∧ x.2.2.detail = e.detail))
    let s := s.setNet k { GuardRun.idle with fallbackNext := n.fallbackNext, due := n.due }
    let s := if e.counts && !alike then s.countOutcome k true else s
    s.completeJob j e

/-- A guarded copy has ended (R231, R232): when it failed, a copy that still waits does not start and a copy that runs stops
at its next command boundary; two good ends wait for the comparator. -/
def State.endCopy (s : State) (k copy : Nat) (j : Job) (e : Ending) : State :=
  let s := s.rotaSlotMap j.core
  let n := s.net k
  let other := if copy = 0 then n.east else n.west
  let failed := decide (e.status ≠ 0)
  let otherWaits := n.waiting.contains (1 - copy)
  let n' := { n with
    ended := n.ended ++ [(copy, j, e)]
    waiting := if failed then [] else n.waiting
    fallbackNext := n.fallbackNext }
  let s := s.setNet k n'
  if n'.ended.length = 2 then
    if n'.ended.all (fun x => decide (x.2.2.status = 0)) then s.setNet k { n' with comparing := true } else s.failFrame k
  else if failed then (if otherWaits then s.failFrame k else s.endJob other stopEnding)
  else s

/-! ## Where a job stands -/

/-- A job by its ring, index and guarded copy. -/
def Job.id (j : Job) : Nat × Nat × Nat := (j.ring, j.index, (j.net.map (·.2)).getD 0)

/-- The core on which a job runs. -/
def State.coreOf (s : State) (id : Nat × Nat × Nat) : Option Nat :=
  (List.range 8).find? (fun c => match (s.core c).job with | some j => j.id == id | none => false)

/-- A released job by its ring and index. -/
def Taken.names (t : Taken) (ring index : Nat) : Bool := t.ring == ring && t.index == index

/-- The wheel slot, as partition × 64 + slot, in which a job waits, released or suspended. -/
def State.slotOf (s : State) (id : Nat × Nat × Nat) : Option Nat :=
  (s.rota.wheel.find? (fun e =>
    (e.2.taken.toList ++ e.2.due).any (fun t => t.names id.1 id.2.1 && id.2.2 == 0) ||
    (match e.2.suspended with | some x => x.job.id == id | none => false))).map (·.1)

/-- The guarded network whose frame a job is. -/
def State.netOf (s : State) (ring index : Nat) : Option Nat :=
  (s.rota.nets.find? (fun e => e.2.taken.any (·.names ring index))).map (·.1)

/-- The guarded network in which a job waits behind the frame, with the job. -/
def State.netDue (s : State) (ring index : Nat) : Option (Nat × Taken) :=
  s.rota.nets.findSome? (fun e => (e.2.due.find? (·.names ring index)).map (fun t => (e.1, t)))

/-- The descriptor of a job that the Rota has taken, as its ring holds it. -/
def State.descAt (s : State) (ring index : Nat) : JobDesc :=
  parseDesc (s.urPeek (s.fld .rtRingSqpage ring * 4096 + index * 64) 64)

/-- A job as it stands before its dispatch. -/
def bareJob (t : Taken) (p c : Nat) (d : JobDesc) (net : Option (Nat × Nat)) : Job :=
  ⟨t.ring, t.index, p, none, net, c, d, ⟨0, 0, 0, 0, 0, 0, 0, 0, 0⟩, none, t.submit, t.release, none, false, false, false,
    false, 0, 0, t.release, t.release, none, [], 0, false⟩

/-- The switch that a core has under way for a job ends: its save area is freed with it. -/
def State.dropSwitch (s : State) (id : Nat × Nat × Nat) : State :=
  (List.range 8).foldl (fun s c =>
    let x := s.core c
    let out := match x.outgoing with | some y => y.job.id == id | none => false
    let inc := match x.incoming with | some y => y.id == id | none => false
    let s := if out then s.updCore c (fun x => { x with
      outgoing := none, switching := if x.incoming.isSome then 2 else 0 }) else s
    if inc then s.updCore c (fun x => { x with
      incoming := none, switching := if x.outgoing.isSome then 1 else 0 }) else s) s

/-- The windows of a job are cancelled without a fault (R311). -/
def State.cancelWindows (s : State) (id : Nat × Nat × Nat) : State :=
  { s with safe := { s.safe with
      windows := s.safe.windows.filterMap (fun e =>
        match e.2.filter (fun w => decide (w.job ≠ some id)) with
        | [] => none
        | l => some (e.1, l)) } }

/-- End one job or copy wherever it stands: running, waiting as a guarded copy, in a switch, suspended, or released and not
yet dispatched (R213, R230, R310).  False when there is no such job. -/
def State.withdrawOne (s : State) (id : Nat × Nat × Nat) (e : Ending) : Bool × State :=
  match s.coreOf id with
  | some c => (true, s.endJob c e)
  | none =>
    match s.netOf id.1 id.2.1 with
    | some k =>
      let n := s.net k
      if n.waiting.contains id.2.2 then
        match n.taken with
        | some t =>
          let c := if id.2.2 = 0 then n.west else n.east
          let s := s.setNet k { n with waiting := n.waiting.filter (fun x => decide (x ≠ id.2.2)) }
          (true, s.endCopy k id.2.2 (bareJob t 0 c (s.descAt t.ring t.index) (some (k, id.2.2))) e)
        | none => (false, s)
      else (false, s)
    | none =>
      match s.slotOf id with
      | none => (false, s)
      | some key =>
        let w := s.wslot (key / 64) (key % 64)
        match w.due.find? (·.names id.1 id.2.1) with
        | some t =>
          let s := s.setWslot (key / 64) (key % 64) { w with due := w.due.filter (fun x => !x.names id.1 id.2.1) }
          (true, s.recordOf t (s.descAt t.ring t.index) e)
        | none =>
        let s := s.setWslot (key / 64) (key % 64) { WheelSlot.empty with lastDone := s.time, due := w.due }
        match w.suspended with
        | some x =>
          let s := x.job.pins.foldl (fun s p => s.unpinPage p) s
          (true, (s.dropSwitch id).completeJob x.job e)
        | none =>
          match w.taken with
          | some t => (true, s.recordOf t (s.descAt t.ring t.index) e)
          | none => (false, s)

/-- End a job by ring and index: of a guarded job, every copy that has not ended (R230); a compare in progress is withheld. -/
def State.withdraw (s : State) (ring index : Nat) (e : Ending) : Bool × State :=
  match s.netOf ring index with
  | none =>
    let s := (s.cancelWindows (ring, index, 0)).cancelWindows (ring, index, 1)
    (match s.netDue ring index with
    | some (k, t) =>
      let s := s.setNet k { s.net k with due := (s.net k).due.filter (fun x => !x.names ring index) }
      (true, s.recordOf t (s.descAt ring index) e)
    | none => s.withdrawOne (ring, index, 0) e)
  | some k =>
    let s := (s.cancelWindows (ring, index, 0)).cancelWindows (ring, index, 1)
    let n := s.net k
    if n.comparing then
      match n.ended with
      | (_, j, _) :: _ => (true, (s.setNet k { GuardRun.idle with fallbackNext := n.fallbackNext, due := n.due }).completeJob j e)
      | [] => (false, s)
    else
      let s := (s.withdrawOne (ring, index, 0) e).2
      (true, (s.withdrawOne (ring, index, 1) e).2)

/-! ## Window watchdogs -/

def State.windowsOf (s : State) (w : Nat) : List Window := SMap.get s.safe.windows w []
def State.setWindows (s : State) (w : Nat) (l : List Window) : State :=
  { s with safe := { s.safe with windows := SMap.put s.safe.windows w l [] } }

/-- The faults of R310. -/
inductive WwFault where
  | early | late | missed
deriving DecidableEq, Repr

/-- A fault of a watchdog's window (R310): counted and logged; EARLY and MISSED end the stage's job, and set
SAFE_FAULT.WATCHDOG with ACTION 1; LATE marks the job late; a register-armed stage has no job, and publishes an event. -/
def State.wwFault (s : State) (w : Nat) (x : Window) (k : WwFault) (injected : Bool) : State :=
  let s := s.bumpObj (if k = .late then .wwLate else .wwFaults) (w + 1) 1
  let s := { s with safe := { s.safe with faulted := SMap.put s.safe.faulted w true false } }
  let s := s.logIt .watchdog 0xFF (if injected then 1 else 0) w k.ctorIdx 0
  let s : State := match x.job, k with
    | none, _ => s.event 0x0016 w s.time
    | some id, .late =>
      match s.coreOf id with
      | some c => s.updCore c (fun y => { y with job := y.job.map (fun j => { j with late := true }) })
      | none => s
    | some id, _ => ((s.cancelWindows id).withdrawOne id ⟨2, 0x0A, w, 0, true⟩).2
  if k ≠ .late ∧ s.flag .wwAction w then s.setFld .safeFaultWatchdog 0 1 else s

/-- Two windows watch the two copies of one job of a guarded network. -/
def otherCopy (x y : Option (Nat × Nat × Nat)) : Bool :=
  match x, y with
  | some a, some b => a.1 == b.1 && a.2.1 == b.2.1 && a.2.2 != b.2.2
  | _, _ => false

/-- Arm a watchdog (R309, R311): a disabled one is never armed; a window that is open ends as MISSED, but that the two
copies of one release have a window each. -/
def State.wwArm (s : State) (w : Nat) (job : Option (Nat × Nat × Nat)) : State :=
  if !s.flag .wwEn w then s else
  let old := (s.windowsOf w).filter (fun x => !(x.armed == s.time && otherCopy x.job job))
  let s := s.setWindows w ((s.windowsOf w).filter (fun x => !old.contains x))
  let s := old.foldl (fun s x => s.wwFault w x .missed false) s
  let s := { s with safe := { s.safe with faulted := SMap.put s.safe.faulted w false false } }
  s.setWindows w (s.windowsOf w ++ [⟨job, s.time⟩])

/-- Kick one window (R310): `t` is counted from its arming, and the ends of the inequalities are included. -/
def State.wwKickWindow (s : State) (w : Nat) (x : Window) : State :=
  let s := s.setWindows w ((s.windowsOf w).filter (fun y => decide (y ≠ x)))
  let t := s.time - x.armed
  if SMap.get s.safe.injectWw w false then
    ({ s with safe := { s.safe with injectWw := SMap.put s.safe.injectWw w false false } }).wwFault w x .early true
  else if t < s.fld .wwOpen w * 1000 then s.wwFault w x .early false
  else if t ≤ s.fld .wwClose w * 1000 then s
  else if t ≤ s.fld .wwLimit w * 1000 then s.wwFault w x .late false
  else s.wwFault w x .missed false

/-- A job's STILE or completion kicks the windows that watch it (R309). -/
def State.wwKickJob (s : State) (id : Nat × Nat × Nat) : State :=
  (s.safe.windows.flatMap (fun e => e.2.map (fun x => (e.1, x)))).foldl (fun s wx =>
    if wx.2.job = some id ∧ (s.windowsOf wx.1).contains wx.2 then s.wwKickWindow wx.1 wx.2 else s) s

/-- A release arms the watchdogs whose ARM and SRC name it: 1 a guarded network, 2 a ring (R309). -/
def State.wwRelease (s : State) (arm src : Nat) (id : Nat × Nat × Nat) : State :=
  (List.range 32).foldl (fun s w =>
    if s.fld .wwArm w = arm ∧ s.fld .wwSrc w = src then s.wwArm w (some id) else s) s

/-- WWn.STATE (R317). -/
def State.wwState (s : State) (w : Nat) : Nat :=
  match (s.windowsOf w).getLast? with
  | some x =>
    let t := s.time - x.armed
    if t < s.fld .wwOpen w * 1000 then 1 else if t ≤ s.fld .wwClose w * 1000 then 2 else 3
  | none => if SMap.get s.safe.faulted w false then 4 else 0

/-! ## The end of a job's cores -/

/-- The last command in flight of an ending job has completed (R221, R223): a job that ended of itself kicks its windows, and
its end is the watchdog's when the kick is EARLY; then its cores are free and its record is written. -/
def State.finishJob (s : State) (c : Nat) : State :=
  match (s.core c).job, (s.core c).ending with
  | some j, some e =>
    if !s.quiet c then s else
    let late := (s.safe.windows.any (fun x => x.2.any (fun w => decide (w.job = some j.id ∧
      s.fld .wwClose x.1 * 1000 < s.time - w.armed ∧ s.time - w.armed ≤ s.fld .wwLimit x.1 * 1000))))
    let early := (s.safe.windows.find? (fun x => x.2.any (fun w => decide (w.job = some j.id ∧
      (s.time - w.armed < s.fld .wwOpen x.1 * 1000 ∨ s.fld .wwLimit x.1 * 1000 < s.time - w.armed ∨
        SMap.get s.safe.injectWw x.1 false = true))))).map (·.1)
    let s := s.freeCores c
    let s := (s.wwKickJob j.id).cancelWindows j.id
    let j := { j with late := j.late || late }
    let e := match early with
      | some w => if e.status = 0 then ⟨2, 0x0A, w, 0, true⟩ else e
      | none => e
    match j.net with
    | some (k, copy) => s.endCopy k copy j e
    | none =>
      let s := match j.slot with
        | some i => s.setWslot j.part i { s.wslot j.part i with running := false, lastDone := s.time }
        | none => s
      s.completeJob j e
  | _, _ => s

end Sys2Proof.Machine
end

