-- ==== Sys2Proof/Machine/RotaRun.lean ====
section
/-!
DEFINITION. The Rota at work (spec/11): the release of jobs (R223), the dispatch checks of R220, dispatch and resume, and the
decision of R224.
-/
namespace Sys2Proof.Machine

/-! ## Dispatch -/

/-- The outcome of the dispatch checks (R220). -/
inductive Admit where
  | run (j : Job)
  | reject (e : Ending) (d : JobDesc)
  | wait
deriving DecidableEq, Repr

/-- A handle of a descriptor passes check 4 of R220: none; not stale and of the ring's world; stale; or of another world. -/
def State.handleCheck (s : State) (h world : Nat) : Option Ending :=
  if h = 0 then none
  else if s.stale h then some ⟨2, 3, 0, h, false⟩
  else if recWorld (s.recOf h) ≠ world then some ⟨5, 0, 0, 0, false⟩
  else none

/-- The descriptors of a ring that are submitted and not taken, with their submission times. -/
def State.queuedIn (s : State) (r : Nat) : List (Nat × JobDesc) :=
  (List.range (s.sqLen r)).map (fun i =>
    let idx := (s.fld .rtRingSqhead r + i) % s.ringSize r
    (SMap.get s.rota.submit (r * 4096 + idx) 0, s.descAt r idx))

/-- A job on the same KV sequence was submitted earlier and has not been dispatched (R168): released in a slot or a network, or
in a ring that an enabled slot or network serves. -/
def State.earlierJob (s : State) (t : Taken) (h : Nat) : Bool :=
  let taken := s.rota.wheel.flatMap (fun e => e.2.taken.toList ++ e.2.due) ++
    s.rota.nets.flatMap (fun e => (if e.2.waiting.length = 2 then e.2.taken.toList else []) ++ e.2.due)
  let slots := ((List.range 512).filter (fun k => s.flag .rtWheelEn k)).map (fun k => s.fld .rtWheelRing k)
  let nets := ((List.range 16).filter (fun k => s.flag .rtGnetEn k)).map (fun k => s.fld .rtGnetRing k)
  let rings := ((slots ++ nets).eraseDups).filter (fun r => s.flag .rtRingEn r)
  taken.any (fun x => decide (x.submit < t.submit) && (s.descAt x.ring x.index).ledger == h) ||
  rings.any (fun r => (s.queuedIn r).any (fun x => decide (x.1 < t.submit) && x.2.ledger == h))

/-- The WORK leases of a job are refused (R81): the partition has no free spill slot, or a member's WORK hearths each carry 255
leases, or one of them holds a plane. -/
def State.workRefused (s : State) (p c : Nat) : Bool :=
  (s.freeSlots p 1).isNone ||
  (s.members c).any (fun m =>
    let hs := workHearths (s.fld .hearthCfgSplit m)
    hs.any (fun h => (s.residentOn m h).isSome) || (hs != [] && hs.all (fun h => decide (255 ≤ (s.leasesOn m h).length))))

/-- The other copy of a guarded frame has been dispatched: the sequence is BUSY with this very job (R231). -/
def State.otherStarted (s : State) (net : Option (Nat × Nat)) : Bool :=
  match net with
  | some (k, copy) => !(s.net k).waiting.contains (1 - copy)
  | none => false

/-- The dispatch checks of R220 for a taken descriptor, to run on core `c` for a slot (its class and core position) or a
guarded network. -/
def State.admitJob (s : State) (t : Taken) (c p : Nat) (slot : Option Nat) (net : Option (Nat × Nat)) (cls slotCore : Nat) :
    Admit × State :=
  let r := t.ring
  let idx := t.index
  let world := s.fld .rtRingWorld r
  let s := s.lgFetch
  match s.urRead (rotaReq (world == 1)) (s.fld .rtRingSqpage r * 4096 + idx * 64) 64 [] with
  | (.error _, s) => (.reject ⟨3, 9, 1, 0, false⟩ (parseDesc []), s)
  | (.ok b, s) =>
    let d := parseDesc b
    let pos := c - s.partBase p
    let coreOk := if net.isSome then true
      else if s.partFurrow p then decide (d.core = 0)
      else decide ((d.core = 0xF ∨ d.core = pos) ∧ (slotCore = 0xF ∨ d.core = 0xF ∨ d.core = slotCore))
    let partOk := decide (d.part = s.fld .rtRingPart r)
    if !(d.clean && coreOk && partOk && decide (d.cls = cls)) then (.reject ⟨2, 9, 2, 0, false⟩ d, s)
    else
      let tr := s.readTract p d.tract world
      let s := tr.2
      let f := if d.fallback = 0xFFFF then (none, s) else s.readTract p d.fallback world
      let s := f.2
      match tr.1 with
      | none => (.reject ⟨2, 9, 3, 0, false⟩ d, s)
      | some tr =>
        if d.fallback ≠ 0xFFFF ∧ f.1.isNone then (.reject ⟨2, 9, 3, 0, false⟩ d, s)
        else match ([d.ledger, d.inH, d.outH].filterMap (fun h => s.handleCheck h world)).head? with
          | some e => (.reject e d, s)
          | none =>
            let kv := if d.ledger ≠ 0 ∧ recType (s.recOf d.ledger) = 1 then s.kvAdmit d.ledger d.append else .ok
            let seq := decide (d.ledger ≠ 0 ∧ recType (s.recOf d.ledger) = 1)
            let kv := if kv = .wait ∧ s.otherStarted net = true then .ok
              else if kv = .ok ∧ seq = true ∧ s.otherStarted net = false ∧ s.earlierJob t d.ledger = true then .wait else kv
            match kv with
            | .wait => (.wait, s)
            | .reject st det data =>
              (.reject ⟨st, det, 0, data, false⟩ d, if st = 4 then s.bumpObj .lengthRefused (p + 1) 1 else s)
            | .ok =>
              if s.workRefused p c then
                (.reject ⟨2, 5, 0, 0, false⟩ d, s.bumpObj .refused (p + 1) 1)
              else
                (.run ⟨r, idx, p, slot, net, c, d, tr, f.1, t.submit, t.release, none, false, false, false, false, 0, tr.entry,
                  s.time, s.time, none, [], 0, false⟩, s)

/-- Take the descriptor at the head of a ring, released now or at an earlier instant (R218, R223). -/
def State.takeHead (s : State) (r release : Nat) : Taken × State :=
  let idx := s.fld .rtRingSqhead r
  let t : Taken := ⟨r, idx, SMap.get s.rota.submit (r * 4096 + idx) 0, release⟩
  (t, (s.setFld .rtRingSqhead r ((idx + 1) % s.ringSize r)).setSqLen r (s.sqLen r - 1))

/-- A ring serves a slot or a network: it is enabled, it has a descriptor, and its completion ring has space (R218, R221). -/
def State.ringReady (s : State) (r : Nat) : Bool :=
  s.flag .rtCtrlEn 0 && s.flag .rtRingEn r && decide (0 < s.sqLen r) && !s.ringFull r

/-- A wheel slot can take a job: it is enabled, its partition runs, and none of its jobs is taken (R223). -/
def State.slotOpen (s : State) (p i : Nat) : Bool :=
  let w := s.wslot p i
  s.flag .rtWheelEn (p * 64 + i) && s.partActive p && !bit s.rota.applying p && !w.running && w.suspended.isNone &&
  w.taken.isNone && (s.fld .rtRingPart (s.fld .rtWheelRing (p * 64 + i)) == p)

/-- A slot releases the job at its ring's head (R223); the watchdogs of the ring are armed (R309). -/
def State.releaseSlot (s : State) (p i release : Nat) : State :=
  let r := s.fld .rtWheelRing (p * 64 + i)
  let t := s.takeHead r release
  let s := t.2.setWslot p i { t.2.wslot p i with taken := some t.1 }
  s.wwRelease 2 r (r, t.1.index, 0)

/-- A PERIODIC slot whose job still runs releases the job at its ring's head at the instant: it waits behind (R223). -/
def State.releaseDue (s : State) (p i : Nat) : State :=
  let r := s.fld .rtWheelRing (p * 64 + i)
  let t := s.takeHead r s.time
  let w := t.2.wslot p i
  (t.2.setWslot p i { w with due := w.due ++ [t.1] }).wwRelease 2 r (r, t.1.index, 0)

/-- A slot without a job takes the next: one released at its instant, or, ON_SUBMIT, the job at its ring's head, released at its
submission, or at the completion of the slot's previous job if that is later (R223). -/
def State.serveSlot (s : State) (p i : Nat) : State :=
  let r := s.fld .rtWheelRing (p * 64 + i)
  if !s.slotOpen p i then s else
  let w := s.wslot p i
  match w.due with
  | t :: rest => s.setWslot p i { w with taken := some t, due := rest }
  | [] =>
    if !s.flag .rtWheelMode (p * 64 + i) && s.ringReady r then
      s.releaseSlot p i (max (SMap.get s.rota.submit (r * 4096 + s.fld .rtRingSqhead r) 0) (s.wslot p i).lastDone)
    else s

/-- Every slot of a partition takes its next job. -/
def State.servePart (s : State) (p : Nat) : State := (List.range 64).foldl (fun s i => s.serveSlot p i) s

/-- Write bytes of a core's Bin as the Rota in the world of the partition, its grains sealed again (R98, R221); a write that the Bin
refuses writes nothing. -/
def State.rotaBinWrite (s : State) (p c off : Nat) (bs : List Byte) : State :=
  match s.binAdmit (rotaReq (s.partSecure p)) true 8 c ((grainsOf ((List.range bs.length).map (off + ·))).map (·.1)) with
  | (some _, s) => s
  | (none, s) => (s.binWriteRun 8 c off bs []).2

/-- The argument block of a job (R216). -/
def argBlock (j : Job) : List Byte :=
  j.desc.args ++ natLe 4 j.progress ++ natLe 1 (b2n j.degraded) ++ natLe 3 0

/-- Write TC_OPTAB of every member and enable issue (R215, R228, R48). -/
def State.enableIssue (s : State) (c optbase : Nat) : State :=
  (s.members c).foldl (fun s m => (s.setFld .tcOptabOptbase m optbase).setFld .tcCtrlRun m 1) s

/-- Issue the entries of a tract's pin list into the partition's quota: the pages pinned (R116, R215). -/
def State.pinList (s : State) (p c : Nat) (t : Tract) (deadline : Option Nat) : List Nat × State :=
  match s.urRead (rotaReq (s.partSecure p)) (t.pinpage * 4096) (8 * min t.pincount 256) [] with
  | (.error _, s) => ([], s)
  | (.ok b, s) =>
    let pages := (List.range (min t.pincount 256)).flatMap (fun i =>
      let first := bits (leNat ((b.drop (8 * i)).take 4)) 23 0
      let cnt := min (leNat ((b.drop (8 * i + 4)).take 2)) 4096
      (List.range cnt).map (first + ·))
    pages.foldl (fun ps pg =>
      let s := ps.2
      if s.urPages ≤ pg ∨ !s.quarterFills (quarterOf pg) then (ps.1, s.bumpObj .pinShort (p + 1) 1) else
      match s.pinPage pg p c deadline with
      | (true, s) => (ps.1 ++ [pg], s)
      | (false, s) => (ps.1, s.bumpObj .pinShort (p + 1) 1)) ([], s)

/-- Start a new job on its core: leases, pins, argument block, operand table and issue (R68, R215, R216, R228). -/
def State.startJob (s : State) (j : Job) : State :=
  let w := (s.members j.core).length
  let s := s.grantWork j.core w j.part
  let ps := s.pinList j.part j.core j.tract
    (if j.desc.deadline = 0 then none else some (j.submit + j.desc.deadline * 1000))
  let j := { j with pins := ps.1 }
  let s := ps.2.updCore j.core (fun x => { x with
    job := some j, queue := [], wait := .none, ending := none, lastStileDue := false })
  let s := s.rotaBinWrite j.part j.core j.tract.argbase (argBlock j)
  let s := s.enableIssue j.core j.tract.optbase
  let s := (s.bumpFld .rtCntCount 0 1).bumpObj .dispatches (j.part + 1) 1
  if j.desc.ledger ≠ 0 ∧ recType (s.recOf j.desc.ledger) = 1 ∧ recState (s.recOf j.desc.ledger) ≠ 2 then
    let f := s.fresh
    f.2.setRec (handleSlot j.desc.ledger)
      (setRecField (setRecState (f.2.recOf j.desc.ledger) 2) 32 31 0 (Config.freeNat f.1 % 2 ^ 32))
  else s

/-- The core can run a job: the device is in ACTIVE or IDLE, its Bin serves, its domains have power good, and no clock is held
(R40, R95, R428). -/
def State.coreUp (s : State) (c : Nat) : Bool :=
  s.awake && s.powerGood (31 + c) && s.powerGood (39 + c) && s.binReady c && !s.flag .clkStatusHeld 0 && !SMap.get s.safe.failed c false

/-- The core holds no running job, no switch and no self-test. -/
def State.coreFree (s : State) (c : Nat) : Bool :=
  let x := s.core c
  x.job.isNone && x.switching == 0 && x.selftest.isNone && x.outgoing.isNone && x.incoming.isNone

/-! ## The decision of R224 -/

/-- What may run on a core at a decision point: a guarded copy, a wheel slot with a released or a suspended job, or a
self-test segment. -/
inductive Pick where
  | copy (k copy : Nat)
  | slot (i : Nat)
  | test
deriving DecidableEq, Repr

/-- The mark of a guarded copy that waits for its sequence, in the list of what a decision passes over. -/
def copyMark (k copy : Nat) : Nat := 100 + 2 * k + copy

/-- The guarded copy that waits for a core (R231), its completion ring not full (R221); `skip` lists what waits for a sequence. -/
def State.copyFor (s : State) (c : Nat) (skip : List Nat) : Option (Nat × Nat) :=
  ((List.range 16).flatMap (fun k =>
    let n := s.net k
    if s.ringFull (s.fld .rtGnetRing k) then [] else
    (if n.waiting.contains 0 ∧ n.west = c ∧ ¬ skip.contains (copyMark k 0) then [(k, 0)] else []) ++
    (if n.waiting.contains 1 ∧ n.east = c ∧ ¬ skip.contains (copyMark k 1) then [(k, 1)] else []))).head?

/-- A wheel slot is a candidate for core `c` of partition `p`: enabled, a suspended job of that core or a released job that
may run there, and its completion ring not full (R221, R223, R226). -/
def State.slotReady (s : State) (p i c : Nat) : Bool :=
  let w := s.wslot p i
  let k := p * 64 + i
  s.flag .rtWheelEn k && !w.running &&
  (match w.suspended, w.taken with
   | some x, _ => x.job.core == c && (s.core c).outgoing.isNone && !s.ringFull x.job.ring
   | none, some t =>
     let pos := c - s.partBase p
     let wc := s.fld .rtWheelCore k
     let hc := (s.descAt t.ring t.index).core
     !s.ringFull t.ring &&
     (s.partFurrow p || ((wc == 0xF || wc == pos) && (hc == 0xF || hc == pos || decide (s.partSize p ≤ hc) || wc != 0xF)))
   | none, none => false)

/-- The job of a slot that runs on a core. -/
def State.slotJob (s : State) (p i : Nat) : Option Job :=
  (List.range 8).findSome? (fun c => (s.core c).job.filter (fun j => j.part == p && j.slot == some i))

/-- The submission + DEADLINE by which a REALTIME slot ranks; none counts as latest (R224). -/
def State.slotDue (s : State) (p i : Nat) : Nat :=
  let w := s.wslot p i
  let due (sub dl : Nat) : Nat := if dl = 0 then 2 ^ 80 else sub + dl * 1000
  match w.suspended, w.taken with
  | some x, _ => due x.job.submit x.job.desc.deadline
  | none, some t => due t.submit (s.descAt t.ring t.index).deadline
  | none, none => match s.slotJob p i with
    | some j => due j.submit j.desc.deadline
    | none => 2 ^ 80

/-- The first of the slots after the one its class last served (R224, rule 4). -/
def roundRobin (last : Nat) (is : List Nat) : Option Nat :=
  match is.find? (fun i => decide (last < i + 1)) with
  | some i => some i
  | none => is.head?

/-- The self-test of a core (R313, R314). -/
def State.test (s : State) (c : Nat) : TestProg := SMap.get s.rota.tests c ⟨0, false⟩
def State.setTest (s : State) (c : Nat) (x : TestProg) : State :=
  { s with rota := { s.rota with tests := SMap.put s.rota.tests c x ⟨0, false⟩ } }

/-- The time since the last full pass of a core. -/
def State.sinceTest (s : State) (c : Nat) : Nat := s.time - s.obj .selftestLast (c + 1)

/-- More than half of the core's maximum interval has passed without a full pass (R234). -/
def State.testUrgent (s : State) (c : Nat) : Bool := decide (s.obj .selftestMaxMs (c + 1) * 500000 < s.sinceTest c)

/-- A segment may take its turn on a core, and on the members of its furrow: a logic segment needs every plane parked, and a
pinned plane stays (R80, R234). -/
def State.testDue (s : State) (c : Nat) : Bool :=
  (decide ((s.test c).next < 5) || (s.members c).all (fun m =>
    s.hearth.leases.all (fun l => !l.cores.contains m || l.phase == .parked || (l.phase == .resident && !l.pinned)))) &&
  (s.testUrgent c || Config.segmentDue c (s.sinceTest c))

/-- The next release instant of a periodic network, at or after now (R223). -/
def State.nextInstant (s : State) (period offset : Nat) : Nat :=
  let us := ceilDiv s.time 1000
  (if us ≤ offset then offset else offset + ceilDiv (us - offset) period * period) * 1000

/-- A segment that begins `delay` ns from now would end within 20 µs of the next periodic GUARDED release on its core, or after it
(R234); a segment is taken to last its 200 µs. -/
def State.testDeferred (s : State) (c delay : Nat) : Bool :=
  (List.range 16).any (fun k =>
    s.flag .rtGnetEn k && s.flag .rtGnetMode k && decide (0 < s.fld .rtGnetPeriod k) &&
    (match s.activePair k with
     | some i => (s.members c).any (fun m => s.pairWest k i == m || s.pairEast k i == m)
     | none => false) &&
    decide (s.nextInstant (s.fld .rtGnetPeriod k) (s.fld .rtGnetOffset k) ≤ s.time + delay + 220000))

/-- The pick among the wheel slots of a partition and the self-test of a core (R224, rules 2 to 4, R234); `skip` lists slots
that wait, 64 the self-test; `run` is the slot of the job that takes a STILE, which is a candidate itself (R225). -/
def State.pickSlot (s : State) (p c : Nat) (skip : List Nat) (run : Option Nat) : Option Pick :=
  let ready := (List.range 64).filter (fun i => run == some i || (!skip.contains i && s.slotReady p i c))
  let cls (k : Nat) : List Nat := ready.filter (fun i => s.fld .rtWheelClass (p * 64 + i) == k)
  match cls 1 with
  | i :: r => some (.slot (r.foldl (fun b j => if s.slotDue p j < s.slotDue p b then j else b) i))
  | [] =>
    match cls 2 with
    | _ :: _ => (roundRobin (SMap.get s.rota.lastServed (p * 4 + 2) 0) (cls 2)).map .slot
    | [] =>
      let test := !skip.contains 64 && s.testDue c
      if test && s.testUrgent c then some .test else
      match roundRobin (SMap.get s.rota.lastServed (p * 4 + 3) 0) (cls 3 ++ if test then [64] else []) with
      | none => none
      | some i => some (if i = 64 then .test else .slot i)

/-- The pick of R224. -/
def State.pick (s : State) (p c : Nat) (skip : List Nat) (run : Option Nat) : Option Pick :=
  match s.copyFor c skip with
  | some (k, n) => some (.copy k n)
  | none => s.pickSlot p c skip run

/-- A segment is deferred (R234, R235). -/
def State.deferTest (s : State) (p : Nat) : State := (s.bumpFld .rtCntCount 4 1).bumpObj .selftestDeferred (p + 1) 1

/-- A self-test segment begins on a core, or on all members of its furrow; a logic segment first parks the resident planes
(R75, R234), and it clears the hearths (R314). -/
def State.startTest (s : State) (p c : Nat) : State :=
  let i := (s.test c).next
  let ms := s.members c
  let s : State := if i < 5 then s else
    let out := s.hearth.leases.filter (fun l => l.phase == .resident && l.cores.any (fun m => ms.contains m))
    let s := out.foldl State.parkNow s
    ms.foldl (fun s m => (List.range 4).foldl (fun s h => s.zeroPlane m h) s) s
  let s := ms.foldl (fun s m => s.updCore m (fun x => { x with selftest := some i })) s
  { s with rota := { s.rota with lastServed := SMap.put s.rota.lastServed (p * 4 + 3) 65 0 } }

/-- A GUARDED copy that arrives aborts the segment on its core (R234); the segment runs again in full later. -/
def State.abortTest (s : State) (c : Nat) : State :=
  if (s.core c).selftest.isNone then s else
  ((s.members c).foldl (fun s m => s.updCore m (fun x => { x with selftest := none })) s).bumpFld .rtCntCount 5 1

/-- Start the fallback tract of a job on its core (R126, R216): the argument block with the last progress word and FLAGS[0] = 1,
the pin list, the operand table, and issue at its entry. -/
def State.startFallback (s : State) (j : Job) : State :=
  match j.fbTract with
  | none => s
  | some f =>
    let ps := s.pinList j.part j.core f (if j.desc.deadline = 0 then none else some (j.submit + j.desc.deadline * 1000))
    let j := { j with
      tract := f, switching := false, degraded := true, fetch := f.entry, stage := none, pins := j.pins ++ ps.1 }
    let s := ps.2.updCore j.core (fun x => { x with job := some j, queue := [], wait := .none, tallyWait := none })
    (s.rotaBinWrite j.part j.core f.argbase (argBlock j)).enableIssue j.core f.optbase

/-! ## Guarded networks -/

/-- A core of a pair lies in a non-furrow partition of the ring's world (R231). -/
def State.pairCoreOk (s : State) (k c : Nat) : Bool :=
  match s.partOf c with
  | none => false
  | some p => !s.partFurrow p && s.partSecure p == s.ringSecure (s.fld .rtGnetRing k)

/-- The cores of a pair of a network. -/
def State.pairCores (s : State) (k i : Nat) : List Nat := [s.pairWest k i, s.pairEast k i]

/-- The active pair of a network still lies in partitions of its ring's world, or it has none (R231). -/
def State.pairPlaced (s : State) (k : Nat) : Bool :=
  match s.activePair k with
  | some i => (s.pairCores k i).all (fun c => s.pairCoreOk k c)
  | none => true

/-- A guarded network can begin a frame (R231): it is enabled with its comparison, no frame is in progress, and its active pair lies
where it must. -/
def State.netOpen (s : State) (k : Nat) : Bool :=
  s.flag .rtGnetEn k && s.flag .cmpNetEn k && (s.net k).taken.isNone && s.pairPlaced k

/-- A guarded network can release a job and begin its frame (R231). -/
def State.netReady (s : State) (k : Nat) : Bool := s.netOpen k && s.ringReady (s.fld .rtGnetRing k)

/-- The release of a guarded job arms its watchdogs (R309). -/
def State.armFrame (s : State) (k : Nat) (t : Taken) : State :=
  ((s.wwRelease 1 k (t.ring, t.index, 0)).wwRelease 1 k (t.ring, t.index, 1)).wwRelease 2 t.ring (t.ring, t.index, 0)

/-- A guarded network begins the frame of a released job (R231, R233): copies for the west and the east core of the active pair,
or WITHDRAWN with NO_PAIR when every pair is suspect. -/
def State.beginFrame (s : State) (k : Nat) (t : Taken) : State :=
  match s.activePair k with
  | none =>
    let s := ((s.cancelWindows (t.ring, t.index, 0)).cancelWindows (t.ring, t.index, 1)).setFld .rtGnetNopair k 1
    s.recordOf t (s.descAt t.ring t.index) ⟨2, 8, k, 0, false⟩
  | some i =>
    let s := s.setFld .rtGnetActive k i
    let n := s.net k
    s.setNet k { n with
      taken := some t, west := s.pairWest k i, east := s.pairEast k i, waiting := [0, 1], fallback := n.fallbackNext }

/-- A guarded network releases the job at its ring's head and begins its frame (R231, R309). -/
def State.releaseNet (s : State) (k release : Nat) : State :=
  let t := s.takeHead (s.fld .rtGnetRing k) release
  (t.2.armFrame k t.1).beginFrame k t.1

/-- A PERIODIC network whose frame is in progress releases the job at its ring's head at the instant: it waits behind (R223). -/
def State.netDueNow (s : State) (k : Nat) : State :=
  let t := s.takeHead (s.fld .rtGnetRing k) s.time
  let n := t.2.net k
  (t.2.setNet k { n with due := n.due ++ [t.1] }).armFrame k t.1

/-- A network without a frame takes its next job: one released at its instant, or, ON_SUBMIT, the job at its ring's head (R223,
R231); as often as jobs end without a frame. -/
def State.serveNet (s : State) (fuel : Nat) (k : Nat) : State :=
  match fuel with
  | 0 => s
  | m + 1 =>
    if !s.netOpen k then s else
    let n := s.net k
    match n.due with
    | t :: rest => ((s.setNet k { n with due := rest }).beginFrame k t).serveNet m k
    | [] => if !s.flag .rtGnetMode k && s.netReady k then (s.releaseNet k s.time).serveNet m k else s

/-- The jobs that a network may take. -/
def State.netJobs (s : State) (k : Nat) : Nat := s.sqLen (s.fld .rtGnetRing k) + (s.net k).due.length

/-- Dispatch or resume what a slot holds on a core that is free.  True when the slot's job now waits for its sequence, so
that another slot is picked (R168). -/
def State.dispatchSlot (s : State) (p i c : Nat) : Bool × State :=
  let k := p * 64 + i
  let w := s.wslot p i
  let cls := s.fld .rtWheelClass k
  let served (s : State) : State :=
    { s with rota := { s.rota with lastServed := SMap.put s.rota.lastServed (p * 4 + cls) (i + 1) 0 } }
  match w.suspended, w.taken with
  | some x, _ =>
    if x.job.switching then
      let s := (served s).setWslot p i { w with running := true, suspended := none }
      let s := s.grantWork c (s.members c).length p
      (false, s.startFallback { x.job with since := s.time, lastStile := s.time })
    else
    let s := (served s).setWslot p i { w with running := true }
    (false, s.updCore c (fun y => { y with switching := 2, switchAt := s.time, incoming := some x.job }))
  | none, some t =>
    match s.admitJob t c p (some i) none cls (s.fld .rtWheelCore k) with
    | (.wait, s) => (true, s)
    | (.reject e d, s) =>
      let s := (s.cancelWindows (t.ring, t.index, 0)).setWslot p i { w with taken := none, lastDone := s.time }
      (false, s.recordOf t d e)
    | (.run j, s) =>
      let s := (served s).setWslot p i { w with taken := none, running := true }
      (false, s.startJob j)
  | none, none => (true, s)

/-- Start a guarded copy on a free core: its network's job, run with the core's own Bin, operand table and partition (R231);
a frame after a deadline switch of either copy runs the fallback in both (R126). -/
def State.dispatchCopy (s : State) (p c k copy : Nat) : State :=
  let n := s.net k
  let s := (s.setNet k { n with waiting := n.waiting.filter (fun x => decide (x ≠ copy)) }).rotaSlotMap c
  match n.taken with
  | none => s
  | some t =>
    match s.admitJob t c p none (some (k, copy)) 0 0 with
    | (.wait, s) => (s.setNet k n).rotaSlotMap c
    | (.reject e d, s) => s.endCopy k copy (bareJob t p c d (some (k, copy))) e
    | (.run j, s) =>
      match n.fallback, j.fbTract with
      | true, some f => s.startJob { j with tract := f, degraded := true, fetch := f.entry }
      | _, _ => s.startJob j

/-- A decision point under way: the state, what is no longer picked, and whether another pick follows. -/
structure Picking where
  s    : State
  skip : List Nat
  more : Bool

/-- One pick at a decision point of a core (R224): on a free core, the pick is dispatched; a rejected job writes its record and
the next is picked. -/
def State.pickOnce (s : State) (p c : Nat) (skip : List Nat) : Picking :=
  let s := if (s.copyFor c skip).isSome then s.abortTest c else s
  if !(s.coreFree c) then ⟨s, skip, false⟩ else
  let s := s.servePart p
  match s.pick p c skip none with
  | none => ⟨s, skip, false⟩
  | some .test =>
    if s.testDeferred c 0 then ⟨s.deferTest p, 64 :: skip, true⟩ else ⟨s.startTest p c, skip, false⟩
  | some (.copy k x) =>
    let s := s.dispatchCopy p c k x
    if (s.net k).waiting.contains x then ⟨s, copyMark k x :: skip, true⟩ else ⟨s.serveNet (s.netJobs k) k, skip, true⟩
  | some (.slot i) =>
    let r := s.dispatchSlot p i c
    ⟨r.2, if r.1 then i :: skip else skip, true⟩

/-- A decision point of a core (R224): picks until the core is taken or nothing is left to pick. -/
def State.decideLoop (s : State) (fuel : Nat) (p c : Nat) (skip : List Nat) : State :=
  ((List.range fuel).foldl (fun a _ => if a.more then a.s.pickOnce p c a.skip else a) (⟨s, skip, true⟩ : Picking)).s

/-- The picks that a decision may take: what waits, and every job that a slot of the partition or a network can still reject. -/
def State.pickBudget (s : State) (p : Nat) : Nat :=
  200 + ((List.range 64).map (fun i => s.sqLen (s.fld .rtWheelRing (p * 64 + i)) + (s.wslot p i).due.length)).sum +
    2 * ((List.range 16).map s.netJobs).sum

/-- The members of a furrow, or the core, are up (R40, R95). -/
def State.partUp (s : State) (p c : Nat) : Bool :=
  if s.partFurrow p then (List.range (s.partSize p)).all (fun i => s.coreUp (s.partBase p + i)) else s.coreUp c

/-- A decision point for a core, at which the slots of its partition first release what they can: nothing is dispatched while
the Rota is disabled, the partition is being applied, or the core is not up. -/
def State.decideCore (s : State) (c : Nat) : State :=
  match s.partOf c with
  | none => s
  | some p =>
    let c := if s.partFurrow p then s.partBase p else c
    if s.flag .rtCtrlEn 0 && !bit s.rota.applying p && s.partUp p c then s.decideLoop (s.pickBudget p) p c [] else s

/-- Decision points for every core. -/
def State.decideAll (s : State) : State := (List.range 8).foldl (fun s c => s.decideCore c) s

/-! ## What follows -/

/-- Every network takes the job that it can. -/
def State.serveNets (s : State) : State := (List.range 16).foldl (fun s k => s.serveNet (s.netJobs k) k) s

/-- A job on a core ends IDLE (R407). -/
def State.leaveIdle (s : State) : State :=
  if s.pwrState = 1 ∧ (List.range 8).any (fun c => (s.core c).job.isSome || (s.core c).switching != 0) then
    s.setFld .pwrStatusState 0 0
  else s

/-- What follows a completion: networks release, and every core that is free takes a decision (R223, R224). -/
def State.decideNext (s : State) : State := s.serveNets.decideAll.leaveIdle

/-- Jobs whose commands in flight have all completed finish, and their cores take a decision. -/
def State.finishAll (s : State) : State :=
  let due := (List.range 8).filter (fun c => (s.core c).ending.isSome && s.quiet c)
  if due.isEmpty then s else (due.foldl (fun s c => (s.finishJob c).decideCore c) s).decideNext

end Sys2Proof.Machine
end

