-- ==== Sys2Proof/Machine/Operands.lean ====
section
/-!
DEFINITION. The operands of tract commands: tensor descriptors and their ranges (R26, R27), scale entries (R53 to R55), the
places an access touches, and the encoding of an output element with the statistics of its row (R58).
-/
namespace Sys2Proof.Machine

/-- A tensor descriptor (R26). -/
structure TDesc where
  index : Nat
  offset : Nat
  binsel : Nat
  remote : Bool
  fmtc : Nat
  zp : Int
  rowscale : Bool
  scale : Nat
  d0 : Nat
  d1 : Nat
  d2 : Nat
  d3 : Nat
  s1 : Int
  s2 : Int
  s3 : Int
deriving DecidableEq, Repr

/-- The byte offset of entry `i` of a core's operand table (R26). -/
def State.optEntry (s : State) (c i : Nat) : Nat := s.fld .tcOptabOptbase c * 32768 + 32 * i

/-- A count of 0 is read as 1 (R26). -/
def atLeast1 (n : Nat) : Nat := if n = 0 then 1 else n

/-- Entry `i` of the operand table of core `c` as a tensor descriptor. -/
def State.tdesc (s : State) (c i : Nat) : TDesc :=
  let w (k : Nat) : Nat := s.binNat c (s.optEntry c i + 4 * k) 4
  let w0 := w 0; let w1 := w 1; let w2 := w 2; let w3 := w 3
  ⟨i, bits w0 24 0, bits w0 27 25, bit w0 28, bits w1 3 0, signed 9 (bits w1 12 4), bit w1 13, bits w1 30 14,
    atLeast1 (bits w2 15 0), atLeast1 (bits w2 31 16), atLeast1 (bits w3 15 0), atLeast1 (bits w3 31 16),
    signed 32 (w 4), signed 32 (w 5), signed 32 (w 6)⟩

/-- The Bin an operand lies in. -/
def TDesc.bin (d : TDesc) (c : Nat) : Nat := if d.remote then d.binsel else c

/-- The elements a descriptor counts. -/
def TDesc.count (d : TDesc) : Nat := d.d0 * d.d1 * d.d2 * d.d3

/-- The bytes of `n` contiguous elements. -/
def Fmt.run (f : Fmt) (n : Nat) : Nat := ceilDiv (n * f.bits) 8

/-- The lowest and the highest byte that the counts and strides reach (R27). -/
def TDesc.span (d : TDesc) (f : Fmt) : Int × Int :=
  let ext (st : Int) (n : Nat) : Int := st * ((n - 1 : Nat) : Int)
  let e1 := ext d.s1 d.d1; let e2 := ext d.s2 d.d2; let e3 := ext d.s3 d.d3
  ((d.offset : Int) + min 0 e1 + min 0 e2 + min 0 e3,
   (d.offset : Int) + max 0 e1 + max 0 e2 + max 0 e3 + (f.run d.d0 : Nat) - 1)

/-- The range lies in the 24 MiB Bin (R27). -/
def TDesc.inBin (d : TDesc) (f : Fmt) : Bool :=
  let r := d.span f
  decide (0 ≤ r.1 ∧ r.2 < (binBytes : Nat))

/-- The range in whole grains: first grain and count (R27). -/
def TDesc.grains (d : TDesc) (f : Fmt) : Nat × Nat :=
  let r := d.span f
  let lo := r.1.toNat / 256
  (lo, r.2.toNat / 256 + 1 - lo)

/-- An index into the four dimensions. -/
structure Ix where
  i0 : Nat
  i1 : Nat
  i2 : Nat
  i3 : Nat
deriving DecidableEq, Repr

/-- The index of the `n`-th element, dimension 0 first. -/
def TDesc.ix (d : TDesc) (n : Nat) : Ix :=
  ⟨n % d.d0, n / d.d0 % d.d1, n / (d.d0 * d.d1) % d.d2, n / (d.d0 * d.d1 * d.d2)⟩

/-- The flattened row of an index (R55). -/
def TDesc.row (d : TDesc) (x : Ix) : Nat := x.i1 + d.d1 * (x.i2 + d.d2 * x.i3)

/-- The byte at which an element begins. -/
def TDesc.addr (d : TDesc) (f : Fmt) (x : Ix) : Nat :=
  ((d.offset : Int) + d.s1 * x.i1 + d.s2 * x.i2 + d.s3 * x.i3 + ((x.i0 * f.bits / 8 : Nat) : Int)).toNat

/-- The bytes an element touches. -/
def TDesc.touch (d : TDesc) (f : Fmt) (x : Ix) : List Nat :=
  (List.range (ceilDiv f.bits 8)).map (d.addr f x + ·)

/-- The bits of an element. -/
def State.rawElem (s : State) (b : Nat) (d : TDesc) (f : Fmt) (x : Ix) : Nat :=
  let v := s.binNat b (d.addr f x) (ceilDiv f.bits 8)
  if f = .int4 then (if x.i0 % 2 = 0 then v % 16 else v / 16) else v

/-- The value of an element before its scale. -/
def State.elem (s : State) (b : Nat) (d : TDesc) (f : Fmt) (x : Ix) : Fp := f.value d.zp (s.rawElem b d f x)

/-! ## Scale entries -/

/-- A descriptor has scale entries: it is integer, or ROWSCALE is 1 (R53). -/
def TDesc.scaled (d : TDesc) (f : Fmt) : Bool := f.isInt || d.rowscale

/-- The byte offset of the scale entry of a row (R54, R55). -/
def TDesc.entry (d : TDesc) (row : Nat) : Nat := d.scale * 256 + 16 * (if d.rowscale then row else 0)

/-- The rows of a descriptor's scale vector. -/
def TDesc.rows (d : TDesc) : Nat := if d.rowscale then d.d1 * d.d2 * d.d3 else 1

/-- S of the entry of a row, or 1 for a descriptor without entries. -/
def State.scaleOf (s : State) (b : Nat) (d : TDesc) (f : Fmt) (row : Nat) : Word :=
  if d.scaled f then BitVec.ofNat 32 (s.binNat b (d.entry row) 4) else fOne

/-- S is positive and finite (R54). -/
def scaleGood (w : Word) : Bool :=
  match fpOf w with
  | .fin neg m _ => !neg && decide (0 < m)
  | _ => false

/-- The entries a command reads lie in the Bin and hold good scales (R54). -/
def State.entriesGood (s : State) (b : Nat) (d : TDesc) (f : Fmt) (rows : Nat) : Bool :=
  if !d.scaled f then true
  else
    let n := if d.rowscale then rows else 1
    decide (d.scale * 256 + 16 * n ≤ binBytes) &&
    (List.range n).all (fun r => scaleGood (BitVec.ofNat 32 (s.binNat b (d.entry r) 4)))

/-- The bytes of the scale entries of some rows. -/
def TDesc.touchEntries (d : TDesc) (f : Fmt) (rows : Nat) : List Nat :=
  if !d.scaled f then []
  else (List.range (16 * (if d.rowscale then rows else 1))).map (d.scale * 256 + ·)

/-- The grains of a scale vector of some rows. -/
def TDesc.entryGrains (d : TDesc) (f : Fmt) (rows : Nat) : List (Nat × Nat) :=
  if !d.scaled f then [] else
  let n := 16 * (if d.rowscale then rows else 1)
  [(d.scale, ceilDiv n 256)]

/-- The real value of an element in FP32 with one rounding of the scale product (R53, R59). -/
def State.real (s : State) (b : Nat) (d : TDesc) (f : Fmt) (x : Ix) : Word :=
  let v := s.elem b d f x
  if d.scaled f then fMul (fp32Of v) (s.scaleOf b d f (d.row x)) else fp32Of v

/-! ## Outputs -/

/-- What a command writes: the bytes it has formed so far, and what its conversions count. -/
structure Out where
  buf : SMap (Option Byte)
  sat : Nat
  nan : Nat
  accSat : Nat
deriving DecidableEq, Repr

def Out.empty : Out := ⟨[], 0, 0, 0⟩

/-- A byte as the command sees it: formed already, or as it stands in the Bin. -/
def State.seeByte (s : State) (b : Nat) (o : Out) (off : Nat) : Byte :=
  match SMap.get o.buf off none with
  | some v => v
  | none => SMap.get s.bin.mem (binAddr b off) 0

/-- A little-endian number as the command sees it. -/
def State.seeNat (s : State) (b : Nat) (o : Out) (off n : Nat) : Nat :=
  leNat ((List.range n).map (fun i => s.seeByte b o (off + i)))

/-- Form bytes from an offset. -/
def Out.put (o : Out) (off : Nat) (bs : List Byte) : Out :=
  { o with buf := (bs.mapIdx (fun i v => (off + i, v))).foldl (fun m e => SMap.put m e.1 (some e.2) none) o.buf }

/-- The bytes formed, with their places. -/
def Out.writes (o : Out) : List (Nat × Byte) := o.buf.filterMap (fun e => e.2.map (fun v => (e.1, v)))

/-- Form the bits of an element; an INT4 element takes its nibble (R26). -/
def State.putElem (s : State) (b : Nat) (o : Out) (d : TDesc) (f : Fmt) (x : Ix) (raw : Nat) : Out :=
  let a := d.addr f x
  if f = .int4 then
    let old := (s.seeByte b o a).toNat
    let v := if x.i0 % 2 = 0 then old / 16 * 16 + raw % 16 else raw % 16 * 16 + old % 16
    o.put a [BitVec.ofNat 8 v]
  else o.put a (natLe (ceilDiv f.bits 8) raw)

/-- Update the statistics of a row's scale entry (steps 4 and 7 of R58): AMAX takes the maximum, a NaN propagating, and
SATCNT stops at 65,535 (R63). -/
def State.putStats (s : State) (b : Nat) (o : Out) (entry : Nat) (mag : Word) (sat : Bool) : Out :=
  let amax := fMax (BitVec.ofNat 32 (s.seeNat b o (entry + 8) 4)) mag
  let cnt := s.seeNat b o (entry + 12) 2
  (o.put (entry + 8) (natLe 4 amax.toNat)).put (entry + 12) (natLe 2 (min (cnt + b2n sat) 65535))

/-- Steps 4 to 7 of R58 for one element of a row: the value before the output scale, and whether its slot was saturated.  An element
that step 6 saturates and whose slot R56 saturated adds 1 to SATCNT, as one element of its row (DESIGN CHOICE, assumption 26). -/
def State.drainElem (s : State) (b : Nat) (o : Out) (d : TDesc) (f : Fmt) (x : Ix) (row : Nat) (t2 : Word)
    (slotSat : Bool) : Out :=
  let e := d.entry row
  let t3 := if d.scaled f then fMul t2 (BitVec.ofNat 32 (s.seeNat b o (e + 4) 4)) else t2
  let c := f.encode d.zp (fpOf t3)
  let o := if d.scaled f then s.putStats b o e (fAbs t2) (c.sat || slotSat) else o
  let o := s.putElem b o d f x c.raw
  { o with sat := o.sat + b2n c.sat, nan := o.nan + b2n c.nan, accSat := o.accSat + b2n slotSat }

/-- What the conversions of a command add to the counters of its partition (R51, R52, R56).  SAT_ELEMS counts the saturated elements of an
output without row statistics too (DESIGN CHOICE, assumption 26). -/
def State.countOut (s : State) (part : Nat) (o : Out) : State :=
  ((s.bumpObj .satElems (part + 1) o.sat).bumpObj .nanElems (part + 1) o.nan).bumpObj .accSat (part + 1) o.accSat

end Sys2Proof.Machine
end

