-- ==== Sys2Proof/Machine/Tensor.lean ====
section
/-!
DEFINITION. What every tract command shares at issue: the checks of its operands (R21, R26, R27, R54), what it uses (R30, R31,
R33), the checks of what it reads and the commit of what it writes (R46, R47, R98).
-/
namespace Sys2Proof.Machine

/-- What one member uses for a command: the grain ranges of its own Bin that it reads and writes, the hearths that the command
names, those it writes, and its DMA descriptors. -/
structure Uses where
  reads : List (Nat × Nat)
  writes : List (Nat × Nat)
  named : List Nat
  written : List Nat
  dma : Nat
deriving DecidableEq, Repr

def Uses.none : Uses := ⟨[], [], [], [], 0⟩

/-- A fault found on access: the member's core, the code of R46, the Bin offset of its grain, and whether it lies in the
member's own Bin. -/
structure Fail where
  member : Nat
  code : Nat
  wher : Nat
  own : Bool
deriving DecidableEq, Repr

/-- What the checks of one member answer: a fault of R46 with its WHERE, or what the command uses. -/
abbrev Checked := Except (Nat × Nat) Uses

/-! ## Operand checks -/

/-- A descriptor whose dimensions 2 and 3 are ignored (R463). -/
def TDesc.flat (d : TDesc) : TDesc := { d with d2 := 1, d3 := 1 }

/-- Read and check entry `i` of the operand table of core `c`: the constant area (R26), the format (R27), the zero point (R21)
and the range (R27), in two dimensions or in four. -/
def State.operand (s : State) (c i : Nat) (flat : Bool) : Except (Nat × Nat) (TDesc × Fmt) :=
  if 992 ≤ i then .error (3, i) else
  let d := if flat then (s.tdesc c i).flat else s.tdesc c i
  match Fmt.ofCode d.fmtc with
  | none => .error (2, i)
  | some f => if f.zpOk d.zp && d.inBin f then .ok (d, f) else .error (3, i)

/-- Refuse with a fault unless a condition holds. -/
def need (b : Bool) (code wher : Nat) : Except (Nat × Nat) Unit := if b then .ok () else .error (code, wher)

/-- The scale entries of `rows` rows of an operand are in the Bin and good (R54). -/
def State.needScales (s : State) (c : Nat) (d : TDesc) (f : Fmt) (rows : Nat) : Except (Nat × Nat) Unit :=
  need (s.entriesGood (d.bin c) d f rows) 3 d.index

/-- The range of an operand in the own Bin, for the scoreboard (R30). -/
def TDesc.ownRange (d : TDesc) (f : Fmt) : List (Nat × Nat) := if d.remote then [] else [d.grains f]

/-- The range of its scale entries in the own Bin. -/
def TDesc.ownEntries (d : TDesc) (f : Fmt) (rows : Nat) : List (Nat × Nat) := if d.remote then [] else d.entryGrains f rows

/-! ## Reading -/

/-- The requester that a core's units are (R319): the world and the quota of the core's partition, and the deadline of the
job's segment. -/
def State.coreReq (s : State) (c : Nat) (deadline : Option Nat) : Requester :=
  let p := s.partOf c
  ⟨0x04 + c, (p.map s.partSecure).getD false, p.getD 8, false, deadline⟩

/-- The deadline of the segment in which a job runs (R124): none before its first STILE has named one (DEDUCED, assumption 28). -/
def Job.segment (j : Job) : Option Nat := j.stage.map (fun g => j.release + g.1 * 1000 - g.2 * 1000)

/-- The deadline that a core's tier requests carry: its job's, at the lead of its furrow. -/
def State.deadlineOf (s : State) (c : Nat) : Option Nat :=
  ((s.core (s.furrowOf c).1).job).bind Job.segment

/-- The integer behind an exact integer value. -/
def Fp.int (x : Fp) : Int :=
  match x with
  | .fin n m e => finInt n m e 0
  | _ => 0

/-- The grains that byte runs touch, each with whether the runs cover it whole. -/
def grainsOfRuns (rs : List (Nat × Nat)) : List (Nat × Bool) :=
  ((rs.flatMap (fun r => (grainsOfRun r.1 r.2).map (·.1))).eraseDups).map (fun g =>
    (g, (List.range 256).all (fun i => rs.any (fun r => decide (r.1 ≤ g * 256 + i ∧ g * 256 + i < r.1 + r.2)))))

/-- The bytes of the first `n` elements of the row of an index. -/
def TDesc.rowRun (d : TDesc) (f : Fmt) (x : Ix) (n : Nat) : Nat × Nat :=
  let a := d.addr f x
  let last := d.addr f { x with i0 := x.i0 + (n - 1) } + ceilDiv f.bits 8
  if n = 0 then (a, 0) else (a, last - a)

/-- The bytes of the scale entries of the rows `rs`. -/
def TDesc.entryRuns (d : TDesc) (f : Fmt) (rs : List Nat) : List (Nat × Nat) :=
  if d.scaled f then rs.map (fun r => (d.entry r, 16)) else []

/-- The place of a Bin error, as FAULT_INFO reports it. -/
def BinErr.grainOf (e : BinErr) : Nat :=
  match e with
  | .poison g => g | .uncorrectable g => g | .sealMismatch g => g | _ => 0

/-- Check what member `c` reads from Bin `b` through one of its ports: READY and the world first, then every grain (R92, R93,
R98). -/
def State.tcRead (s : State) (c port b : Nat) (runs : List (Nat × Nat)) (obs : List Obs) : Option Fail × State :=
  let gs := grainsOfRuns runs
  if gs.isEmpty then (none, s) else
  let p := if b = c then port else 3
  match s.binAdmit (s.coreReq c none) false p b (gs.map (·.1)) with
  | (some e, s) =>
    (some ⟨c, e.code, ((gs.find? (fun g => !s.allowed (s.coreReq c none) false (b + 1) g.1)).map (·.1 * 256)).getD 0,
      decide (b = c)⟩, s)
  | (none, s) =>
    match s.checkGrains p b gs obs with
    | (some e, s) => (some ⟨c, e.code, e.grainOf * 256, decide (b = c)⟩, s)
    | (none, s) => (none, s)

/-- Check several reads in order; the first that fails ends the command. -/
def State.tcReads (s : State) (obs : List Obs) : List (Nat × Nat × Nat × List (Nat × Nat)) → Option Fail × State
  | [] => (none, s)
  | (c, port, b, runs) :: r =>
    match s.tcRead c port b runs obs with
    | (some e, s') => (some e, s')
    | (none, s') => s'.tcReads obs r

/-! ## Writing -/

/-- Check what member `c` formed for Bin `b`, before any of it is written: READY and the world, then the stored grains that it covers in
part (R47, R94, R98). -/
def State.tcCheckWrite (s : State) (c port b : Nat) (o : Out) (obs : List Obs) : Option Fail × State :=
  let ws := o.writes
  let gs := (ws.map (fun w => w.1 / 256)).eraseDups
  let p := if b = c then port else 3
  match s.binAdmit (s.coreReq c none) true p b gs with
  | (some e, s) =>
    (some ⟨c, e.code, ((gs.find? (fun g => !s.allowed (s.coreReq c none) true (b + 1) g)).map (· * 256)).getD 0,
      decide (b = c)⟩, s)
  | (none, s) =>
    match s.mergeCheck p b (grainsOf (ws.map (·.1))) obs with
    | (some e, s) => (some ⟨c, e.code, e.grainOf * 256, decide (b = c)⟩, s)
    | (none, s) => (none, s)

/-- Check the outputs of several members in order; the first that fails ends the command. -/
def State.tcCheckWrites (s : State) (obs : List Obs) : List (Nat × Nat × Nat × Out) → Option Fail × State
  | [] => (none, s)
  | (c, port, b, o) :: r =>
    match s.tcCheckWrite c port b o obs with
    | (some e, s') => (some e, s')
    | (none, s') => s'.tcCheckWrites obs r

/-- Store what member `c` formed in Bin `b`, with its seals (R47), and count its conversions. -/
def State.tcStore (s : State) (c b : Nat) (o : Out) : State :=
  (s.binStore b o.writes (grainsOf (o.writes.map (·.1)))).countOut ((s.partOf c).getD 0) o

/-- Commit the outputs of several members: all are checked first, so that a command which fails leaves no partial output (R46). -/
def State.tcCommits (s : State) (obs : List Obs) (l : List (Nat × Nat × Nat × Out)) : Option Fail × State :=
  match s.tcCheckWrites obs l with
  | (some e, s) => (some e, s)
  | (none, s) => (none, l.foldl (fun s x => s.tcStore x.1 x.2.2.1 x.2.2.2) s)

/-- Run a command whose members work side by side: every read is checked, then each member's output is formed from the state
after the checks and committed. -/
def State.runMembers (s : State) (lead width : Nat) (obs : List Obs)
    (reads : Nat → List (Nat × Nat × Nat × List (Nat × Nat))) (out : State → Nat → Option (Nat × Nat × Nat × Out)) :
    Option Fail × State :=
  let ms := (List.range width).map (lead + ·)
  match s.tcReads obs (ms.flatMap reads) with
  | (some e, s) => (some e, s)
  | (none, s) => s.tcCommits obs (ms.filterMap (out s))

/-- Set slots of a plane, and mark the plane as written (R75). -/
def State.setSlots (s : State) (c h : Nat) (vs : List (Nat × Nat × Word)) : State :=
  (vs.foldl (fun s v => s.setSlot c h v.1 v.2.1 v.2.2) s).markDirty c h

/-- The first `rows` rows of a plane after a command that works in it without the spec saying what it leaves: free values. -/
def State.freePlane (s : State) (c h rows : Nat) : State :=
  let base := s.free
  ({ s with free := base + 4096 }).setSlots c h
    ((List.range (64 * rows)).map (fun i => (i / 64, i % 64, Config.freeWord (base + i))))

/-- Count PE-products for TC_PERF1 (R48). -/
def State.countProducts (s : State) (c n : Nat) : State :=
  let t := SMap.get s.hearth.products c 0 + n
  let s : State := { s with hearth := { s.hearth with products := SMap.put s.hearth.products c t 0 } }
  s.setFld .tcPerfCount (c * 4 + 1) (t / 4096)

end Sys2Proof.Machine
end

