-- ==== Sys2Proof/Machine/Vec.lean ====
section
/-!
DEFINITION. What the VEC and SCALE commands check, use and compute (R29, R54, R55, R58 to R63, R465).
-/
namespace Sys2Proof.Machine

/-! ## VEC -/

/-- The operations with two sources, for which the constant of R29 may stand. -/
def vecBinary (op : TcOp) : Bool :=
  op == .vecAdd || op == .vecMul || op == .vecFma || op == .vecMax || op == .vecMin

/-- The operations along D0, with one result for each row. -/
def vecRows (op : TcOp) : Bool := op == .vecSum || op == .vecMaxD0

/-- IMM and the immediate index of PB (R29). -/
def vecImm (cmd : TcCmd) : Bool := bit cmd.pb 8
def vecIndex (cmd : TcCmd) : Nat := bits cmd.pb 7 0

/-- Elements that a VEC command writes: one for each row in a reduction along D0. -/
def vecOut (op : TcOp) (da : TDesc) (n : Nat) : Nat := if vecRows op then ceilDiv n da.d0 else n

/-- The byte offset of constant `i` (R26, R29). -/
def State.constAt (s : State) (c i : Nat) : Nat := s.optEntry c 992 + 4 * i

/-- The checks of one member of a VEC command (R26, R27, R29, R54, R465).  With IMM = 0 OPB names an entry for every operation, so one in
the constant area is a fault even where source 2 is not read; IMM = 1 with OPB not 0 is taken as an illegal command, the spec
giving it no effect (DESIGN CHOICE, assumption 24). -/
def State.vecUses (s : State) (op : TcOp) (c : Nat) (cmd : TcCmd) : Checked := do
  let n := cmd.pa
  need (if vecBinary op then !(vecImm cmd) || cmd.opb == 0 else !(vecImm cmd) && vecIndex cmd == 0) 1 0
  need ((Fmt.ofCode cmd.outfmt).isSome) 2 cmd.opc
  need (decide (cmd.opb < 992)) 3 cmd.opb
  let (da, fa) ← s.operand c cmd.opa false
  let (dc, fc) ← s.operand c cmd.opc false
  need (decide (dc.fmtc = cmd.outfmt)) 2 cmd.opc
  need (decide (n ≤ da.count)) 3 da.index
  let m := vecOut op da n
  need (decide (m ≤ dc.count)) 3 dc.index
  s.needScales c da fa (ceilDiv n da.d0)
  let cr := ceilDiv m dc.d0
  s.needScales c dc fc cr
  let third := if op = .vecFma then dc.ownRange fc ++ dc.ownEntries fc cr else []
  let r := da.ownRange fa ++ da.ownEntries fa (ceilDiv n da.d0) ++ third
  let w := dc.ownRange fc ++ dc.ownEntries fc cr
  if vecBinary op && !(vecImm cmd) then
    let (db, fb) ← s.operand c cmd.opb false
    need (decide (n ≤ db.count)) 3 db.index
    s.needScales c db fb (ceilDiv n db.d0)
    .ok ⟨r ++ db.ownRange fb ++ db.ownEntries fb (ceilDiv n db.d0), w, [], [], 0⟩
  else if vecBinary op then .ok ⟨r ++ [(s.constAt c (vecIndex cmd) / 256, 1)], w, [], [], 0⟩
  else .ok ⟨r, w, [], [], 0⟩

/-- The byte runs of the first `n` elements of a descriptor, row by row, and of their scale entries. -/
def TDesc.runsOf (d : TDesc) (f : Fmt) (n : Nat) : List (Nat × Nat) :=
  let rows := ceilDiv n d.d0
  (List.range rows).map (fun r => d.rowRun f (d.ix (r * d.d0)) (min d.d0 (n - r * d.d0))) ++
  d.entryRuns f (List.range (if d.rowscale then rows else min 1 rows))

/-- What one member of a VEC command reads. -/
def State.vecReads (s : State) (op : TcOp) (cmd : TcCmd) (c : Nat) : List (Nat × Nat × Nat × List (Nat × Nat)) :=
  let rd (i : Nat) : List (Nat × Nat × Nat × List (Nat × Nat)) :=
    match s.operand c i false with
    | .ok (d, f) => [(c, 1, d.bin c, d.runsOf f cmd.pa)]
    | .error _ => []
  rd cmd.opa ++
  (if vecBinary op then (if vecImm cmd then [(c, 1, c, [(s.constAt c (vecIndex cmd), 4)])] else rd cmd.opb) else []) ++
  (if op = .vecFma then rd cmd.opc else [])

/-- An element-wise operation in FP32 (R29, R60). -/
def vecElem (op : TcOp) (x y z : Word) : Word :=
  match op with
  | .vecAdd => fAdd x y
  | .vecMul => fMul x y
  | .vecFma => fFma x y z
  | .vecMax => fMax x y
  | .vecMin => fMin x y
  | .vecExp => expUnit x
  | .vecLog => logUnit x
  | .vecRecip => recip x
  | .vecSigmoid => sigmoidUnit x
  | .vecTanh => tanhUnit x
  | .vecSilu => siluUnit x
  | .vecGelu => geluUnit x
  | _ => x

/-- One level of a pairwise tree: neighbours are paired, and an odd last element goes up as it is (DESIGN CHOICE, assumption 27). -/
def pairUp : List Word → List Word
  | a :: b :: r => fAdd a b :: pairUp r
  | l => l

/-- The sum of one group of at most 64 elements by a pairwise tree of six levels (R60). -/
def treeSum (l : List Word) : Word :=
  ((List.range 6).foldl (fun l _ => pairUp l) l).headD fZero

/-- The sum along D0 (R60): the groups of 64 by their trees, then the group sums in ascending order. -/
def rowSum (l : List Word) : Word :=
  match (List.range (ceilDiv l.length 64)).map (fun g => treeSum ((l.drop (64 * g)).take 64)) with
  | [] => fZero
  | a :: r => r.foldl fAdd a

/-- The results of a VEC command, in the order of the destination (R60). -/
def State.vecResults (s : State) (op : TcOp) (cmd : TcCmd) (c : Nat) (da : TDesc) (fa : Fmt) : List Word :=
  let n := cmd.pa
  let src (i k : Nat) : Word :=
    match s.operand c i false with
    | .ok (d, f) => s.real (d.bin c) d f (d.ix k)
    | .error _ => fZero
  if vecRows op then
    (List.range (ceilDiv n da.d0)).map (fun r =>
      let l := (List.range (min da.d0 (n - r * da.d0))).map (fun i => s.real (da.bin c) da fa (da.ix (r * da.d0 + i)))
      if op = .vecSum then rowSum l
      else match l with | [] => fZero | a :: t => t.foldl fMax (fMax a a))
  else
    (List.range n).map (fun k =>
      let x := s.real (da.bin c) da fa (da.ix k)
      let y := if !vecBinary op then fZero
        else if vecImm cmd then BitVec.ofNat 32 (s.binNat c (s.constAt c (vecIndex cmd)) 4) else src cmd.opb k
      vecElem op x y (if op = .vecFma then src cmd.opc k else fZero))

/-- Encode one result into an output: by the drain steps of R58, or for a copy by steps 5 to 7 alone (R59). -/
def State.vecPut (s : State) (op : TcOp) (b : Nat) (o : Out) (d : TDesc) (f : Fmt) (k : Nat) (v : Word) : Out :=
  let x := d.ix k
  let row := if d.rowscale then d.row x else 0
  let e := d.entry row
  let amax := BitVec.ofNat 32 (s.seeNat b o (e + 8) 4)
  let o := s.drainElem b o d f x row v false
  if op = .vecCopy ∧ d.scaled f then o.put (e + 8) (natLe 4 amax.toNat) else o

/-- What one member of a VEC command writes. -/
def State.vecOutOf (s : State) (op : TcOp) (cmd : TcCmd) (c : Nat) : Option (Nat × Nat × Nat × Out) :=
  match s.operand c cmd.opa false, s.operand c cmd.opc false with
  | .ok (da, fa), .ok (dc, fc) =>
    let rs := s.vecResults op cmd c da fa
    some (c, 1, dc.bin c,
      (rs.zipIdx).foldl (fun o e => s.vecPut op (dc.bin c) o dc fc e.2 e.1) Out.empty)
  | _, _ => none

/-- Run a VEC command. -/
def State.vecRun (s : State) (op : TcOp) (lead width : Nat) (cmd : TcCmd) (obs : List Obs) : Option Fail × State :=
  s.runMembers lead width obs (s.vecReads op cmd) (fun s c => s.vecOutOf op cmd c)

/-! ## SCALE -/

/-- The formats that SCALE 0x00 reads (R61). -/
def scaleSource (f : Fmt) : Bool := f == .fp32 || f == .bf16 || f == .fp16 || f == .int32

/-- The scale vector that OPC's SCALE field locates, for `rows` entries: its byte offset (R61). -/
def TDesc.vector (d : TDesc) : Nat := d.scale * 256

/-- The checks of one member of a SCALE command (R61, R62). -/
def State.scaleUses (s : State) (op : TcOp) (c : Nat) (cmd : TcCmd) : Checked := do
  let rows := cmd.pa
  need (decide (cmd.opa < 992)) 3 cmd.opa
  let (dc, _) ← s.operand c cmd.opc false
  need (op == .scaleLoad || ((Fmt.ofCode cmd.outfmt).bind Fmt.qmax).isSome) 2 cmd.opc
  need (decide (dc.vector + 16 * rows ≤ binBytes)) 3 dc.index
  let vec : List (Nat × Nat) := if dc.remote ∨ rows = 0 then [] else [(dc.scale, ceilDiv (16 * rows) 256)]
  if op = .scaleAdapt then
    need ((List.range rows).all (fun r => scaleGood (BitVec.ofNat 32 (s.binNat (dc.bin c) (dc.vector + 16 * r) 4)))) 3 dc.index
    .ok ⟨vec, vec, [], [], 0⟩
  else
    let (da, fa) ← s.operand c cmd.opa false
    if op = .scaleLoad then
      need (fa == .fp32) 2 da.index
      need (decide (rows ≤ da.count)) 3 da.index
      s.needScales c da fa (ceilDiv rows da.d0)
      .ok ⟨da.ownRange fa ++ da.ownEntries fa (ceilDiv rows da.d0), vec, [], [], 0⟩
    else
      need (scaleSource fa) 2 da.index
      need (decide (rows ≤ da.d1 * da.d2 * da.d3)) 3 da.index
      s.needScales c da fa rows
      .ok ⟨da.ownRange fa ++ da.ownEntries fa rows, vec, [], [], 0⟩

/-- What one member of a SCALE command reads. -/
def State.scaleReads (s : State) (op : TcOp) (cmd : TcCmd) (c : Nat) : List (Nat × Nat × Nat × List (Nat × Nat)) :=
  match s.operand c cmd.opa false, s.operand c cmd.opc false with
  | .ok (da, fa), .ok (dc, _) =>
    if op = .scaleAdapt then [(c, 1, dc.bin c, [(dc.vector, 16 * cmd.pa)])]
    else [(c, 1, da.bin c, da.runsOf fa (if op = .scaleLoad then cmd.pa else cmd.pa * da.d0))]
  | .error _, .ok (dc, _) => if op = .scaleAdapt then [(c, 1, dc.bin c, [(dc.vector, 16 * cmd.pa)])] else []
  | _, _ => []

/-- SCALE_MIN and SCALE_MAX of a partition. -/
def State.scaleMin (s : State) (p : Nat) : Word := BitVec.ofNat 32 (s.obj .scaleMin (p + 1))
def State.scaleMax (s : State) (p : Nat) : Word := BitVec.ofNat 32 (s.obj .scaleMax (p + 1))

/-- A scale clamped to the range of its partition, and whether it was clamped. -/
def State.clampScale (s : State) (p : Nat) (x : Word) : Word × Bool :=
  if fLt (s.scaleMax p) x || fIsNan x then (s.scaleMax p, true) else if fLt x (s.scaleMin p) then (s.scaleMin p, true) else (x, false)

/-- The scale entry of a new scale, its statistics cleared. -/
def newEntry (sc : Word) : List Byte := natLe 4 sc.toNat ++ natLe 4 (fDiv fOne sc).toNat ++ natLe 8 0

/-- One row of SCALE 0x00 (R61): the entry, whether it was clamped, and the NaNs ignored. -/
def State.absMaxRow (s : State) (p qmax : Nat) (row : List Word) : List Byte × Bool × Nat :=
  let amax := row.foldl (fun a x => if fIsNan x then a else fMax a (fAbs x)) fZero
  let c := if amax = fZero then (s.scaleMin p, false) else s.clampScale p (fDiv amax (fOfInt qmax))
  (newEntry c.1, c.2, (row.filter fIsNan).length)

/-- An entry as SCALE 0x02 adapts it: its bytes, and what GROW, SHRINK and CLAMP count (R62). -/
structure Adapted where
  bytes : List Byte
  grow : Nat
  shrink : Nat
  clamp : Nat

/-- One row of SCALE 0x02 (R62). -/
def State.adaptRow (s : State) (p qmax : Nat) (e : List Byte) : Adapted :=
  let w (i n : Nat) : Nat := leNat ((e.drop i).take n)
  let sc := BitVec.ofNat 32 (w 0 4)
  let inv := BitVec.ofNat 32 (w 4 4)
  let amax := BitVec.ofNat 32 (w 8 4)
  let low := w 14 1
  let out (a b : Word) (l : Nat) : List Byte :=
    natLe 4 a.toNat ++ natLe 4 b.toNat ++ natLe 4 0 ++ natLe 2 0 ++ natLe 1 l ++ natLe 1 (w 15 1)
  if s.obj .adaptEn (p + 1) = 0 then ⟨out sc inv 0, 0, 0, 0⟩ else
  let top := (fpOf sc).mul (fpInt qmax)
  let big := match fpOf amax with | .nan => true | .inf _ => true | _ => false
  let tooBig := decide (0 < w 12 2) || Fp.lt top (fpOf amax)
  let clampTo (a b : Word) (l : Nat) (g h : Nat) : Adapted :=
    let c := s.clampScale p a
    ⟨out c.1 (if c.2 then fDiv fOne c.1 else b) l, g, h, b2n c.2⟩
  if big then
    -- k is large: S grows beyond SCALE_MAX and is clamped to it
    ⟨out (s.scaleMax p) (fDiv fOne (s.scaleMax p)) 0, 1, 0, 1⟩
  else if tooBig then
    let k := max 1 (ceilLog2Ratio (fpOf amax) top)
    clampTo (fScale2 sc k) (fScale2 inv (-k)) 0 1 0
  else if Fp.lt (fpOf amax) (top.mul (.fin false 1 (-2))) then
    let l := min (low + 1) 255
    if min (s.obj .holdSteps (p + 1)) 255 ≤ l then clampTo (fScale2 sc (-1)) (fScale2 inv 1) 0 0 1
    else clampTo sc inv l 0 0
  else clampTo sc inv 0 0 0

/-- What one member of a SCALE command forms, and what it counts: GROW, SHRINK, CLAMP and the NaNs. -/
def State.scaleForm (s : State) (op : TcOp) (cmd : TcCmd) (c : Nat) : Option ((Nat × Nat × Nat × Out) × Nat × Nat × Nat × Nat) :=
  let p := (s.partOf c).getD 0
  let q := ((Fmt.ofCode cmd.outfmt).bind Fmt.qmax).getD 1
  match s.operand c cmd.opc false with
  | .error _ => none
  | .ok (dc, _) =>
    if op = .scaleAdapt then
      let as := (List.range cmd.pa).map (fun r => s.adaptRow p q (s.binRead (dc.bin c) (dc.vector + 16 * r) 16))
      some ((c, 1, dc.bin c, Out.empty.put dc.vector (as.flatMap (·.bytes))), (as.map (·.grow)).sum, (as.map (·.shrink)).sum,
        (as.map (·.clamp)).sum, 0)
    else match s.operand c cmd.opa false with
      | .error _ => none
      | .ok (da, fa) =>
        if op = .scaleLoad then
          let vs := (List.range cmd.pa).map (fun k => s.real (da.bin c) da fa (da.ix k))
          some ((c, 1, dc.bin c, Out.empty.put dc.vector (vs.flatMap newEntry)), 0, 0, 0, 0)
        else
          let rs := (List.range cmd.pa).map (fun r =>
            s.absMaxRow p q ((List.range da.d0).map (fun i => s.real (da.bin c) da fa (da.ix (r * da.d0 + i)))))
          some ((c, 1, dc.bin c, Out.empty.put dc.vector (rs.flatMap (·.1))), 0, 0, (rs.filter (·.2.1)).length,
            (rs.map (·.2.2)).sum)

/-- Run a SCALE command. -/
def State.scaleRun (s : State) (op : TcOp) (lead width : Nat) (cmd : TcCmd) (obs : List Obs) : Option Fail × State :=
  let r := s.runMembers lead width obs (s.scaleReads op cmd) (fun s c => (s.scaleForm op cmd c).map (·.1))
  match r with
  | (some e, s') => (some e, s')
  | (none, s') =>
    (none, (List.range width).foldl (fun t i =>
      match s.scaleForm op cmd (lead + i) with
      | none => t
      | some f =>
        let p := (s.partOf (lead + i)).getD 0 + 1
        (((t.bumpObj .grow p f.2.1).bumpObj .shrink p f.2.2.1).bumpObj .clamp p f.2.2.2.1).bumpObj .nanElems p f.2.2.2.2) s')

end Sys2Proof.Machine
end

