-- ==== Sys2Proof/Machine/Attn.lean ====
section
/-!
DEFINITION. What an ATTN command checks, uses and computes (R149 to R156, R158, R159, R161, R170).
-/
namespace Sys2Proof.Machine

/-! ## Parameters, page lists and slabs -/

/-- The class parameters of ATTN (R149). -/
structure AttnPar where
  stats : Bool
  g : Nat
  dh : Nat
  causal : Bool
  qpos : Nat
  imm : Nat
  statIx : Nat
deriving DecidableEq, Repr

def attnPar (cmd : TcCmd) : AttnPar :=
  ⟨bit cmd.pa 24, bits cmd.pa 23 20 + 1, bits cmd.pa 19 18, bit cmd.pa 17, bits cmd.pa 16 0, bits cmd.pb 17 10, bits cmd.pb 9 0⟩

/-- The head dimension d, and its 64-element blocks. -/
def AttnPar.d (p : AttnPar) : Nat := 64 * 2 ^ p.dh
def AttnPar.nb (p : AttnPar) : Nat := 2 ^ p.dh

/-- A page-list descriptor (R151): where its entries lie, how many there are, the slab's offset and the KV format. -/
structure PageList where
  bin : Nat
  offset : Nat
  count : Nat
  slab : Nat
  int4 : Bool
deriving DecidableEq, Repr

/-- Read and check the page list at entry `i` of the operand table of core `c` (R150, R151). -/
def State.pageList (s : State) (c i : Nat) : Except (Nat × Nat) PageList := do
  need (decide (i < 992)) 3 i
  let d := s.tdesc c i
  let w (k : Nat) : Nat := s.binNat c (s.optEntry c i + 4 * k) 4
  need (decide (d.fmtc = 8)) 2 i
  let n := bits (w 2) 15 0
  need (decide (1 ≤ n ∧ n ≤ 512 ∧ bits (w 2) 31 16 = 0 ∧ w 3 = 0 ∧ w 4 % 4096 = 0 ∧ w 5 < 2 ∧ w 6 = 0)) 3 i
  need (decide (d.offset + 8 * n ≤ binBytes)) 3 i
  .ok ⟨d.bin c, d.offset, n, w 4, w 5 == 1⟩

/-- Entry `k` of a page list. -/
def State.listEntry (s : State) (l : PageList) (k : Nat) : Nat := s.binNat l.bin (l.offset + 8 * k) 8

/-- The bytes of the K or V data of a slab, and of its end (R161). -/
def kvData (int4 : Bool) (d : Nat) : Nat := if int4 then 128 * d else 256 * d
def kvEnd (int4 : Bool) (d : Nat) : Nat := 2 * kvData int4 d + 16 * d

/-- What one block of 64 tokens of a slab holds: its tokens, and the bytes of K, V and their scales. -/
structure KvBlock where
  n : Nat
  pos : Nat
  int4 : Bool
  d : Nat
  k : List Byte
  v : List Byte
  ks : List Byte
  vs : List Byte

/-- Element `i` of token `t` in K or V data. -/
def kvElem (int4 : Bool) (d : Nat) (bs : List Byte) (t i : Nat) : Int :=
  if int4 then
    let b := (bs.getD ((t * d + i) / 2) 0).toNat
    signed 4 (if (t * d + i) % 2 = 0 then b % 16 else b / 16)
  else signed 8 (bs.getD (t * d + i) 0).toNat

/-- Block scale `b` of token `t`, exactly in FP32 (R152). -/
def kvScale (d : Nat) (bs : List Byte) (t b : Nat) : Word :=
  fp32Of (fmtFP16.decode (leNat ((bs.drop (2 * (t * (d / 64) + b))).take 2)))

/-- The runs of the Unified Range that block `j` of an entry fetches, for the tokens below COUNT (R155, R161): K, V, and their scales. -/
def blockRuns (l : PageList) (d e j : Nat) : List (Nat × Nat) :=
  let n := min 64 (pgCount e - 64 * j)
  let base := pgBase e * 4096 + l.slab
  let row := if l.int4 then d / 2 else d
  let sz := kvData l.int4 d
  let sc := d / 64 * 2
  [(base + 64 * j * row, n * row), (base + sz + 64 * j * row, n * row), (base + 2 * sz + 64 * j * sc, n * sc),
    (base + 2 * sz + 8 * d + 64 * j * sc, n * sc)]

/-- Read several runs of the Unified Range in order: the bytes of each, or what the first that fails met. -/
def State.urReadRuns (s : State) (q : Requester) (obs : List Obs) : List (Nat × Nat) → Except UrErr (List (List Byte)) × State
  | [] => (.ok [], s)
  | r :: rs =>
    match s.urRead q r.1 r.2 obs with
    | (.error x, s) => (.error x, s)
    | (.ok b, s) =>
      match s.urReadRuns q obs rs with
      | (.error x, s) => (.error x, s)
      | (.ok bs, s) => (.ok (b :: bs), s)

/-- Fetch block `j` of an entry through the DMA engine (R155): the tokens below COUNT, and what it met. -/
def State.fetchBlock (s : State) (q : Requester) (l : PageList) (d e j : Nat) (obs : List Obs) :
    Except UrErr KvBlock × State :=
  match s.urReadRuns q obs (blockRuns l d e j) with
  | (.error x, s) => (.error x, s)
  | (.ok bs, s) =>
    (.ok ⟨min 64 (pgCount e - 64 * j), 256 * pgPidx e + 64 * j, l.int4, d, bs.getD 0 [], bs.getD 1 [], bs.getD 2 [], bs.getD 3 []⟩, s)

/-- A page read of an entry failed (R170): the record in the slot that the entry names is marked when it is an open KV page
record of the same BASE; otherwise the failure is logged. -/
def State.markPage (s : State) (e : Nat) : State :=
  let slot := pgRecord e
  let r := s.recAt slot
  if recType r = 2 ∧ recState r ≠ 0 ∧ pgBase (pageWord r) = pgBase e then
    match s.setPageCount (recOwner r) slot 1 (pgCount (pageWord r)) with
    | (none, s) => s.setRec slot (setRecState (s.recAt slot) 3)
    | (some _, s) => s
  else s.logIt .ledger 0x11 4 slot (pgBase e) 0

/-! ## Scores -/

/-- The query rows as the command reads them: their elements and scale. -/
structure Query where
  row : Nat
  q : List Int
  sq : Word

/-- One score (R152): minus infinity for a token beyond COUNT or hidden by the causal mask. -/
def score (p : AttnPar) (c : Word) (x : Query) (b : KvBlock) (t : Nat) : Word :=
  if b.n ≤ t ∨ (p.causal = true ∧ p.qpos + x.row / p.g < b.pos + t) then fNegInf
  else
    let sum := (List.range p.nb).foldl (fun acc nb =>
      let dot := ((List.range 64).map (fun i => x.q.getD (64 * nb + i) 0 * kvElem b.int4 b.d b.k t (64 * nb + i))).sum
      fAdd acc (fMul (fMul x.sq (kvScale b.d b.ks t nb)) (fOfInt dot))) fZero
    fMul c sum

/-- The running values of a row (R152), and what its conversions to UINT8 count (R51, R52): the saturated elements and the NaNs. -/
structure AttnRow where
  m : Word
  l : Word
  o : List Word
  sat : Nat
  nan : Nat

def AttnRow.start (d : Nat) : AttnRow := ⟨fNegInf, fZero, List.replicate d fZero, 0, 0⟩

/-- RNA to UINT8 of a weighted probability (R152). -/
def toU8 (x : Word) : Conv := Fmt.uint8.encode 0 (fpOf x)

/-- One row steps over one block (R152). -/
def attnStep (p : AttnPar) (c : Word) (x : Query) (b : KvBlock) (r : AttnRow) : AttnRow :=
  let s := (List.range 64).map (score p c x b)
  let mn := s.foldl fMax r.m
  if mn = fNegInf then r else
  let a := if r.m = fNegInf then fZero else expUnit (fSub r.m mn)
  let ps := s.map (fun v => expUnit (fSub v mn))
  (List.range p.nb).foldl (fun (z : AttnRow) nb =>
    let old := (r.o.drop (64 * nb)).take 64
    let w := (List.range 64).map (fun t => if t < b.n then fMul (ps.getD t fZero) (kvScale b.d b.vs t nb) else fZero)
    let sp := fDiv (w.foldl fMax (w.headD fZero)) (fOfInt 255)
    if sp = fZero then { z with o := z.o ++ old.map (fun v => fMul v a) }
    else
      let inv := recip sp
      let us := w.map (fun v => toU8 (fMul v inv))
      let dot (i : Nat) : Int := ((List.range b.n).map (fun t =>
        (((us.map (·.raw)).getD t 0 : Nat) : Int) * kvElem b.int4 b.d b.v t (64 * nb + i))).sum
      { z with
        o := z.o ++ old.mapIdx (fun i v => fAdd (fMul v a) (fMul sp (fOfInt (dot i))))
        sat := z.sat + us.countP (·.sat)
        nan := z.nan + us.countP (·.nan) }) ⟨mn, fAdd (fMul r.l a) (treeSum ps), [], r.sat, r.nan⟩

/-- Combine the partial results of two members (R156): `x` comes in, `y` is the receiver's own. -/
def attnCombine (x y : AttnRow) : AttnRow :=
  let mn := fMax x.m y.m
  if mn = fNegInf then { y with sat := x.sat + y.sat, nan := x.nan + y.nan } else
  let f1 := expUnit (fSub x.m mn)
  let f2 := expUnit (fSub y.m mn)
  ⟨mn, fAdd (fMul x.l f1) (fMul y.l f2),
    (x.o.zip y.o).map (fun ab => fAdd (fMul ab.1 f1) (fMul ab.2 f2)), x.sat + y.sat, x.nan + y.nan⟩

/-! ## Walking the page list -/

/-- The blocks of an entry that a tile does not skip (R152), and how many it skips. -/
def tileBlocks (p : AttnPar) (lastRow e : Nat) : List Nat × Nat :=
  let all := List.range (ceilDiv (pgCount e) 64)
  let kept := all.filter (fun j => !(p.causal && decide (p.qpos + lastRow / p.g < 256 * pgPidx e + 64 * j)))
  (kept, all.length - kept.length)

/-- Check an entry when it is read (R170): a COUNT above 256 or a slab beyond the Unified Range is a descriptor fault, and a
quarantined entry fails at once. -/
def State.entryFault (s : State) (l : PageList) (d i e : Nat) : Option (Nat × Nat) :=
  if 256 < pgCount e ∨ s.urPages * 4096 < pgBase e * 4096 + l.slab + kvEnd l.int4 d then some (3, i)
  else if pgQ e = 1 then some (5, 0)
  else none

/-- What a walk over blocks carries: the state, a failure, and what the rows have so far. -/
structure Walk (α : Type) where
  s : State
  fail : Option Fail
  acc : α
  staged : List (List Byte)
  skipped : Nat

/-- Walk the blocks of one entry for a tile. -/
def walkEntry {α : Type} (q : Requester) (c opb : Nat) (p : AttnPar) (l : PageList) (lastRow : Nat) (obs : List Obs)
    (f : α → KvBlock → Nat → α) (w : Walk α) (k e : Nat) : Walk α :=
  if w.fail.isSome ∨ pgCount e = 0 then w else
  match w.s.entryFault l p.d opb e with
  | some x => { w with fail := some ⟨c, x.1, x.2, false⟩ }
  | none =>
    let bl := tileBlocks p lastRow e
    let w := { w with skipped := w.skipped + bl.2 }
    bl.1.foldl (fun w j =>
      if w.fail.isSome then w else
      match w.s.fetchBlock q l p.d e j obs with
      | (.error x, s) =>
        { w with s := (match x with | .data _ _ => s.markPage e | _ => s), fail := some ⟨c, x.code, 0, false⟩ }
      | (.ok b, s) => { w with s := s, acc := f w.acc b k, staged := w.staged ++ [b.k ++ b.v ++ b.ks ++ b.vs] }) w

/-- Walk the entries of a member's share of a page list for a tile: entries `first`, `first + step` and so on (R156). -/
def walkList {α : Type} (q : Requester) (c opb first step : Nat) (p : AttnPar) (l : PageList) (lastRow : Nat)
    (obs : List Obs) (f : α → KvBlock → Nat → α) (w : Walk α) : Walk α :=
  ((List.range l.count).filter (fun k => decide (first ≤ k ∧ (k - first) % step = 0))).foldl (fun w k =>
    walkEntry q c opb p l lastRow obs f w k (w.s.listEntry l k)) w

/-- The grains that an ATTN stages, each padded to its 256 bytes (R155). -/
def stagedGrains (blocks : List (List Byte)) : List (List Byte) :=
  blocks.flatMap (fun b => (List.range (ceilDiv b.length 256)).map (fun i =>
    ((b.drop (256 * i)).take 256 ++ List.replicate 256 0).take 256))

/-- The staging writes of a core are Bin writes (R98, R155): READY and the world of the whole range are checked before any lands. -/
def State.admitStaged (s : State) (c : Nat) (blocks : List (List Byte)) : Option Fail × State :=
  let base := s.fld .tcAttnAttnbase c * 512
  if (stagedGrains blocks).isEmpty then (none, s) else
  match s.binAdmit (s.coreReq c none) true 2 c ((List.range 512).map (base + ·)) with
  | (some e, s) => (some ⟨c, e.code, base * 256, true⟩, s)
  | (none, s) => (none, s)

/-- The staging range after an ATTN (R155): each of its 512 grains holds a grain of what the command staged, or what it held
before; which, nothing says.  Every grain carries a valid seal. -/
def State.leaveStaged (s : State) (c : Nat) (blocks : List (List Byte)) : State :=
  let grains := stagedGrains blocks
  if grains.isEmpty then s else
  let base := s.fld .tcAttnAttnbase c * 512
  (List.range 512).foldl (fun s g =>
    let f := s.fresh
    let pick := Config.freeNat f.1 % (grains.length + 1)
    match grains[pick]? with
    | some b => f.2.binStore c (placed ((base + g) * 256) b) [(base + g, true)]
    | none => f.2) s

/-- The staging writes of several cores: all are admitted before any lands. -/
def State.stageAll (s : State) : List (Nat × List (List Byte)) → Option Fail × State
  | [] => (none, s)
  | (c, bs) :: r =>
    match s.admitStaged c bs with
    | (some e, s) => (some e, s)
    | (none, s) =>
      match s.stageAll r with
      | (some e, s) => (some e, s)
      | (none, s) => (none, s.leaveStaged c bs)

/-- What the UINT8 conversions of an ATTN add to the counters of a partition (R51, R52). -/
def State.countRows (s : State) (part : Nat) (rs : List AttnRow) : State :=
  (s.bumpObj .satElems (part + 1) (rs.map (·.sat)).sum).bumpObj .nanElems (part + 1) (rs.map (·.nan)).sum

/-! ## The forward pass -/

/-- The query rows of a tile from the lead's OPA (R38, R150). -/
def State.tileQueries (s : State) (lead opa : Nat) (d t rows : Nat) : List Query :=
  match s.operand lead opa false with
  | .error _ => []
  | .ok (da, fa) =>
    ((List.range 64).map (64 * t + ·)).filterMap (fun r =>
      if r < rows then
        some ⟨r, (List.range d).map (fun i => (s.elem (da.bin lead) da fa (da.ix (r * d + i))).int),
          s.scaleOf (da.bin lead) da fa r⟩
      else none)

/-- Constant `i` of a core's constant area (R29). -/
def State.attnConst (s : State) (c i : Nat) : Word := BitVec.ofNat 32 (s.binNat c (s.constAt c i) 4)

/-- The checks that both passes make (R149, R150, R154). -/
def State.attnCommon (s : State) (lead c : Nat) (cmd : TcCmd) : Except (Nat × Nat) (TDesc × Fmt × PageList) := do
  let p := attnPar cmd
  need (cmd.fin && !cmd.acc && decide (bits cmd.pa 31 25 = 0 ∧ p.dh ≠ 3 ∧ bits cmd.pb 19 18 = 0)) 1 0
  let split := s.fld .hearthCfgSplit c
  need (!(decide (split = 0 ∧ cmd.hdst = cmd.haux)) && !(decide (split = 1 ∧ cmd.hdst ≠ cmd.haux))) 1 0
  let (da, fa) ← s.operand lead cmd.opa false
  need (fa == .int8) 2 cmd.opa
  need (decide (da.zp = 0 ∧ da.d0 = p.d ∧ da.d2 = 1 ∧ da.d3 = 1) && da.rowscale) 3 cmd.opa
  let l ← s.pageList c cmd.opb
  need (decide (s.fld .tcAttnAttnbase c < 192)) 3 cmd.opb
  .ok (da, fa, l)

/-- The staging range in grains. -/
def State.stagingRange (s : State) (c : Nat) : Nat × Nat := (s.fld .tcAttnAttnbase c * 512, 512)

/-- The hearths that ATTN names. -/
def attnHearths (cmd : TcCmd) : List Nat := if cmd.hdst = cmd.haux then [cmd.hdst] else [cmd.hdst, cmd.haux]

/-- A tensor of exactly `rows` rows of `d0` elements in one of some formats (R150). -/
def State.matrix (s : State) (c i d0 rows : Nat) (fs : List Fmt) : Except (Nat × Nat) (TDesc × Fmt) := do
  let (t, f) ← s.operand c i false
  need (fs.contains f) 2 i
  need (decide (t.d0 = d0 ∧ t.d1 * t.d2 * t.d3 = rows)) 3 i
  .ok (t, f)

/-- The statistics tensor (R150): FP32 with D0 = 2 and D1 = R.  Its index is a field of the command, so that one in the constant area is a
fault whether or not STATS_EN is 1 (R26). -/
def State.statsTensor (s : State) (c rows : Nat) (p : AttnPar) : Except (Nat × Nat) (Option (TDesc × Fmt)) := do
  need (decide (p.statIx < 992)) 3 p.statIx
  if p.stats then
    let (t, f) ← s.matrix c p.statIx 2 rows [.fp32]
    need (decide (t.d1 = rows)) 3 p.statIx
    .ok (some (t, f))
  else .ok none

/-- The checks of one member of a forward ATTN (R150, R154 to R156, R465): only the last member writes. -/
def State.attnUses (s : State) (lead width i : Nat) (cmd : TcCmd) : Checked := do
  let c := lead + i
  let p := attnPar cmd
  let (da, fa, l) ← s.attnCommon lead c cmd
  let rows := da.d1
  if i = 0 then s.needScales lead da fa rows
  let ownList : List (Nat × Nat) := if l.bin = c then grainsOfRun l.offset (8 * l.count) |>.map (fun g => (g.1, 1)) else []
  let aR := if i = 0 then da.ownRange fa ++ da.ownEntries fa rows else []
  let base : Uses := ⟨aR ++ ownList ++ [(s.constAt c p.imm / 256, 1)], [s.stagingRange c], attnHearths cmd, attnHearths cmd, 0⟩
  if i + 1 = width then
    need ((Fmt.ofCode cmd.outfmt).isSome) 2 cmd.opc
    let (dc, fc) ← s.matrix c cmd.opc p.d rows [.int8, .bf16, .fp16, .fp32]
    need (decide (dc.fmtc = cmd.outfmt)) 2 cmd.opc
    s.needScales c dc fc rows
    let w := dc.ownRange fc ++ dc.ownEntries fc rows
    let st ← s.statsTensor c rows p
    .ok { base with writes := base.writes ++ w ++ (match st with | some t => t.1.ownRange t.2 | none => []) }
  else
    need (decide (p.statIx < 992)) 3 p.statIx
    .ok base

/-- What a member of an ATTN reads from Bins. -/
def State.attnReads (s : State) (lead width : Nat) (cmd : TcCmd) (c : Nat) : List (Nat × Nat × Nat × List (Nat × Nat)) :=
  let p := attnPar cmd
  let a := match s.operand lead cmd.opa false with
    | .ok (da, fa) => if c = lead then [(c, 0, da.bin c, da.runsOf fa (da.d0 * da.d1))] else []
    | .error _ => []
  let l := match s.pageList c cmd.opb with
    | .ok l => [(c, 0, l.bin, [(l.offset, 8 * l.count)])]
    | .error _ => []
  if lead + width ≤ c then [] else a ++ l ++ [(c, 1, c, [(s.constAt c p.imm, 4)])]

/-- One tile of a member over its own entries (R152, R156). -/
def attnTile (q : Requester) (c first step : Nat) (cmd : TcCmd) (l : PageList) (qs : List Query) (obs : List Obs)
    (w : Walk (List AttnRow)) : Walk (List AttnRow) :=
  let p := attnPar cmd
  let k := w.s.attnConst c p.imm
  let lastRow := (qs.getLast?.map (·.row)).getD 0
  walkList q c cmd.opb first step p l lastRow obs (fun rs b _ =>
    (qs.zip rs).map (fun xr => attnStep p k xr.1 b xr.2)) { w with acc := qs.map (fun _ => AttnRow.start p.d) }

/-- The finish of a tile (R153): the rows into OPC, and the statistics. -/
def State.attnFinish (s : State) (c : Nat) (cmd : TcCmd) (qs : List Query) (rs : List AttnRow) (os : Out × Out) : Out × Out :=
  let p := attnPar cmd
  match s.operand c cmd.opc false with
  | .error _ => os
  | .ok (dc, fc) =>
    (qs.zip rs).foldl (fun os xr =>
      let r := xr.2
      let live := fLt fZero r.l || fIsNan r.l
      let inv := recip r.l
      let o := ((List.range p.d).foldl (fun o i =>
        s.vecPut .vecCopy (dc.bin c) o dc fc (xr.1.row * dc.d0 + i) (if live then fMul (r.o.getD i fZero) inv else fZero)) os.1)
      if !p.stats then (o, os.2) else
      match s.operand c p.statIx false with
      | .error _ => (o, os.2)
      | .ok (ds, fs) =>
        let st (i : Nat) (v : Word) (o : Out) : Out := s.putElem (ds.bin c) o ds fs (ds.ix (xr.1.row * ds.d0 + i)) v.toNat
        let m := if live then r.m else fNegInf
        let lse := if live then fAdd r.m (logUnit r.l) else fNegInf
        (o, st 1 lse (st 0 m os.2))) os

/-- Run a forward ATTN: tile by tile, each member over its own entries, the partial results combined in ascending order, and
the last member's output committed. -/
def State.attnRun (s : State) (lead width : Nat) (cmd : TcCmd) (obs : List Obs) : Option Fail × State :=
  let ms := (List.range width).map (lead + ·)
  match s.operand lead cmd.opa false, s.tcReads obs (ms.flatMap (s.attnReads lead width cmd)) with
  | .error _, (e, s) => (e, s)
  | _, (some e, s) => (some e, s)
  | .ok (da, _), (none, s) =>
    let p := attnPar cmd
    let last := lead + width - 1
    let q (c : Nat) : Requester := s.coreReq c (s.deadlineOf c)
    let part := (s.partOf lead).getD 0
    let start : Walk (Out × Out × List (Nat × List (List Byte))) := ⟨s, none, (Out.empty, Out.empty, []), [], 0⟩
    let w := (List.range (ceilDiv da.d1 64)).foldl (fun w t =>
      if w.fail.isSome then w else
      let qs := w.s.tileQueries lead cmd.opa p.d t da.d1
      let parts := ms.foldl (fun (x : Walk (List (List AttnRow) × List (Nat × List (List Byte)))) c =>
        match x.s.pageList c cmd.opb with
        | .error _ => x
        | .ok l =>
          let y := attnTile (q c) c (c - lead) width cmd l qs obs ⟨x.s, x.fail, [], [], x.skipped⟩
          ⟨y.s, y.fail, (x.acc.1 ++ [y.acc], x.acc.2 ++ [(c, y.staged)]), [], y.skipped⟩)
        ⟨w.s, w.fail, ([], w.acc.2.2), [], w.skipped⟩
      let rows := match parts.acc.1 with
        | [] => []
        | a :: r => r.foldl (fun x y => (x.zip y).map (fun ab => attnCombine ab.1 ab.2)) a
      let os := parts.s.attnFinish last cmd qs rows (w.acc.1, w.acc.2.1)
      ⟨parts.s.countRows part rows, parts.fail, (os.1, os.2, parts.acc.2), [], parts.skipped⟩) start
    let s := w.s.bumpObj .attnSkipped (part + 1) w.skipped
    match w.fail with
    | some e => (some e, s)
    | none =>
      match s.stageAll (ms.map (fun c => (c, w.acc.2.2.flatMap (fun e => if e.1 = c then e.2 else [])))) with
      | (some e, s) => (some e, s)
      | (none, s) =>
      let s := ms.foldl (fun s c => (attnHearths cmd).foldl (fun s h => s.freePlane c h (min 64 da.d1)) s) s
      let outs := match s.operand last cmd.opc false, s.operand last p.statIx false with
        | .ok (dc, _), .ok (ds, _) => [(last, 1, dc.bin last, w.acc.1)] ++
            (if p.stats then [(last, 1, ds.bin last, w.acc.2.1)] else [])
        | .ok (dc, _), .error _ => [(last, 1, dc.bin last, w.acc.1)]
        | _, _ => []
      s.tcCommits obs outs

/-! ## The backward pass -/

/-- The checks of a backward ATTN (R150, R156, R159). -/
def State.attnBackUses (s : State) (c : Nat) (cmd : TcCmd) : Checked := do
  let p := attnPar cmd
  let (da, fa, l) ← s.attnCommon c c cmd
  let rows := da.d1
  s.needScales c da fa rows
  let half : List Fmt := [.bf16, .fp32]
  let (d0, f0) ← s.matrix c cmd.opc p.d rows half
  let (d1, f1) ← s.matrix c (cmd.opc + 1) p.d rows half
  let (d2, f2) ← s.matrix c (cmd.opc + 2) p.d rows [.fp32]
  let tokens := ((List.range l.count).map (fun k => pgCount (s.listEntry l k))).sum
  let (d3, f3) ← s.matrix c (cmd.opc + 3) p.d tokens [.fp32]
  let (d4, f4) ← s.matrix c (cmd.opc + 4) p.d tokens [.fp32]
  let st ← s.statsTensor c rows { p with stats := true }
  s.needScales c d0 f0 rows
  s.needScales c d1 f1 rows
  let ownList : List (Nat × Nat) := if l.bin = c then grainsOfRun l.offset (8 * l.count) |>.map (fun g => (g.1, 1)) else []
  .ok ⟨da.ownRange fa ++ da.ownEntries fa rows ++ ownList ++ [(s.constAt c p.imm / 256, 1)] ++ d0.ownRange f0 ++
      d0.ownEntries f0 rows ++ d1.ownRange f1 ++ d1.ownEntries f1 rows ++ (match st with | some t => t.1.ownRange t.2 | none => []),
    [s.stagingRange c] ++ d2.ownRange f2 ++ d3.ownRange f3 ++ d4.ownRange f4, attnHearths cmd, attnHearths cmd, 0⟩

/-- An FP32 value rounded to BF16, as FP32 (R159). -/
def toBf16 (x : Word) : Word := fp32Of (fmtBF16.decode (fmtBF16.narrow (fpOf x)).1)

/-- A dot product of BF16 operands accumulated in FP32 from zero, in order (R159). -/
def dotBf16 (xs ys : List Word) : Word :=
  (xs.zip ys).foldl (fun acc ab => fp32Of ((fpOf acc).add ((fpOf (toBf16 ab.1)).mul (fpOf (toBf16 ab.2))))) fZero

/-- What the backward pass has so far: dQ of the tile's rows, and dK and dV by token of the page list. -/
structure Back where
  dq : List (List Word)
  dk : SMap (List Word)
  dv : SMap (List Word)

/-- A query row of the backward pass: its gradient, its log-sum-exp and D[r]. -/
structure BackRow where
  x : Query
  dO : List Word
  lse : Word
  dd : Word

/-- One block of the backward pass for a tile (R159); `tok` is the first token's place in list order. -/
def backStep (p : AttnPar) (c : Word) (rs : List BackRow) (z : Back) (b : KvBlock) (tok : Nat) : Back :=
  let zero := List.replicate p.d fZero
  let kv (bs sc : List Byte) (t : Nat) : List Word := (List.range p.d).map (fun i =>
    toBf16 (fMul (kvScale b.d sc t (i / 64)) (fOfInt (kvElem b.int4 b.d bs t i))))
  let ts := List.range b.n
  let prob (r : BackRow) (t : Nat) : Word :=
    let sc := score p c r.x b t
    if r.lse = fNegInf ∨ sc = fNegInf then fZero else expUnit (fSub sc r.lse)
  let ps := rs.map (fun r => ts.map (prob r))
  let v16 := ts.map (kv b.v b.vs)
  let k16 := ts.map (kv b.k b.ks)
  let ds := (rs.zip ps).map (fun rp => ts.map (fun t =>
    fMul (rp.2.getD t fZero) (fSub (dotBf16 rp.1.dO (v16.getD t zero)) rp.1.dd)))
  let qsc (r : BackRow) (i : Nat) : Word := fMul r.x.sq (fOfInt (r.x.q.getD i 0))
  let col (m : List (List Word)) (t : Nat) : List Word := m.map (fun l => l.getD t fZero)
  { dq := (z.dq.zip ds).map (fun qd => qd.1.mapIdx (fun i v =>
      fAdd v (fMul c (dotBf16 qd.2 (k16.map (fun l => l.getD i fZero))))))
    dk := ts.foldl (fun m t =>
      let old := SMap.get m (tok + t) zero
      SMap.put m (tok + t) (old.mapIdx (fun i v => fAdd v (fMul c (dotBf16 (col ds t) (rs.map (fun r => qsc r i)))))) zero) z.dk
    dv := ts.foldl (fun m t =>
      let old := SMap.get m (tok + t) zero
      SMap.put m (tok + t) (old.mapIdx (fun i v => fAdd v (dotBf16 (col ps t) (rs.map (fun r => r.dO.getD i fZero))))) zero) z.dv }

/-- What a backward ATTN reads from Bins. -/
def State.attnBackReads (s : State) (cmd : TcCmd) (c : Nat) : List (Nat × Nat × Nat × List (Nat × Nat)) :=
  let whole (i rows : Nat) : List (Nat × Nat × Nat × List (Nat × Nat)) :=
    match s.operand c i false with
    | .ok (d, f) => [(c, 1, d.bin c, d.runsOf f (d.d0 * rows))]
    | .error _ => []
  let rows := match s.operand c cmd.opa false with | .ok (d, _) => d.d1 | .error _ => 0
  s.attnReads c 1 cmd c ++ whole cmd.opc rows ++ whole (cmd.opc + 1) rows ++ whole (attnPar cmd).statIx rows

/-- The first token of entry `k` in list order. -/
def State.firstToken (s : State) (l : PageList) (k : Nat) : Nat :=
  ((List.range k).map (fun i => pgCount (s.listEntry l i))).sum

/-- Run a backward ATTN on core `c` alone (R156, R159). -/
def State.attnBackRun (s : State) (c : Nat) (cmd : TcCmd) (obs : List Obs) : Option Fail × State :=
  match s.operand c cmd.opa false, s.pageList c cmd.opb, s.tcReads obs (s.attnBackReads cmd c) with
  | .ok (da, _), .ok l, (none, s) =>
    let p := attnPar cmd
    let k := s.attnConst c p.imm
    let q := s.coreReq c (s.deadlineOf c)
    let val (i row j : Nat) : Word :=
      match s.operand c i false with
      | .ok (d, f) => s.real (d.bin c) d f (d.ix (row * d.d0 + j))
      | .error _ => fZero
    let start : Walk (List (List Word) × Back) := ⟨s, none, ([], ⟨[], [], []⟩), [], 0⟩
    let w := (List.range (ceilDiv da.d1 64)).foldl (fun w t =>
      if w.fail.isSome then w else
      let rs := (w.s.tileQueries c cmd.opa p.d t da.d1).map (fun x =>
        let dO := (List.range p.d).map (val cmd.opc x.row)
        let o := (List.range p.d).map (val (cmd.opc + 1) x.row)
        (⟨x, dO, val p.statIx x.row 1, rowSum ((dO.zip o).map (fun ab => fMul ab.1 ab.2))⟩ : BackRow))
      let lastRow := (rs.getLast?.map (·.x.row)).getD 0
      let y := walkList q c cmd.opb 0 1 p l lastRow obs (fun z b e =>
          let tok := w.s.firstToken l e + (b.pos % 256)
          backStep p k rs z b tok)
        ⟨w.s, none, { w.acc.2 with dq := rs.map (fun _ => List.replicate p.d fZero) }, w.staged, w.skipped⟩
      ⟨y.s, y.fail, (w.acc.1 ++ y.acc.dq, y.acc), y.staged, y.skipped⟩) start
    let s := w.s.bumpObj .attnSkipped ((w.s.partOf c).getD 0 + 1) w.skipped
    match w.fail with
    | some e => (some e, s)
    | none =>
      match s.stageAll [(c, w.staged)] with
      | (some e, s) => (some e, s)
      | (none, s) =>
      let tokens := s.firstToken l l.count
      let mat (i rows : Nat) (row : Nat → List Word) : List (Nat × Nat × Nat × Out) :=
        match s.operand c i false with
        | .error _ => []
        | .ok (d, f) => [(c, 1, d.bin c, (List.range rows).foldl (fun o r =>
            (List.range p.d).foldl (fun o j =>
              s.vecPut .vecCopy (d.bin c) o d f (r * d.d0 + j) ((row r).getD j fZero)) o) Out.empty)]
      let s := (attnHearths cmd).foldl (fun s h => s.freePlane c h (min 64 da.d1)) s
      s.tcCommits obs
        (mat (cmd.opc + 2) da.d1 (fun r => w.acc.1.getD r []) ++
         mat (cmd.opc + 3) tokens (fun t => SMap.get w.acc.2.dk t (List.replicate p.d fZero)) ++
         mat (cmd.opc + 4) tokens (fun t => SMap.get w.acc.2.dv t (List.replicate p.d fZero)))
  | _, _, (e, s) => (e, s)

end Sys2Proof.Machine
end

