-- ==== Sys2Proof/Machine/Hedge.lean ====
section
/-!
DEFINITION. The Hedgeline's shared operations (spec/19): key slots (R327), routes (R374), the bytes of a packet (R371), sending
with the replay buffer of R372, and the transfers of R378.
-/
namespace Sys2Proof.Machine

/-! ## Key slots -/

def KeySlot.empty : KeySlot := ⟨false, false, [], 0, 0, 8⟩
def State.keySlot (s : State) (n : Nat) : KeySlot := SMap.get s.sec.slots n KeySlot.empty
def State.setKeySlot (s : State) (n : Nat) (k : KeySlot) : State :=
  { s with sec := { s.sec with slots := SMap.put s.sec.slots n k KeySlot.empty } }

/-- Zero every key slot that passes a test (R328). -/
def State.zeroSlots (s : State) (p : Nat → KeySlot → Bool) : State :=
  { s with sec := { s.sec with slots := s.sec.slots.filter (fun e => !p e.1 e.2) } }

/-- The slots of link bases: 120 to 127 and 232 to 239 (R377). -/
def linkBase (n : Nat) : Bool := decide ((120 ≤ n ∧ n ≤ 127) ∨ (232 ≤ n ∧ n ≤ 239))

/-- The slots that are job keys: 0 to 119 and 128 to 231 (R377). -/
def jobKey (n : Nat) : Bool := decide (n ≤ 119 ∨ (128 ≤ n ∧ n ≤ 231))

/-- The slot can encrypt: it is loaded, it is a job key, and its counter has not run out (R327, R377). -/
def State.slotUsable (s : State) (n : Nat) : Bool :=
  let k := s.keySlot n
  k.loaded && jobKey n && decide (k.ctr < 2 ^ 64)

/-- The nonce of a message: the fixed field with bits [2:0] replaced by the sender, and the counter (R377). -/
def nonceOf (fixed src ctr : Nat) : List Byte := natLe 4 (setBits fixed 2 0 src) ++ natLe 8 ctr

/-! ## Ports and routes -/

def HlPort.empty : HlPort := ⟨0, [], [], 0, false⟩
def State.hlPort (s : State) (p : Nat) : HlPort := SMap.get s.hedge.ports p HlPort.empty
def State.setHlPort (s : State) (p : Nat) (x : HlPort) : State :=
  { s with hedge := { s.hedge with ports := SMap.put s.hedge.ports p x HlPort.empty } }

/-- This device's CASCADE_ID (R373). -/
def State.cascadeId (s : State) : Nat := s.obj .cascadeId 0

/-- A port is UP; it carries DATA, SYNC and MGMT when its HELLO followed the wiring rules (R370, R373). -/
def State.portUp (s : State) (p : Nat) : Bool := s.fld .hlStatusState p == 2
def State.portCarries (s : State) (p : Nat) : Bool :=
  s.portUp p && (s.hlPort p).joined

/-- Devices of the cascade: one more than the highest reachable ID. -/
def State.cascadeSize (s : State) : Nat :=
  max (s.cascadeId + 1)
    ((((List.range 8).filter (fun n => bit (s.obj .members 0) n)).foldl max 0) + 1)

/-- The port that R374 uses toward a device when every port is up: in a chain HL1 toward a higher ID and HL0 toward a lower
one; in a ring the direction with fewer hops, a tie through HL1. -/
def State.wayTo (s : State) (dst : Nat) : Nat :=
  let me := s.cascadeId
  if s.hedge.isRing then
    let n := s.cascadeSize
    let up := (dst + n - me) % n
    if up ≤ n - up then 1 else 0
  else if me < dst then 1 else 0

/-- The port a new packet takes (R374): in a ring the other direction when the port is DOWN. -/
def State.route (s : State) (dst : Nat) : Option Nat :=
  let p := s.wayTo dst
  if s.portCarries p then some p
  else if s.hedge.isRing && s.portCarries (1 - p) then some (1 - p)
  else none

/-! ## Packets -/

/-- The header of R371. -/
def HlPacket.header (x : HlPacket) (lseq : Nat) : List Byte :=
  natLe 1 x.type ++ natLe 1 (x.dst % 8 + x.src % 8 * 8) ++ natLe 2 (lseq % 4096) ++
  natLe 2 (x.tally % 1024 + x.gate % 64 * 1024) ++ natLe 3 (x.offset % 2 ^ 17 + x.bin % 8 * 2 ^ 17) ++ natLe 1 x.code ++
  natLe 2 x.xfer ++ natLe 8 x.ctr ++ natLe 4 0

/-- The additional data of a packet's tag: the header except LSEQ (R371). -/
def HlPacket.aad (x : HlPacket) : List Byte :=
  let h := x.header 0
  h.take 2 ++ h.drop 4

/-- The bytes of a packet; a DATA packet ends in its CRC-32C (R371). -/
def HlPacket.bytes (x : HlPacket) : List Byte :=
  let b := x.header x.lseq ++ x.body
  if x.type = 1 then b ++ natLe 4 (crc32c b).toNat else b

/-- Send a packet on a port: it takes the hop's next LSEQ and stays in the replay buffer until it is acknowledged (R372). -/
def State.sendPacket (s : State) (p : Nat) (x : HlPacket) : State :=
  let h := s.hlPort p
  let x := { x with lseq := h.lseq }
  let s := s.setHlPort p { h with
    lseq := (h.lseq + 1) % 4096
    replay := if x.type = 3 then h.replay else h.replay ++ [(x, 0)] }
  s.send ⟨.hedgeline p, x.type, [x.dst, x.xfer, x.offset, x.code], x.bytes⟩

/-- A packet of this device with an empty body. -/
def State.packet (s : State) (type dst : Nat) : HlPacket := ⟨type, dst, s.cascadeId, 0, 0, 0, 0, 0, 0, 0, 0, []⟩

/-! ## Transfers -/

/-- DATA packets of a port that are sent and not replied to (R372). -/
def State.unreplied (s : State) (p : Nat) : Nat :=
  (s.hedge.transfers.flatMap (fun t => t.out.filter (fun g => decide (g.port = p)))).length

def State.setTransfers (s : State) (l : List Transfer) : State := { s with hedge := { s.hedge with transfers := l } }

/-- Replace a transfer, told by its tag. -/
def State.updTransfer (s : State) (xfer : Nat) (f : Transfer → Transfer) : State :=
  s.setTransfers (s.hedge.transfers.map (fun t => if t.xfer = xfer then f t else t))

/-- Send one grain of a transfer on a port with a new message counter (R371, R377, R378). -/
def State.sendGrain (s : State) (t : Transfer) (g p resends : Nat) : State :=
  let k := s.keySlot t.slot
  let data := s.binRead t.bin ((t.first + g) * 256) 256
  let x : HlPacket := ⟨1, t.dst, s.cascadeId, 0, t.tally, t.gate, t.offset + g, t.dbin, 0, t.xfer, k.ctr, []⟩
  let plain := data ++ natLe 4 (s.sealStored t.bin (t.first + g)).toNat
  let x := { x with body := Config.gcmSeal k.key (nonceOf k.fixed s.cascadeId k.ctr) x.aad plain }
  let s := s.setKeySlot t.slot { k with ctr := k.ctr + 1 }
  let s := s.updTransfer t.xfer (fun t => { t with out := t.out.filter (fun o => decide (o.grain ≠ g)) ++ [⟨g, resends, p, s.time⟩] })
  s.sendPacket p x

/-- Send what a transfer may send: grains in order while its port holds fewer than 1,024 packets without a reply (R372). -/
def State.pumpTransfer (fuel : Nat) (s : State) (xfer : Nat) : State :=
  match fuel with
  | 0 => s
  | n + 1 =>
    match s.hedge.transfers.find? (fun t => decide (t.xfer = xfer)) with
    | none => s
    | some t =>
      match s.route t.dst with
      | none => s
      | some p =>
        if t.sent < t.count ∧ s.unreplied p < 1024 ∧ s.slotUsable t.slot then
          let s := s.updTransfer xfer (fun t => { t with sent := t.sent + 1 })
          (s.sendGrain { t with sent := t.sent + 1 } t.sent p 0).pumpTransfer n xfer
        else s

/-- Every transfer sends what it may. -/
def State.pumpAll (s : State) : State :=
  (s.hedge.transfers.map (·.xfer)).foldl (fun s x => s.pumpTransfer 1024 x) s

end Sys2Proof.Machine
end

