-- ==== Sys2Proof/Machine/DmaOps.lean ====
section
/-!
DEFINITION. What the DMA and SPILL commands check, use and do (R33, R97, R378, R462, R464), and the deadline check of a tier
request (R124, R125).
-/
namespace Sys2Proof.Machine

/-! ## DMA -/

/-- The Unified Range side of a DMA command (R464): the U64 offset of bytes 16 to 23, every other byte zero. -/
def State.dmaUr (s : State) (c i : Nat) : Except (Nat × Nat) Nat :=
  if 992 ≤ i then .error (3, i) else
  let b := s.binRead c (s.optEntry c i) 32
  let off := leNat ((b.drop 16).take 8)
  if (b.take 16).all (· == 0) && (b.drop 24).all (· == 0) && off % 256 == 0 then .ok off else .error (3, i)

/-- The Bin side of a DMA command (R464): the Bin and the first grain of the run of PA grains. -/
def State.dmaBin (s : State) (c i n : Nat) : Except (Nat × Nat) (Nat × Nat) :=
  if 992 ≤ i then .error (3, i) else
  let d := s.tdesc c i
  if d.offset % 256 = 0 ∧ d.offset + 256 * n ≤ binBytes then .ok (d.bin c, d.offset / 256) else .error (3, i)

/-- The remote side of DMA 0x03 (R378): the destination device and Bin, and the first grain from the gate's BASE. -/
def State.dmaGate (s : State) (c i : Nat) : Except (Nat × Nat) (Nat × Nat × Nat) :=
  if 992 ≤ i then .error (3, i) else
  let d := s.tdesc c i
  let w := s.binNat c (s.optEntry c i + 28) 4
  if d.remote && d.offset % 256 == 0 && decide (w < 8) then .ok (w, d.binsel, d.offset / 256) else .error (3, i)

/-- A range of the scoreboard, if it lies in the own Bin. -/
def ownRun (c b first n : Nat) : List (Nat × Nat) := if b = c ∧ n ≠ 0 then [(first, n)] else []

/-- The checks of one member of a DMA command (R97, R378, R464). -/
def State.dmaUses (s : State) (op : TcOp) (c : Nat) (cmd : TcCmd) : Checked := do
  let n := cmd.pa
  match op with
  | .dmaIn =>
    let _ ← s.dmaUr c cmd.opa
    let (b, g) ← s.dmaBin c cmd.opc n
    .ok ⟨[], ownRun c b g n, [], [], 1⟩
  | .dmaOut =>
    let (b, g) ← s.dmaBin c cmd.opa n
    let _ ← s.dmaUr c cmd.opc
    .ok ⟨ownRun c b g n, [], [], [], 1⟩
  | .dmaBin =>
    let (b, g) ← s.dmaBin c cmd.opa n
    let (b', g') ← s.dmaBin c cmd.opc n
    .ok ⟨ownRun c b g n, ownRun c b' g' n, [], [], 1⟩
  | _ =>
    let (b, g) ← s.dmaBin c cmd.opa n
    let (dst, _, _) ← s.dmaGate c cmd.opc
    need (dst ≠ s.cascadeId) 1 0
    .ok ⟨ownRun c b g n, [], [], [], 1⟩

/-- The seals carried by grains of a Bin: a whole read verifies them, so each is the seal of its data (R93, R127). -/
def State.wholeGrains (first n : Nat) : List (Nat × Nat) := [(first * 256, 256 * n)]

/-- Any grain of a Bin run lies in a MODEL region (R322). -/
def State.runModel (s : State) (b first n : Nat) : Bool :=
  (List.range n).any (fun i => s.unitModel (b + 1) (first + i))

/-- Any page of a Unified Range run lies in a MODEL region (R322). -/
def State.pagesModel (s : State) (off n : Nat) : Bool := (pagesOfRun off n).any (fun p => s.unitModel 0 p)

/-- Raise the destination's tally by the grains committed (R97, R101). -/
def State.countGrains (s : State) (b tally n : Nat) : State := s.raiseTally b tally n

/-- A write that a DMA command makes: the member, into a Bin from a grain or into the Unified Range from an offset, the bytes, whether
their source is MODEL (R322), and the tally of the destination (R97). -/
structure DmaMove where
  member : Nat
  toUr : Bool
  bin : Nat
  first : Nat
  off : Nat
  bs : List Byte
  model : Bool
  tally : Nat
deriving DecidableEq, Repr

/-- Read what one member of a DMA command moves, but for a transfer into a gate. -/
def State.dmaFetch (s : State) (op : TcOp) (c : Nat) (cmd : TcCmd) (obs : List Obs) : Except Fail (Option DmaMove) × State :=
  let n := cmd.pa
  let q := s.coreReq c (s.deadlineOf c)
  let tally := bits cmd.pb 9 0
  match op with
  | .dmaIn =>
    match s.dmaUr c cmd.opa, s.dmaBin c cmd.opc n with
    | .ok off, .ok (b, g) =>
      (match s.urRead q off (256 * n) obs with
       | (.error e, s) => (.error ⟨c, e.code, 0, false⟩, s)
       | (.ok bs, s) => (.ok (some ⟨c, false, b, g, 0, bs, s.pagesModel off (256 * n), tally⟩), s))
    | _, _ => (.ok none, s)
  | .dmaOut =>
    match s.dmaBin c cmd.opa n, s.dmaUr c cmd.opc with
    | .ok (b, g), .ok off =>
      (match s.tcRead c 2 b (State.wholeGrains g n) obs with
       | (some e, s) => (.error e, s)
       | (none, s) => (.ok (some ⟨c, true, 0, 0, off, s.binRead b (g * 256) (256 * n), s.runModel b g n, 0⟩), s))
    | _, _ => (.ok none, s)
  | .dmaBin =>
    match s.dmaBin c cmd.opa n, s.dmaBin c cmd.opc n with
    | .ok (b, g), .ok (b', g') =>
      (match s.tcRead c 2 b (State.wholeGrains g n) obs with
       | (some e, s) => (.error e, s)
       | (none, s) => (.ok (some ⟨c, false, b', g', 0, s.binRead b (g * 256) (256 * n), s.runModel b g n, tally⟩), s))
    | _, _ => (.ok none, s)
  | _ => (.ok none, s)

/-- Read what every member moves; the first failure ends the command. -/
def State.dmaFetchAll (s : State) (op : TcOp) (cmd : TcCmd) (obs : List Obs) : List Nat → Except Fail (List DmaMove) × State
  | [] => (.ok [], s)
  | c :: r =>
    match s.dmaFetch op c cmd obs with
    | (.error e, s) => (.error e, s)
    | (.ok m, s) =>
      match s.dmaFetchAll op cmd obs r with
      | (.error e, s) => (.error e, s)
      | (.ok ms, s) => (.ok (m.toList ++ ms), s)

/-- Check a write of a DMA command before any of it lands: the destination serves, and the regions allow it with the MODEL mark of its
source (R98, R127, R322). -/
def State.dmaAdmit (s : State) (m : DmaMove) (obs : List Obs) : Option Fail × State :=
  let c := m.member
  if m.toUr then
    match s.urAdmit { s.coreReq c (s.deadlineOf c) with fromModel := m.model } m.off m.bs.length obs with
    | (some e, s) => (some ⟨c, e.code, 0, false⟩, s)
    | (none, s) => (none, s)
  else
    match s.binAdmit { s.coreReq c none with fromModel := m.model } true (if m.bin = c then 2 else 3) m.bin
        ((List.range (m.bs.length / 256)).map (m.first + ·)) with
    | (some e, s) => (some ⟨c, e.code, m.first * 256, decide (m.bin = c)⟩, s)
    | (none, s) => (none, s)

def State.dmaAdmitAll (s : State) (obs : List Obs) : List DmaMove → Option Fail × State
  | [] => (none, s)
  | m :: r =>
    match s.dmaAdmit m obs with
    | (some e, s) => (some e, s)
    | (none, s) => s.dmaAdmitAll obs r

/-- Make a write of a DMA command: whole grains with their seals, counted in the tally of the destination (R97, R101), or pages of the
Unified Range. -/
def State.dmaStore (s : State) (m : DmaMove) : State :=
  if m.toUr then s.urStore { s.coreReq m.member (s.deadlineOf m.member) with fromModel := m.model } m.off m.bs
  else
    let n := m.bs.length / 256
    (s.binStore m.bin (placed (m.first * 256) m.bs) ((List.range n).map (fun k => (m.first + k, true)))).countGrains m.bin m.tally n

/-- Run a DMA command on the lead and its members: everything is read and every write checked before any lands (R46). -/
def State.dmaRunAll (s : State) (op : TcOp) (cmd : TcCmd) (obs : List Obs) (ms : List Nat) : Option Fail × State :=
  match s.dmaFetchAll op cmd obs ms with
  | (.error e, s) => (some e, s)
  | (.ok l, s) =>
    match s.dmaAdmitAll obs l with
    | (some e, s) => (some e, s)
    | (none, s) => (none, l.foldl State.dmaStore s)

/-- What the issue of a transfer into a gate answers: the job ends at once with a detail, a fault on reading the grains, or the
transfer has started. -/
inductive GateIssue where
  | ends (e : Ending)
  | fails (e : Fail)
  | started
deriving DecidableEq, Repr

/-- Issue DMA 0x03 on a core (R378): the key slot of the job (R327, R377), a route, then the seals of the grains. -/
def State.gateIssue (s : State) (c : Nat) (cmd : TcCmd) (obs : List Obs) : GateIssue × State :=
  match s.dmaBin c cmd.opa cmd.pa, s.dmaGate c cmd.opc with
  | .ok (b, g), .ok (dst, dbin, off) =>
    let lead := (s.furrowOf c).1
    let slot := (((s.core lead).job).map (·.desc.keyslot)).getD 0
    let part := (s.partOf c).getD 8
    if (s.keySlot slot).loaded && !linkBase slot && (s.keySlot slot).part != part then (.ends ⟨5, 0, 0, 0, false⟩, s)
    else if !s.slotUsable slot then (.ends ⟨3, 0x0D, 6, 0, false⟩, s)
    else match s.route dst with
      | none => (.ends ⟨3, 0x0C, s.wayTo dst, 0, false⟩, s)
      | some _ =>
        match s.tcRead c 2 b (State.wholeGrains g cmd.pa) obs with
        | (some e, s) => (.fails e, s)
        | (none, s) =>
          let gate := bits cmd.pb 15 10
          if s.runModel b g cmd.pa && gate < 32 then
            let r := s.refuseAccess { s.coreReq c none with fromModel := true } true (b + 1) g
            (.fails ⟨c, 6, g * 256, decide (b = c)⟩, r)
          else
          let x := s.hedge.nextXfer
          let t : Transfer := ⟨x, c, cmd.tag, b, g, cmd.pa, dst, dbin, off, gate, bits cmd.pb 9 0, slot, 0, [], 0⟩
          let s := { s with hedge := { s.hedge with
            transfers := s.hedge.transfers ++ [t], nextXfer := (x + 1) % 65536 } }
          (.started, s.pumpTransfer 1024 x)
  | _, _ => (.started, s)

/-! ## SPILL -/

/-- The checks of one member of a SPILL command (R462): its slot is a slot of the spill area that no STATE lease holds and that
lies in no save area.  Member `i` of a furrow uses the slot PA + i. -/
def State.spillUses (s : State) (op : TcOp) (c i : Nat) (cmd : TcCmd) : Checked := do
  let p := (s.partOf c).getD 0
  let slot := cmd.pa + i
  need (decide (slot < s.obj .spillSlots (p + 1)) && !(s.leaseSlots p).contains slot && !s.inSaveArea p slot) 1 0
  .ok ⟨[], [], [cmd.hdst], if op = .spillIn then [cmd.hdst] else [], 1⟩

/-- Check the read of one member's spill slot (R76, R82, R462): every grain of it verifies its seal. -/
def State.spillCheck (s : State) (c i : Nat) (cmd : TcCmd) (obs : List Obs) : Option Fail :=
  if s.spillGone ((s.partOf c).getD 0) (cmd.pa + i) || obs.any (fun o => match o with | .ur _ .sealMismatch => true | _ => false) then
    some ⟨c, 5, 0, false⟩
  else if obs.any (fun o => match o with | .ur _ .uncorrectable => true | _ => false) then some ⟨c, 4, 0, false⟩
  else none

/-- Move one plane (R76, R462): out, sealed, or in. -/
def State.spillRun (s : State) (op : TcOp) (c i : Nat) (cmd : TcCmd) : State :=
  let p := (s.partOf c).getD 0
  if op = .spillOut then s.planeToSpill c cmd.hdst p (cmd.pa + i)
  else (s.spillToPlane p (cmd.pa + i) c cmd.hdst).markDirty c cmd.hdst

/-- Move a plane in every member, once every slot that is read has been checked. -/
def State.spillRunAll (s : State) (op : TcOp) (cmd : TcCmd) (obs : List Obs) (l : List (Nat × Nat)) : Option Fail × State :=
  match (if op = .spillIn then l.findSome? (fun x => s.spillCheck x.1 x.2 cmd obs) else none) with
  | some e => (some e, s)
  | none => (none, l.foldl (fun s x => s.spillRun op x.1 x.2 cmd) s)

end Sys2Proof.Machine
end

