-- ==== Sys2Proof/Machine/Scan.lean ====
section
/-!
DEFINITION. What a SCAN command checks, uses and computes (R174 to R181, R187, R189): the diagonal chunk and step scans and
the matrix-valued chunk, plain and compensated.
-/
namespace Sys2Proof.Machine

/-! ## Parameters -/

/-- The class parameters of SCAN (R175). -/
structure ScanPar where
  stateOut : Bool
  comp : Bool
  gfn : Nat
  bmode : Nat
  initEn : Bool
  rows : Nat
  len : Nat
  mask : Nat
  init : Nat
deriving DecidableEq, Repr

def scanPar (cmd : TcCmd) : ScanPar :=
  ⟨bit cmd.pa 24, bit cmd.pa 23, bits cmd.pa 22 20, bits cmd.pa 19 18, bit cmd.pa 17, bits cmd.pa 11 6 + 1,
    bits cmd.pa 5 0 + 1, bits cmd.pb 19 10, bits cmd.pb 9 0⟩

/-- The rules of R175, R176 and R187 whose breach is an illegal command. -/
def scanLegal (op : TcOp) (split : Nat) (cmd : TcCmd) : Bool :=
  let p := scanPar cmd
  bits cmd.pa 31 25 == 0 && bits cmd.pa 16 12 == 0 && decide (p.gfn ≤ 2 ∧ p.bmode ≤ 2) && !cmd.fin &&
  (p.initEn || p.init == 0) &&
  (if p.comp then cmd.hdst % 2 == 0 && cmd.haux == cmd.hdst + 1 else cmd.haux == 0) &&
  (op != .scanMat || (p.rows == 1 && p.bmode == 0 && split != 2))

/-- The hearths of the state: HDST, or the pair (R175). -/
def scanState (cmd : TcCmd) : List Nat := if (scanPar cmd).comp then [cmd.hdst, cmd.hdst + 1] else [cmd.hdst]

/-- The formats of x and of the gates (R176). -/
def scanInput (f : Fmt) : Bool := f == .int8 || f == .uint8 || f == .bf16 || f == .fp16 || f == .fp32
def scanGate (f : Fmt) : Bool := f == .bf16 || f == .fp16 || f == .fp32
def scanFp8 (f : Fmt) : Bool := f == .e4m3 || f == .e5m2

/-- An operand of SCAN with the dimensions that R176 gives it. -/
def State.scanOperand (s : State) (c i d0 d1 d2 : Nat) (ok : Fmt → Bool) : Except (Nat × Nat) (TDesc × Fmt) := do
  let (d, f) ← s.operand c i false
  need (ok f) 2 i
  need (decide (d.d0 = d0 ∧ d.d1 = d1 ∧ d.d2 = d2)) 3 i
  s.needScales c d f d.d1
  .ok (d, f)

/-- What an operand reads of the own Bin: a scale entry belongs to a row of the command, whatever the step (R55, R176). -/
def TDesc.ownAll (d : TDesc) (f : Fmt) : List (Nat × Nat) := d.ownRange f ++ d.ownEntries f d.d1

/-- The byte runs of an operand, and of its scale entries. -/
def TDesc.scanRuns (d : TDesc) (f : Fmt) : List (Nat × Nat) :=
  (List.range (d.d1 * d.d2)).map (fun r => d.rowRun f (d.ix (r * d.d0)) d.d0) ++
    d.entryRuns f (List.range (if d.rowscale then d.d1 else 1))

/-- The checks of member `i` of a SCAN and what it uses. -/
def State.scanUses (s : State) (op : TcOp) (lead width i : Nat) (cmd : TcCmd) : Checked := do
  let c := lead + i
  let p := scanPar cmd
  let mat := op == .scanMat
  need (scanLegal op (s.fld .hearthCfgSplit c) cmd) 1 0
  need ((Fmt.ofCode cmd.outfmt).isSome) 2 cmd.opc
  need (decide (p.init < 992)) 3 p.init
  let x ← (if mat then do
      let (dq, fq) ← s.scanOperand lead cmd.opa 64 p.len 1 scanFp8
      let (dk, fk) ← s.scanOperand lead (cmd.opa + 1) 64 p.len 1 scanFp8
      let (dv, fv) ← s.scanOperand c (cmd.opa + 2) 64 p.len 1 scanFp8
      need dq.rowscale 3 dq.index
      need dk.rowscale 3 dk.index
      need dv.rowscale 3 dv.index
      .ok ((if i = 0 then dq.ownAll fq ++ dk.ownAll fk else []) ++ dv.ownAll fv)
    else do
      let (dx, fx) ← s.scanOperand lead cmd.opa (64 * width) p.rows p.len scanInput
      .ok (if i = 0 then dx.ownAll fx else []) : Except (Nat × Nat) (List (Nat × Nat)))
  let (dg, fg) ← (if mat then s.scanOperand c cmd.opb 1 p.len 1 scanGate
    else s.scanOperand c cmd.opb (if p.bmode = 2 then 128 else 64) p.rows p.len scanGate)
  let (dm, fm) ← s.scanOperand c p.mask 4 p.len 1 (fun f => f == .int32)
  let init ← (if p.initEn then do
      let (d, f) ← s.scanOperand c p.init 64 (if mat then 64 else p.rows) 1 (fun f => f == .fp32)
      .ok (d.ownAll f)
    else .ok [] : Except (Nat × Nat) (List (Nat × Nat)))
  let (dc, fc) ← s.operand c cmd.opc false
  need (decide (dc.fmtc = cmd.outfmt)) 2 cmd.opc
  need (decide (dc.d0 = 64 ∧ dc.d1 = (if mat then p.len else p.rows) ∧ (mat = true ∨ dc.d2 = p.len))) 3 cmd.opc
  let orows := if mat then p.len else p.rows
  s.needScales c dc fc orows
  let out ← (if p.stateOut then do
      let (d, f) ← s.operand c (cmd.opc + 1) false
      need (f == .fp32) 2 (cmd.opc + 1)
      need (decide (d.d0 = 64 ∧ d.d1 = (if mat then 64 else p.rows) ∧ (p.comp = false ∨ d.d2 = 2))) 3 (cmd.opc + 1)
      .ok (d.ownRange f)
    else .ok [] : Except (Nat × Nat) (List (Nat × Nat)))
  let hs := scanState cmd ++ (if mat then [0] else [])
  .ok ⟨x ++ dg.ownAll fg ++ dm.ownAll fm ++ init, dc.ownRange fc ++ dc.ownEntries fc orows ++ out, hs, hs, 0⟩

/-- What member `c` of a SCAN reads. -/
def State.scanReads (s : State) (op : TcOp) (lead : Nat) (cmd : TcCmd) (c : Nat) :
    List (Nat × Nat × Nat × List (Nat × Nat)) :=
  let p := scanPar cmd
  let rd (m i : Nat) : List (Nat × Nat × Nat × List (Nat × Nat)) :=
    match s.operand m i false with
    | .ok (d, f) => [(m, 1, d.bin m, d.scanRuns f)]
    | .error _ => []
  (if c = lead then rd lead cmd.opa ++ (if op = .scanMat then rd lead (cmd.opa + 1) else []) else []) ++
  (if op = .scanMat then rd c (cmd.opa + 2) else []) ++ rd c cmd.opb ++ rd c p.mask ++
  (if p.initEn then rd c p.init else [])

/-! ## Plain and compensated arithmetic -/

/-- An FP32 value, or the unevaluated sum of two (R179). -/
structure Dw where
  hi : Word
  lo : Word
deriving DecidableEq, Repr

def Dw.zero : Dw := ⟨fZero, fZero⟩
def Dw.of (w : Word) : Dw := ⟨w, fZero⟩

/-- What rounding an exact value to FP32 left behind; zero beside a special value. -/
def roundErr (x : Fp) : Dw :=
  let r := fp32Of x
  match fpOf r with
  | .fin n m e => ⟨r, fp32Of (x.add (Fp.neg (.fin n m e)))⟩
  | _ => ⟨r, fZero⟩

/-- The sum of the three low parts, in the fixed order that the spec does not name (R179). -/
def lowSum (a b c : Word) : Word :=
  if Config.lowOrder = 0 then fAdd (fAdd a b) c else if Config.lowOrder = 1 then fAdd (fAdd b c) a else fAdd (fAdd a c) b

/-- Renormalise a pair. -/
def dwNorm (hi lo : Word) : Dw := roundErr ((fpOf hi).add (fpOf lo))

/-- One addition: rounded once, or in double-word arithmetic. -/
def dwAdd (comp : Bool) (x y : Dw) : Dw :=
  if !comp then Dw.of (fAdd x.hi y.hi) else
  let s := roundErr ((fpOf x.hi).add (fpOf y.hi))
  dwNorm s.hi (lowSum s.lo x.lo y.lo)

/-- One multiplication. -/
def dwMul (comp : Bool) (x y : Dw) : Dw :=
  if !comp then Dw.of (fMul x.hi y.hi) else
  let p := roundErr ((fpOf x.hi).mul (fpOf y.hi))
  dwNorm p.hi (lowSum p.lo (fMul x.hi y.lo) (fMul x.lo y.hi))

/-- One fused multiply-add. -/
def dwFma (comp : Bool) (x y z : Dw) : Dw :=
  if !comp then Dw.of (fFma x.hi y.hi z.hi) else dwAdd comp (dwMul comp x y) z

/-- The value a pair reads out as: RNA(hi + lo). -/
def Dw.value (comp : Bool) (x : Dw) : Word := if comp then fAdd x.hi x.lo else x.hi

/-- A state element is finite. -/
def Dw.finite (x : Dw) : Bool :=
  match fpOf x.hi, fpOf x.lo with
  | .fin _ _ _, .fin _ _ _ => true
  | _, _ => false

/-- What a reset leaves of the state before it: a special value does not pass the zero decay (R177, R187). -/
def Dw.cut (c : Bool) (x : Dw) : Dw := if c && !x.finite then Dw.zero else x

/-! ## Decays, masks and state -/

/-- The decay of a gate element (R174). -/
def decay (gfn : Nat) (g : Word) : Word :=
  if gfn = 0 then g else if gfn = 1 then sigmoidUnit g else expUnit g

/-- The mask entry of a step: RESET and HOLD of a row (R177). -/
def State.maskBit (s : State) (c : Nat) (p : ScanPar) (t row : Nat) : Bool × Bool :=
  match s.operand c p.mask false with
  | .error _ => (false, false)
  | .ok (d, f) =>
    let a := d.addr f ⟨0, t, 0, 0⟩
    (bit (s.binNat (d.bin c) a 8) row, bit (s.binNat (d.bin c) (a + 8) 8) row)

/-- A real value of an operand of SCAN, or zero where the operand is not one: its scale entry is that of its row, in every step (R53, R55,
R176). -/
def State.realAt (s : State) (c i : Nat) (x : Ix) : Word :=
  match s.operand c i false with
  | .ok (d, f) =>
    let v := fp32Of (s.elem (d.bin c) d f x)
    if d.scaled f then fMul v (s.scaleOf (d.bin c) d f x.i1) else v
  | .error _ => fZero

/-- The state of an element before the first step (R176, R177), and whether the RESET of step 0 stays a cut. -/
def State.scanStart (s : State) (c : Nat) (cmd : TcCmd) (maskRow row col : Nat) : Dw :=
  let p := scanPar cmd
  if p.initEn && (s.maskBit c p 0 maskRow).1 then Dw.of (s.realAt c p.init ⟨col, row, 0, 0⟩)
  else if !cmd.acc then Dw.zero
  else ⟨s.slotAt c cmd.hdst row col, if p.comp then s.slotAt c cmd.haux row col else fZero⟩

/-- A RESET of step `t` that sets the decay to zero: every one but one at step 0 that loads INIT (R177). -/
def State.resets (s : State) (c : Nat) (p : ScanPar) (t row : Nat) : Bool :=
  (s.maskBit c p t row).1 && !(p.initEn && t == 0)

/-- One step of an element: its decay, its input term, and whether a reset stands before it. -/
structure ScanTerm where
  a : Dw
  u : Dw
  cut : Bool
deriving DecidableEq, Repr

/-- The decay and the input term of a step of row `r`, element `e` of member `c` (R174, R177). -/
def State.scanTerm (s : State) (lead c : Nat) (cmd : TcCmd) (r e t : Nat) : ScanTerm :=
  let p := scanPar cmd
  let a := decay p.gfn (s.realAt c cmd.opb ⟨e, r, t, 0⟩)
  let x := s.realAt lead cmd.opa ⟨64 * (c - lead) + e, r, t, 0⟩
  let u := if p.bmode = 0 then x
    else if p.bmode = 1 then fMul (fSub fOne a) x
    else fMul (sigmoidUnit (s.realAt c cmd.opb ⟨64 + e, r, t, 0⟩)) x
  let m := s.maskBit c p t r
  let cut := s.resets c p t r
  ⟨Dw.of (if cut then fZero else if m.2 then fOne else a), Dw.of (if m.2 then fZero else u), cut⟩

/-- Carry a state through a term. -/
def ScanTerm.apply (comp : Bool) (x : ScanTerm) (h : Dw) : Dw := dwFma comp x.a (h.cut x.cut) x.u

/-- The combine of a term with an earlier one (R178). -/
def ScanTerm.after (comp : Bool) (x y : ScanTerm) : ScanTerm :=
  ⟨dwMul comp x.a (y.a.cut x.cut), dwFma comp x.a (y.u.cut x.cut) x.u, x.cut || y.cut⟩

/-- One level of the prefix scan, from the values of the level before (R178). -/
def scanLevel (comp : Bool) (k : Nat) (l : List ScanTerm) : List ScanTerm :=
  l.mapIdx (fun t x => if k ≤ t then x.after comp (l.getD (t - k) x) else x)

/-- The outputs of a chunk of an element, from its state (R178): by the prefix scan, or step by step. -/
def scanChunk (comp step : Bool) (l : List ScanTerm) (h : Dw) : List Dw :=
  if step then
    (l.foldl (fun (acc : List Dw × Dw) x => let v := x.apply comp acc.2; (acc.1 ++ [v], v)) ([], h)).1
  else
    ((List.range 6).foldl (fun l i => if 2 ^ i < l.length then scanLevel comp (2 ^ i) l else l) l).map (fun x =>
      x.apply comp h)

/-! ## Diagonal scans -/

/-- Encode an output by steps 5 to 7 of R58: no AMAX. -/
def State.putValue (s : State) (b : Nat) (o : Out) (d : TDesc) (f : Fmt) (x : Ix) (row : Nat) (v : Word) : Out :=
  let r := if d.rowscale then row else 0
  let e := d.entry r
  let amax := BitVec.ofNat 32 (s.seeNat b o (e + 8) 4)
  let o := s.drainElem b o d f x r v false
  if d.scaled f then o.put (e + 8) (natLe 4 amax.toNat) else o

/-- The chunk of each element of a member: row, element and the values of its steps (R178). -/
def State.scanValues (s : State) (op : TcOp) (lead c : Nat) (cmd : TcCmd) : List (Nat × Nat × List Dw) :=
  let p := scanPar cmd
  (List.range (64 * p.rows)).map (fun n =>
    let r := n / 64
    let e := n % 64
    (r, e, scanChunk p.comp (op == .scanStep) ((List.range p.len).map (s.scanTerm lead c cmd r e))
      (s.scanStart c cmd r r e)))

/-- The output and the carried state that a member writes. -/
def State.scanOut (s : State) (c : Nat) (cmd : TcCmd) (vs : List (Nat × Nat × List Dw)) : List (Nat × Nat × Nat × Out) :=
  let p := scanPar cmd
  let y := match s.operand c cmd.opc false with
    | .error _ => []
    | .ok (d, f) =>
      [(c, 1, d.bin c, vs.foldl (fun o v => (v.2.2.zipIdx).foldl (fun o e =>
        let held := (s.maskBit c p e.2 v.1).2
        s.putValue (d.bin c) o d f ⟨v.2.1, v.1, e.2, 0⟩ v.1 (if held then fZero else e.1.value p.comp)) o) Out.empty)]
  y

/-- The carried state as FP32 to OPC + 1 (R175, R179): the elements as row, column and value. -/
def State.stateOut (s : State) (c : Nat) (cmd : TcCmd) (vs : List (Nat × Nat × Dw)) : List (Nat × Nat × Nat × Out) :=
  let p := scanPar cmd
  if !p.stateOut then [] else
  match s.operand c (cmd.opc + 1) false with
  | .error _ => []
  | .ok (d, f) =>
    [(c, 1, d.bin c, vs.foldl (fun o v =>
      let o := s.putElem (d.bin c) o d f ⟨v.2.1, v.1, 0, 0⟩ (v.2.2.value p.comp).toNat
      if p.comp then s.putElem (d.bin c) o d f ⟨v.2.1, v.1, 1, 0⟩ v.2.2.lo.toNat else o) Out.empty)]

/-- The state a member carries out of a chunk. -/
def carried (vs : List (Nat × Nat × List Dw)) : List (Nat × Nat × Dw) :=
  vs.map (fun v => (v.1, v.2.1, v.2.2.getLast?.getD Dw.zero))

/-- Write the carried state into the plane or the pair. -/
def State.carryState (s : State) (c : Nat) (cmd : TcCmd) (vs : List (Nat × Nat × Dw)) : State :=
  let s := s.setSlots c cmd.hdst (vs.map (fun v => (v.1, v.2.1, v.2.2.hi)))
  if (scanPar cmd).comp then s.setSlots c cmd.haux (vs.map (fun v => (v.1, v.2.1, v.2.2.lo))) else s

/-! ## The matrix-valued chunk -/

/-- A row quantised to E4M3 under a scale of its own (R61, R180): its codes decoded, the scale, whether the scale was clamped, the elements
that saturated, and the NaNs. -/
structure E4Row where
  els : List Fp
  sc : Word
  clamped : Bool
  sat : Nat
  nan : Nat

def E4Row.zero : E4Row := ⟨[], fOne, false, 0, 0⟩

/-- Quantise a row to E4M3 by the rule of SCALE 0x00 (R61, R180). -/
def State.quantE4 (s : State) (part : Nat) (l : List Word) : E4Row :=
  let amax := l.foldl (fun a x => if fIsNan x then a else fMax a (fAbs x)) fZero
  let sc := if amax = fZero then (s.scaleMin part, false) else s.clampScale part (fDiv amax (fOfInt 448))
  let inv := fDiv fOne sc.1
  let cs := l.map (fun x => Fmt.e4m3.encode 0 (fpOf (fMul x inv)))
  ⟨cs.map (fun c => Fmt.e4m3.value 0 c.raw), sc.1, sc.2, cs.countP (·.sat), l.countP fIsNan⟩

/-- A sum of exact products, each added with one rounding, in ascending order (R57). -/
def macSum (ps : List Fp) : Word := ps.foldl (fun a p => fp32Of ((fpOf a).add p)) fZero

/-- What the gates and the mask give every member of a matrix-valued chunk (R180): D, E0 and the last reset. -/
structure MatGates where
  seg : List Nat
  la : List Word

/-- seg(t) + 1, so that 0 stands for no reset, and LA[t]. -/
def State.matGates (s : State) (c : Nat) (cmd : TcCmd) : MatGates :=
  let p := scanPar cmd
  let la (t : Nat) : Word :=
    if (s.maskBit c p t 0).2 then fZero else
    let g := s.realAt c cmd.opb ⟨0, t, 0, 0⟩
    if p.gfn = 2 then g else logUnit (decay p.gfn g)
  (List.range p.len).foldl (fun m t =>
    if s.resets c p t 0 then ⟨m.seg ++ [t + 1], m.la ++ [fZero]⟩
    else if t = 0 then ⟨[0], [la 0]⟩
    else
      let sg := m.seg.getLast?.getD 0
      -- the sum starts anew behind a reset
      ⟨m.seg ++ [sg], m.la ++ [if sg = t then la t else fAdd (m.la.getLast?.getD fZero) (la t)]⟩) ⟨[], []⟩

/-- Step `u` reaches step `t`: no reset stands between them (R180). -/
def MatGates.live (m : MatGates) (t u : Nat) : Bool := decide (u ≤ t ∧ m.seg.getD t 0 = m.seg.getD u 0)

def MatGates.d (m : MatGates) (t u : Nat) : Word :=
  if m.live t u then expUnit (fSub (m.la.getD t fZero) (m.la.getD u fZero)) else fZero

def MatGates.e0 (m : MatGates) (t : Nat) : Word :=
  if m.seg.getD t 0 = 0 then expUnit (m.la.getD t fZero) else fZero

/-- A value behind a reset is multiplied by the zero that D has there; a special one does not pass it (R187; DEDUCED, assumption 37). -/
def behindReset (live : Bool) (x : Fp) : Fp := if live || !(x.isNan || x.isInf) then x else fpInt 0

/-- What a member of a matrix-valued chunk forms: X for H0, the outputs, the new state, and the rows that it quantised. -/
structure MatChunk where
  x : List (Nat × Nat × Word)
  o : List (Nat × Nat × Word)
  st : List (Nat × Nat × Dw)
  rows : List E4Row

/-- The matrix-valued chunk of member `c` (R180). -/
def State.matChunk (s : State) (lead c : Nat) (cmd : TcCmd) : MatChunk :=
  let p := scanPar cmd
  let part := (s.partOf lead).getD 0
  let ts := List.range p.len
  let g := s.matGates c cmd
  let held (t : Nat) : Bool := (s.maskBit c p t 0).2
  let el (m i t e : Nat) : Fp × Word :=
    match s.operand m i false with
    | .ok (d, f) => (s.elem (d.bin m) d f ⟨e, t, 0, 0⟩, s.scaleOf (d.bin m) d f t)
    | .error _ => (fpInt 0, fOne)
  let q (t e : Nat) : Fp × Word := el lead cmd.opa t e
  let k (t e : Nat) : Fp × Word := if held t then (fpInt 0, fOne) else el lead (cmd.opa + 1) t e
  let v (t e : Nat) : Fp × Word := if held t then (fpInt 0, fOne) else el c (cmd.opa + 2) t e
  let is := List.range 64
  -- X = Q Kᵀ in H0, and its drained value
  let xs := ts.map (fun t => ts.map (fun u => macSum (is.map (fun i => (q t i).1.mul (k u i).1))))
  let xv (t u : Nat) : Word := fMul (fMul ((xs.getD t []).getD u fZero) (q t 0).2) (k u 0).2
  -- Y, quantised per row
  let ys := ts.map (fun t => s.quantE4 part (ts.map (fun u => fMul (fp32Of (behindReset (g.live t u) (fpOf (xv t u)))) (g.d t u))))
  -- the state before the chunk, and its columns quantised
  let st0 := is.map (fun i => is.map (fun j => s.scanStart c cmd 0 i j))
  let cols := is.map (fun j => s.quantE4 part (is.map (fun i => ((st0.getD i []).getD j Dw.zero).value p.comp)))
  let z (t j : Nat) : Word :=
    let cl := cols.getD j E4Row.zero
    fMul (fMul (macSum (is.map (fun i => (cl.els.getD i (fpInt 0)).mul (q t i).1))) cl.sc) (q t 0).2
  let yv (t j : Nat) : Word :=
    let yr := ys.getD t E4Row.zero
    fMul (macSum (ts.map (fun u =>
      ((yr.els.getD u (fpInt 0)).mul (behindReset (g.live t u) (v u j).1)).mul (fpOf (v u 0).2)))) yr.sc
  let out := ts.flatMap (fun t => is.map (fun j =>
    (t, j, if held t then fZero
      else if g.seg.getD t 0 = 0 then fAdd (fMul (g.e0 t) (z t j)) (yv t j) else yv t j)))
  -- the carried state
  let last := p.len - 1
  let kt := ts.map (fun u => s.quantE4 part (is.map (fun i =>
    fMul (g.d last u) (fp32Of (behindReset (g.live last u) ((k u i).1.mul (fpOf (k u i).2)))))))
  let st := is.flatMap (fun i => is.map (fun j =>
    let h := (st0.getD i []).getD j Dw.zero
    let h := if g.seg.getD last 0 = 0 then dwMul p.comp (Dw.of (g.e0 last)) h else Dw.zero
    (i, j, ts.foldl (fun h u =>
      let kr := kt.getD u E4Row.zero
      let term := (((kr.els.getD i (fpInt 0)).mul (fpOf kr.sc)).mul (behindReset (g.live last u) (v u j).1)).mul (fpOf (v u 0).2)
      if p.comp then dwAdd true h (roundErr term) else Dw.of (fp32Of ((fpOf h.hi).add term))) h)))
  ⟨ts.flatMap (fun t => ts.map (fun u => (t, u, (xs.getD t []).getD u fZero))), out, st, ys ++ cols ++ kt⟩

/-! ## The command -/

/-- What one member forms: its outputs, the state it carries, the slots of H0, and the rows quantised on the way. -/
structure ScanForm where
  core : Nat
  outs : List (Nat × Nat × Nat × Out)
  st : List (Nat × Nat × Dw)
  h0 : List (Nat × Nat × Word)
  rows : List E4Row

/-- Form what member `c` of a SCAN writes. -/
def State.scanForm (s : State) (op : TcOp) (lead : Nat) (cmd : TcCmd) (c : Nat) : ScanForm :=
  if op = .scanMat then
    let m := s.matChunk lead c cmd
    let y := match s.operand c cmd.opc false with
      | .error _ => []
      | .ok (d, f) =>
        [(c, 1, d.bin c, m.o.foldl (fun o v => s.putValue (d.bin c) o d f ⟨v.2.1, v.1, 0, 0⟩ v.1 v.2.2) Out.empty)]
    ⟨c, y ++ s.stateOut c cmd m.st, m.st, m.x, m.rows⟩
  else
    let vs := s.scanValues op lead c cmd
    ⟨c, s.scanOut c cmd vs ++ s.stateOut c cmd (carried vs), carried vs, [], []⟩

/-- What the rows quantised by a command add to CLAMP, SAT_ELEMS and NAN_ELEMS of a partition (R51, R52, R61). -/
def State.countQuant (s : State) (part : Nat) (rs : List E4Row) : State :=
  ((s.bumpObj .clamp (part + 1) (rs.countP (·.clamped))).bumpObj .satElems (part + 1) (rs.map (·.sat)).sum).bumpObj .nanElems (part + 1)
    (rs.map (·.nan)).sum

/-- What a SCAN adds to the objects of R189. -/
def State.countScan (s : State) (lead : Nat) (cmd : TcCmd) (sts : List (List (Nat × Nat × Dw))) : State :=
  let p := scanPar cmd
  let k := (s.partOf lead).getD 0 + 1
  let rs := (List.range p.len).flatMap (fun t => (List.range p.rows).filter (fun r => (s.maskBit lead p t r).1))
  let bad := ((sts.flatMap (fun l => (l.filter (fun v => !v.2.2.finite)).map (·.1))).eraseDups).length
  ((s.bumpObj .scanRowsteps k (p.rows * p.len)).bumpObj .scanResets k rs.length).bumpObj .scanNonfinite k bad

/-- Run a SCAN: check what it reads, form the outputs and the state, commit the outputs, and carry the state. -/
def State.scanRun (s : State) (op : TcOp) (lead width : Nat) (cmd : TcCmd) (obs : List Obs) : Option Fail × State :=
  let ms := (List.range width).map (lead + ·)
  match s.tcReads obs (ms.flatMap (s.scanReads op lead cmd)) with
  | (some e, s) => (some e, s)
  | (none, s0) =>
    let fs := ms.map (s0.scanForm op lead cmd)
    match s0.tcCommits obs (fs.flatMap (·.outs)) with
    | (some e, s) => (some e, s)
    | (none, s) =>
      let s := fs.foldl (fun s f =>
        let s := s.carryState f.core cmd f.st
        if op = .scanMat then (s.zeroPlane f.core 0).setSlots f.core 0 f.h0 else s) s
      let s := s.countQuant ((s.partOf lead).getD 0) (fs.flatMap (·.rows))
      (none, s.countScan lead cmd (fs.map (·.st)))

end Sys2Proof.Machine
end

