-- ==== Sys2Proof/Machine/Gemm.lean ====
section
/-!
DEFINITION. What a GEMM checks, uses and computes (R22, R23, R35, R39, R56, R57, R58, R463, R465).
-/
namespace Sys2Proof.Machine

/-- The operand pairs of R22. -/
def pairOk (a b : Fmt) : Bool :=
  match a with
  | .int8 => b == .int8 || b == .uint8 || b == .int4
  | .uint8 => b == .int8 || b == .uint8 || b == .int4
  | .e4m3 => b == .e4m3 || b == .e5m2
  | .e5m2 => b == .e4m3 || b == .e5m2
  | .bf16 => b == .bf16
  | .fp16 => b == .fp16
  | _ => false

/-- Rows and columns of an output tile on one core (R22). -/
def tileSide (a : Fmt) : Nat := if a.bits = 16 then 32 else 64

/-- The slots of a plane between two neighbours of a tile: 2 for the upper-left PE of a 2 × 2 cluster (R22). -/
def tileStep (a : Fmt) : Nat := if a.bits = 16 then 2 else 1

/-- Add the products of one step of the array to a slot: an INT32 addition that saturates (R56), or one rounded FP32 addition
(R57); the products of an INT4 pair are summed first. -/
def macStep (isInt : Bool) (slot : Word) (ps : List Fp) : Word :=
  if isInt then accAdd slot ((ps.map Fp.int).foldl (· + ·) 0)
  else fp32Of ((fpOf slot).add (ps.foldl Fp.add (fpInt 0)))

/-- The steps of the positions `k0` to `k0 + n - 1`: one position a step, or two with INT4 weights, counted from the start of
the range (R22). -/
def kSteps (pair : Bool) (n : Nat) : List (List Nat) :=
  if pair then (List.range ((n + 1) / 2)).map (fun i => if 2 * i + 1 < n then [2 * i, 2 * i + 1] else [2 * i])
  else (List.range n).map (fun i => [i])

/-- What a GEMM of the lead `c` works on. -/
structure Gemm where
  m : Nat
  k : Nat
  n : Nat
  /-- 0: N-split. 1: K-split. 2: B transposed. -/
  sub : Nat
  width : Nat
  lead : Nat
deriving DecidableEq, Repr

def gemmOf (sub : Nat) (cmd : TcCmd) (lead width : Nat) : Gemm :=
  ⟨bits cmd.pa 15 0, bits cmd.pa 31 16, bits cmd.pb 15 0, sub, width, lead⟩

/-- The global columns of member `i`, in the order of its local columns: slices of 64 in every format (R39). -/
def Gemm.cols (g : Gemm) (i : Nat) : List Nat :=
  if g.sub = 1 then List.range g.n
  else (List.range g.n).filter (fun c => decide (c / 64 % g.width = i))

/-- κ of a K-split: K over the width, rounded up to an even number for INT4 weights (R39). -/
def Gemm.kappa (g : Gemm) (pair : Bool) : Nat :=
  let x := ceilDiv g.k g.width
  if pair ∧ x % 2 = 1 then x + 1 else x

/-- The K positions of member `i`: first and count (R39). -/
def Gemm.span (g : Gemm) (pair : Bool) (i : Nat) : Nat × Nat :=
  if g.sub = 1 then
    let lo := min g.k (i * g.kappa pair)
    (lo, min g.k ((i + 1) * g.kappa pair) - lo)
  else (0, g.k)

/-- The tiles of an output: `side` rows by `side` local columns of every member, of which the lead has the most (R35, R43). -/
def Gemm.tilesN (g : Gemm) (side : Nat) : Nat := ceilDiv (g.cols 0).length side
def Gemm.tiles (g : Gemm) (side : Nat) : Nat := ceilDiv g.m side * g.tilesN side

/-- Member `i` drains its own columns; in a K-split only the last member drains (R39). -/
def Gemm.drains (g : Gemm) (i : Nat) : Bool := g.sub != 1 || i + 1 == g.width

/-- The OPC of a command of the array, which is read and checked whether the command drains or not: no rule exempts FIN = 0 from the
constant area of R26 or from the format rule of R465 (assumption 24). -/
def State.drainOperand (s : State) (c : Nat) (cmd : TcCmd) (flat : Bool) : Except (Nat × Nat) (TDesc × Fmt) := do
  need ((Fmt.ofCode cmd.outfmt).isSome) 2 cmd.opc
  let (dc, fc) ← s.operand c cmd.opc flat
  need (decide (dc.fmtc = cmd.outfmt)) 2 cmd.opc
  .ok (dc, fc)

/-- The checks of member `i` of a GEMM and what it uses (R22, R29, R35, R54, R463, R465). -/
def State.gemmUses (s : State) (sub lead width i : Nat) (cmd : TcCmd) : Checked := do
  let g := gemmOf sub cmd lead width
  let c := lead + i
  need (g.m ≠ 0 ∧ g.k ≠ 0 ∧ g.n ≠ 0 ∧ (sub ≠ 1 ∨ 1 < width)) 1 0
  let (da, fa) ← s.operand lead cmd.opa true
  let (db, fb) ← s.operand c cmd.opb true
  need (pairOk fa fb) 2 cmd.opb
  let side := tileSide fa
  need (cmd.fin || decide (g.tiles side = 1)) 1 0
  let pair := fb == .int4
  let cols := (g.cols i).length
  let kn := (g.span pair i).2
  need (decide (g.k ≤ da.d0 ∧ g.m ≤ da.d1)) 3 da.index
  need (if sub = 2 then decide (cols ≤ db.d0 ∧ g.k ≤ db.d1) else decide (kn ≤ db.d0 ∧ cols ≤ db.d1)) 3 db.index
  let named := if cmd.haux = cmd.hdst then [cmd.hdst] else [cmd.hdst, cmd.haux]
  let aR := if i = 0 then da.ownRange fa ++ da.ownEntries fa g.m else []
  let bR := db.ownRange fb ++ db.ownEntries fb cols
  let (dc, fc) ← s.drainOperand c cmd true
  if cmd.fin && g.drains i then
    need (decide (cols ≤ dc.d0 ∧ g.m ≤ dc.d1)) 3 dc.index
    if i = 0 ∨ sub = 1 then s.needScales lead da fa g.m
    s.needScales c db fb cols
    s.needScales c dc fc g.m
    .ok ⟨aR ++ bR, dc.ownRange fc ++ dc.ownEntries fc g.m, named, named, 0⟩
  else .ok ⟨aR ++ bR, [], named, named, 0⟩

/-- How a command of the array sees its A operand and its output: element (row, K position) of A for a global column, the
index of an output element from its local column and row, and whether its descriptors have two dimensions. -/
structure View where
  a : State → Nat → Nat → Nat → Fp
  at_ : Nat → Nat → Ix
  flat : Bool

/-- The view of a GEMM (R463). -/
def gemmView (lead : Nat) (da : TDesc) (fa : Fmt) : View :=
  ⟨fun s r k _ => s.elem (da.bin lead) da fa ⟨k, r, 0, 0⟩, fun c r => ⟨c, r, 0, 0⟩, true⟩

/-- One tile as a member computes it: the slots of the rows and local columns of the tile, from zero or from the plane. -/
def State.gemmTile (s : State) (w : View) (g : Gemm) (cmd : TcCmd) (i : Nat) (da : TDesc) (fa : Fmt) (h : Nat) (fromPlane : Bool)
    (rows : List Nat) (cols : List (Nat × Nat)) : List (Nat × Nat × Word) :=
  let c := g.lead + i
  let dbf := match s.operand c cmd.opb w.flat with | .ok x => x | .error _ => (da, fa)
  let db := dbf.1
  let fb := dbf.2
  let side := tileSide fa
  let st := tileStep fa
  let kr := g.span (fb == .int4) i
  let steps := kSteps (fb == .int4) kr.2
  rows.flatMap (fun r => cols.map (fun (lc : Nat × Nat) =>
    let row := r % side * st
    let col := lc.2 % side * st
    let z := if fromPlane then s.slotAt c h row col else 0#32
    (row, col, steps.foldl (fun slot ks =>
      macStep fa.isInt slot (ks.map (fun k =>
        (w.a s r (kr.1 + k) lc.1).mul (s.elem (db.bin c) db fb
          (if g.sub = 2 then ⟨lc.2, k, 0, 0⟩ else ⟨k, lc.2, 0, 0⟩))))) z)))

/-- Add a member's partial tile to the incoming one (R39): a slot at a bound stays there (R56), and FP32 sums round once. -/
def addSlots (isInt : Bool) (a b : Word) : Word :=
  if isInt then (if accSaturated b then b else accAdd a b.toInt) else fAdd a b

/-- Drain a tile of member `i` into its output (R58): row scales of A from the lead, column scales of B and INV from the
member. -/
def State.gemmDrain (s : State) (w : View) (g : Gemm) (cmd : TcCmd) (i : Nat) (da : TDesc) (fa : Fmt) (o : Out)
    (tile : List (Nat × Nat × Word)) (places : List (Nat × Nat)) : Out :=
  let c := g.lead + i
  match s.operand c cmd.opb w.flat, s.operand c cmd.opc w.flat with
  | .ok (db, fb), .ok (dc, fc) =>
    (tile.zip places).foldl (fun o tp =>
      let v := tp.1.2.2
      let r := tp.2.1
      let lc := tp.2.2
      let t0 := if fa.isInt then fOfInt v.toInt else v
      let t1 := if da.scaled fa then fMul t0 (s.scaleOf (da.bin g.lead) da fa r) else t0
      let t2 := if db.scaled fb then fMul t1 (s.scaleOf (db.bin c) db fb lc) else t1
      s.drainElem (dc.bin c) o dc fc (w.at_ lc r) (if dc.rowscale then r else 0) t2 (fa.isInt && accSaturated v)) o
  | _, _ => o

/-- What the members have formed so far: the state with its planes, and each member's output. -/
structure GemmRun where
  s : State
  outs : List Out

/-- One tile of a GEMM: its hearth, its slots in every member, and its drain. -/
def gemmStep (w : View) (g : Gemm) (cmd : TcCmd) (da : TDesc) (fa : Fmt) (x : GemmRun) (t : Nat) : GemmRun :=
  let side := tileSide fa
  let tn := t % g.tilesN side
  let tm := t / g.tilesN side
  let h := if t % 2 = 0 then cmd.hdst else cmd.haux
  let first := decide (t = 0 ∨ (t = 1 ∧ cmd.hdst ≠ cmd.haux))
  let rows := (List.range side).filterMap (fun r => if tm * side + r < g.m then some (tm * side + r) else none)
  let colsOf (i : Nat) : List (Nat × Nat) :=
    ((g.cols i).zipIdx).filterMap (fun e => if e.2 / side = tn then some (e.1, e.2) else none)
  let tiles := (List.range g.width).map (fun i =>
    x.s.gemmTile w g cmd i da fa h (cmd.acc && first) rows (colsOf i))
  let s := (tiles.zipIdx).foldl (fun s e =>
    let c := g.lead + e.2
    let s := if cmd.acc && first then s else s.zeroPlane c h
    s.setSlots c h e.1) x.s
  if !cmd.fin then ⟨s, x.outs⟩
  else if g.sub = 1 then
    let sum := (tiles.drop 1).foldl (fun acc tile =>
      (acc.zip tile).map (fun ab => (ab.1.1, ab.1.2.1, addSlots fa.isInt ab.1.2.2 ab.2.2.2))) (tiles.headD [])
    let i := g.width - 1
    let places := rows.flatMap (fun r => (colsOf i).map (fun lc => (r, lc.2)))
    ⟨s, x.outs.set i (x.s.gemmDrain w g cmd i da fa (x.outs.getD i Out.empty) sum places)⟩
  else
    ⟨s, (tiles.zipIdx).map (fun e =>
      let places := rows.flatMap (fun r => (colsOf e.2).map (fun lc => (r, lc.2)))
      x.s.gemmDrain w g cmd e.2 da fa (x.outs.getD e.2 Out.empty) e.1 places)⟩

/-- What member `i` of a GEMM reads (R463): the elements below M, K and its columns, and the scale entries a drain uses. -/
def State.gemmReads (s : State) (g : Gemm) (cmd : TcCmd) (i : Nat) : List (Nat × Nat × Nat × List (Nat × Nat)) :=
  let c := g.lead + i
  match s.operand g.lead cmd.opa true, s.operand c cmd.opb true with
  | .ok (da, fa), .ok (db, fb) =>
    let cols := (g.cols i).length
    let kr := g.span (fb == .int4) i
    let aRuns := if i = 0 then (List.range g.m).map (fun r => da.rowRun fa ⟨0, r, 0, 0⟩ g.k) else []
    let aEnt := if i = 0 ∧ cmd.fin then da.entryRuns fa (List.range (if da.rowscale then g.m else 1)) else []
    let bRuns := if g.sub = 2 then (List.range kr.2).map (fun k => db.rowRun fb ⟨0, k, 0, 0⟩ cols)
      else (List.range cols).map (fun n => db.rowRun fb ⟨0, n, 0, 0⟩ kr.2)
    let bEnt := if cmd.fin && g.drains i then db.entryRuns fb (List.range (if db.rowscale then cols else 1)) else []
    [(g.lead, 0, da.bin g.lead, aRuns ++ aEnt), (c, 0, db.bin c, bRuns ++ bEnt)]
  | _, _ => []

/-- Run a command of the array through its tiles: check what it reads, form the tiles, and commit the outputs. -/
def State.tilesRun (s : State) (g : Gemm) (cmd : TcCmd) (flat : Bool) (view : TDesc → Fmt → View)
    (reads : List (Nat × Nat × Nat × List (Nat × Nat))) (obs : List Obs) : Option Fail × State :=
  let lead := g.lead
  let width := g.width
  match s.operand lead cmd.opa flat with
  | .error _ => (none, s)
  | .ok (da, fa) =>
    match s.tcReads obs reads with
    | (some e, s) => (some e, s)
    | (none, s) =>
      let w := view da fa
      let x := (List.range (g.tiles (tileSide fa))).foldl (gemmStep w g cmd da fa) ⟨s, List.replicate width Out.empty⟩
      let outs := (x.outs.zipIdx).filterMap (fun e =>
        let c := lead + e.2
        match s.operand c cmd.opc flat with
        | .ok (dc, _) => if cmd.fin && g.drains e.2 then some (c, 0, dc.bin c, e.1) else none
        | .error _ => none)
      match s.tcCommits obs outs with
      | (some e, s) => (some e, s)
      | (none, s) =>
        -- the planes that the tiles leave, and the products counted (R48); a 16-bit MAC occupies the four PEs of its cluster and
        -- counts four (DESIGN CHOICE, assumption 25)
        let s := { s with hearth := x.s.hearth }
        (none, (List.range width).foldl (fun s i =>
          let pair := match s.operand (lead + i) cmd.opb flat with | .ok (_, f) => f == .int4 | .error _ => false
          let per := if fa.bits = 16 then 4 else 1
          s.countProducts (lead + i) (g.m * (g.cols i).length * (g.span pair i).2 * per)) s)

/-- Run a GEMM. -/
def State.gemmRun (s : State) (sub lead width : Nat) (cmd : TcCmd) (obs : List Obs) : Option Fail × State :=
  let g := gemmOf sub cmd lead width
  s.tilesRun g cmd true (gemmView lead) ((List.range width).flatMap (fun i => s.gemmReads g cmd i)) obs

end Sys2Proof.Machine
end

