-- ==== Sys2Proof/Machine/Window.lean ====
section
/-!
DEFINITION. Window records and what CONV and POOL commands check, use and compute (R190 to R197).
-/
namespace Sys2Proof.Machine

/-! ## Window records -/

/-- A window record (R190). -/
structure WinRec where
  sh : Nat
  sw : Nat
  dilh : Nat
  dilw : Nat
  padt : Nat
  padb : Nat
  padl : Nat
  padr : Nat
  kh : Nat
  kw : Nat
  avgpad : Bool
  ih : Nat
  iw : Nat
  cin : Nat
  oh : Nat
  ow : Nat
deriving DecidableEq, Repr

/-- The output size of one direction (R191); 0 where the window does not fit. -/
def winOut (i p0 p1 dil k st : Nat) : Nat :=
  if i + p0 + p1 < dil * (k - 1) + 1 then 0 else (i + p0 + p1 - dil * (k - 1) - 1) / st + 1

/-- Read and check entry `i` of a core's operand table as a window record (R26, R191). -/
def State.winRec (s : State) (c i : Nat) : Except (Nat × Nat) WinRec := do
  need (decide (i < 992)) 3 i
  let w (k : Nat) : Nat := s.binNat c (s.optEntry c i + 4 * k) 4
  let b (k j : Nat) : Nat := bits (w k) (8 * j + 7) (8 * j)
  let r : WinRec := ⟨b 0 0, b 0 1, b 0 2, b 0 3, b 1 0, b 1 1, b 1 2, b 1 3, bits (w 2) 3 0, bits (w 2) 7 4, bit (w 2) 8,
    bits (w 3) 15 0, bits (w 3) 31 16, bits (w 4) 15 0, bits (w 5) 15 0, bits (w 5) 31 16⟩
  need (decide (bits (w 2) 31 9 = 0 ∧ bits (w 4) 31 16 = 0 ∧ w 6 = 0 ∧ w 7 = 0)) 3 i
  need (decide (r.sh ≠ 0 ∧ r.sw ≠ 0 ∧ r.dilh ≠ 0 ∧ r.dilw ≠ 0 ∧ r.kh ≠ 0 ∧ r.kw ≠ 0)) 3 i
  need (decide (1 ≤ r.oh ∧ 1 ≤ r.ow ∧ r.oh = winOut r.ih r.padt r.padb r.dilh r.kh r.sh ∧
    r.ow = winOut r.iw r.padl r.padr r.dilw r.kw r.sw)) 3 i
  .ok r

/-- The window record that a command names. -/
def winIndex (cmd : TcCmd) : Nat := bits cmd.pa 9 0

/-- The input position of window place (ky, kx) of an output pixel, or none in the padding. -/
def WinRec.pos (r : WinRec) (oy ox ky kx : Nat) : Option (Nat × Nat) :=
  let y := oy * r.sh + ky * r.dilh
  let x := ox * r.sw + kx * r.dilw
  if r.padt ≤ y ∧ y - r.padt < r.ih ∧ r.padl ≤ x ∧ x - r.padl < r.iw then some (y - r.padt, x - r.padl) else none

/-- The record agrees with the descriptor of the input (R191, R192). -/
def WinRec.input (r : WinRec) (d : TDesc) : Bool := decide (d.d0 = r.cin ∧ d.d1 = r.iw ∧ d.d2 = r.ih)

/-- It agrees with that of the output, of some channels and the same batch. -/
def WinRec.output (r : WinRec) (d : TDesc) (chans batch : Nat) : Bool :=
  decide (d.d0 = chans ∧ d.d1 = r.ow ∧ d.d2 = r.oh ∧ d.d3 = batch)

/-- The output pixels, and the index of an element from its channel and pixel (R192). -/
def WinRec.pixels (r : WinRec) (batch : Nat) : Nat := r.oh * r.ow * batch
def WinRec.outIx (r : WinRec) (ch m : Nat) : Ix := ⟨ch, m % r.ow, m / r.ow % r.oh, m / (r.ow * r.oh)⟩

/-- The input positions that some window covers, as rows and columns. -/
def WinRec.covered (r : WinRec) : List Nat × List Nat :=
  (((List.range r.oh).flatMap (fun o => (List.range r.kh).filterMap (fun k =>
      let y := o * r.sh + k * r.dilh
      if r.padt ≤ y ∧ y - r.padt < r.ih then some (y - r.padt) else none))).eraseDups,
   ((List.range r.ow).flatMap (fun o => (List.range r.kw).filterMap (fun k =>
      let x := o * r.sw + k * r.dilw
      if r.padl ≤ x ∧ x - r.padl < r.iw then some (x - r.padl) else none))).eraseDups)

/-- The byte runs of the input that a command reads. -/
def WinRec.runs (r : WinRec) (d : TDesc) (f : Fmt) : List (Nat × Nat) :=
  let cv := r.covered
  (List.range d.d3).flatMap (fun b => cv.1.flatMap (fun y => cv.2.map (fun x => d.rowRun f ⟨0, x, y, b⟩ d.d0)))

/-- An element of the input in a window: its channel and K position, with the channel fastest, then the window column, then
the row (R192); the zero point in the padding. -/
def State.winElem (s : State) (lead : Nat) (r : WinRec) (d : TDesc) (f : Fmt) (ch0 g m k : Nat) : Fp :=
  let p := r.outIx 0 m
  match r.pos p.i2 p.i1 (k / g / r.kw) (k / g % r.kw) with
  | some (y, x) => s.elem (d.bin lead) d f ⟨ch0 + k % g, x, y, p.i3⟩
  | none => fpInt 0

/-! ## CONV -/

/-- The group width (R193): 0 stands for all channels. -/
def convGroup (r : WinRec) (cmd : TcCmd) : Nat := if bits cmd.pb 15 0 = 0 then r.cin else bits cmd.pb 15 0

/-- Output channels. -/
def convChans (cmd : TcCmd) : Nat := bits cmd.pa 31 16

/-- The group rules of a dense CONV (R193). -/
def denseOk (r : WinRec) (cmd : TcCmd) : Bool :=
  let g := bits cmd.pb 15 0
  decide (convChans cmd ≠ 0) &&
  (g == 0 || (decide (64 ≤ g) && r.cin % g == 0 && convChans cmd % (r.cin / g) == 0 && convChans cmd / (r.cin / g) % 64 == 0))

/-- The rules of a diagonal CONV (R195). -/
def diagOk (r : WinRec) (cmd : TcCmd) : Bool :=
  let g := bits cmd.pb 15 0
  (g == 1 || g == 2 || g == 4 || g == 8) && r.cin % g == 0 && convChans cmd == r.cin &&
  decide (g * r.kh * r.kw ≤ 256) && cmd.fin && !cmd.acc

/-- The pairs of a diagonal CONV (R195). -/
def diagPair (a b : Fmt) : Bool :=
  match a with
  | .int8 => b == .int8
  | .uint8 => b == .int8
  | .e4m3 => b == .e4m3 || b == .e5m2
  | .e5m2 => b == .e4m3 || b == .e5m2
  | _ => false

/-- A dense CONV as a GEMM (R193). -/
def convGemm (r : WinRec) (cmd : TcCmd) (batch lead width : Nat) : Gemm :=
  ⟨r.pixels batch, convGroup r cmd * r.kh * r.kw, convChans cmd, 0, width, lead⟩

/-- The local channels of member `i` of a diagonal CONV (R196). -/
def diagCols (r : WinRec) (width i : Nat) : List Nat := (List.range r.cin).filter (fun ch => decide (ch / 64 % width = i))

/-- The checks of member `i` of a CONV and what it uses (R191 to R195). -/
def State.convUses (s : State) (diag : Bool) (lead width i : Nat) (cmd : TcCmd) : Checked := do
  let c := lead + i
  let r ← s.winRec lead (winIndex cmd)
  let (da, fa) ← s.operand lead cmd.opa false
  let (db, fb) ← s.operand c cmd.opb false
  need (if diag then diagOk r cmd else denseOk r cmd) 1 0
  need (if diag then diagPair fa fb else pairOk fa fb) 2 cmd.opb
  need (r.input da) 3 (winIndex cmd)
  let g := convGemm r cmd da.d3 lead width
  let side := tileSide fa
  need (diag || cmd.fin || decide (g.tiles side = 1)) 1 0
  let cols := if diag then (diagCols r width i).length else (g.cols i).length
  need (decide (db.d0 = g.k ∧ (db.d1 = cols ∨ cols = 0))) 3 cmd.opb
  let named := if cmd.haux = cmd.hdst then [cmd.hdst] else [cmd.hdst, cmd.haux]
  let rows := r.pixels da.d3
  let aR := if i = 0 then da.ownRange fa ++ da.ownEntries fa rows else []
  let bR := db.ownRange fb ++ db.ownEntries fb cols
  let (dc, fc) ← s.drainOperand c cmd false
  if cmd.fin then
    need (cols == 0 || r.output dc cols da.d3) 3 cmd.opc
    if i = 0 then s.needScales lead da fa rows
    s.needScales c db fb cols
    s.needScales c dc fc rows
    .ok ⟨aR ++ bR, dc.ownRange fc ++ dc.ownEntries fc rows, named, named, 0⟩
  else .ok ⟨aR ++ bR, [], named, named, 0⟩

/-- What member `i` of a CONV reads. -/
def State.convReads (s : State) (diag : Bool) (r : WinRec) (lead width : Nat) (cmd : TcCmd) (i : Nat) :
    List (Nat × Nat × Nat × List (Nat × Nat)) :=
  let c := lead + i
  match s.operand lead cmd.opa false, s.operand c cmd.opb false with
  | .ok (da, fa), .ok (db, fb) =>
    let g := convGemm r cmd da.d3 lead width
    let cols := if diag then (diagCols r width i).length else (g.cols i).length
    let ent := if cmd.fin then da.entryRuns fa (List.range (if da.rowscale then g.m else 1)) else []
    (if i = 0 then [(lead, 0, da.bin lead, r.runs da fa ++ ent)] else []) ++
    [(c, 0, db.bin c, (List.range cols).map (fun n => db.rowRun fb ⟨0, n, 0, 0⟩ g.k) ++
      (if cmd.fin then db.entryRuns fb (List.range (if db.rowscale then cols else 1)) else []))]
  | _, _ => []

/-- The view of a dense CONV (R193): the A operand that the Walker assembles, within the group of the column. -/
def convView (r : WinRec) (cmd : TcCmd) (lead : Nat) (da : TDesc) (fa : Fmt) : View :=
  let g := convGroup r cmd
  let per := convChans cmd / (r.cin / g)
  ⟨fun s m k n => s.winElem lead r da fa (n / per * g) g m k, fun ch m => r.outIx ch m, false⟩

/-- Run a dense CONV. -/
def State.convRun (s : State) (lead width : Nat) (cmd : TcCmd) (obs : List Obs) : Option Fail × State :=
  match s.winRec lead (winIndex cmd), s.operand lead cmd.opa false with
  | .ok r, .ok (da, _) =>
    s.tilesRun (convGemm r cmd da.d3 lead width) cmd false (convView r cmd lead)
      ((List.range width).flatMap (s.convReads false r lead width cmd)) obs
  | _, _ => (none, s)

/-- A tile of a diagonal CONV (R195): its first output pixel, its pixels, and the number of its channel tile. -/
structure DiagTile where
  m : Nat
  n : Nat
  t : Nat
deriving DecidableEq, Repr

/-- The tiles of a member: channel tile by channel tile, and within one the output rows in order. -/
def diagTiles (r : WinRec) (batch width i : Nat) : List DiagTile :=
  ((List.range (ceilDiv r.cin 64)).filter (fun t => decide (t % width = i))).flatMap (fun t =>
    (List.range (r.oh * batch)).flatMap (fun row => (List.range (ceilDiv r.ow 8)).map (fun x =>
      ⟨row * r.ow + 8 * x, min 8 (r.ow - 8 * x), t⟩)))

/-- One tile of a diagonal CONV in member `i`: the slots of its blocks, and its drain (R195). -/
def State.diagTile (s : State) (r : WinRec) (cmd : TcCmd) (lead width i : Nat) (da : TDesc) (fa : Fmt) (db : TDesc) (fb : Fmt)
    (dc : TDesc) (fc : Fmt) (x : State × Out) (e : DiagTile × Nat) : State × Out :=
  let c := lead + i
  let t := e.1
  let g := bits cmd.pb 15 0
  let h := if e.2 % 2 = 0 then cmd.hdst else cmd.haux
  let chans := (List.range 64).filter (fun j => decide (64 * t.t + j < r.cin))
  let slots := chans.flatMap (fun j => (List.range t.n).map (fun p =>
    let ch := 64 * t.t + j
    let lc := 64 * (t.t / width) + j
    (p, j, lc, (List.range (g * r.kh * r.kw)).foldl (fun a k =>
      macStep fa.isInt a [(s.winElem lead r da fa (ch / g * g) g (t.m + p) k).mul
        (s.elem (db.bin c) db fb ⟨k, lc, 0, 0⟩)]) 0#32)))
  let st := (x.1.zeroPlane c h).setSlots c h (slots.map (fun v => (8 * (v.2.1 / 8) + v.1, v.2.1, v.2.2.2)))
  (st, slots.foldl (fun o v =>
    let m := t.m + v.1
    let lc := v.2.2.1
    let acc := v.2.2.2
    let t0 := if fa.isInt then fOfInt acc.toInt else acc
    let t1 := if da.scaled fa then fMul t0 (s.scaleOf (da.bin lead) da fa m) else t0
    let t2 := if db.scaled fb then fMul t1 (s.scaleOf (db.bin c) db fb lc) else t1
    s.drainElem (dc.bin c) o dc fc (r.outIx lc m) (if dc.rowscale then m else 0) t2 (fa.isInt && accSaturated acc)) x.2)

/-- Run a diagonal CONV. -/
def State.diagRun (s : State) (lead width : Nat) (cmd : TcCmd) (obs : List Obs) : Option Fail × State :=
  match s.winRec lead (winIndex cmd), s.operand lead cmd.opa false with
  | .ok r, .ok (da, fa) =>
    match s.tcReads obs ((List.range width).flatMap (s.convReads true r lead width cmd)) with
    | (some e, s) => (some e, s)
    | (none, s) =>
      let x := (List.range width).foldl (fun (x : State × List (Nat × Nat × Nat × Out)) i =>
        let c := lead + i
        match s.operand c cmd.opb false, s.operand c cmd.opc false with
        | .ok (db, fb), .ok (dc, fc) =>
          let y := ((diagTiles r da.d3 width i).zipIdx).foldl (s.diagTile r cmd lead width i da fa db fb dc fc) (x.1, Out.empty)
          (y.1, x.2 ++ [(c, 0, dc.bin c, y.2)])
        | _, _ => x) (s, [])
      match s.tcCommits obs x.2 with
      | (some e, s) => (some e, s)
      | (none, s) =>
        (none, (List.range width).foldl (fun s i =>
          s.countProducts (lead + i) (r.pixels da.d3 * (diagCols r width i).length * bits cmd.pb 15 0 * r.kh * r.kw))
          { s with hearth := x.1.hearth })
  | _, _ => (none, s)

/-! ## POOL -/

/-- The input formats of POOL (R197). -/
def poolInput (f : Fmt) : Bool := f == .int8 || f == .uint8 || f == .bf16 || f == .fp16 || f == .fp32

/-- The checks of one member of a POOL (R191, R197).  OPB not 0 is taken as an illegal command, the spec giving it no effect (DESIGN
CHOICE, assumption 24). -/
def State.poolUses (s : State) (c : Nat) (cmd : TcCmd) : Checked := do
  need (decide (cmd.opb = 0)) 1 0
  need ((Fmt.ofCode cmd.outfmt).isSome) 2 cmd.opc
  let r ← s.winRec c (winIndex cmd)
  let (da, fa) ← s.operand c cmd.opa false
  need (poolInput fa) 2 cmd.opa
  let (dc, fc) ← s.operand c cmd.opc false
  need (decide (dc.fmtc = cmd.outfmt)) 2 cmd.opc
  need (r.input da && r.output dc r.cin da.d3) 3 (winIndex cmd)
  let rows := r.pixels da.d3
  s.needScales c da fa rows
  s.needScales c dc fc rows
  .ok ⟨da.ownRange fa ++ da.ownEntries fa rows, dc.ownRange fc ++ dc.ownEntries fc rows, [], [], 0⟩

/-- What one member of a POOL reads. -/
def State.poolReads (s : State) (cmd : TcCmd) (c : Nat) : List (Nat × Nat × Nat × List (Nat × Nat)) :=
  match s.winRec c (winIndex cmd), s.operand c cmd.opa false with
  | .ok r, .ok (da, fa) =>
    [(c, 1, da.bin c, r.runs da fa ++ da.entryRuns fa (List.range (if da.rowscale then r.pixels da.d3 else 1)))]
  | _, _ => []

/-- The result of one window (R197): the values of its places in row-major order, none in the padding. -/
def poolValue (avg avgpad : Bool) (l : List (Option Word)) : Word :=
  let vs := l.filterMap id
  if avg then
    let n := if avgpad then l.length else vs.length
    if n = 0 then fZero
    else fMul ((l.map (fun v => v.getD fZero)).foldl fAdd fZero) (fDiv fOne (fOfInt n))
  else match vs with
    | [] => fZero
    | a :: t => t.foldl fMax (fMax a a)

/-- What one member of a POOL writes. -/
def State.poolOut (s : State) (avg : Bool) (cmd : TcCmd) (c : Nat) : Option (Nat × Nat × Nat × Out) :=
  match s.winRec c (winIndex cmd), s.operand c cmd.opa false, s.operand c cmd.opc false with
  | .ok r, .ok (da, fa), .ok (dc, fc) =>
    let n := r.pixels da.d3 * r.cin
    some (c, 1, dc.bin c, (List.range n).foldl (fun o e =>
      let ch := e % r.cin
      let m := e / r.cin
      let x := r.outIx ch m
      let places := (List.range (r.kh * r.kw)).map (fun k =>
        (r.pos x.i2 x.i1 (k / r.kw) (k % r.kw)).map (fun p =>
          let v := fp32Of (s.elem (da.bin c) da fa ⟨ch, p.2, p.1, x.i3⟩)
          if da.scaled fa then fMul v (s.scaleOf (da.bin c) da fa m) else v))
      s.vecPut .vecCopy (dc.bin c) o dc fc e (poolValue avg r.avgpad places)) Out.empty)
  | _, _, _ => none

/-- Run a POOL. -/
def State.poolRun (s : State) (op : TcOp) (lead width : Nat) (cmd : TcCmd) (obs : List Obs) : Option Fail × State :=
  s.runMembers lead width obs (s.poolReads cmd) (fun s c => s.poolOut (op == .poolAvg) cmd c)

end Sys2Proof.Machine
end

