-- ==== Sys2Proof/Machine/TcIssue.lean ====
section
/-!
DEFINITION. The issue unit of a tensor core (spec/02, spec/04, spec/05, spec/06, spec/11): the checks of a command, the waits at
issue, its effect, faults (R46), the switch to the fallback (R125, R126) and the decision at a stile (R225).
-/
namespace Sys2Proof.Machine

/-! ## Kinds of command -/

/-- The array commands of R38. -/
def TcOp.isArray (op : TcOp) : Bool :=
  match op with
  | .gemmN | .gemmK | .gemmT | .convDense | .convDiag | .attnFwd | .scanDiag | .scanMat | .scanStep => true
  | _ => false

/-- The commands whose data move as tier requests (R76, R124, R155, R462). -/
def TcOp.isTier (op : TcOp) : Bool :=
  match op with
  | .dmaIn | .dmaOut | .attnFwd | .attnBwd | .spillOut | .spillIn => true
  | _ => false

/-- The commands of SCAN. -/
def TcOp.isScan (op : TcOp) : Bool := op == .scanDiag || op == .scanMat || op == .scanStep

/-- The CLASS and SUBOP of an operation (R29); a reserved one has no code of its own, and 0xB stands for it. -/
def TcOp.code (op : TcOp) : Nat × Nat :=
  match op with
  | .gemmN => (0, 0) | .gemmK => (0, 1) | .gemmT => (0, 2)
  | .convDense => (1, 0) | .convDiag => (1, 1)
  | .attnFwd => (2, 0) | .attnBwd => (2, 1)
  | .scanDiag => (3, 0) | .scanMat => (3, 1) | .scanStep => (3, 2)
  | .vecCopy => (4, 0) | .vecAdd => (4, 1) | .vecMul => (4, 2) | .vecFma => (4, 3)
  | .vecMax => (4, 4) | .vecMin => (4, 5) | .vecExp => (4, 6) | .vecLog => (4, 7)
  | .vecRecip => (4, 8) | .vecSigmoid => (4, 9) | .vecTanh => (4, 10) | .vecSilu => (4, 11)
  | .vecGelu => (4, 12) | .vecSum => (4, 13) | .vecMaxD0 => (4, 14) | .vecRequant => (4, 15)
  | .poolMax => (5, 0) | .poolAvg => (5, 1)
  | .dmaIn => (6, 0) | .dmaOut => (6, 1) | .dmaBin => (6, 2) | .dmaGate => (6, 3)
  | .waitTally => (7, 0)
  | .scaleAbsMax => (8, 0) | .scaleLoad => (8, 1) | .scaleAdapt => (8, 2)
  | .spillOut => (9, 0) | .spillIn => (9, 1)
  | .stile => (10, 0)
  | .reserved => (11, 0)

/-- A FUR misuse (R38, R156). -/
def furMisuse (op : TcOp) (inFurrow fur : Bool) : Bool :=
  (!inFurrow && fur) ||
  (inFurrow && (if op == .attnBwd then fur else (op.isArray || op == .stile) && !fur))

/-! ## What a command uses -/

/-- The checks of member `i` and what it uses; a reserved operation is an illegal command (R29, R46). -/
def State.opUses (s : State) (op : TcOp) (lead width i : Nat) (cmd : TcCmd) : Checked :=
  match op with
  | .gemmN => s.gemmUses 0 lead width i cmd
  | .gemmK => s.gemmUses 1 lead width i cmd
  | .gemmT => s.gemmUses 2 lead width i cmd
  | .convDense => s.convUses false lead width i cmd
  | .convDiag => s.convUses true lead width i cmd
  | .attnFwd => s.attnUses lead width i cmd
  | .attnBwd => s.attnBackUses (lead + i) cmd
  | .scanDiag | .scanMat | .scanStep => s.scanUses op lead width i cmd
  | .poolMax | .poolAvg => s.poolUses (lead + i) cmd
  | .dmaIn | .dmaOut | .dmaBin | .dmaGate => s.dmaUses op (lead + i) cmd
  | .scaleAbsMax | .scaleLoad | .scaleAdapt => s.scaleUses op (lead + i) cmd
  | .spillOut | .spillIn => s.spillUses op (lead + i) i cmd
  | .stile =>
    let stcount := (((s.core lead).job).map (·.tract.stcount)).getD 0
    if bits cmd.pa 15 0 < stcount then .ok Uses.none else .error (1, 0)
  | .waitTally => .ok Uses.none
  | .reserved => .error (1, 0)
  | _ => s.vecUses op (lead + i) cmd

/-- The entries that a member's scoreboard needs (R30). -/
def Uses.entries (u : Uses) : Nat := u.reads.length + u.writes.length

/-- The hearths as a mask. -/
def hearthMask (hs : List Nat) : Nat := ((List.range 4).filter (fun h => hs.contains h)).foldl (fun m h => m + 2 ^ h) 0

/-- Two grain ranges overlap. -/
def rangesMeet (a b : Nat × Nat) : Bool := decide (a.1 < b.1 + b.2 ∧ b.1 < a.1 + a.2)
def anyMeet (l r : List (Nat × Nat)) : Bool := l.any (fun a => r.any (rangesMeet a))

/-- The checks of every member in ascending order; the first fault with its position, or what each uses. -/
def State.usesAll (s : State) (op : TcOp) (lead width : Nat) (cmd : TcCmd) : Except (Nat × Nat × Nat) (List Uses) :=
  (List.range width).foldr (fun i acc =>
    match s.opUses op lead width i cmd with
    | .error e => .error (i, e)
    | .ok u => if 256 < u.entries then .error (i, 1, 0) else acc.map (u :: ·)) (.ok [])

/-! ## The generation check and the waits -/

/-- What the generation check of R73 decides for one member: the WORK hearth of a matrix-valued SCAN is checked as a WORK hearth (R176),
and HGEN = 0 on the state plane of a SCAN is a mismatch whatever lease holds it (R187). -/
def State.genChecks (s : State) (op : TcOp) (c part : Nat) (cmd : TcCmd) (hs : List Nat) : List GenCheck :=
  hs.map (fun h =>
    if op = .scanMat ∧ h = 0 ∧ cmd.hdst ≠ 0 then s.genCheck c h 0 part
    else if op.isScan && cmd.hgen == 0 then .fault
    else s.genCheck c h cmd.hgen part)

/-- A member waits under R30, R31 or SER. -/
def State.boardWaits (s : State) (c : Nat) (ser : Bool) (u : Uses) : Bool :=
  let x := s.core c
  (ser && !x.inflight.isEmpty) ||
  x.inflight.any (fun f => anyMeet u.reads f.writes || anyMeet u.writes f.writes || anyMeet u.writes f.reads) ||
  decide (256 < u.entries + (x.inflight.map (fun f => f.reads.length + f.writes.length)).sum) ||
  u.named.any (fun h => x.inflight.any (fun f => bit f.hearths h))

/-- A member has no free DMA descriptor (R33), or an ATTN waits for an earlier DMA 0x01 (R155). -/
def State.dmaWaits (s : State) (op : TcOp) (c : Nat) (u : Uses) : Bool :=
  let x := s.core c
  decide (1024 < u.dma + (x.inflight.map (·.dma)).sum) ||
  ((op == .attnFwd || op == .attnBwd) && x.inflight.any (fun f => f.op == .dmaOut))

/-- A command in flight holds a hearth of a lease: the swap that wants it starts when that command has finished (R79). -/
def State.hearthHeld (s : State) (l : Lease) : Bool :=
  l.cores.any (fun c => (s.core c).inflight.any (fun f => l.hearths.any (bit f.hearths)))

/-- Start the swap of a lease that a command waits for, unless a command in flight holds its hearth (R75, R79). -/
def State.demandSwap (s : State) (l : Lease) : State := if s.hearthHeld l then s else s.startSwap l

/-- What a WAIT_TALLY waits for on each member: its tally is at least the target (R102). -/
def State.tallyMet (s : State) (ms : List Nat) (cmd : TcCmd) : Bool :=
  ms.all (fun c => decide (cmd.pa ≤ s.tally c (bits cmd.pb 9 0)))

/-! ## Faults -/

/-- The status of a fault code (R46). -/
def faultStatus (code : Nat) : Nat := if code = 6 then 5 else if code = 4 ∨ code = 5 ∨ code = 9 then 3 else 2

/-- Record a fault in TC_FAULT and FAULT_INFO, unless a fault is held (R461). -/
def State.recordFault (s : State) (c code tag member mcode wher : Nat) : State :=
  if s.flag .tcFaultValid c then s else
  s.setFlds c [(.tcFaultValid, 1), (.tcFaultCode, code), (.tcFaultTag, tag), (.faultInfoMember, member),
    (.faultInfoMcode, mcode), (.faultInfoWhere, wher)]

/-- A fault of member `i` of the command at lead `c` (R46): recorded at the member, and for a furrow command with code 0x08 at
the lead; the event is logged and the job ends. -/
def State.tcFault (s : State) (c i : Nat) (fur misuse : Bool) (tag code wher : Nat) (own : Bool) : State :=
  let wide := fur && decide (1 < (s.furrowOf c).2) && !misuse
  let s := if wide ∧ i ≠ 0 then s.recordFault (c + i) code tag 0 0 wher else s
  let lc := if wide then 8 else code
  let m := if wide then i else 0
  let mc := if wide then code else 0
  let s := s.recordFault c lc tag m mc wher
  let info := m * 2 ^ 29 + mc * 2 ^ 25 + wher % 2 ^ 25
  let s := s.logIt .coreFault (4 + c) 8 lc tag info
  let s := if code = 5 then s.logIt .binError (4 + c) 8 (c + i) wher code else s
  s.endJob c ⟨faultStatus code, 1, lc + tag * 256, info, own && (code == 4 || code == 5)⟩

/-! ## The fallback -/

/-- Switch the job of core `c` to its fallback (R126), when it has one and is not on it; a guarded job switches from its next
frame, and its switch is counted once.  True when the job issues nothing further. -/
def State.switchFallback (s : State) (c : Nat) : Bool × State :=
  match (s.core c).job with
  | none => (false, s)
  | some j =>
    if j.fbTract.isNone ∨ j.degraded = true ∨ j.switching = true then (j.switching, s) else
    match j.net with
    | some (k, _) =>
      (false, if (s.net k).fallbackNext then s else
        ((s.setNet k { s.net k with fallbackNext := true }).bumpFld .urCntCount 4 1).bumpObj .fallbacks (j.part + 1) 1)
    | none =>
      let s := s.updCore c (fun x => { x with
        job := some { j with switching := true }, queue := [], wait := .none, tallyWait := none })
      (true, (s.bumpFld .urCntCount 4 1).bumpObj .fallbacks (j.part + 1) 1)

/-- The stored bytes that a run of the Unified Range moves, and those of them that come from DRAM and not from a frame (R125). -/
def State.storedRun (s : State) (off n : Nat) : Nat × Nat :=
  (pagesOfRun off n).foldl (fun a p =>
    let r := runInPage off n p
    let b := s.storedShare p (grainCount r.1 r.2)
    (a.1 + b, a.2 + (if (s.frameHolding p).isSome then 0 else b))) (0, 0)

/-- The runs that member `i` of an ATTN fetches: the blocks of its entries that each tile reads (R152, R155, R156, R161). -/
def State.attnRuns (s : State) (op : TcOp) (lead width i : Nat) (cmd : TcCmd) : List (Nat × Nat) :=
  let c := lead + i
  match s.operand lead cmd.opa false, s.pageList c cmd.opb with
  | .ok (da, _), .ok l =>
    let p := attnPar cmd
    let mine := if op = .attnBwd then List.range l.count else (List.range l.count).filter (fun k => k % width = i)
    (List.range (ceilDiv da.d1 64)).flatMap (fun t =>
      mine.flatMap (fun k =>
        let e := s.listEntry l k
        (tileBlocks p (min (64 * t + 63) (da.d1 - 1)) e).1.flatMap (fun j => blockRuns l p.d e j)))
  | _, _ => []

/-- The stored bytes of the tier requests of member `i` of a command, and those that DRAM delivers (R125): a spill slot stays in the
Granary. -/
def State.tierBytes (s : State) (op : TcOp) (lead width i : Nat) (cmd : TcCmd) : Nat × Nat :=
  let run (off : Except (Nat × Nat) Nat) : Nat × Nat := match off with | .ok o => s.storedRun o (256 * cmd.pa) | .error _ => (0, 0)
  match op with
  | .dmaIn => run (s.dmaUr (lead + i) cmd.opa)
  | .dmaOut => run (s.dmaUr (lead + i) cmd.opc)
  | .spillOut | .spillIn => (16384, 0)
  | .attnFwd | .attnBwd =>
    (s.attnRuns op lead width i cmd).foldl (fun a r =>
      let b := s.storedRun r.1 r.2
      (a.1 + b.1, a.2 + b.2)) (0, 0)
  | _ => (0, 0)

/-- The stored bytes that a command adds to the requester: those of every member (R125). -/
def State.tierTotal (s : State) (op : TcOp) (lead width : Nat) (cmd : TcCmd) : Nat :=
  ((List.range width).map (fun i => (s.tierBytes op lead width i cmd).1)).sum

/-- The stored bytes queued in the requester of a partition: those of its commands in flight (R125). -/
def State.queuedBytes (s : State) (part : Nat) : Nat :=
  (((List.range 8).filter (fun c => s.partOf c == some part)).flatMap (fun c => (s.core c).inflight.map (·.bytes))).sum

/-- What DRAM has delivered to a partition over the last 100 µs (R125). -/
def State.deliveredNow (s : State) (part : Nat) : Nat :=
  (((SMap.get s.ur.delivered part []).filter (fun x => decide (s.time ≤ x.1 + 100000))).map (·.2)).sum

/-- Note what DRAM has delivered to a partition, and forget what is older than 100 µs. -/
def State.noteDelivered (s : State) (part n : Nat) : State :=
  if n = 0 then s else
  let l := (SMap.get s.ur.delivered part []).filter (fun x => decide (s.time ≤ x.1 + 100000))
  { s with ur := { s.ur with delivered := SMap.put s.ur.delivered part (l ++ [(s.time, n)]) [] } }

/-- The requests of a segment are too late at issue (R125): now + B / Rp > D, with Rp the rate of the last 100 µs, or 341 bytes a nanosecond
when nothing was delivered in that time. -/
def State.lateAtIssue (s : State) (c b : Nat) : Bool :=
  match s.deadlineOf c with
  | none => false
  | some d =>
    let p := (s.partOf c).getD 8
    let q := s.queuedBytes p + b
    let r := s.deliveredNow p
    if r = 0 then decide (d * 341 < s.time * 341 + q) else decide (d * r < s.time * r + q * 100000)

/-! ## Stiles -/

/-- A stile record (R217). -/
structure StileRec where
  stageEnd : Nat
  reserve : Nat
  livelist : Nat
  livecount : Nat
  hlive : Nat
  ww : Nat
deriving DecidableEq, Repr

/-- The stile record of an index in the Bin of core `c`. -/
def State.stileRec (s : State) (c stbase i : Nat) : StileRec :=
  let at_ := stbase + 16 * i
  ⟨s.binNat c at_ 4, s.binNat c (at_ + 4) 4, bits (s.binNat c (at_ + 8) 4) 24 0, bits (s.binNat c (at_ + 12) 1) 5 0,
    bits (s.binNat c (at_ + 13) 1) 3 0, bits (s.binNat c (at_ + 14) 1) 4 0⟩

/-- The live ranges of a record in the Bin of core `c`, as first grain and count. -/
def State.liveRanges (s : State) (c : Nat) (r : StileRec) : List (Nat × Nat) :=
  (List.range (min r.livecount 32)).map (fun k =>
    (bits (s.binNat c (r.livelist + 8 * k) 4) 16 0, bits (s.binNat c (r.livelist + 8 * k + 4) 4) 16 0))

/-- Save the live hearths and the live grains of the members (R227, R228). -/
def State.saveLive (s : State) (c stbase i : Nat) : SaveArea :=
  (s.members c).foldl (fun a m =>
    let r := s.stileRec m stbase i
    let hs := (workHearths (s.fld .hearthCfgSplit m)).filter (fun h => bit r.hlive h)
    let rs := s.liveRanges m r
    let gs := rs.flatMap (fun x => (List.range x.2).map (fun k => (m, x.1 + k)))
    let a := hs.foldl (fun (a : SaveArea) h => { a with
      planes := SMap.copy a.planes (planeKey m h 0 0) s.hearth.plane (planeKey m h 0 0) 4096
      hearths := a.hearths ++ [(m, h)] }) a
    gs.foldl (fun a g => { a with
      bytes := SMap.copy a.bytes (binAddr m (g.2 * 256)) s.bin.mem (binAddr m (g.2 * 256)) 256
      grains := a.grains ++ [g]
      bad := a.bad || s.poisoned m g.2 || SMap.get s.bin.sealX (grainKey m g.2) 0#32 != 0#32 }) a) ⟨[], [], [], [], false⟩

/-- The class of the job that runs on a core: 0 for a guarded copy. -/
def State.runningClass (s : State) (j : Job) : Nat :=
  match j.slot with
  | some i => s.fld .rtWheelClass (j.part * 64 + i)
  | none => 0

/-- The running job of a core is pre-empted at its stile (R224, R225): the pick, among whose candidates it stands itself, is another
job of a higher class, or of the same class when the slice is used.  A self-test segment is BACKGROUND work (R234). -/
def State.preempts (s : State) (c : Nat) (j : Job) (skip : List Nat) : Bool :=
  match j.slot with
  | none => false
  | some i =>
    let cls := s.runningClass j
    let used := decide (s.fld .rtWheelSlice (j.part * 64 + i) * 1000 ≤ s.time - j.since)
    match s.pick j.part c skip (some i) with
    | none => false
    | some (.copy _ _) => true
    | some .test => cls == 3 && used
    | some (.slot k) =>
      let pc := s.fld .rtWheelClass (j.part * 64 + k)
      k != i && (decide (pc < cls) || (pc == cls && used))

/-- How long the save at a stile takes, from the STILE (R229): the decision, and the largest live set of a member at 64 GB/s. -/
def State.saveTime (s : State) (c stbase i : Nat) : Nat :=
  400 + ((s.members c).map (fun m =>
    let r := s.stileRec m stbase i
    let hs := (workHearths (s.fld .hearthCfgSplit m)).filter (fun h => bit r.hlive h)
    hs.length * 256 + ((s.liveRanges m r).map (·.2)).sum * 4)).foldl max 0

/-- Suspend the running job at its stile (R68, R223, R228): its live set is saved, its WORK leases end, and its slot keeps it. -/
def State.suspendJob (s : State) (c index : Nat) (j : Job) : State :=
  let save := s.saveLive c j.tract.stbase index
  let rest := 16 * ((s.core c).queue.length - 1)
  let j := { j with preempted := true, fetch := j.fetch - rest }
  let x : Suspended := ⟨j, save⟩
  let s := (s.members c).foldl (fun s m => (s.releaseWork m).setFld .tcCtrlRun m 0) s
  let s := s.updCore c (fun y => { y with
    job := none, queue := [], wait := .none, switching := 1, switchAt := s.time, outgoing := some x })
  let s := match j.slot with
    | some i => s.setWslot j.part i { s.wslot j.part i with running := false, suspended := some x }
    | none => s
  (s.bumpFld .rtCntCount 1 1).bumpObj .preemptions (j.part + 1) 1

/-- A STILE is taken, every earlier command having completed (R124, R213, R216, R217, R225, R309). -/
def State.takeStile (s : State) (c : Nat) (cmd : TcCmd) : State :=
  match (s.core c).job with
  | none => s
  | some j =>
    let i := bits cmd.pa 15 0
    let r := s.stileRec c j.tract.stbase i
    let gap := s.time - j.lastStile
    let s := s.setObj .stileGapMax (j.part + 1) (max (s.obj .stileGapMax (j.part + 1)) gap)
    let j := { j with
      progress := s.binNat c (j.tract.argbase + 24) 4, lastStile := s.time, stage := some (r.stageEnd, r.reserve) }
    let s := s.updCore c (fun x => { x with job := some j })
    let s := s.wwKickJob j.id
    if (s.core c).ending.isSome then s else
    let s := if s.fld .wwArm r.ww = 0 then s.wwArm r.ww (some j.id) else s
    if (s.core c).lastStileDue then s.endJob c ⟨2, 7, 2, 0, false⟩ else
    let tooMany := (s.members c).any (fun m =>
      decide (4096 < ((s.liveRanges m (s.stileRec m j.tract.stbase i)).map (·.2)).sum))
    if tooMany then (s.bumpFld .rtCntCount 2 1).bumpObj .stileOver (j.part + 1) 1 else
    let s := s.servePart j.part
    match (s.core c).job with
    | none => s
    | some j =>
      if s.pick j.part c [] j.slot = some .test ∧ s.testDeferred c (s.saveTime c j.tract.stbase i) = true then
        let s := if s.preempts c j [] then s.deferTest j.part else s
        if s.preempts c j [64] then s.suspendJob c i j else s
      else if s.preempts c j [] then s.suspendJob c i j else s

/-! ## What issue reads -/

/-- The entries of its operand table that member `i` reads for a command (R26, R38): descriptors, page lists and window records. -/
def tableIndices (op : TcOp) (i : Nat) (cmd : TcCmd) : List Nat :=
  let first (l : List Nat) : List Nat := if i = 0 then l else []
  let attn := attnPar cmd
  let scan := scanPar cmd
  let win := winIndex cmd
  let l := match op with
    | .gemmN | .gemmK | .gemmT => first [cmd.opa] ++ [cmd.opb, cmd.opc]
    | .convDense | .convDiag => first [win, cmd.opa] ++ [cmd.opb, cmd.opc]
    | .attnFwd => first [cmd.opa] ++ [cmd.opb, cmd.opc] ++ (if attn.stats then [attn.statIx] else [])
    | .attnBwd => [cmd.opa, cmd.opb, cmd.opc, cmd.opc + 1, cmd.opc + 2, cmd.opc + 3, cmd.opc + 4, attn.statIx]
    | .scanDiag | .scanStep => first [cmd.opa] ++ [cmd.opb, cmd.opc, scan.mask] ++
        (if scan.stateOut then [cmd.opc + 1] else []) ++ (if scan.initEn then [scan.init] else [])
    | .scanMat => first [cmd.opa, cmd.opa + 1] ++ [cmd.opa + 2, cmd.opb, cmd.opc, scan.mask] ++
        (if scan.stateOut then [cmd.opc + 1] else []) ++ (if scan.initEn then [scan.init] else [])
    | .poolMax | .poolAvg => [win, cmd.opa, cmd.opc]
    | .dmaIn | .dmaOut | .dmaBin | .dmaGate => [cmd.opa, cmd.opc]
    | .scaleAbsMax | .scaleLoad => [cmd.opa, cmd.opc]
    | .scaleAdapt => [cmd.opc]
    | .waitTally | .spillOut | .spillIn | .stile | .reserved => []
    | _ => [cmd.opa, cmd.opc] ++ (if vecBinary op && !(vecImm cmd) then [cmd.opb] else [])
  l.filter (fun k => decide (k < 992))

/-- The operands of a command that a member reads from another core's Bin through REMOTE, or copies into one (R95). -/
def State.remoteBins (s : State) (op : TcOp) (c i : Nat) (cmd : TcCmd) : List Nat :=
  let l := match op with
    | .dmaIn => [cmd.opc]
    | .dmaOut | .dmaGate => [cmd.opa]
    | .convDense | .convDiag | .poolMax | .poolAvg => (tableIndices op i cmd).filter (· != winIndex cmd)
    | op => tableIndices op i cmd
  ((l.map (s.tdesc c)).filter (·.remote)).map (·.binsel)

/-- What the STILE of a member reads of its own Bin: the record, and the live list that it names (R217, R227). -/
def State.stileRuns (s : State) (c stbase i : Nat) : List (Nat × Nat) :=
  let r := s.stileRec c stbase i
  [(stbase + 16 * i, 16), (r.livelist, 8 * min r.livecount 32)]

/-- What the members of a command read before it issues (R28, R92, R93, R98): the command at the front of the lead's queue, the entries of
their operand tables, and for a STILE its records and the progress word. -/
def State.issueReads (s : State) (op : TcOp) (lead width : Nat) (j : Job) (cmd : TcCmd) : List (Nat × Nat × Nat × List (Nat × Nat)) :=
  [(lead, 0, lead, [(j.fetch - 16 * (s.core lead).queue.length, 16)])] ++
  (List.range width).map (fun i => (lead + i, 0, lead + i, (tableIndices op i cmd).map (fun k => (s.optEntry (lead + i) k, 32)))) ++
  (if op = .stile then
    (List.range width).map (fun i => (lead + i, 0, lead + i, s.stileRuns (lead + i) j.tract.stbase (bits cmd.pa 15 0))) ++
    [(lead, 0, lead, [(j.tract.argbase + 24, 4)])]
  else [])

/-! ## Issue -/

/-- Run the effect of a command that has passed its checks. -/
def State.runOp (s : State) (op : TcOp) (lead width : Nat) (cmd : TcCmd) (obs : List Obs) : Option Fail × State :=
  let ms := (List.range width).map (lead + ·)
  match op with
  | .gemmN => s.gemmRun 0 lead width cmd obs
  | .gemmK => s.gemmRun 1 lead width cmd obs
  | .gemmT => s.gemmRun 2 lead width cmd obs
  | .convDense => s.convRun lead width cmd obs
  | .convDiag => s.diagRun lead width cmd obs
  | .attnFwd => s.attnRun lead width cmd obs
  | .attnBwd => s.attnBackRun lead cmd obs
  | .scanDiag | .scanMat | .scanStep => s.scanRun op lead width cmd obs
  | .poolMax | .poolAvg => s.poolRun op lead width cmd obs
  | .dmaIn | .dmaOut | .dmaBin => s.dmaRunAll op cmd obs ms
  | .scaleAbsMax | .scaleLoad | .scaleAdapt => s.scaleRun op lead width cmd obs
  | .spillOut | .spillIn => s.spillRunAll op cmd obs ((List.range width).map (fun i => (lead + i, i)))
  | .dmaGate | .stile | .waitTally | .reserved => (none, s)
  | _ => s.vecRun op lead width cmd obs

/-- What an operation can reach, said once: the Bins, the Unified Range, the hearths, the Ledger, the counters and log registers, the
log, and what the log and refusals keep.  Jobs, queues, streams, power, sessions and the time base stay as they were. -/
def State.within (s t : State) : State :=
  { t with
    pending := s.pending
    time := s.time
    rota := s.rota
    safe := s.safe
    hedge := s.hedge
    sv := s.sv
    hp := s.hp
    cam := s.cam
    aud := s.aud
    watch := s.watch
    door := s.door
    pwr := s.pwr
    clk := s.clk
    reeve := s.reeve
    upd := s.upd
    crier := s.crier
    boot := s.boot }

/-- Run an operation within what it can reach. -/
def State.runWithin (s : State) (op : TcOp) (lead width : Nat) (cmd : TcCmd) (obs : List Obs) : Option Fail × State :=
  let r := s.runOp op lead width cmd obs
  (r.1, s.within r.2)

/-- Enter an issued command in the scoreboards of its members (R30, R31), with its tier requests (R124, R125). -/
def State.enterFlight (s : State) (op : TcOp) (lead : Nat) (cmd : TcCmd) (us : List Uses) : State :=
  let dl := if op.isTier then s.deadlineOf lead else none
  (us.zipIdx).foldl (fun s u =>
    let b := s.tierBytes op lead us.length u.2 cmd
    s.updCore (lead + u.2) (fun x => { x with
      inflight := x.inflight ++ [⟨cmd.tag, op, u.1.reads, u.1.writes, hearthMask u.1.named, u.1.dma, dl, cmd.fur,
        s.remoteBins op (lead + u.2) u.2 cmd, b.1, b.2⟩] })) s

/-- The last tag of the issuing cores, and the trace message of an issued command: its core, its 128 bits and the time (R48). -/
def State.noteIssue (s : State) (op : TcOp) (lead width : Nat) (cmd : TcCmd) : State :=
  (List.range width).foldl (fun s i =>
    let s := s.setFld .tcStatusLasttag (lead + i) cmd.tag
    if s.flag .tcCtrlTrace (lead + i) then s.send ⟨.trace, 0, [lead + i, cmd.word op.code.1 op.code.2, s.time], []⟩ else s) s

/-- What the checks of issue decide for a command that its reads let pass (R30, R31, R33, R73): a fault of a member with its code and WHERE;
the swap of a lease; another wait; or what each member uses. -/
inductive Verdict where
  | fault (member code wher : Nat)
  | swaps (l : Lease)
  | waits (w : Wait)
  | issues (us : List Uses)
deriving DecidableEq, Repr

/-- The checks of issue, in the order of R46 and R73: what each member uses, its generations, then the waits. -/
def State.verdict (s : State) (op : TcOp) (c width part : Nat) (cmd : TcCmd) : Verdict :=
  match s.usesAll op c width cmd with
  | .error e => .fault e.1 e.2.1 e.2.2
  | .ok us =>
    let gens := (us.zipIdx).flatMap (fun u =>
      (s.genChecks op (c + u.2) part cmd u.1.named).map (fun g => (u.2, g)))
    match gens.find? (fun g => g.2 == .fault) with
    | some g => .fault g.1 7 0
    | none =>
      match gens.findSome? (fun g => match g.2 with | .waits l => some l | _ => none) with
      | some l => .swaps l
      | none =>
        if (us.zipIdx).any (fun u => s.boardWaits (c + u.2) cmd.ser u.1) then .waits .scoreboard
        else if (us.zipIdx).any (fun u => s.dmaWaits op (c + u.2) u.1) then .waits .dma
        else if op = .stile ∧ (List.range width).any (fun i => !(s.core (c + i)).inflight.isEmpty) then .waits .scoreboard
        else .issues us

/-- A WAIT_TALLY at issue (R102): it draws its target from the tally of each member, or holds issue with its timeout running. -/
def State.issueTally (s : State) (c width : Nat) (cmd : TcCmd) : Bool × State :=
  let ms := (List.range width).map (c + ·)
  let t := bits cmd.pb 9 0
  if s.tallyMet ms cmd then
    let s := ms.foldl (fun s m => s.setFld .binTallyCount (m * 1024 + t) (s.tally m t - cmd.pa)) s
    (true, (s.noteIssue .waitTally c width cmd).updCore c (fun x => { x with wait := .none, tallyWait := none }))
  else
    let lim := bits cmd.pb 19 10
    let tw := match (s.core c).tallyWait with
      | some x => some x
      | none => if lim = 0 then none else some (s.time + lim * 64000, t)
    (false, s.updCore c (fun x => { x with wait := .tally, tallyWait := tw }))

/-- A command issues that moves data (R28 to R33, R125, R126): its requests may be too late, and then the job switches; its effect meets
an error and faults, or it is in flight. -/
def State.issueData (s : State) (c width : Nat) (i : Issue) (us : List Uses) : Bool × State :=
  let cmd := i.cmd
  let sw : Bool × State :=
    if i.op.isTier && s.lateAtIssue c (s.tierTotal i.op c width cmd) then s.switchFallback c else (false, s)
  if sw.1 then (true, sw.2) else
  let s := (sw.2.updCore c (fun x => { x with wait := .none })).noteIssue i.op c width cmd
  if i.op = .dmaGate then
    match s.gateIssue c cmd i.obs with
    | (.ends e, s) => (true, s.endJob c e)
    | (.fails f, s) => (true, s.tcFault c 0 cmd.fur false cmd.tag f.code f.wher f.own)
    | (.started, s) => (true, s.enterFlight i.op c cmd us)
  else
    match s.runWithin i.op c width cmd i.obs with
    | (some f, s) => (true, s.tcFault c (f.member - c) cmd.fur false cmd.tag f.code f.wher f.own)
    | (none, s) => (true, s.enterFlight i.op c cmd us)

/-- The cores that a command names: the members of the furrow for a furrow command, or its own core (R38). -/
def State.issueWidth (s : State) (c : Nat) (cmd : TcCmd) : Nat :=
  if decide (1 < (s.furrowOf c).2) && cmd.fur then (s.furrowOf c).2 else 1

/-- Issue stops at a command boundary: a member is halted (R38, R48), or the cores have no clock (R413). -/
def State.issueStopped (s : State) (c width : Nat) : Bool :=
  (List.range width).any (fun i => s.flag .tcCtrlHalt (c + i)) || s.flag .clkStatusHeld 0

/-- Try to issue the command at the front of a core's queue.  False when it waits; true when it has issued, has faulted, or has
been discarded by a switch.  What it reads before its checks stands in the state it goes on from; while it waits, nothing of it does. -/
def State.tryIssue (s : State) (c : Nat) (i : Issue) : Bool × State :=
  match (s.core c).job with
  | none => (true, s)
  | some j =>
    let cmd := i.cmd
    let width := s.issueWidth c cmd
    if s.issueStopped c width then (false, s)
    else if furMisuse i.op (decide (1 < (s.furrowOf c).2)) cmd.fur then (true, s.tcFault c 0 cmd.fur true cmd.tag 1 0 false)
    else match s.tcReads i.obs (s.issueReads i.op c width j cmd) with
    | (some f, s) => (true, s.tcFault c (f.member - c) cmd.fur false cmd.tag f.code f.wher f.own)
    | (none, t) =>
      match t.verdict i.op c width j.part cmd with
      | .fault m code wher =>
        let t := if code = 7 then t.bumpFld .hearthCntCount ((c + m) * 4 + 3) 1 else t
        (true, t.tcFault c m cmd.fur false cmd.tag code wher false)
      | .swaps l => (false, (s.demandSwap l).updCore c (fun x => { x with wait := .scoreboard }))
      | .waits w => (false, s.updCore c (fun x => { x with wait := w }))
      | .issues us =>
        match i.op with
        | .stile => (true, (t.noteIssue .stile c width cmd).takeStile c cmd)
        | .waitTally => t.issueTally c width cmd
        | _ => t.issueData c width i us

/-- Issue from a core's queue as far as it goes (R28: in order). -/
def State.drainQueue (fuel : Nat) (s : State) (c : Nat) : State :=
  match fuel with
  | 0 => s
  | n + 1 =>
    match (s.core c).queue with
    | [] => s
    | i :: rest =>
      match s.tryIssue c i with
      | (false, s) => s
      | (true, s) =>
        drainQueue n (s.updCore c (fun x => { x with queue := if x.queue = i :: rest then rest else x.queue })) c

/-- Commands that wait at issue in any core. -/
def State.waitingCount (s : State) : Nat := ((List.range 8).map (fun c => (s.core c).queue.length)).sum

/-- Every core issues what it can, as long as one issues. -/
def State.sweep (fuel : Nat) (s : State) : State :=
  match fuel with
  | 0 => s
  | n + 1 =>
    let t := (List.range 8).foldl (fun s c => s.drainQueue ((s.core c).queue.length) c) s
    if t.waitingCount < s.waitingCount then sweep n t else t

/-- After something that may unblock a core: queues are tried again, and jobs that have ended finish. -/
def State.settle (s : State) : State := (s.sweep (s.waitingCount + 1)).finishAll

/-- A tract command reaches the issue unit of a core: nothing happens without a running job (RUN = 0), or while the job ends or
switches; a command behind one that waits takes its place in the queue. -/
def State.tractCommand (s : State) (core : Nat) (i : Issue) : State :=
  match (s.core core).job with
  | none => s
  | some j =>
    if (s.core core).ending.isSome ∨ j.switching = true then s else
    (s.updCore core (fun x => { x with
      job := some { j with fetch := j.fetch + 16 }, queue := x.queue ++ [i] })).settle

end Sys2Proof.Machine
end

