-- ==== Sys2Proof/Machine/BinUnit.lean ====
section
/-!
DEFINITION. The Bins at work (spec/05): port accesses, zeroing, scrub, slot maps, row repair, gates and tallies.
-/
namespace Sys2Proof.Machine

/-! ## Accesses -/

/-- Count the whole grains of a unit's write in a tally, as its configuration names one (R97, R101). -/
def State.countWhole (s : State) (b off n : Nat) (tally : Option Nat) : State :=
  match tally with
  | none => s
  | some t => s.raiseTally b t ((grainsOfRun off n).filter (·.2)).length

/-- BIN_PORT_ACCESS (R89, R91 to R94, R98): an access of initiator `init` reaches a port; a read answers the bytes, a write
takes `data` and counts its whole grains in `tally` when the unit's configuration names one. -/
def execBinPortAccess (bin port init : Nat) (secure write : Bool) (off len : Nat) (data : List Byte) (tally : Option Nat)
    (obs : List Obs) (s : State) : Host.Outcome State Fault Refusal := s.command fun s =>
  let q := unitReq init secure
  if write then
    match s.binAdmit q true port bin ((grainsOfRun off data.length).map (·.1)) with
    | (some _, s) => .next (s.answer init false [])
    | (none, s) =>
      match s.binWriteRun port bin off data obs with
      | (some _, s) => .next (s.answer init false [])
      | (none, s) => .next ((s.countWhole bin off data.length tally).answer init true []).settle
  else
    let gs := grainsOfRun off len
    match s.binAdmit q false port bin (gs.map (·.1)) with
    | (some _, s) => .next (s.answer init false [])
    | (none, s) =>
      match s.checkGrains port bin gs obs with
      | (some _, s) => .next (s.answer init false [])
      | (none, s) => .next (s.answer init true (s.binRead bin off len))

/-- CORRECTED_WORD_WRITE_BACK (R92): the oldest corrected word of the Bin that waits is written back; the data stays. -/
def execCorrectedWordWriteBack (bin : Nat) (s : State) : Host.Outcome State Fault Refusal := s.command fun s =>
  match s.bin.writeBacks.find? (fun w => w.1 == bin) with
  | none => .next s
  | some w => .next { s with bin := { s.bin with writeBacks := s.bin.writeBacks.erase w } }

/-! ## Zeroing and scrub -/

/-- A port of the Bin has an access in flight (R95): a command of its core uses a range of it, a command of another core reads it
through REMOTE or copies into it, a transfer sends from it, a Sieve call uses it, or the Watch pushes a span into it. -/
def State.binInUse (s : State) (b : Nat) : Bool :=
  (s.core b).inflight.any (fun f => !f.reads.isEmpty || !f.writes.isEmpty) ||
  (List.range 8).any (fun c => (s.core c).inflight.any (fun f => f.remote.contains b)) ||
  s.hedge.transfers.any (fun t => t.bin == b) ||
  (match s.sv.run with | some c => c.bin == b || c.sources.contains b | none => false) ||
  (match s.watch.span with | some x => !x.done && x.bin == b | none => false)

/-- Start the zeroing of a Bin (R95): READY is 0 until it completes. -/
def State.startZeroing (s : State) (b : Nat) : State := s.setFlds b [(.binStatusReady, 0), (.binStatusInitbusy, 1)]

/-- BIN_INIT (R95): the secure world writes 1 to BIN_CTRL.INIT; ignored while an access is in flight, or when the Bin does not
serve. -/
def execBinInit (bin : Nat) (secure : Bool) (s : State) : Host.Outcome State Fault Refusal := s.command fun s =>
  if !secure then .next (s.worldError .binCtrlInit bin)
  else if s.binInUse bin || !s.binReady bin then .next s
  else .next (s.startZeroing bin)

/-- The free spares of a bank, and the fewest of any bank (R108). -/
def State.sparesOf (s : State) (b bank : Nat) : List Nat :=
  (List.range 16).filter (fun k => !(SMap.get s.bin.rmap (b * 768 + bank * 16 + k) ⟨false, false, 0⟩).used)
def State.sparesMin (s : State) (b : Nat) : Nat :=
  ((List.range 48).map (fun k => (s.sparesOf b k).length)).foldl min 16

/-- Every row of a Bin is zero with a valid seal (R95). -/
def State.zeroBin (s : State) (b : Nat) : State :=
  { s with bin := { s.bin with
      mem := SMap.clear s.bin.mem (binAddr b 0) (2 ^ 25)
      sealX := SMap.clear s.bin.sealX (grainKey b 0) (2 ^ 17)
      poison := SMap.clear s.bin.poison (grainKey b 0) (2 ^ 17) } }

/-- BIN_ZEROING_COMPLETE (R95): the Bin serves accesses, and its core may run jobs. -/
def execBinZeroingComplete (bin : Nat) (s : State) : Host.Outcome State Fault Refusal := s.command fun s =>
  if s.flag .binStatusInitbusy bin then
    let s := (s.zeroBin bin).setFlds bin [(.binStatusInitbusy, 0), (.binStatusReady, 1)]
    let s := s.setFld .binStatusSparesMin bin (s.sparesMin bin)
    .next (s.decideCore bin).settle
  else .next s

/-- The grains whose logical row is `row`, one in each bank (R86). -/
def rowGrains (row : Nat) : List Nat :=
  (List.range 48).map (fun i => i / 16 * 32768 + row * 16 + i % 16)

/-- PATROL_SCRUB (R96): the next row of every bank is read and checked; no job fails for what it finds. -/
def execPatrolScrub (bin : Nat) (obs : List Obs) (s : State) : Host.Outcome State Fault Refusal := s.command fun s =>
  if s.binReady bin && s.flag .binCtrlScrubEn bin then
    let row := SMap.get s.bin.patrol bin 0
    let s := (rowGrains row).foldl (fun s g => if s.poisoned bin g then s else (s.checkGrain 9 bin g true obs).2) s
    .next { s with bin := { s.bin with patrol := SMap.put s.bin.patrol bin ((row + 1) % 2048) 0 } }
  else .next s

/-! ## Slot maps -/

/-- SLOT_MAP_WRITE (R88): a write of SLOTEN (word 0), SLOTMAP0 or SLOTMAP1; a map that breaks the rules is ignored and counted;
the map in force stays until the next slot 0. -/
def execSlotMapWrite (bin word value : Nat) (secure : Bool) (s : State) : Host.Outcome State Fault Refusal := s.command fun s =>
  if !secure then .next (s.worldError .binSlotenEn bin) else
  let old := s.slotMap bin
  let m : SlotMap := if word = 0 then { old with en := value % 65536 }
    else if word = 1 then { old with map0 := value % 2 ^ 32 } else { old with map1 := value % 2 ^ 32 }
  .next (if m.ok then s.setSlotMap bin m else s.bumpFld .binErrcntCount (bin * 5 + 4) 1)

/-! ## Row repair -/

/-- Replace a row by the first free spare of its bank (R106 steps 1 to 3, R107): the RESULT of BIN_REPAIR and the map entry
written.  A row already mapped moves to the new spare; its old spare is not free again. -/
def State.repairRow (s : State) (b bank row : Nat) (field : Bool) : Nat × Option Nat × State :=
  if !s.binReady b then (3, none, s) else
  match s.sparesOf b bank with
  | [] => (1, none, (s.setFld .binStatusDegraded b 1).event 0x000B b s.time)
  | k :: _ =>
    let key := b * 768 + bank * 16 + k
    let mapped := (List.range 16).any (fun i =>
      let e := SMap.get s.bin.rmap (b * 768 + bank * 16 + i) ⟨false, false, 0⟩
      e.used && e.row == row)
    let s := { s with bin := { s.bin with rmap := SMap.put s.bin.rmap key ⟨true, field, row⟩ ⟨false, false, 0⟩ } }
    (if mapped then 2 else 0, some key, s.setFld .binStatusSparesMin b (s.sparesMin b))

/-- A repair through BIN_REPAIR (R106): BANK and ROW name the row, and RESULT tells what came of it. -/
def State.repairVia (s : State) (bin bank row : Nat) : Option Nat × State :=
  let s := (s.setFld .binRepairBank bin bank).setFld .binRepairRow bin row
  let r := s.repairRow bin bank (row % 2048) true
  (r.2.1, r.2.2.setFld .binRepairResult bin r.1)

/-- BIN_REPAIR (R106): BIN_REPAIR.GO repairs the row that BANK and ROW name. -/
def execBinRepair (bin bank row : Nat) (secure : Bool) (s : State) : Host.Outcome State Fault Refusal := s.command fun s =>
  if !secure then .next (s.worldError .binRepairGo bin) else
  if 48 ≤ bank then .next ((s.setFld .binRepairBank bin bank).setFld .binRepairRow bin row) else
  .next (s.repairVia bin bank row).2

/-- A row is due for a field repair (R106): an uncorrectable error, or its count has reached ROW_CE_LIMIT. -/
def State.repairDue (s : State) (b bank row : Nat) : Bool :=
  s.bin.due.contains (b, bank, row) ||
  (SMap.get s.bin.ceRows b []).any (fun r => r.bank == bank && r.row == row && decide (s.obj .rowCeLimit (b + 1) ≤ r.count))

/-- The row no longer waits for a repair (R106): it runs on the spare, or stays in use for want of one (R107). -/
def State.repairSettled (s : State) (b bank row : Nat) : State :=
  { s with
    bin :=
      { s.bin with
        due := s.bin.due.erase (b, bank, row)
        ceRows := SMap.put s.bin.ceRows b ((SMap.get s.bin.ceRows b []).filter (fun r => !(r.bank == bank && r.row == row))) [] } }

/-- FIELD_ROW_REPAIR (R106): the Reeve repairs a row that is due through BIN_REPAIR, appends a field record to the boot flash, writes the
entry into the repair-map copy and logs the event.  A row of a Bin that is not READY stays due. -/
def execFieldRowRepair (bin bank row : Nat) (s : State) : Host.Outcome State Fault Refusal := s.command fun s =>
  if !s.repairDue bin bank row then .next s else
  let ready := s.binReady bin
  let r := s.repairVia bin bank row
  let s := if ready then r.2.repairSettled bin bank row else r.2
  match r.1 with
  | none => .next s
  | some key =>
    let e := SMap.get s.bin.rmap key ⟨false, false, 0⟩
    let s := { s with bin := { s.bin with
      rmapCopy := SMap.put s.bin.rmapCopy key e ⟨false, false, 0⟩, records := SMap.put s.bin.records key e ⟨false, false, 0⟩ } }
    .next (s.logIt .binRepair 0xFF 4 bin bank row)

/-! ## Gates -/

/-- A gate's world (R99): gates 32 to 63 are secure. -/
def gateSecure (gate : Nat) : Bool := decide (32 ≤ gate)

/-- A gate may open (R99): its range lies in the Bin and wholly in regions of its world, and its tally is of its world. -/
def State.gateOpens (s : State) (b gate : Nat) : Bool :=
  let i := b * 64 + gate
  let base := s.fld .binGateBase i
  let len := s.fld .binGateLen i
  decide (len ≠ 0 ∧ base + len ≤ binGrains) && (tallySecure (s.fld .binGateTally i) == gateSecure gate) &&
  (List.range len).all (fun k => s.unitSecure (b + 1) (base + k) == gateSecure gate)

/-- GATE_OPEN (R99): a CLOSED gate opens, or stays CLOSED with OPENFAIL. -/
def execGateOpen (bin gate : Nat) (secure : Bool) (s : State) : Host.Outcome State Fault Refusal := s.command fun s =>
  let i := bin * 64 + gate
  if gateSecure gate && !secure then .next (s.worldError .binGateOpen i)
  else if s.fld .binGateState i ≠ 0 then .next s
  else if s.gateOpens bin gate then .next (s.setFlds i [(.binGateOpen, 1), (.binGateState, 1), (.binGateOpenfail, 0)])
  else .next (s.setFld .binGateOpenfail i 1)

/-- GATE_CLOSE (R99): an OPEN gate closes; every arrival it has accepted has been committed and counted, so it passes through
CLOSING at once. -/
def execGateClose (bin gate : Nat) (secure : Bool) (s : State) : Host.Outcome State Fault Refusal := s.command fun s =>
  let i := bin * 64 + gate
  if gateSecure gate && !secure then .next (s.worldError .binGateOpen i)
  else .next (s.setFlds i [(.binGateOpen, 0), (.binGateState, 0)])

/-- A rejected arrival is counted (R100). -/
def State.rejectGate (s : State) (b gate code : Nat) : Nat × State := (code, s.bumpFld .binGateReject (b * 64 + gate) 1)

/-- A grain arrives at a gate (R100): the reply code of R371, 0 for one that is accepted, written and counted. -/
def State.gateArrival (s : State) (b gate off tally sender : Nat) (data : List Byte) (sealWord : Word) : Nat × State :=
  let i := b * 64 + gate
  let g := s.fld .binGateBase i + off
  let data := (data ++ List.replicate 256 0).take 256
  if s.fld .binGateState i ≠ 1 then s.rejectGate b gate 1
  else if !bit (s.fld .binGateSrcmask i) sender then s.rejectGate b gate 2
  else if s.fld .binGateLen i ≤ off then s.rejectGate b gate 3
  else if tally ≠ s.fld .binGateTally i then s.rejectGate b gate 4
  else
    let q := unitReq 0x13 (gateSecure gate)
    match s.binAdmit q true 3 b [g] with
    | (some .world, s) => s.rejectGate b gate 7
    | (some _, s) => s.rejectGate b gate 1
    | (none, s) =>
      let s := s.binStore b (placed (g * 256) data) [(g, true)]
      if crc32c data = sealWord then (0, s.raiseTally b tally 1)
      else (s.setPoison b g true).rejectGate b gate 5

/-- GATE_ARRIVAL (R100): the decrypted grain with its seal reaches the NOC port; a rejection is answered with its code. -/
def execGateArrival (bin gate off tally sender : Nat) (data : List Byte) (sealWord : Word) (s : State) :
    Host.Outcome State Fault Refusal := s.command fun s =>
  let r := s.gateArrival bin gate off tally sender data sealWord
  .next (r.2.send ⟨.bus, r.1, [0x13, bin, gate, off], []⟩).settle

/-- TALLY_WRITE (R101): the tally takes the value written, and a WAIT_TALLY may be satisfied. -/
def execTallyWrite (bin tally value : Nat) (secure : Bool) (s : State) : Host.Outcome State Fault Refusal := s.command fun s =>
  let i := bin * 1024 + tally % 1024
  if tallySecure (tally % 1024) && !secure then .next (s.worldError .binTallyCount i)
  else .next (s.setFld .binTallyCount i value).settle

end Sys2Proof.Machine
end

