-- ==== Sys2Proof/Machine/Sieve.lean ====
section
/-!
DEFINITION. The Sieve (R198 to R207): its lease, its call ring, box decode and suppression, crop and resize, and the output of a
call.
-/
namespace Sys2Proof.Machine

/-! ## Descriptors -/

/-- A field of a call descriptor, by its first byte and size. -/
def svNat (d : List Byte) (at_ n : Nat) : Nat := leNat ((d.drop at_).take n)
def svWord (d : List Byte) (at_ : Nat) : Word := BitVec.ofNat 32 (svNat d at_ 4)
def svInt16 (d : List Byte) (at_ : Nat) : Int := signed 16 (svNat d at_ 2)

/-- The Bin and the grain of a Bin location (R200). -/
def svLoc (v : Nat) : Nat × Nat := (bits v 19 17, bits v 16 0)

/-- The Sieve as an initiator: the world of the lease holder (R198, R319). -/
def State.svReq (s : State) : Requester := unitReq 0x0C (match s.sv.holder with | some p => s.partSecure p | none => false)

/-- A Bin belongs to the holding partition (R200). -/
def State.svOwn (s : State) (b : Nat) : Bool :=
  match s.sv.holder with
  | some p => decide (s.partBase p ≤ b ∧ b < s.partBase p + s.partSize p)
  | none => false

/-- Bytes at a location lie in the holder's Bins. -/
def State.svInside (s : State) (loc : Nat × Nat) (n : Nat) : Bool :=
  s.svOwn loc.1 && decide (loc.2 * 256 + n ≤ binBytes)

/-- Why a call does not end DONE (R204, R207). -/
inductive SvFail where
  | badDesc | data | world
deriving DecidableEq, Repr

def SvFail.status (f : SvFail) : Nat := match f with | .badDesc => 1 | .data => 2 | .world => 3
def BinErr.svFail (e : BinErr) : SvFail := match e with | .world => .world | .range => .badDesc | _ => .data
def UrErr.svFail (e : UrErr) : SvFail := match e with | .world => .world | .range => .badDesc | .data _ _ => .data

/-- Read an input of a call from a Bin (R206, R207). -/
def State.svBin (s : State) (b off n : Nat) (obs : List Obs) : Except SvFail (List Byte) × State :=
  match s.binUnitRead s.svReq 7 b off n obs with
  | (.error e, s) => (.error e.svFail, s)
  | (.ok bs, s) => (.ok bs, s)

/-- The formats of scores and boxes (R201). -/
def svFmt (code : Nat) : Option Fmt :=
  match Fmt.ofCode code with
  | some .int8 => some .int8
  | some .uint8 => some .uint8
  | some .fp16 => some .fp16
  | some .bf16 => some .bf16
  | _ => none

/-- The value of element `i` of an input: its scale times the element less its zero point (R53, R202). -/
def svElem (f : Fmt) (scale : Word) (zp : Int) (bs : List Byte) (i : Nat) : Word :=
  let n := ceilDiv f.bits 8
  fMul scale (fp32Of (f.value zp (leNat ((bs.drop (i * n)).take n))))

/-- `a` is at most `b`; false with a NaN. -/
def fLe (a b : Word) : Bool := !fIsNan a && !fIsNan b && !fLt b a

/-! ## DECODE -/

/-- A pair of a candidate and a class that passes the threshold, with its decoded box (R202). -/
structure SvPair where
  score : Word
  cls : Nat
  cand : Nat
deriving DecidableEq, Repr

/-- The order of suppression, across classes (R203): by score, highest first, then the lower class, then the lower index. -/
def SvPair.before (a b : SvPair) : Bool :=
  fLt b.score a.score || (!fLt a.score b.score && decide (a.cls < b.cls ∨ (a.cls = b.cls ∧ a.cand < b.cand)))

/-- Insert a pair in its place. -/
def svInsert (x : SvPair) : List SvPair → List SvPair
  | [] => [x]
  | y :: r => if x.before y then x :: y :: r else y :: svInsert x r

def svSort (l : List SvPair) : List SvPair := l.foldr svInsert []

/-- A box by its corners. -/
structure SvBox where
  x1 : Word
  y1 : Word
  x2 : Word
  y2 : Word
deriving DecidableEq, Repr

/-- Clip a corner to 0 to a limit (R202). -/
def svClip (limit : Nat) (v : Word) : Word := fMin (fMax v fZero) (fOfInt limit)

/-- The area of a box. -/
def SvBox.area (b : SvBox) : Word := fMul (fSub b.x2 b.x1) (fSub b.y2 b.y1)

/-- The intersection over the union of two boxes; 0 when the union is 0 (R203). -/
def SvBox.iou (a b : SvBox) : Word :=
  let w := fMax fZero (fSub (fMin a.x2 b.x2) (fMax a.x1 b.x1))
  let h := fMax fZero (fSub (fMin a.y2 b.y2) (fMax a.y1 b.y1))
  let inter := fMul w h
  let union := fSub (fAdd a.area b.area) inter
  if (fpOf union).isZero then fZero else fDiv inter union

/-- The grid cell of a candidate in the levels that are left, as gx, gy and stride (R201). -/
def svCell : List (Nat × Nat × Nat) → Nat → Nat × Nat × Nat
  | [], _ => (0, 0, 0)
  | (gw, gh, st) :: r, i => if i < gw * gh then (i % gw, i / gw, st) else svCell r (i - gw * gh)

/-- The levels of a mode 1 call. -/
def svLevels (d : List Byte) : List (Nat × Nat × Nat) :=
  ((List.range 5).map (fun k => (svNat d (88 + 8 * k) 2, svNat d (90 + 8 * k) 2, svNat d (92 + 8 * k) 2))).filter
    (fun l => decide (l.1 ≠ 0))

/-- Half an FP32 value, and `n + 1/2`. -/
def fHalf (w : Word) : Word := fScale2 w (-1)
def fAndHalf (n : Nat) : Word := fHalf (fOfInt (2 * n + 1))

/-- The box of a candidate (R202): `v k` is its k-th box value, and `a k` the k-th word of its anchor. -/
def svDecodeBox (d : List Byte) (cand : Nat) (v a : Nat → Word) : SvBox :=
  let var (k : Nat) : Word := svWord d (52 + 4 * k)
  let box : SvBox :=
    if svNat d 44 1 = 0 then
      let cx := fAdd (a 0) (fMul (fMul (v 0) (var 0)) (a 2))
      let cy := fAdd (a 1) (fMul (fMul (v 1) (var 1)) (a 3))
      let w := fMul (a 2) (expUnit (fMul (v 2) (var 2)))
      let h := fMul (a 3) (expUnit (fMul (v 3) (var 3)))
      ⟨fSub cx (fHalf w), fSub cy (fHalf h), fAdd cx (fHalf w), fAdd cy (fHalf h)⟩
    else
      let c := svCell (svLevels d) cand
      let st := fOfInt c.2.2
      let cx := fMul (fAndHalf c.1) st
      let cy := fMul (fAndHalf c.2.1) st
      let side (k : Nat) : Word := fMul (fMul (v k) (var k)) st
      ⟨fSub cx (side 0), fSub cy (side 1), fAdd cx (side 2), fAdd cy (side 3)⟩
  let w := svNat d 84 2
  let h := svNat d 86 2
  ⟨svClip w box.x1, svClip h box.y1, svClip w box.x2, svClip h box.y2⟩

/-- Suppression of the pairs of one class, in order (R203, step 1). -/
def svSuppress (thr : Word) (most : Nat) : List (SvPair × SvBox) → List (SvPair × SvBox) → List (SvPair × SvBox)
  | kept, [] => kept
  | kept, x :: r =>
    if most ≤ kept.length then kept
    else if kept.all (fun k => fLe (x.2.iou k.2) thr) then svSuppress thr most (kept ++ [x]) r
    else svSuppress thr most kept r

/-- The record of a kept box (R204). -/
def svRecord (x : SvPair × SvBox) : List Byte :=
  natLe 4 x.2.x1.toNat ++ natLe 4 x.2.y1.toNat ++ natLe 4 x.2.x2.toNat ++ natLe 4 x.2.y2.toNat ++ natLe 4 x.1.score.toNat ++
  natLe 2 x.1.cls ++ natLe 2 0 ++ natLe 4 x.1.cand ++ natLe 4 0

/-- The fields of a DECODE call are in range and its inputs lie in the holder's Bins (R201, R207). -/
def State.svDecodeOk (s : State) (d : List Byte) : Bool :=
  let c := svNat d 26 2
  let n := svNat d 40 4
  let w16 := svNat d 16 4
  let w28 := svNat d 28 4
  let thr := svWord d 72
  match svFmt (bits w16 23 20), svFmt (bits w28 23 20) with
  | some fs, some fb =>
    decide (1 ≤ c ∧ c ≤ 256 ∧ 1 ≤ n ∧ n ≤ 65536 ∧ svNat d 44 1 ≤ 1 ∧ 1 ≤ svNat d 76 2 ∧ svNat d 76 2 ≤ 8192 ∧
      1 ≤ svNat d 78 2 ∧ svNat d 78 2 ≤ 1024 ∧ 1 ≤ svNat d 80 2 ∧ svNat d 80 2 ≤ 1024) &&
    fLe fZero thr && fLe thr fOne && fs.zpOk (svInt16 d 24) && fb.zpOk (svInt16 d 36) &&
    s.svInside (svLoc w16) (fs.run (c * n)) && s.svInside (svLoc w28) (fb.run (4 * n)) &&
    (if svNat d 44 1 = 0 then s.svInside (svLoc (svNat d 48 4)) (16 * n)
      else decide (((svLevels d).map (fun l => l.1 * l.2.1)).sum = n))
  | _, _ => false

/-- The pairs above the threshold (R202). -/
def svPairs (d : List Byte) (f : Fmt) (bs : List Byte) : List SvPair :=
  let c := svNat d 26 2
  let score (i : Nat) : Word :=
    let v := svElem f (svWord d 20) (svInt16 d 24) bs i
    if bit (svNat d 16 4) 24 then sigmoidUnit v else v
  (List.range (c * svNat d 40 4)).filterMap (fun i =>
    let v := score i
    if fLt (svWord d 68) v then some ⟨v, i % c, i / c⟩ else none)

/-- What a call comes to: its flags, its count, the pairs passed, the bytes of the grains after the header, and what its conversions
count. -/
structure SvOut where
  flags : Nat
  count : Nat
  passed : Nat
  body : List Byte
  /-- The saturated elements and the NaNs of its conversions (R51, R52). -/
  sat : Nat
  nan : Nat
deriving DecidableEq, Repr

/-- The result of DECODE from its inputs (R202 to R204). -/
def svDecode (d : List Byte) (fs fb : Fmt) (scores boxes anchors : List Byte) : SvOut :=
  let pairs := svPairs d fs scores
  let pre := svNat d 76 2
  let top := (svSort pairs).take pre
  let boxOf (i : Nat) : SvBox :=
    svDecodeBox d i (fun k => svElem fb (svWord d 32) (svInt16 d 36) boxes (4 * i + k)) (fun k => svWord anchors (16 * i + 4 * k))
  let perClass := (List.range (svNat d 26 2)).map (fun c =>
    svSuppress (svWord d 72) (svNat d 80 2) [] ((top.filter (fun p => p.cls == c)).map (fun p => (p, boxOf p.cand))))
  let kept := perClass.flatten
  let merged := (svSort (kept.map (·.1))).filterMap (fun p => kept.find? (fun k => decide (k.1 = p)))
  let most := svNat d 78 2
  let out := merged.take most
  let recs := out.flatMap svRecord
  ⟨b2n (decide (pre < pairs.length)) + 2 * b2n (decide (most < merged.length)), out.length, pairs.length,
    recs ++ List.replicate (ceilDiv most 8 * 256 - recs.length) 0, 0, 0⟩

/-- Read the inputs of a DECODE call and compute it. -/
def State.svRunDecode (s : State) (d : List Byte) (obs : List Obs) : Except SvFail SvOut × State :=
  if !s.svDecodeOk d then (.error .badDesc, s) else
  let ls := svLoc (svNat d 16 4)
  let lb := svLoc (svNat d 28 4)
  let la := svLoc (svNat d 48 4)
  let n := svNat d 40 4
  match svFmt (bits (svNat d 16 4) 23 20), svFmt (bits (svNat d 28 4) 23 20) with
  | some fs, some fb =>
    match s.svBin ls.1 (ls.2 * 256) (fs.run (svNat d 26 2 * n)) obs with
    | (.error e, s) => (.error e, s)
    | (.ok sc, s) =>
      match s.svBin lb.1 (lb.2 * 256) (fb.run (4 * n)) obs with
      | (.error e, s) => (.error e, s)
      | (.ok bx, s) =>
        match (if svNat d 44 1 = 0 then s.svBin la.1 (la.2 * 256) (16 * n) obs else (.ok [], s)) with
        | (.error e, s) => (.error e, s)
        | (.ok an, s) => (.ok (svDecode d fs fb sc bx an), s)
  | _, _ => (.error .badDesc, s)

/-! ## CROP -/

/-- The grains of one crop area (R205). -/
def svArea (d : List Byte) : Nat :=
  let e := match Fmt.ofCode (svNat d 60 1) with | some f => ceilDiv f.bits 8 | none => 1
  ceilDiv (svNat d 58 2 * svNat d 56 2 * svNat d 32 2 * e) 256

/-- The bytes of the source from its first pixel to the end of its last row. -/
def svSpan (d : List Byte) : Nat := (svNat d 30 2 - 1) * svNat d 36 4 + svNat d 28 2 * svNat d 32 2

/-- The byte of the Unified Range that a physical address names (R110). -/
def urOffset (addr : Nat) : Option Nat := if addr < 0x1000000000 then none else some (addr - 0x1000000000)

/-- The fields of a CROP call are in range and its locations lie where they may (R205, R207). -/
def State.svCropOk (s : State) (d : List Byte) : Bool :=
  let inByte (f : Option Fmt) : Bool := f == some .int8 || f == some .uint8
  let sf := Fmt.ofCode (svNat d 25 1)
  let of' := Fmt.ofCode (svNat d 60 1)
  let zp (f : Option Fmt) (v : Int) : Bool := match f with | some g => g.zpOk v | none => false
  let src := svNat d 16 8
  let space := svNat d 24 1
  inByte sf && (inByte of' || of' == some .bf16) && zp sf (svInt16 d 44) && zp of' (svInt16 d 68) &&
  decide (1 ≤ svNat d 28 2 ∧ 1 ≤ svNat d 30 2 ∧ 1 ≤ svNat d 32 2 ∧ svNat d 32 2 ≤ 64 ∧ 1 ≤ svNat d 54 2 ∧ svNat d 54 2 ≤ 256 ∧
    1 ≤ svNat d 56 2 ∧ svNat d 56 2 ≤ 64 ∧ 1 ≤ svNat d 58 2 ∧ svNat d 58 2 ≤ 64) &&
  (if bit space 0 then
    match urOffset src with
    | some o => decide (o + svSpan d ≤ s.urPages * 4096)
    | none => false
  else s.svOwn (bits space 3 1) && decide (src + svSpan d ≤ binBytes)) &&
  s.svInside (svLoc (svNat d 48 4)) (256 + 32 * (svNat d 52 2 + svNat d 54 2))

/-- The largest integer not above an FP32 value. -/
def fFloor (w : Word) : Int :=
  match fpOf w with
  | .fin a m e => let v := finInt a m e (min e 0); v / (2 ^ (-(min e 0)).toNat : Nat)
  | _ => 0

/-- The real value of the source element of channel `c` at column `x` and row `y`; real zero outside (R205). -/
def svPixel (d : List Byte) (f : Fmt) (src : List Byte) (x y : Int) (c : Nat) : Word :=
  if x < 0 ∨ y < 0 ∨ (svNat d 28 2 : Int) ≤ x ∨ (svNat d 30 2 : Int) ≤ y then fZero
  else
    let raw := leNat ((src.drop (y.toNat * svNat d 36 4 + x.toNat * svNat d 32 2 + c)).take 1)
    fMul (svWord d 40) (fp32Of (f.value (svInt16 d 44) raw))

/-- Bilinear interpolation in FP32, in the order that the configuration leaves open (R205). -/
def svBilinear (v00 v01 v10 v11 fx fy : Word) : Word :=
  let lerp (a b t : Word) : Word := fAdd a (fMul t (fSub b a))
  match Config.bilinearOrder with
  | 0 => lerp (lerp v00 v01 fx) (lerp v10 v11 fx) fy
  | 1 => lerp (lerp v00 v10 fy) (lerp v01 v11 fy) fx
  | 2 =>
    let gx := fSub fOne fx
    let gy := fSub fOne fy
    fAdd (fAdd (fMul (fMul gx gy) v00) (fMul (fMul fx gy) v01)) (fAdd (fMul (fMul gx fy) v10) (fMul (fMul fx fy) v11))

/-- A sample coordinate: `lo + (o + 1/2) * (hi - lo) / n - 1/2` (R205). -/
def svCoord (lo hi : Word) (o n : Nat) : Word :=
  fSub (fAdd lo (fDiv (fMul (fAndHalf o) (fSub hi lo)) (fOfInt n))) (fHalf fOne)

/-- One output element of a box, as its conversion gives it (R58 steps 6 and 7, R205). -/
def svSample (d : List Byte) (sf of' : Fmt) (src : List Byte) (b : SvBox) (oy ox c : Nat) : Conv :=
  let sx := svCoord b.x1 b.x2 ox (svNat d 56 2)
  let sy := svCoord b.y1 b.y2 oy (svNat d 58 2)
  let x := fFloor sx
  let y := fFloor sy
  let fx := fSub sx (fOfInt x)
  let fy := fSub sy (fOfInt y)
  let p (i j : Int) : Word := svPixel d sf src (x + i) (y + j) c
  let v := svBilinear (p 0 0) (p 1 0) (p 0 1) (p 1 1) fx fy
  of'.encode (svInt16 d 68) (fpOf (fDiv v (svWord d 64)))

/-- A box that is not sampled (R205). -/
def SvBox.degenerate (b : SvBox) : Bool :=
  [b.x1, b.y1, b.x2, b.y2].any (fun w => (fpOf w).isNan || (fpOf w).isInf) || fLt b.x2 b.x1 || fLt b.y2 b.y1

/-- The result of CROP from its inputs (R205): `n` is the COUNT of the box list, and `boxes` its records from FIRST. -/
def svCrop (d : List Byte) (sf of' : Fmt) (n : Nat) (boxes src : List Byte) : SvOut :=
  let e := ceilDiv of'.bits 8
  let elems := svNat d 58 2 * svNat d 56 2 * svNat d 32 2
  let pad := svArea d * 256 - elems * e
  let zero := natLe e (unsignedOf of'.bits (svInt16 d 68))
  let boxAt (k : Nat) : SvBox :=
    ⟨svWord boxes (32 * k), svWord boxes (32 * k + 4), svWord boxes (32 * k + 8), svWord boxes (32 * k + 12)⟩
  let ks := List.range (svNat d 54 2)
  let short (k : Nat) : Bool := decide (n ≤ svNat d 52 2 + k)
  let good (k : Nat) : Bool := !short k && !(boxAt k).degenerate
  let samples (k : Nat) : List Conv :=
    if !good k then [] else
    (List.range elems).map (fun i =>
      let p := i / svNat d 32 2
      svSample d sf of' src (boxAt k) (p / svNat d 56 2) (p % svNat d 56 2) (i % svNat d 32 2))
  let areas := ks.map (fun k => (good k, samples k))
  ⟨4 * b2n (ks.any short) + 8 * b2n (ks.any (fun k => !short k && (boxAt k).degenerate)), (ks.filter good).length, 0,
    areas.flatMap (fun a =>
      (if a.1 then a.2.flatMap (fun c => natLe e c.raw) else (List.replicate elems zero).flatten) ++ List.replicate pad 0),
    (areas.map (fun a => a.2.countP (·.sat))).sum, (areas.map (fun a => a.2.countP (·.nan))).sum⟩

/-- Read the inputs of a CROP call and compute it. -/
def State.svRunCrop (s : State) (d : List Byte) (obs : List Obs) : Except SvFail SvOut × State :=
  if !s.svCropOk d then (.error .badDesc, s) else
  let l := svLoc (svNat d 48 4)
  match Fmt.ofCode (svNat d 25 1), Fmt.ofCode (svNat d 60 1) with
  | some sf, some of' =>
    match s.svBin l.1 (l.2 * 256) 12 obs with
    | (.error e, s) => (.error e, s)
    | (.ok h, s) =>
      match s.svBin l.1 (l.2 * 256 + 256 + 32 * svNat d 52 2) (32 * svNat d 54 2) obs with
      | (.error e, s) => (.error e, s)
      | (.ok bx, s) =>
        if bit (svNat d 24 1) 0 then
          match s.urRead s.svReq ((urOffset (svNat d 16 8)).getD 0) (svSpan d) obs with
          | (.error e, s) => (.error e.svFail, s)
          | (.ok src, s) => (.ok (svCrop d sf of' (svNat h 6 2) bx src), s)
        else
          match s.svBin (bits (svNat d 24 1) 3 1) (svNat d 16 8) (svSpan d) obs with
          | (.error e, s) => (.error e, s)
          | (.ok src, s) => (.ok (svCrop d sf of' (svNat h 6 2) bx src), s)
  | _, _ => (.error .badDesc, s)

/-! ## Calls -/

/-- The grains after the header of a call's output area (R206). -/
def svBodyGrains (d : List Byte) : Nat :=
  if svNat d 0 1 = 1 then ceilDiv (svNat d 78 2) 8 else if svNat d 0 1 = 2 then svNat d 54 2 * svArea d else 0

/-- A call fails or is skipped: it is counted (R210), recorded in SV_ERR unless an entry is held, and entered in the Reeve's log (R461). -/
def State.svError (s : State) (code slot : Nat) : State :=
  let s := s.bumpFld .svCntCount 3 1
  let s := if s.flag .svErrValid 0 then s else s.setFlds 0 [(.svErrValid, 1), (.svErrCode, code), (.svErrSlot, slot)]
  s.logIt .sieve 0x0C 8 code slot 0

/-- PD12 is powered and its clock runs (R210). -/
def State.svReady (s : State) : Bool := s.powerGood 12 && s.clocked 10 && s.pllILocked && !s.flag .clkStatusHeld 0

/-- The Sieve can take a call: a lease is held, a ring is set in a Bin of the holder, no call runs, and the start tally is at least 1 (R199).
What a former holder counted and the Sieve did not take stays in that holder's ring (R198). -/
def State.svCanTake (s : State) : Bool :=
  s.svReady && s.sv.holder.isSome && s.svOwn (s.fld .svRing0Bin 0) && s.sv.run.isNone && decide (0 < s.fld .svRing1Depth 0) &&
  decide (1 ≤ s.tally (s.fld .svRing0Bin 0) (s.fld .svRing1Tally 0))

/-- The Bins that a call names as its inputs (R201, R205). -/
def svSources (d : List Byte) : List Nat :=
  if svNat d 0 1 = 1 then
    [(svLoc (svNat d 16 4)).1, (svLoc (svNat d 28 4)).1] ++ (if svNat d 44 1 = 0 then [(svLoc (svNat d 48 4)).1] else [])
  else if svNat d 0 1 = 2 then
    [(svLoc (svNat d 48 4)).1] ++ (if bit (svNat d 24 1) 0 then [] else [bits (svNat d 24 1) 3 1])
  else []

/-- Take the descriptor at HEAD and run its call (R199, R207).  `crop` tells which of the two kinds of call the command stands
for; a reserved OP runs as a DECODE that is refused. -/
def State.svTake (s : State) (crop : Bool) (obs : List Obs) : State :=
  if !s.svCanTake then s else
  let b := s.fld .svRing0Bin 0
  let head := s.fld .svStatusHead 0
  let g := s.fld .svRing0Base 0 + head
  if (svNat (s.binRead b (g * 256) 1) 0 1 == 2) != crop then s else
  let t := s.fld .svRing1Tally 0
  let s := s.setFld .binTallyCount (b * 1024 + t) (s.tally b t - 1)
  let s := s.setFld .svStatusHead 0 ((head + 1) % s.fld .svRing1Depth 0)
  match s.svBin b (g * 256) 256 obs with
  | (.error .world, s) => s.svError 3 head
  | (.error _, s) => s.svError 4 head
  | (.ok d, s) =>
    let out := svLoc (svNat d 4 4)
    let r : Except SvFail SvOut × State :=
      if svNat d 0 1 = 1 then s.svRunDecode d obs else if svNat d 0 1 = 2 then s.svRunCrop d obs else (.error .badDesc, s)
    let call (status : Nat) (o : SvOut) : SvCall :=
      ⟨head, svSources d, out.1, out.2, bits (svNat d 8 2) 9 0, svNat d 12 4, status, o.flags, o.count, o.passed, o.body⟩
    let c : SvCall := match r.1 with
      | .ok o => call 0 o
      | .error f => call f.status ⟨0, 0, 0, List.replicate (svBodyGrains d * 256) 0, 0, 0⟩
    let t : State := match r.1, r.2.sv.holder with
      | .ok o, some p => (r.2.bumpObj .satElems (p + 1) o.sat).bumpObj .nanElems (p + 1) o.nan
      | _, _ => r.2
    { t with sv := { t.sv with run := some c } }

/-- The header grain of a call's output (R204). -/
def SvCall.header (c : SvCall) : List Byte :=
  natLe 4 c.tag ++ natLe 1 c.status ++ natLe 1 c.flags ++ natLe 2 c.count ++ natLe 4 c.passed ++ List.replicate 244 0

/-- The lease moves to the holder that SV_LEASE names (R198); a new holder's ring is taken from its first slot. -/
def State.svMove (s : State) : State :=
  let h := if s.flag .svLeaseEn 0 then some (s.fld .svLeasePart 0) else none
  let s := s.setFld .svLeasePending 0 0
  if h = s.sv.holder then s else ({ s with sv := { s.sv with holder := h } }).setFld .svStatusHead 0 0

/-- The running call ends without writing anything (R207, R405): a lease that waits for it moves. -/
def State.svDrop (s : State) : State :=
  let s : State := { s with sv := { s.sv with run := none } }
  if s.flag .svLeasePending 0 then s.svMove else s

/-- Write SV_LEASE (R198, R213): the lease moves at once, or when the running call completes. -/
def State.svLease (s : State) (part : Nat) (en : Bool) : State :=
  let s := s.setFlds 0 [(.svLeasePart, part), (.svLeaseEn, b2n en)]
  if s.sv.run.isSome then s.setFld .svLeasePending 0 1 else s.svMove

/-- The output of the running call: every grain written, the header last, and DONE raised for each (R206, R207).  An output area
that is refused, or that lies outside the holder's Bins, takes nothing. -/
def State.svFinish (s : State) (c : SvCall) : State :=
  let s := { s with sv := { s.sv with run := none } }
  let n := 1 + c.body.length / 256
  let fail (status : Nat) (s : State) : State := (s.svError status c.slot).bumpFld .svCntCount 0 1
  if !s.svInside (c.bin, c.grain) (n * 256) then fail 1 s else
  match s.binAdmit s.svReq true 7 c.bin ((List.range n).map (c.grain + ·)) with
  | (some e, s) => fail e.svFail.status s
  | (none, s) =>
    let gs := (List.range n).map (fun i => (c.grain + i, true))
    let s := (s.binStore c.bin (placed (c.grain * 256) (c.header ++ c.body)) gs).raiseTally c.bin c.done n
    if c.status ≠ 0 then fail c.status s
    else
      let s := ((s.bumpFld .svCntCount 0 1).bumpFld .svCntCount 1 c.passed)
      let s := if c.flags % 2 = 1 then s.bumpObj .sieveCapped 0 1 else s
      if c.passed = 0 then s else s.bumpFld .svCntCount 2 c.count

/-! ## The commands -/

/-- SV_LEASE_WRITE (R198): PD12 follows the lease (R405). -/
def execSvLeaseWrite (part : Nat) (en secure : Bool) (s : State) : Host.Outcome State Fault Refusal := s.command fun s =>
  .next (if secure then (s.svLease part en).pwrSync else s.worldError .svLeaseEn 0)

/-- SV_DOORBELL (R199, R210): a non-secure write to a secure tally is refused. -/
def execSvDoorbell (add : Nat) (secure : Bool) (s : State) : Host.Outcome State Fault Refusal := s.command fun s =>
  let t := s.fld .svRing1Tally 0
  if tallySecure t && !secure then .next (s.worldError .svDoorbellAdd 0)
  else .next (s.raiseTally (s.fld .svRing0Bin 0) t (add % 256)).settle

/-- SIEVE_DECODE (R199 to R204). -/
def execSieveDecode (obs : List Obs) (s : State) : Host.Outcome State Fault Refusal := s.command fun s => .next (s.svTake false obs)

/-- SIEVE_CROP (R199, R200, R205). -/
def execSieveCrop (obs : List Obs) (s : State) : Host.Outcome State Fault Refusal := s.command fun s => .next (s.svTake true obs)

/-- SIEVE_CALL_COMPLETE (R198, R206, R207). -/
def execSieveCallComplete (s : State) : Host.Outcome State Fault Refusal := s.command fun s =>
  match s.sv.run with
  | none => .next s
  | some c =>
    let s := s.svFinish c
    .next (if s.flag .svLeasePending 0 then s.svMove.pwrSync else s).settle

end Sys2Proof.Machine
end

