-- ==== Sys2Proof/Machine/TractEvents.lean ====
section
/-!
DEFINITION. What happens at a tensor core besides its commands: a command completes (R30), a WAIT_TALLY times out (R102), a
swap ends (R77, R82), the split mode and HALT are written (R48, R69), a deadline passes and a fallback starts (R125, R126), and
the two ends of a switch (R226, R228).
-/
namespace Sys2Proof.Machine

/-! ## Completion -/

/-- Take the first command with a tag out of a list of commands in flight. -/
def dropTag (tag : Nat) (fur : Bool) : List InFlight → List InFlight
  | [] => []
  | f :: r => if f.tag = tag ∧ f.fur = fur then r else f :: dropTag tag fur r

/-- A command in flight with this tag is still sending its transfer (R378). -/
def State.stillSends (s : State) (c : Nat) (f : InFlight) : Bool :=
  f.op == .dmaGate && s.hedge.transfers.any (fun t => t.core == c && t.tag == f.tag)

/-- What DRAM has delivered to the tier requests of a command on one core counts for the rate of its partition (R125). -/
def State.delivers (s : State) (m tag : Nat) (fur : Bool) : State :=
  match (s.core m).inflight.find? (fun f => f.tag == tag && f.fur == fur), s.partOf m with
  | some f, some p => s.noteDelivered p f.dram
  | _, _ => s

/-- The oldest command of a tag has finished its last write: the scoreboard entries of its members are freed (R30, R38), and its
requests have been delivered. -/
def State.freeCommand (s : State) (c tag : Nat) : State :=
  match (s.core c).inflight.find? (fun f => f.tag == tag) with
  | none => s
  | some f =>
    if s.stillSends c f then s else
    (if f.fur then s.members c else [c]).foldl (fun s m =>
      (s.delivers m tag f.fur).updCore m (fun x => { x with inflight := dropTag tag f.fur x.inflight })) s

/-- The tract has ended: no command waits or is in flight (R221). -/
def State.endTract (s : State) (c : Nat) : State :=
  if (s.core c).queue.isEmpty && s.quiet c then s.endJob c ⟨0, 0, 0, 0, false⟩ else s

/-- COMMAND_COMPLETE (R30): the command of tag `tag` on a core completes; `last` says that its tract has no further command. -/
def execCommandComplete (core tag : Nat) (last : Bool) (at_ : Nat) (s : State) : Host.Outcome State Fault Refusal := s.command fun s =>
  let s := (s.reach at_).freeCommand core tag
  .next (if last then (s.endTract core).settle else s.settle)

/-- WAIT_TALLY_TIMEOUT (R102): the timeout of a waiting WAIT_TALLY expires; the tally stays as it is and the job ends
FAILED_DATA with the tally and the count reached. -/
def execWaitTallyTimeout (core : Nat) (s : State) : Host.Outcome State Fault Refusal := s.command fun s =>
  match (s.core core).tallyWait with
  | none => .next s
  | some (t, k) =>
    let s := s.reach t
    .next ((s.endJob core ⟨3, 2, k, s.tally core k, false⟩).settle)

/-! ## Swaps -/

/-- The core whose command at the front waits for a lease (R73, R82). -/
def State.waitsFor (s : State) (l : Lease) : Option Nat :=
  (List.range 8).find? (fun c =>
    match (s.core c).queue with
    | i :: _ => (s.core c).wait == .scoreboard && decide (i.cmd.hgen = l.gen) && l.cores.contains c &&
        (l.hearths.contains i.cmd.hdst || l.hearths.contains i.cmd.haux)
    | [] => false)

/-- HEARTH_SWAP_IN_COMPLETE (R77, R82): the read of the wanted plane ends, well or with an error that its retry did not cure. -/
def execHearthSwapInComplete (core hearth : Nat) (failed : Bool) (at_ : Nat) (s : State) : Host.Outcome State Fault Refusal := s.command fun s =>
  let s := s.reach at_
  match (s.leasesOn core hearth).find? (fun l => decide (l.phase = .movingIn) && !bit l.moved (core - l.core)) with
  | none => .next s
  | some l =>
    if s.swapLost l failed then
      let w := s.waitsFor l
      let s := s.loseLease l
      .next ((match w with | some c => s.endJob c ⟨3, 0, 0, 0, false⟩ | none => s).settle)
    else .next ((s.swapIn l core).settle)

/-- HEARTH_SWAP_OUT_COMPLETE (R77): the Granary has acknowledged the last outgoing grain. -/
def execHearthSwapOutComplete (core hearth : Nat) (s : State) : Host.Outcome State Fault Refusal := s.command fun s =>
  match (s.leasesOn core hearth).find? (fun l => decide (l.phase = .movingOut) && !bit l.moved (core - l.core)) with
  | none => .next s
  | some l => .next ((s.swapOut l core).settle)

/-- The hearths whose kind a new split mode changes (R69). -/
def splitChanges (a b : Nat) : List Nat :=
  (List.range 4).filter (fun h => (workHearths a).contains h != (workHearths b).contains h)

/-- Set a core's split mode when no lease is held on a hearth whose kind would change; mode 3 is refused (R69, R83). -/
def State.setSplit (s : State) (core split : Nat) : State :=
  if 3 ≤ split ∨ (splitChanges (s.fld .hearthCfgSplit core) split).any (fun h => !(s.leasesOn core h).isEmpty) then s
  else s.setFld .hearthCfgSplit core split

/-- HEARTH_CFG_WRITE (R69, R83). -/
def execHearthCfgWrite (core split : Nat) (secure : Bool) (s : State) : Host.Outcome State Fault Refusal := s.command fun s =>
  .next (if secure then s.setSplit core split else s.worldError .hearthCfgSplit core)

/-- TC_CTRL_HALT (R48): issue stops at the next command boundary, or goes on. -/
def execTcCtrlHalt (core : Nat) (halt secure : Bool) (s : State) : Host.Outcome State Fault Refusal := s.command fun s =>
  .next (if secure then (s.setFld .tcCtrlHalt core (b2n halt)).settle else s.worldError .tcCtrlHalt core)

/-! ## Deadlines -/

/-- A suspended job whose deadline passes switches too (R226): its save area is discarded at its next dispatch. -/
def State.switchSuspended (s : State) (p i : Nat) : State :=
  let w := s.wslot p i
  match w.suspended with
  | none => s
  | some x =>
    if x.job.fbTract.isNone ∨ x.job.degraded = true ∨ x.job.switching = true then s else
    let s := s.setWslot p i { w with suspended := some { x with job := { x.job with switching := true } } }
    (s.bumpFld .urCntCount 4 1).bumpObj .fallbacks (p + 1) 1

/-- The command at the front of a core waits for a swap, whose tier request is late too (R76, R124). -/
def State.swapLate (s : State) (c : Nat) : Bool :=
  s.hearth.leases.any (fun l => l.phase == .movingIn && s.waitsFor l == some c) &&
  (match s.deadlineOf c with | some d => decide (d ≤ s.time) | none => false)

/-- DEADLINE_EXPIRY (R125, R226): the deadline of a tier request of a core passes and the request has not completed; or, with
no such request in flight, that of a job suspended in slot `slot` of its partition, whose requests wait with it. -/
def execDeadlineExpiry (core slot : Nat) (at_ : Nat) (s : State) : Host.Outcome State Fault Refusal := s.command fun s =>
  let s := s.reach at_
  let late := (s.core core).inflight.any (fun f => match f.deadline with | some d => decide (d ≤ s.time) | none => false) ||
    s.swapLate core
  if late && ((s.core core).job).isSome && (s.core core).ending.isNone then .next (s.switchFallback core).2.settle
  else
    match s.partOf core with
    | none => .next s
    | some p =>
      match (s.wslot p slot).suspended with
      | some x =>
        (match x.job.segment with
         | some d => .next (if d ≤ s.time then s.switchSuspended p slot else s)
         | none => .next s)
      | none => .next s

/-- FALLBACK_START (R126 step 4): no command of a switched job is in flight any more. -/
def execFallbackStart (core : Nat) (s : State) : Host.Outcome State Fault Refusal := s.command fun s =>
  match (s.core core).job with
  | none => .next s
  | some j =>
    if j.switching = true ∧ s.quiet core = true ∧ (s.core core).ending.isNone = true then .next (s.startFallback j)
    else .next s

/-! ## Switches -/

/-- Note the time of a switch (R236). -/
def State.noteSwitch (s : State) (c part : Nat) : State :=
  let t := s.time - (s.core c).switchAt
  s.setObj .switchMax (part + 1) (max (s.obj .switchMax (part + 1)) t)

/-- A swap is in progress on a member of the core's furrow: the save of a stile ends after it (R79). -/
def State.swapOn (s : State) (c : Nat) : Bool :=
  s.hearth.leases.any (fun l => (l.phase == .movingIn || l.phase == .movingOut) && l.cores.any (s.members c).contains)

/-- PRE_EMPTION_SAVE_COMPLETE (R228, R229): the outgoing job is suspended, and the Rota takes what comes in. -/
def execPreEmptionSaveComplete (core : Nat) (at_ : Nat) (s : State) : Host.Outcome State Fault Refusal := s.command fun s =>
  let s := s.reach at_
  let x := s.core core
  if x.switching ≠ 1 ∨ s.swapOn core = true then .next s else
  let part := (s.partOf core).getD 0
  let s := s.updCore core (fun y => { y with switching := 0, outgoing := none })
  let s := s.decideCore core
  .next ((if (s.core core).switching = 0 then s.noteSwitch core part
    else s.updCore core (fun y => { y with switchAt := x.switchAt })).settle)

/-- A saved plane goes back to its hearth (R226): each listed word of it, over zeros. -/
def State.restorePlane (s : State) (a : SaveArea) (core h : Nat) : State :=
  let k := planeKey core h 0 0
  { s with hearth := { s.hearth with
    plane := (a.planes.filter (fun e => decide (k ≤ e.1 ∧ e.1 < k + 4096))).foldl (fun m e => SMap.put m e.1 e.2 0#32)
      (SMap.clear s.hearth.plane k 4096) } }

/-- Restore a suspended job into its hearths and its Bin (R228). -/
def State.restoreJob (s : State) (j : Job) (a : SaveArea) : State :=
  let s := s.grantWork j.core (s.members j.core).length j.part
  let s := a.hearths.foldl (fun s h => s.restorePlane a h.1 h.2) s
  let s := a.grains.foldl (fun s g =>
    s.binStore g.1 (placed (g.2 * 256) (SMap.getRun a.bytes (binAddr g.1 (g.2 * 256)) 256 0)) [(g.2, true)]) s
  let s := s.updCore j.core (fun y => { y with
    job := some { j with since := s.time, lastStile := s.time }, queue := [], wait := .none })
  s.enableIssue j.core j.tract.optbase

/-- SWITCH_RESTORE_COMPLETE (R226, R228): the incoming job's hearths and ranges have been read back and verified, or a grain
failed after one retry. -/
def execSwitchRestoreComplete (core : Nat) (failed : Bool) (at_ : Nat) (s : State) : Host.Outcome State Fault Refusal := s.command fun s =>
  let s := s.reach at_
  let x := s.core core
  match x.incoming with
  | none => .next s
  | some j =>
    if x.switching ≠ 2 then .next s else
    let slot := j.slot.getD 0
    let w := s.wslot j.part slot
    let s := s.updCore core (fun y => { y with switching := 0, incoming := none })
    match w.suspended with
    | none => .next s.settle
    | some y =>
      if failed || y.save.bad then
        let s := s.setWslot j.part slot { WheelSlot.empty with lastDone := s.time, due := w.due }
        let s := (y.job.pins.foldl (fun s p => s.unpinPage p) s).completeJob y.job ⟨3, 0, 0, 0, false⟩
        .next (s.decideCore core).settle
      else
        let s := s.setWslot j.part slot { w with suspended := none, running := true }
        .next ((s.noteSwitch core j.part).restoreJob y.job y.save).settle

end Sys2Proof.Machine
end

