-- ==== Sys2Proof/Machine/UrUnit.lean ====
section
/-!
DEFINITION. The Unified Range and the Granary at work (spec/06): accesses, fills and write-backs, decay, pins, quotas, the
page-state table and the removal of a quarter.
-/
namespace Sys2Proof.Machine

/-! ## Accesses -/

/-- UNIFIED_RANGE_ACCESS (R115, R127, R128): an access of a unit that is no tensor core; a read answers the bytes. -/
def execUnifiedRangeAccess (init : Nat) (secure write : Bool) (off len : Nat) (data : List Byte) (obs : List Obs) (s : State) :
    Host.Outcome State Fault Refusal := s.command fun s =>
  let q := unitReq init secure
  if write then
    match s.urWrite q off data obs with
    | (none, s) => .next (s.answer init true [])
    | (some .range, s) => .next ((s.answer init false []).logIt .boundary init 8 off 0 0)
    | (some _, s) => .next (s.answer init false [])
  else
    match s.urRead q off len obs with
    | (.ok bs, s) => .next (s.answer init true bs)
    | (.error .range, s) => .next ((s.answer init false []).logIt .boundary init 8 off 0 0)
    | (.error _, s) => .next (s.answer init false [])

/-! ## Fills and write-backs -/

/-- GRANARY_FILL_COMPLETE (R119, R127): the fill at the front of a quarter's queue ends: well; or with a cause of UR_QLOG, which
quarantines its page and the frame with it: what the command has met, a stream that the decoder rejects (4), or a seal that does not
match (1). -/
def execGranaryFillComplete (quarter : Nat) (cause : Option Nat) (s : State) : Host.Outcome State Fault Refusal := s.command fun s =>
  match s.ur.fills.find? (fun x => quarterOf x.page == quarter) with
  | none => .next s
  | some x =>
    let met := match cause with
      | some k => some k
      | none => ((List.range 16).findSome? (fun i => s.grainFails (x.page * 16 + i) true [])).map (·.2)
    match met with
    | none => .next (s.endFill x).settle
    | some k => .next (s.quarantine x.page k)

/-- The write-back that comes first in a quarter: earliest deadline first, then in order of arrival (R119). -/
def State.nextWriteBack (s : State) (quarter : Nat) : Option WriteBack :=
  match s.ur.writeBacks.filter (fun w => quarterOf w.page == quarter) with
  | [] => none
  | w :: r => some (r.foldl (fun b x => if sooner x.deadline b.deadline then x else b) w)

/-- A grain of a page home carries a seal that does not match: a free value that is not 0 (DESIGN CHOICE, assumption 34: the spec tells
neither which grain of a failed write-back it is nor what its seal becomes). -/
def State.spoilHome (s : State) (p : Nat) : State :=
  let f := s.fresh
  let w := Config.freeWord f.1
  { f.2 with ur := { f.2.ur with
      sealX := SMap.put f.2.ur.sealX (p * 16 + Config.freeNat f.1 % 16) (if w = 0#32 then 1#32 else w) 0#32 } }

/-- GRANARY_WRITE_BACK_COMPLETE (R119, R123, R127): the frame's page is home with its seals, encoded where Sheaf allows; a page with a grain
that fails, as the command has met or as its seal in the frame shows, is written home with Q set; the fill that waited for the frame
starts. -/
def execGranaryWriteBackComplete (quarter : Nat) (failed : Bool) (s : State) : Host.Outcome State Fault Refusal := s.command fun s =>
  match s.nextWriteBack quarter with
  | none => .next s
  | some w =>
    let bad := (List.range 16).any (fun i => SMap.get s.ur.frameSealX (w.frame * 16 + i) 0#32 != 0#32)
    let s := (s.frameToHome w.frame w.page).bumpFld .urCntCount 3 1
    let s := if failed && !bad then s.spoilHome w.page else s
    let s := (if failed || bad then s.quarantine w.page 5 else s).dropFrame w.frame .invalid
    let s := { s with ur := { s.ur with writeBacks := s.ur.writeBacks.erase w } }
    match w.fill with
    | none => .next s
    | some x => .next (s.beginFill x)

/-- MIGRATION_DECAY (R117): every candidate count and every ACC is halved; a page keeps its entry when its count falls to 0. -/
def execMigrationDecay (at_ : Nat) (s : State) : Host.Outcome State Fault Refusal := s.command fun s =>
  let s := s.reach at_
  let dir := s.ur.dir.map (fun e => (e.1, { e.2 with acc := e.2.acc / 2 }))
  .next { s with ur := { s.ur with
    dir := dir.filter (fun e => decide (e.2 ≠ DirEntry.empty))
    cand := s.ur.cand.map (fun e => (e.1, { e.2 with count := e.2.count / 2 })) } }

/-! ## Pins, quotas and page states -/

/-- Pin the pages of a run in order (R116): the RESULT of UR_PIN and the pages done; the pages before a refused one stay
pinned. -/
def State.pinRun (s : State) (quota : Nat) : List Nat → Nat → Nat × Nat × State
  | [], done => (0, done, s)
  | p :: r, done =>
    if s.urPages ≤ p then (2, done, s)
    else if !s.quarterFills (quarterOf p) then (3, done, s)
    else match s.pinPage p quota 8 none with
      | (true, s) => s.pinRun quota r (done + 1)
      | (false, s) => (1, done, s)

/-- The fields of a request of UR_PIN as written (R130). -/
def State.setPin (s : State) (page op quota count : Nat) : State :=
  s.setFlds 0 [(.urPinPage, page), (.urPinOp, op), (.urPinQuota, quota), (.urPinCount, count)]

/-- The outcome of a request of UR_PIN. -/
def State.pinResult (s : State) (result done : Nat) : State := s.setFlds 0 [(.urPinResult, result), (.urPinDone, done)]

/-- The pages of a run of UR_PIN, or none when its count or its quota is out of range. -/
def pinPages (page quota count : Nat) : Option (List Nat) :=
  if count = 0 ∨ 4096 < count ∨ 8 < quota then none else some ((List.range count).map (page + ·))

/-- UR_PIN (R116, R130): a run of pages is filled into a quota and pinned; the request is in progress until the fills of the pages that it
has taken have ended.  A request while one is in progress is ignored (DESIGN CHOICE, assumption 35). -/
def execUrPin (page quota count : Nat) (secure : Bool) (s : State) : Host.Outcome State Fault Refusal := s.command fun s =>
  if !secure then .next (s.worldError .urPinGo 0) else
  if s.pinBusy then .next s else
  let s := s.setPin page 0 quota count
  match pinPages page quota count with
  | none => .next ((s.pinResult 2 0).setPinning none)
  | some ps =>
    let r := s.pinRun quota ps 0
    .next ((r.2.2.pinResult r.1 r.2.1).setPinning (some (ps.take r.2.1, r.1)))

/-- UR_UNPIN (R116): the pins of a run are released. -/
def execUrUnpin (page quota count : Nat) (secure : Bool) (s : State) : Host.Outcome State Fault Refusal := s.command fun s =>
  if !secure then .next (s.worldError .urPinGo 0) else
  if s.pinBusy then .next s else
  let s := (s.setPin page 1 quota count).setPinning none
  match pinPages page quota count with
  | none => .next (s.pinResult 2 0)
  | some ps =>
    let ok := ps.takeWhile (fun p => decide (p < s.urPages))
    let s := ok.foldl (fun s p => s.unpinPage p) s
    .next (s.pinResult (if ok.length = count then 0 else 2) ok.length)

/-- Give a quota its way groups, unless another quota holds one of them (R114). -/
def State.setQuota (s : State) (quota ways : Nat) : State :=
  if (List.range 9).any (fun q => decide (q ≠ quota) && (List.range 16).any (fun w =>
      bit ways w && bit (s.fld .urQuotaWays q) w)) then s
  else s.setFld .urQuotaWays quota ways

/-- UR_QUOTA_WRITE (R114). -/
def execUrQuotaWrite (quota ways : Nat) (secure : Bool) (s : State) : Host.Outcome State Fault Refusal := s.command fun s =>
  .next (if secure then s.setQuota quota ways else s.worldError .urQuotaWays quota)

/-- UR_PSTATE_WRITE (R128, R130): SHEAF takes the value written, and Q can only be cleared. -/
def execUrPstateWrite (page : Nat) (q sheaf secure : Bool) (s : State) : Host.Outcome State Fault Refusal := s.command fun s =>
  if !secure then .next (s.worldError .urPstateDataSheaf 0) else
  let s := s.setFld .urPstateSelPage 0 page
  if s.urPages ≤ page then .next s else
  let s := if !q ∧ (s.pageState page).q then s.clearQ page else s
  .next (s.setPageState page { s.pageState page with sheaf := sheaf })

/-! ## Removal of a quarter -/

/-- Every frame of a quarter is OUT (R129): contents and pins are gone, and fills and write-backs of its sets end. -/
def State.quarterGone (s : State) (quarter cause : Nat) : State :=
  let s := (s.liveFrames quarter).foldl (fun s f => s.dropFrame f .invalid) s
  let s := { s with ur := { s.ur with
    fills := s.ur.fills.filter (fun x => quarterOf x.page != quarter)
    writeBacks := s.ur.writeBacks.filter (fun w => quarterOf w.page != quarter) } }
  let out := s.fld .urStatusGqOut 0
  let s := s.setFlds 0 [(.urStatusGqOut, if bit out quarter then out else out + 2 ^ quarter),
    (.urStatusGqDrain, setBits (s.fld .urStatusGqDrain 0) quarter quarter 0)]
  (s.event 0x000C (quarter + 256 * cause) s.time).settle

/-- QUARTER_RETIRE_COMPLETE (R129): the last resident page of a retiring quarter is home; while a write-back of it is under way, it is
not. -/
def execQuarterRetireComplete (quarter : Nat) (s : State) : Host.Outcome State Fault Refusal := s.command fun s =>
  if !bit (s.fld .urStatusGqDrain 0) quarter || (s.nextWriteBack quarter).isSome then .next s else
  .next (s.quarterGone quarter 0)

/-- Every spill slot and every save area has a page in each quarter, so all are lost with one (R82, R112, R129). -/
def State.loseSpills (s : State) : State :=
  let ps := (List.range 8).filter s.partActive
  let lost := ps.flatMap (fun p => (List.range (s.obj .spillSlots (p + 1))).map (fun k => p * 2 ^ 20 + k))
  let s := { s with hearth := { s.hearth with
    spillLost := lost.foldl (fun m k => SMap.put m k true false) s.hearth.spillLost } }
  { s with rota := { s.rota with
    wheel := s.rota.wheel.map (fun e => (e.1, { e.2 with
      suspended := e.2.suspended.map (fun x => { x with save := { x.save with bad := true } }) })) } }

/-- QUARTER_LOSS (R129): the quarter goes OUT at once; the pages of its dirty frames are quarantined. -/
def execQuarterLoss (quarter : Nat) (s : State) : Host.Outcome State Fault Refusal := s.command fun s =>
  if !s.quarterIn quarter then .next s else
  let s := (s.liveFrames quarter).foldl (fun s f =>
    let e := s.dirAt f
    if e.state = .dirty ∨ e.state = .writeback then s.quarantine e.page 6 else s.stopFill f) s
  .next (s.loseSpills.quarterGone quarter 1)

end Sys2Proof.Machine
end

