-- ==== Sys2Proof/Machine/RotaUnit.lean ====
section
/-!
DEFINITION. The Rota's commands (spec/11): APPLY and the partition resets (R213, R438), the doorbells and completion rings
(R218, R221), periodic and guarded releases (R223, R231), aborts (R230) and the ends of self-test segments (R234, R313,
R314).
-/
namespace Sys2Proof.Machine

/-! ## APPLY -/

/-- The configuration in force of a partition (R213): what RT_PARTn, UR_QUOTAn and the cores' split modes hold. -/
def State.partNow (s : State) (p : Nat) : PartCfg :=
  if !s.partActive p then ⟨0, 0, 0, false, 0, []⟩ else
  ⟨s.partBase p, s.partSize p, s.fld .rtPartWorld p, s.partFurrow p, s.fld .urQuotaWays p,
    (List.range (s.partSize p)).map (fun i => s.fld .hearthCfgSplit (s.partBase p + i))⟩

/-- The configuration that the partition objects ask for (R236); a base of 0xFF is an unused partition. -/
def State.partAsked (s : State) (p : Nat) : PartCfg :=
  let base := s.obj .partBase (p + 1)
  if base = 0xFF then ⟨0, 0, 0, false, 0, []⟩ else
  let size := s.obj .partSize (p + 1)
  ⟨base, size, s.obj .partWorld (p + 1), s.obj .partFurrow (p + 1) == 1, s.obj .partWays (p + 1),
    (List.range (min size 8)).map (fun i => s.obj .hearthSplit (base + i + 1))⟩

/-- The cores of a configuration. -/
def PartCfg.cores (c : PartCfg) : List Nat := (List.range c.size).map (c.base + ·)

/-- Live STATE leases of a partition. -/
def State.stateLeases (s : State) (p : Nat) : Nat :=
  (s.hearth.leases.filter (fun l => decide (l.kind ≠ .work ∧ l.part = p))).length

/-- Enabled wheel slots of a partition. -/
def State.slotsOn (s : State) (p : Nat) : Nat := ((List.range 64).filter (fun i => s.flag .rtWheelEn (p * 64 + i))).length

/-- The whole set of partition objects is legal (R212, R213, R227). -/
def State.applyOk (s : State) : Bool :=
  let cs := (List.range 8).map (fun p => (p, s.partAsked p))
  let used := cs.filter (fun c => decide (s.obj .partBase (c.1 + 1) ≠ 0xFF))
  used.all (fun c =>
    [1, 2, 4, 8].contains c.2.size && decide (c.2.base + c.2.size ≤ 8) && decide (c.2.base % c.2.size = 0) &&
    decide (s.slotsOn c.1 * 68 * c.2.size + s.stateLeases c.1 ≤ s.obj .spillSlots (c.1 + 1)) &&
    used.all (fun d => decide (d.1 = c.1) ||
      (c.2.cores.all (fun x => !d.2.cores.contains x) && decide (Nat.land c.2.ways d.2.ways = 0))))

/-- The configuration that a partition is on its way to, or has. -/
def State.partGoal (s : State) (p : Nat) : PartCfg :=
  if bit s.rota.applying p then SMap.get s.rota.plan p ⟨0, 0, 0, false, 0, []⟩ else s.partNow p

/-- The gates of a Bin close and its tallies return to 0 (R104). -/
def State.resetGates (s : State) (b : Nat) : State :=
  { s with regs := SMap.clear (SMap.clear (SMap.clear s.regs (Fld.key .binTallyCount (b * 1024)) 1024)
      (Fld.key .binGateOpen (b * 64)) 64) (Fld.key .binGateState (b * 64)) 64 }

/-- The ending of a job that a partition reset ends (R213, R438). -/
def resetEnding : Ending := ⟨2, 7, 2, 0, false⟩

/-- The start of a partition reset (R213 step 1, R104, R207, R226, R438): dispatch stops, jobs queued, suspended or waiting as
copies end WITHDRAWN, running jobs end at their next stile; gates close, the partition's key slots are zeroed and a Sieve
call of the holder ends. -/
def State.beginReset (s : State) (p : Nat) (goal : PartCfg) : State :=
  let was := s.partActive p
  let cores := if was then (List.range (s.partSize p)).map (s.partBase p + ·) else []
  let s : State := { s with rota := { s.rota with
    applying := if bit s.rota.applying p then s.rota.applying else s.rota.applying + 2 ^ p
    plan := SMap.put s.rota.plan p goal ⟨0, 0, 0, false, 0, []⟩ } }
  let s := s.setFld .rtStatusApplying 0 1
  let s := if was then s.bumpObj .partResets (p + 1) 1 else s
  let s := (s.stopStreams p cores)
  let s := cores.foldl (fun s c => s.resetGates c) s
  let s : State := s.zeroSlots (fun _ k => decide (k.part = p))
  let s : State := if s.sv.holder = some p ∧ s.sv.run.isSome then s.svDrop else s
  let s := (List.range 64).foldl (fun s i =>
    let w := s.wslot p i
    let ids := (w.suspended.map (fun x => (x.job.ring, x.job.index))).toList ++
      (w.taken.toList ++ w.due).map (fun t => (t.ring, t.index))
    ids.foldl (fun s x => (s.withdraw x.1 x.2 resetEnding).2) s) s
  let s := (List.range 16).foldl (fun (s : State) k =>
    let n := s.net k
    let s : State := if n.waiting.contains 0 ∧ cores.contains n.west then
      (s.withdrawOne (((n.taken.map (·.ring)).getD 0), ((n.taken.map (·.index)).getD 0), 0) resetEnding).2 else s
    if (s.net k).waiting.contains 1 ∧ cores.contains n.east then
      (s.withdrawOne (((n.taken.map (·.ring)).getD 0), ((n.taken.map (·.index)).getD 0), 1) resetEnding).2 else s) s
  cores.foldl (fun s c => s.updCore c (fun x => { x with lastStileDue := x.job.isSome, selftest := none })) s

/-- PART_APPLY (R213): the whole set is checked, and each affected partition starts its change. -/
def State.apply (s : State) : State :=
  if !s.applyOk then s.setFld .rtStatusCfgerr 0 1 else
  let affected := (List.range 8).filter (fun p => decide (s.partAsked p ≠ s.partGoal p))
  (affected.foldl (fun s p => s.beginReset p (s.partAsked p)) s).settle.pwrSync

/-- PART_APPLY (R213): the write of PART_APPLY or of RT_CTRL.APPLY. -/
def execPartApply (secure : Bool) (s : State) : Host.Outcome State Fault Refusal := s.command fun s =>
  .next (if secure then s.apply else s.worldError .rtCtrlApply 0)

/-- Cores that hold no running job and no switch. -/
def State.coresQuiet (s : State) (cs : List Nat) : Bool :=
  cs.all (fun c =>
    let x := s.core c
    x.job.isNone && x.switching == 0 && x.inflight.isEmpty)

/-- Release what a partition held (R213 step 2): pins, leases, and its stream records, which become STATE_LOST. -/
def State.releasePart (s : State) (p : Nat) : State :=
  let ways := s.quotaWays p
  let s : State := { s with ur := { s.ur with
    dir := s.ur.dir.map (fun e => if ways.contains (e.1 / 4096) then (e.1, { e.2 with pin := false }) else e)
    fills := s.ur.fills.map (fun x : Fill => if ways.contains (x.frame / 4096) then { x with pin := false } else x)
    writeBacks := s.ur.writeBacks.map (fun w : WriteBack => if ways.contains (w.frame / 4096) then
      { w with fill := w.fill.map (fun x => { x with pin := false }) } else w) } }
  let s := s.setLeases (s.hearth.leases.filter (fun l => decide (l.part ≠ p)))
  let lost := s.ledger.recs.filter (fun e => decide (recType e.2 = 3 ∧ recState e.2 ≠ 0 ∧ recPart e.2 = p))
  lost.foldl (fun s e => s.setRec e.1 (setRecState e.2 4)) s

/-- Steps 2 to 6 of R213 for a partition: release, zeroing, the split modes, the way groups, the slot maps, the Sieve's lease,
and RT_PARTn. -/
def State.resumePart (s : State) (p : Nat) (g : PartCfg) : State :=
  let s := if s.partActive p then s.releasePart p else s
  -- a partition on its way elsewhere gives up the cores and way groups that this one takes
  let others := (List.range 8).filter (fun q => decide (q ≠ p) && bit s.rota.applying q)
  let s := others.foldl (fun (s : State) q =>
    let overlap := s.partActive q && (List.range (s.partSize q)).any (fun i => g.cores.contains (s.partBase q + i))
    let s := if overlap then (s.releasePart q).setFld .rtStatusActive 0 (setBits (s.fld .rtStatusActive 0) q q 0) else s
    s.setFld .urQuotaWays q (s.fld .urQuotaWays q - Nat.land (s.fld .urQuotaWays q) g.ways)) s
  let s := g.cores.zipIdx.foldl (fun (s : State) ci =>
    let c := ci.1
    let last := SMap.get s.rota.lastWorld c 0
    let s := if last ≠ 0 ∧ last ≠ g.world + 1 ∧ s.binReady c = true ∧ s.binInUse c = false then s.startZeroing c else s
    let s := s.setSplit c (g.splits.getD ci.2 0)
    let s := s.rotaSlotMap c
    { s with rota := { s.rota with lastWorld := SMap.put s.rota.lastWorld c (g.world + 1) 0 } }) s
  let s := s.setQuota p g.ways
  let lease := s.obj .sieveLease 0
  let s := if (if s.flag .svLeaseEn 0 then s.fld .svLeasePart 0 else 0xFF) = (if lease ≤ 7 then lease else 0xFF) then s
    else if lease ≤ 7 then s.svLease lease true else s.svLease (s.fld .svLeasePart 0) false
  let s := s.setFlds p [(.rtPartBase, g.base), (.rtPartSize, Nat.log2 g.size), (.rtPartWorld, g.world),
    (.rtPartFurrow, b2n g.furrow)]
  let s := s.setFld .rtStatusActive 0 (setBits (s.fld .rtStatusActive 0) p p (b2n (decide (0 < g.size))))
  let mask := setBits s.rota.applying p p 0
  let s : State := { s with rota := { s.rota with applying := mask, plan := SMap.put s.rota.plan p ⟨0, 0, 0, false, 0, []⟩ ⟨0, 0, 0, false, 0, []⟩ } }
  if mask = 0 then s.setFld .rtStatusApplying 0 0 else s

/-- PARTITION_APPLY_RESUME (R213): no job runs any more on the partition's cores, old or new, and a furrow is powered with its
clocks running (R40). -/
def execPartitionApplyResume (part : Nat) (s : State) : Host.Outcome State Fault Refusal := s.command fun s =>
  if !bit s.rota.applying part then .next s else
  let g := s.partGoal part
  let old := (s.partNow part).cores
  if !s.coresQuiet (old ++ g.cores) then .next s
  else if g.furrow && g.cores.any (fun c => !(s.powerGood (31 + c) && s.powerGood (39 + c) && !s.flag .clkStatusHeld 0)) then
    .next s
  else .next (s.resumePart part g).decideNext.settle.pwrSync

/-- A job that is released and waits for a core needs an array, and wakes the device from DOZE (R417): the argument is a core of
its partition. -/
def State.wakeForJobs (s : State) : State :=
  let waits := (List.range 8).find? (fun p => s.partActive p && (List.range 64).any (fun i =>
    let k := p * 64 + i
    (((s.wslot p i).taken.isSome || (s.wslot p i).due != []) && !(s.wslot p i).running) ||
      (!s.flag .rtWheelMode k && s.slotOpen p i && s.ringReady (s.fld .rtWheelRing k))))
  let nets := (List.range 16).find? (fun k => !(s.net k).waiting.isEmpty)
  match waits, nets with
  | some p, _ => s.wake 10 s.time (s.partBase p)
  | none, some k => s.wake 10 s.time (s.net k).west
  | none, none => s

/-! ## Rings -/

/-- A world may reach what a ring's world guards (R8). -/
def mayReach (secure target : Bool) : Bool := secure || !target

/-- SUBMISSION_DOORBELL (R218): the tail of a ring advances, the descriptors that it covers are submitted now, and what serves the
ring releases. -/
def execSubmissionDoorbell (ring tail at_ : Nat) (secure : Bool) (s : State) : Host.Outcome State Fault Refusal := s.command fun s =>
  let s := s.reach at_
  if !mayReach secure (s.ringSecure ring) then .next (s.worldError .rtDbTail ring) else
  if !s.flag .rtRingEn ring then .next s else
  let size := s.ringSize ring
  let old := SMap.get s.rota.tail ring 0
  let new := tail % size
  let n := (new + size - old) % size
  let s : State := { s with rota := { s.rota with
    tail := SMap.put s.rota.tail ring new 0
    submit := (List.range n).foldl (fun m i => SMap.put m (ring * 4096 + (old + i) % size) s.time 0) s.rota.submit } }
  .next (s.setSqLen ring (min (s.sqLen ring + n) size)).decideNext.settle.wakeForJobs

/-- Write held completion records while their ring has space (R221). -/
def State.flushHeld (s : State) (fuel r : Nat) : State :=
  match fuel with
  | 0 => s
  | n + 1 =>
    match SMap.get s.rota.held r [] with
    | [] => s
    | b :: rest =>
      if s.ringSize r ≤ s.cqLen r then s else
      (({ s with rota := { s.rota with held := SMap.put s.rota.held r rest [] } }).writeCq r b).flushHeld n r

/-- Acknowledge completion records (R221). -/
def State.ackCq (s : State) (ring value : Nat) : State :=
  let size := s.ringSize ring
  let n := (value % 4096 + size - s.fld .rtRingCqhead ring % size) % size
  let s := (s.setFld .rtRingCqhead ring value).setCqLen ring (s.cqLen ring - n)
  s.flushHeld ((SMap.get s.rota.held ring []).length) ring

/-- CQHEAD_WRITE (R221): records are acknowledged, held records are written, and the ring serves again. -/
def execCqheadWrite (ring value : Nat) (secure : Bool) (s : State) : Host.Outcome State Fault Refusal := s.command fun s =>
  if !mayReach secure (s.ringSecure ring) then .next (s.worldError .rtRingCqhead ring)
  else .next (s.ackCq ring value).decideNext.settle

/-! ## Periodic releases -/

/-- The instant of a periodic release (R223). -/
def State.atInstant (s : State) (period offset : Nat) : Bool :=
  let us := s.time / 1000
  decide (0 < period ∧ offset ≤ us ∧ (us - offset) % period = 0)

/-- An instant with no job waiting (R223): counted for the partition. -/
def State.missedRelease (s : State) (p : Nat) : State := s.bumpObj .missedRelease (p + 1) 1

/-- PERIODIC_RELEASE (R223): a PERIODIC slot releases the job at its ring's head, which waits behind a job of the slot that has
not ended. -/
def execPeriodicRelease (part slot at_ : Nat) (s : State) : Host.Outcome State Fault Refusal := s.command fun s =>
  let s := s.reach at_
  let k := part * 64 + slot
  let r := s.fld .rtWheelRing k
  if !(s.flag .rtWheelEn k && s.flag .rtWheelMode k && s.atInstant (s.fld .rtWheelPeriod k) (s.fld .rtWheelOffset k)) then .next s
  else if s.sqLen r = 0 ∨ !s.flag .rtRingEn r then .next (s.missedRelease part)
  else .next (if s.slotOpen part slot && s.ringReady r && (s.wslot part slot).due == [] then s.releaseSlot part slot s.time
    else s.releaseDue part slot).decideNext.settle.wakeForJobs

/-- GUARDED_RELEASE (R231): a guarded network releases the job at its ring's head, at its instant when it is PERIODIC. -/
def execGuardedRelease (net at_ : Nat) (s : State) : Host.Outcome State Fault Refusal := s.command fun s =>
  let s := s.reach at_
  let r := s.fld .rtGnetRing net
  if !s.flag .rtGnetEn net then .next s
  else if s.flag .rtGnetMode net && !s.atInstant (s.fld .rtGnetPeriod net) (s.fld .rtGnetOffset net) then .next s
  else if s.flag .rtGnetMode net && (s.sqLen r == 0 || !s.flag .rtRingEn r) then .next (s.missedRelease (s.fld .rtRingPart r))
  else if s.netReady net && (s.net net).due == [] then .next (s.releaseNet net s.time).decideNext.settle.wakeForJobs
  else if s.flag .rtGnetMode net then .next (s.netDueNow net).decideNext.settle.wakeForJobs
  else .next s

/-! ## Aborts -/

/-- The ending of an aborted job (R230). -/
def abortEnding : Ending := ⟨2, 6, 0, 0, false⟩

/-- Abort a job by ring and descriptor index (R230): the RESULT of RT_ABORT. -/
def State.abortJob (s : State) (ring index : Nat) (secure : Bool) : Nat × State :=
  if 256 ≤ ring then (1, s)
  else if !mayReach secure (s.ringSecure ring) then (2, s)
  else match s.withdraw ring index abortEnding with
    | (true, s) => (0, s.settle.decideNext)
    | (false, s) => (1, s)

/-! ## Self-test -/

/-- A core fails its logic self-test (R314). -/
def State.failCore (s : State) (c : Nat) : State :=
  let s : State := { s with safe := { s.safe with failed := SMap.put s.safe.failed c true false } }
  let s := (s.setFld .safeFaultSelftest 0 1).event 0x0017 c s.time
  (List.range 16).foldl (fun s k => (List.range 4).foldl (fun s i =>
    if s.flag (pairFlds i).2.2.1 k && (s.pairWest k i == c || s.pairEast k i == c) && !s.flag (pairFlds i).2.2.2 k then
      s.markSuspect k i else s) s) s

/-- The banks of a Bin without a free spare (R313). -/
def State.fullBanks (s : State) (b : Nat) : Nat := ((List.range 48).filter (fun k => (s.sparesOf b k).isEmpty)).length

/-- The end of a march segment on one core (R313): banks without a spare were skipped, and failing rows are due for repair. -/
def State.endMarch (s : State) (c : Nat) (rows : List (Nat × Nat)) : State :=
  let s := s.bumpObj .marchSkipped (c + 1) (s.fullBanks c)
  rows.foldl (fun s x =>
    if (s.sparesOf c x.1).isEmpty || s.bin.due.contains (c, x.1, x.2) then s
    else { s with bin := { s.bin with due := s.bin.due ++ [(c, x.1, x.2)] } }) s

/-- The progress of a core's pass after a segment (R313 to R315): a mismatch repeats its segment once, a second fails the core, and
the thirteenth segment ends the pass. -/
def State.endSegment (s : State) (c i : Nat) (bad : Bool) : State :=
  let x := s.test c
  let again := decide (5 ≤ i) && bad && !x.again
  let s := if decide (5 ≤ i) && bad && x.again then s.failCore c else s
  if again then s.setTest c ⟨i, true⟩
  else if i = 12 then (s.setTest c ⟨0, false⟩).setObj .selftestLast (c + 1) (s.time % 2 ^ 64)
  else s.setTest c ⟨i + 1, false⟩

/-- SELFTEST_SEGMENT_END (R234, R313, R314): a segment ends on a core, with the rows that failed their march or the members whose
signature mismatched; the end is a decision point. -/
def execSelftestSegmentEnd (core : Nat) (badRows : List (Nat × Nat × Nat)) (badCores : List Nat) (at_ : Nat) (s : State) :
    Host.Outcome State Fault Refusal := s.command fun s =>
  let s := s.reach at_
  match (s.core core).selftest with
  | none => .next s
  | some i =>
    let ms := s.members core
    let s := (ms.foldl (fun s m =>
      let s := s.updCore m (fun x => { x with selftest := none })
      let s := if i < 5 then s.endMarch m ((badRows.filter (fun r => decide (r.1 = m))).map (·.2)) else s
      s.endSegment m i (badCores.contains m)) s).bumpFld .rtCntCount 3 1
    .next (s.decideCore core).settle

end Sys2Proof.Machine
end

