-- ==== Sys2Proof/Machine/Hopper.lean ====
section
/-!
DEFINITION. The Hopper (spec/12): feeds, the sample ring, lanes, the preparation of image and audio samples, batches and their
publication, budgets and the low-water alarm.
-/
namespace Sys2Proof.Machine

/-! ## Feeds -/

/-- The configuration that a feed record holds in bytes 16 to 63 (R238). -/
def hpCfg (r : Nat) (stats : List Word) : HpCfg :=
  let w (k : Nat) : Nat := recField r (16 + 4 * k) 31 0
  ⟨bits (w 0) 29 20, bits (w 0) 19 3, bits (w 0) 2 0, bits (w 1) 26 19, bits (w 1) 18 15, bits (w 1) 14 10, bits (w 1) 9 0,
    bits (w 2) 27 24, bits (w 2) 23 0, bits (w 3) 29 26, bit (w 3) 25, bits (w 3) 24 8, bits (w 3) 7 0 + 1,
    bits (w 4) 15 0, bits (w 4) 31 16, w 4, bits (w 5) 7 0, BitVec.ofNat 32 (w 6), signed 16 (bits (w 7) 15 0),
    bits (w 8) 23 0, bits (w 9) 15 0, stats⟩

/-- The formats a feed may write. -/
def HpCfg.format (c : HpCfg) : Option Fmt :=
  match Fmt.ofCode c.fmt with
  | some .int8 => some .int8
  | some .uint8 => some .uint8
  | some .bf16 => some .bf16
  | some .fp16 => some .fp16
  | some .fp32 => some .fp32
  | _ => none

/-- The elements of a slot, and its grains in a buffer. -/
def HpCfg.elems (c : HpCfg) : Nat := if c.audio then c.outlen * c.c else c.outw * c.outh * c.c
def HpCfg.bufferGrains (c : HpCfg) : Nat := 2 + c.b * c.grains

/-- A configuration is good (R238, R239). -/
def State.hpCfgOk (s : State) (part : Nat) (c : HpCfg) : Bool :=
  match c.format with
  | none => false
  | some f =>
    decide (s.partBase part ≤ c.bin ∧ c.bin < s.partBase part + s.partSize part) && s.partActive part &&
    decide (c.budget ≠ 1 ∧ 2 ≤ c.qdepth ∧ c.qdepth ≤ 16 ∧ 1 ≤ c.depth ∧ c.depth ≤ 12 ∧ 1 ≤ c.grains ∧ c.grains ≤ 98304) &&
    (if c.audio then decide (c.c = 1 ∧ 1 ≤ c.outlen ∧ c.noiseCount ≤ 1024)
      else decide ((c.c = 1 ∨ c.c = 3) ∧ 1 ≤ c.outw ∧ c.outw ≤ 4096 ∧ 1 ≤ c.outh ∧ c.outh ≤ 4096)) &&
    f.zpOk c.ozp && decide (f.run c.elems ≤ c.grains * 256) &&
    decide (c.base + c.qdepth * c.bufferGrains ≤ binGrains)

/-- PD13 is powered and HOPPERCLK runs (R251). -/
def State.hpReady (s : State) : Bool := s.powerGood 13 && s.clocked 11 && s.pllILocked && !s.flag .clkStatusHeld 0

/-- The Hopper as an initiator: the WORLD of the feed record (R319). -/
def HpFeed.req (f : HpFeed) : Requester := unitReq 0x0D f.secure

/-- A lane may start the feed's next sample (R244): it is submitted, within the window, and its batch has a buffer. -/
def HpFeed.eligible (f : HpFeed) : Bool :=
  decide (f.started < f.tail ∧ f.started < f.edgeIndex + 256 ∧ f.started / f.cfg.b < f.published - f.occupied + f.cfg.qdepth)

/-- The means and inverse deviations of an image feed: bytes 64 to 87 of its parameter block (R238). -/
def State.hpStats (s : State) (page : Nat) (audio secure : Bool) : Except UrErr (List Word) × State :=
  if audio then (.ok [], s) else
  match s.urRead (unitReq 0x0D secure) (page * 4096 + 64) 24 [] with
  | (.error e, s) => (.error e, s)
  | (.ok b, s) => (.ok ((List.range 6).map (fun i => svWord b (4 * i))), s)

/-- Enable a feed (R237, R250): its RESULT, 1 STALE, 2 BAD_VALUE or 3 WORLD, and the state. -/
def State.hpEnable (s : State) (n : Nat) (secure : Bool) : Nat × State :=
  let h := s.fld .hpFeedHandle n
  let s := s.lgFetch
  let r := s.recOf h
  if s.stale h then (1, s)
  else if !mayReach secure (recWorld r == 1) then (3, s)
  else if recType r ≠ 7 ∨ recField r 8 26 24 ≠ n then (2, s)
  else
    let world := recWorld r == 1
    let audio := bit (recField r 28 31 0) 25
    match s.hpStats (recField r 8 23 0) audio world with
    | (.error .world, s) => (3, s)
    | (.error _, s) => (2, s)
    | (.ok st, s) =>
      let c := hpCfg r st
      if !s.hpCfgOk (recPart r) c then (2, s)
      else (0, s.setHpFeed n (some ⟨h, world, c, 0, 0, 0, 0, [], [], true, none⟩))

/-- HP_FEED_ENABLE (R250, R251). -/
def execHpFeedEnable (feed : Nat) (secure : Bool) (s : State) : Host.Outcome State Fault Refusal := s.command fun s =>
  if !s.clocked 11 then .next s.gatedError else
  if (s.hpFeed feed).isSome then .next s else
  let r := s.hpEnable feed secure
  let s := r.2.setFld .hpFeedResult feed r.1
  .next (if r.1 = 0 then (s.setFlds feed [(.hpFeedEn, 1), (.hpFeedHead, 0), (.hpFeedAvg, 0)]).pwrSync else s)

/-- HP_FEED_DISABLE (R250). -/
def execHpFeedDisable (feed : Nat) (secure : Bool) (s : State) : Host.Outcome State Fault Refusal := s.command fun s =>
  if !s.clocked 11 then .next s.gatedError else
  match s.hpFeed feed with
  | none => .next s
  | some f => .next (if mayReach secure f.secure then (s.hpStop feed).pwrSync else s.worldError .hpFeedEn feed)

/-- HP_DOORBELL (R240): the tail advances, unless more records than the ring holds would be waiting. -/
def execHpDoorbell (feed tail : Nat) (secure : Bool) (s : State) : Host.Outcome State Fault Refusal := s.command fun s =>
  if !s.clocked 11 then .next s.gatedError else
  match s.hpFeed feed with
  | none => .next s
  | some f =>
    if !mayReach secure f.secure then .next (s.worldError .hpDbValue feed) else
    let size := 2 ^ f.cfg.depth
    let n := (tail % size + size - f.tail % size) % size
    if size < f.tail + n - f.published * f.cfg.b then .next (s.bumpObj .ringOver (feed + 1) 1)
    else .next ((s.setHpFeed feed (some { f with tail := f.tail + n })).hpEdge feed)

/-! ## Lanes -/

/-- LANE_SAMPLE_START (R244): an idle lane takes the lowest eligible sample of the next feed in turn that has one. -/
def execLaneSampleStart (lane at_ : Nat) (s : State) : Host.Outcome State Fault Refusal := s.command fun s =>
  let s := s.reach at_
  if 16 ≤ lane ∨ s.hpReady = false ∨ s.hp.lanes.any (fun l => l.lane == lane) then .next s else
  let order := (List.range 8).map (fun i => (s.hp.turn + 1 + i) % 8)
  match order.find? (fun n => match s.hpFeed n with | some f => f.eligible | none => false) with
  | none => .next s
  | some n =>
    match s.hpFeed n with
    | none => .next s
    | some f =>
      let s : State := { s with hp := { s.hp with lanes := s.hp.lanes ++ [HpLane.mk lane n f.started s.time], turn := n } }
      .next ((s.setHpFeed n (some { f with started := f.started + 1 })).hpEdge n)

/-! ## Preparation -/

/-- The bytes of a slot from its elements, the rest zero. -/
def hpPad (c : HpCfg) (b : List Byte) : List Byte := b ++ List.replicate (c.grains * 256 - b.length) 0

/-- A VOID slot: the output zero point in every element (R245). -/
def hpVoidSlot (c : HpCfg) (f : Fmt) : List Byte :=
  hpPad c ((List.replicate c.elems (natLe (ceilDiv f.bits 8) (unsignedOf f.bits c.ozp))).flatten)

/-- What a lane has prepared: the bytes of the slot, and its elements that saturated or were NaN (R51, R52). -/
structure HpSlot where
  bytes : List Byte
  sat   : Nat
  nan   : Nat
deriving DecidableEq, Repr

/-- Encode one element (R242 step 6): an integer output is scaled by the inverse of OSCALE (step 5 of R58). -/
def hpEncode (c : HpCfg) (f : Fmt) (v : Word) : Conv :=
  f.encode c.ozp (fpOf (if f.isInt then fMul v (fDiv fOne c.oscale) else v))

/-- A slot of encoded elements. -/
def hpSlot (c : HpCfg) (f : Fmt) (es : List Conv) : HpSlot :=
  ⟨hpPad c (es.flatMap (fun e => natLe (ceilDiv f.bits 8) e.raw)), es.countP (·.sat), es.countP (·.nan)⟩

/-- An FP16 field of a record as FP32, and whether it lies in a range. -/
def hpHalf (r : List Byte) (at_ : Nat) : Word := fp32Of (fmtFP16.decode (svNat r at_ 2))
def fWithin (v lo hi : Word) : Bool := fLe lo v && fLe v hi

/-- FP32 constants of the ranges of R240. -/
def fQuarter : Word := fScale2 fOne (-2)
def fFour : Word := fOfInt 4
def fSixteen : Word := fOfInt 16

/-- A record's fields are in range and its reserved fields zero (R240, R245 cause 7); only the fields of the other KIND are ignored. -/
def hpRecordOk (c : HpCfg) (r : List Byte) : Bool :=
  decide (1 ≤ svNat r 8 4 ∧ svNat r 8 4 ≤ 2 ^ 26 ∧ svNat r 12 1 ≤ 4 ∧ svNat r 13 1 ≤ 3 ∧ svNat r 14 2 = 0 ∧
    leNat ((r.drop 46).take 18) = 0) &&
  (if c.audio then
    fWithin (hpHalf r 32) fZero fSixteen && fWithin (hpHalf r 36) fZero fSixteen && fWithin (svWord r 42) fQuarter fFour &&
    decide (svNat r 34 2 = 0xFFFF ∨ svNat r 34 2 < c.noiseCount)
  else
    fWithin (hpHalf r 24) fQuarter fFour && (List.range c.c).all (fun i => fWithin (hpHalf r (26 + 2 * i)) fZero fSixteen))

/-! ## JPEG -/

/-- The frame header of a JPEG stream: its size, and the sampling factors of each component. -/
structure JpegFrame where
  w     : Nat
  h     : Nat
  comps : List Nat
deriving DecidableEq, Repr

/-- A big-endian number of two bytes. -/
def jpegNat (b : List Byte) (at_ : Nat) : Nat := svNat b at_ 1 * 256 + svNat b (at_ + 1) 1

/-- The segments of a JPEG stream from a marker on, up to its scan (R241): APPn, comments and tables are passed over, the one frame header
must be SOF0, and every other kind of frame or of coding is rejected.  The markers are those of the JPEG standard. -/
def jpegWalk (fuel : Nat) (b : List Byte) (seen : Option JpegFrame) : Option JpegFrame :=
  match fuel with
  | 0 => none
  | n + 1 =>
    if b.length < 4 ∨ svNat b 0 1 ≠ 0xFF then none else
    let m := svNat b 1 1
    let len := jpegNat b 2
    let next := b.drop (2 + len)
    if m = 0xFF then jpegWalk n (b.drop 1) seen
    else if len < 2 then none
    else if m = 0xDA then seen
    else if m = 0xC0 then
      if seen.isSome ∨ svNat b 4 1 ≠ 8 ∨ len ≠ 8 + 3 * svNat b 9 1 ∨ b.length < 2 + len then none
      else jpegWalk n next (some ⟨jpegNat b 7, jpegNat b 5, (List.range (svNat b 9 1)).map (fun i => svNat b (11 + 3 * i) 1)⟩)
    else if m = 0xC4 ∨ m = 0xDB ∨ m = 0xDD ∨ m = 0xFE ∨ (0xE0 ≤ m ∧ m ≤ 0xEF) then jpegWalk n next seen
    else none

/-- The frame is one that the lanes accept (R241): one component, or three sampled 4:4:4, 4:2:2 or 4:2:0, of 16,384 × 16,384 at most. -/
def JpegFrame.legal (f : JpegFrame) : Bool :=
  decide (1 ≤ f.w ∧ f.w ≤ 16384 ∧ 1 ≤ f.h ∧ f.h ≤ 16384) &&
  (f.comps.length == 1 || [[0x11, 0x11, 0x11], [0x21, 0x11, 0x11], [0x22, 0x11, 0x11]].contains f.comps)

/-- The frame of a JPEG source, or none when it does not meet the limits of R241. -/
def jpegFrame (b : List Byte) : Option JpegFrame :=
  if svNat b 0 2 ≠ 0xD8FF then none else
  match jpegWalk b.length (b.drop 2) none with
  | some f => if f.legal && Config.jpegDecodes b then some f else none
  | none => none

/-- A constant of a millionth part, as FP32. -/
def fMilli (n : Int) : Word := fDiv (fOfInt n) (fOfInt 1000000)

/-- A decoded pixel of plane 0 (luma) or 1 to 3 (R, G, B) by the JFIF full-range BT.601 equations (R242 step 1). -/
def jpegPixel (src : List Byte) (plane x y : Nat) : Word :=
  let v := Config.jpegSample src 0 x y
  let cb := fSub (Config.jpegSample src 1 x y) (fOfInt 128)
  let cr := fSub (Config.jpegSample src 2 x y) (fOfInt 128)
  match plane with
  | 1 => fAdd v (fMul (fMilli 1402000) cr)
  | 2 => fSub (fSub v (fMul (fMilli 344136) cb)) (fMul (fMilli 714136) cr)
  | 3 => fAdd v (fMul (fMilli 1772000) cb)
  | _ => v

/-- An image sample (R242) of `w` × `h` pixels and `n` components, or the cause 7 of a crop rectangle that shows nothing. -/
def hpImage (c : HpCfg) (f : Fmt) (r src : List Byte) (w h n : Nat) : Except Nat HpSlot :=
  let x := svNat r 16 2; let y := svNat r 18 2; let cw := svNat r 20 2; let ch := svNat r 22 2
  if cw = 0 ∨ ch = 0 ∨ w ≤ x ∨ h ≤ y then .error 7 else
  let zoom := hpHalf r 24
  let mid (o len : Nat) : Word := fAdd (fOfInt o) (fHalf (fOfInt len))
  let half (len : Nat) : Word := fDiv (fHalf (fOfInt len)) zoom
  let x1 := fSub (mid x cw) (half cw); let x2 := fAdd (mid x cw) (half cw)
  let y1 := fSub (mid y ch) (half ch); let y2 := fAdd (mid y ch) (half ch)
  let hf := bit (svNat r 13 1) 0
  let vf := bit (svNat r 13 1) 1
  let xa := if hf then x2 else x1; let xb := if hf then x1 else x2
  let ya := if vf then y2 else y1; let yb := if vf then y1 else y2
  let plane (k : Nat) : Nat := if c.c = 1 ∨ n = 1 then 0 else k + 1
  let pix (k : Nat) (px py : Int) : Word :=
    if px < 0 ∨ py < 0 ∨ (w : Int) ≤ px ∨ (h : Int) ≤ py then fZero else jpegPixel src (plane k) px.toNat py.toNat
  .ok (hpSlot c f ((List.range c.elems).map (fun i =>
    let k := i % c.c
    let ox := i / c.c % c.outw
    let oy := i / c.c / c.outw
    let sx := svCoord xa xb ox c.outw
    let sy := svCoord ya yb oy c.outh
    let bx := fFloor sx
    let by' := fFloor sy
    let v := svBilinear (pix k bx by') (pix k (bx + 1) by') (pix k bx (by' + 1)) (pix k (bx + 1) (by' + 1))
      (fSub sx (fOfInt bx)) (fSub sy (fOfInt by'))
    let v := fMul v (hpHalf r (26 + 2 * k))
    hpEncode c f (fMul (fSub v (c.stats.getD k fZero)) (c.stats.getD (3 + k) fOne)))))

/-- A sample of PCM16 as a real number (R243). -/
def hpPcm (v : Int) : Word := fScale2 (fOfInt v) (-15)

/-- The step sizes of IMA ADPCM and the changes of the step index, from the IMA standard that R241 names. -/
def imaSteps : List Nat :=
  [7, 8, 9, 10, 11, 12, 13, 14, 16, 17, 19, 21, 23, 25, 28, 31, 34, 37, 41, 45, 50, 55, 60, 66, 73, 80, 88, 97, 107, 118] ++
  [130, 143, 157, 173, 190, 209, 230, 253, 279, 307, 337, 371, 408, 449, 494, 544, 598, 658, 724, 796, 876, 963, 1060] ++
  [1166, 1282, 1411, 1552, 1707, 1878, 2066, 2272, 2499, 2749, 3024, 3327, 3660, 4026, 4428, 4871, 5358, 5894, 6484, 7132] ++
  [7845, 8630, 9493, 10442, 11487, 12635, 13899, 15289, 16818, 18500, 20350, 22385, 24623, 27086, 29794, 32767]
def imaIndex (code : Nat) : Int := if code % 8 < 4 then -1 else 2 * (code % 8 : Nat) - 6

/-- One step of IMA ADPCM: the predictor and the index after a code. -/
def imaStep (p : Int × Int) (code : Nat) : Int × Int :=
  let step := imaSteps.getD p.2.toNat 0
  let d := step / 8 + (if bit code 2 then step else 0) + (if bit code 1 then step / 2 else 0) + (if bit code 0 then step / 4 else 0)
  let v := if bit code 3 then p.1 - (d : Int) else p.1 + (d : Int)
  (max (-32768) (min 32767 v), max 0 (min 88 (p.2 + imaIndex code)))

/-- The 505 samples of a block, or none when its header is not legal (R241). -/
def imaBlock (b : List Byte) : Option (List Int) :=
  let idx := svNat b 2 1
  if 88 < idx ∨ svNat b 3 1 ≠ 0 then none else
  let codes := (b.drop 4).flatMap (fun x => [x.toNat % 16, x.toNat / 16])
  let start := svInt16 b 0
  some (start :: (codes.foldl (fun (a : List Int × Int × Int) c =>
    let n := imaStep a.2 c
    (a.1 ++ [n.1], n)) ([], start, (idx : Int))).1)

/-- The blocks of a clip decoded in order. -/
def imaBlocks (fuel : Nat) (b : List Byte) : Option (List Int) :=
  match fuel with
  | 0 => some []
  | n + 1 =>
    match imaBlock (b.take 256), imaBlocks n (b.drop 256) with
    | some x, some y => some (x ++ y)
    | _, _ => none

/-- The samples of an audio source (R241), or none when it is not legal. -/
def hpAudioSource (fmt : Nat) (src : List Byte) : Option (List Int) :=
  if fmt = 2 then
    (if src.length % 2 = 0 then some ((List.range (src.length / 2)).map (fun i => svInt16 src (2 * i))) else none)
  else if fmt = 3 then (if src.length % 256 = 0 then imaBlocks (src.length / 256) src else none)
  else none

/-- An audio sample (R243) from its real samples and its noise clip. -/
def hpAudio (c : HpCfg) (f : Fmt) (r : List Byte) (x noise : List Int) : HpSlot :=
  let at_ (j : Int) : Word := if j < 0 then fZero else match x[j.toNat]? with | some v => hpPcm v | none => fZero
  hpSlot c f ((List.range c.elems).map (fun (k : Nat) =>
    let p := fMul (fOfInt ((k : Int) - signed 32 (svNat r 38 4))) (svWord r 42)
    let j := fFloor p
    let v := svBilinear (at_ j) (at_ (j + 1)) (at_ j) (at_ (j + 1)) (fSub p (fOfInt j)) fZero
    let v := fMul v (hpHalf r 32)
    let v := if svNat r 34 2 = 0xFFFF ∨ noise.isEmpty then v
      else fAdd v (fMul (hpHalf r 36) (hpPcm (noise.getD (k % List.length noise) 0)))
    hpEncode c f v))

/-- A run of Sheaf units expanded to 4 KiB each (R241), or none when one is rejected under R122. -/
def hpSheaf (fuel : Nat) (src : List Byte) : Option (List Byte) :=
  match fuel with
  | 0 => some []
  | n + 1 =>
    let unit := (List.range 16).map (fun g => unsheafAt (src.take 4096) 4096 g)
    match (if unit.all Option.isSome then some (unit.flatMap (fun x => x.getD [])) else none), hpSheaf n (src.drop 4096) with
    | some x, some y => some (x ++ y)
    | _, _ => none

/-- The cause of a failed access of the Hopper (R245). -/
def UrErr.hpCause (e : UrErr) : Nat := match e with | .range => 6 | .world => 4 | .data _ _ => 3

/-- The noise clip of an audio record: none for no noise (R238, R243). -/
def State.hpNoise (s : State) (f : HpFeed) (r : List Byte) (obs : List Obs) : Except Nat (List Int) × State :=
  if !f.cfg.audio ∨ svNat r 34 2 = 0xFFFF then (.ok [], s) else
  match s.urRead f.req (f.cfg.noiseBase * 4096 + 8 * svNat r 34 2) 8 obs with
  | (.error e, s) => (.error e.hpCause, s)
  | (.ok e, s) =>
    match s.urRead f.req (bits (svNat e 0 4) 23 0 * 4096) (2 * svNat e 4 4) obs with
    | (.error e, s) => (.error e.hpCause, s)
    | (.ok b, s) => (.ok ((List.range (b.length / 2)).map (fun i => svInt16 b (2 * i))), s)

/-- The VOID causes that a record shows before its source is read (R241, R245): the format and the length that it names, the slot, the
end of the Unified Range, and its fields. -/
def State.hpCauses (s : State) (c : HpCfg) (r : List Byte) : List Nat :=
  let fmt := svNat r 12 1
  let len := svNat r 8 4
  let fits := match urOffset (svNat r 0 8) with
    | none => false
    | some off => decide (off + len ≤ s.urPages * 4096)
  let format := c.format.isNone || (fmt == 1 && c.audio) || ((fmt == 2 || fmt == 3) && !c.audio) || (fmt == 2 && len % 2 != 0) ||
    (fmt == 3 && len % 256 != 0) || (fmt == 4 && len % 4096 != 0)
  (if format then [1] else []) ++ (if (fmt = 0 ∨ fmt = 4) ∧ c.grains * 256 < len then [2] else []) ++ (if fits then [] else [6]) ++
    (if hpRecordOk c r then [] else [7])

/-- The bytes of a slot from a source that has been read (R241 to R243), or its VOID cause. -/
def State.hpDecode (s : State) (f : HpFeed) (fm : Fmt) (r b : List Byte) (obs : List Obs) : Except Nat HpSlot × State :=
  let c := f.cfg
  match svNat r 12 1 with
  | 0 => (.ok ⟨hpPad c b, 0, 0⟩, s)
  | 1 => (match jpegFrame b with
    | none => .error 1
    | some j => hpImage c fm r b j.w j.h j.comps.length, s)
  | 4 => (match hpSheaf (b.length / 4096) b with
    | none => .error 1
    | some x => .ok ⟨hpPad c x, 0, 0⟩, s)
  | k =>
    match hpAudioSource k b with
    | none => (.error 1, s)
    | some x =>
      match s.hpNoise f r obs with
      | (.error e, s) => (.error e, s)
      | (.ok noise, s) => (.ok (hpAudio c fm r x noise), s)

/-- The lowest of the causes that apply (R250). -/
def lowestCause (cs : List Nat) (k : Nat) : Nat := cs.foldl min k

/-- Prepare a sample (R241 to R243): its slot, or its VOID cause; where more than one cause applies the lowest counts (R250), so that a
source which lies in the Unified Range is read whatever the record's other fields hold. -/
def State.hpPrepare (s : State) (f : HpFeed) (sample : Nat) (obs : List Obs) : Except Nat HpSlot × State :=
  let c := f.cfg
  match s.urRead f.req (c.sqpage * 4096 + sample % 2 ^ c.depth * 64) 64 obs with
  | (.error e, s) => (.error e.hpCause, s)
  | (.ok r, s) =>
    let cs := s.hpCauses c r
    let len := svNat r 8 4
    if cs.contains 6 ∨ len = 0 ∨ 2 ^ 26 < len ∨ 4 < svNat r 12 1 then (.error (lowestCause cs 7), s) else
    match s.urRead f.req ((urOffset (svNat r 0 8)).getD 0) len obs with
    | (.error e, s) => (.error (lowestCause cs e.hpCause), s)
    | (.ok b, s) =>
      if cs.contains 1 then (.error 1, s) else
      match s.hpDecode f (c.format.getD .uint8) r b obs with
      | (.error k, s) => (.error (lowestCause cs k), s)
      | (.ok x, s) => (if cs.isEmpty then .ok x else .error (lowestCause cs 7), s)

/-! ## Batches -/

/-- The low-water alarm after a publish or a release (R247). -/
def State.hpAlarm (s : State) (n : Nat) : State :=
  match s.hpFeed n with
  | none => s
  | some f =>
    if f.cfg.low < f.occupied then s.setHpFeed n (some { f with armed := true })
    else if f.armed then
      let s := (s.setHpFeed n (some { f with armed := false })).bumpObj .lowAlarms (n + 1) 1
      let m := s.fld .hpAlarmLow 0
      let s := s.setFld .hpAlarmLow 0 (if bit m n then m else m + 2 ^ n)
      (s.send ⟨.hostIrq, 0x0D, [n], []⟩).eventOn f.handle 0x000E n s.time
    else s

/-- The two header grains of batch `n` (R246). -/
def hpHeader (c : HpCfg) (n : Nat) (causes : List Nat) : List Byte :=
  let voids := (causes.filter (fun k => decide (k ≠ 0))).length
  let mask := causes.zipIdx.foldl (fun m k => if k.1 = 0 then m + 2 ^ k.2 else m) 0
  let g0 := natLe 8 n ++ natLe 8 (n * c.b) ++ natLe 2 c.b ++ natLe 2 voids ++ List.replicate 12 0 ++ natLe 32 mask ++
    List.replicate 192 0
  let g1 := causes.map (fun k => (BitVec.ofNat 8 k : Byte))
  g0 ++ g1 ++ List.replicate (256 - g1.length) 0

/-- The first grain of the buffer of batch `n` (R239). -/
def HpCfg.buffer (c : HpCfg) (n : Nat) : Nat := c.base + n % c.qdepth * c.bufferGrains

/-- Publish the batches that are complete, in order (R244, R246); every grain that was committed raises TALLY, and one whose write
the Bin refused does not (R97, R101). -/
def State.hpPublish (s : State) (fuel n : Nat) : State :=
  match fuel with
  | 0 => s
  | k + 1 =>
    match s.hpFeed n with
    | none => s
    | some f =>
      let c := f.cfg
      let b := f.published
      let slots := (List.range c.b).filterMap (fun i => (f.finished.find? (fun x => x.1 == b * c.b + i)).map (·.2))
      if slots.length < c.b then s else
      let causes : List Nat := slots.map (fun x => x.1)
      let committed : Nat := slots.countP (fun x => x.2)
      let w := s.binUnitWrite f.req 6 c.bin (c.buffer b * 256) (hpHeader c b causes)
      let s := match w.1 with
        | none => w.2.raiseTally c.bin c.tally (2 + committed * c.grains)
        | some _ => w.2.raiseTally c.bin c.tally (committed * c.grains)
      let f := { f with
        published := b + 1, occupied := f.occupied + 1, finished := f.finished.filter (fun x => decide (b * c.b + c.b ≤ x.1)) }
      let s := s.setHpFeed n (some f)
      let s := (s.bumpObj .samples (n + 1) c.b).bumpObj .batches (n + 1) 1
      let s := s.setFld .hpFeedHead n ((b + 1) * c.b % 2 ^ c.depth)
      (s.hpAlarm n).hpPublish k n

/-- A slot is finished with a cause, or with 0 (R245): written, entered, and its batch published when it is complete. -/
def State.hpFinish (s : State) (l : HpLane) (f : HpFeed) (slot : Except Nat HpSlot) : State :=
  let c := f.cfg
  let s : State := { s with hp := { s.hp with lanes := s.hp.lanes.filter (fun x => decide (x ≠ l)) } }
  let at_ := (c.buffer (l.sample / c.b) + 2 + l.sample % c.b * c.grains) * 256
  let fmt := c.format.getD .uint8
  let put (s : State) (b : List Byte) : Option BinErr × State := s.binUnitWrite f.req 6 c.bin at_ b
  let w := match slot with
    | .ok b => put s b.bytes
    | .error _ => put s (hpVoidSlot c fmt)
  let cause : Nat := match slot, w.1 with
    | .error k, _ => k
    | .ok _, none => 0
    | .ok _, some .world => 4
    | .ok _, some _ => 3
  let part := recPart (s.recOf f.handle) + 1
  let s := match slot, w.1 with
    | .ok b, none => (w.2.bumpObj .satElems part b.sat).bumpObj .nanElems part b.nan
    | _, _ => w.2
  let took := s.time - l.start
  let f := { f with
    finished := f.finished ++ [(l.sample, cause, w.1.isNone)]
    times := if cause = 0 then (f.times ++ [took]).drop (f.times.length + 1 - 256) else f.times }
  let s := s.setHpFeed l.feed (some f)
  let avg := if f.times.isEmpty then 0 else f.times.sum / f.times.length
  let s := s.setFld .hpFeedAvg l.feed (min (avg / 100) (2 ^ 32 - 1))
  let s := if cause = 0 then s else (s.bumpFld .hpFeedVoids l.feed 1).bumpObj .voidSamples (l.feed + 1) 1
  ((s.hpPublish 32 l.feed).hpEdge l.feed).settle

/-- SAMPLE_FINISH (R245): a lane has prepared its sample, or made it VOID. -/
def execSampleFinish (lane : Nat) (obs : List Obs) (at_ : Nat) (s : State) : Host.Outcome State Fault Refusal := s.command fun s =>
  let s := s.reach at_
  match s.hp.lanes.find? (fun l => l.lane == lane) with
  | none => .next s
  | some l =>
    match s.hpFeed l.feed with
    | none => .next s
    | some f =>
      let r := s.hpPrepare f l.sample obs
      .next (r.2.hpFinish l f r.1)

/-- SAMPLE_BUDGET_EXPIRY (R248): a sample's lane time has reached its budget, and it is VOID with cause SLOW. -/
def execSampleBudgetExpiry (lane at_ : Nat) (s : State) : Host.Outcome State Fault Refusal := s.command fun s =>
  let s := s.reach at_
  match s.hp.lanes.find? (fun l => l.lane == lane) with
  | none => .next s
  | some l =>
    match s.hpFeed l.feed with
    | none => .next s
    | some f =>
      let n := f.times.length
      if 2 ≤ f.cfg.budget ∧ 16 ≤ n ∧ f.cfg.budget * f.times.sum ≤ (s.time - l.start) * n then .next (s.hpFinish l f (.error 5))
      else .next s

/-- Take the releases that a feed's RELEASE tally holds (R246): each frees the oldest occupied buffer; one with no buffer
occupied is ignored and counted. -/
def State.hpTakeReleases (s : State) (n : Nat) (f : HpFeed) : State :=
  let c := f.cfg
  let k := s.tally c.bin c.release
  let s := s.setFld .binTallyCount (c.bin * 1024 + c.release) 0
  let s := if f.occupied < k then s.bumpObj .ringOver (n + 1) (k - f.occupied) else s
  if k = 0 ∨ f.occupied = 0 then s
  else ((s.setHpFeed n (some { f with occupied := f.occupied - k })).hpAlarm n).hpEdge n

/-- HP_RELEASE (R246): a write of HP_RELEASEn adds 1 to 16 releases to the feed's tally, or (with `add` 0) a unit has raised it. -/
def execHpRelease (feed add : Nat) (secure : Bool) (s : State) : Host.Outcome State Fault Refusal := s.command fun s =>
  if 0 < add ∧ s.clocked 11 = false then .next s.gatedError else
  match s.hpFeed feed with
  | none => .next s
  | some f =>
    if 0 < add ∧ !mayReach secure f.secure then .next (s.worldError .hpReleaseValue feed)
    else if 16 < add then .next s
    else .next ((s.raiseTally f.cfg.bin f.cfg.release add).hpTakeReleases feed f)

end Sys2Proof.Machine
end

