-- ==== Sys2Proof/Machine/Isp.lean ====
section
/-!
DEFINITION. The pixel stages of the image pipeline (spec/13, R258 to R260): black level, defect correction, IR subtraction, gains and shading,
demosaic, colour matrix and tone curve.  What the spec leaves open of a stage is a free value of Config.
-/
namespace Sys2Proof.Machine

/-- What the pipeline takes from ISP_SENSORs and CAM_COLOUR: the colour settings are those of the frame (R258). -/
structure IspSet where
  mosaic : Nat
  phase : Nat
  width : Nat
  height : Nat
  dt : Nat
  black : Nat
  kr : Nat
  kg : Nat
  kb : Nat
  blob : List Byte
deriving DecidableEq, Repr

/-- The settings as numbers, in the order of the words of ISP_SENSORs. -/
def IspSet.nums (p : IspSet) : List Nat := [p.mosaic, p.phase, p.width, p.height, p.dt, p.black, p.kr, p.kg, p.kb]

/-- The colour of a pixel (R259): 0 R, 1 G, 2 B, 3 I, 4 W or C, and 5 in a mono sensor.  PHASE shifts the pattern so that the first pixel has
its place (PHASE div 2, PHASE mod 2). -/
def IspSet.colour (p : IspSet) (row col : Nat) : Nat :=
  let r := row + p.phase / 2
  let c := col + p.phase % 2
  let of (rows : List (List Nat)) : Nat := (rows.getD (r % rows.length) []).getD (c % rows.length) 0
  match p.mosaic with
  | 0 => 5
  | 1 => of [[0, 1], [1, 2]]
  | 2 => of [[2, 1, 0, 1], [1, 3, 1, 3], [0, 1, 2, 1], [1, 3, 1, 3]]
  | 3 => of [[0, 1], [2, 4]]
  | 4 => Config.rgbwAt (r % 4) (c % 4)
  | _ => of [[0, 4], [4, 2]]

/-- The value of a pixel, and those of the pixels at offsets from it that lie in the image. -/
def pixelAt (img : List (List Nat)) (row col : Nat) : Nat := (img.getD row []).getD col 0
def pixelsNear (img : List (List Nat)) (row col : Nat) (offs : List (Int × Int)) : List Nat :=
  offs.filterMap (fun o =>
    let r := (row : Int) + o.1
    let c := (col : Int) + o.2
    if r < 0 ∨ c < 0 then none else (img.getD r.toNat [])[c.toNat]?)

/-- Every pixel of an image put through a stage. -/
def mapPixels (f : Nat → Nat → Nat → Nat) (img : List (List Nat)) : List (List Nat) :=
  img.zipIdx.map (fun r => r.1.zipIdx.map (fun x => f r.2 x.2 x.1))

/-- The mean of some values, rounded by RNA (R258); 0 of none. -/
def meanOf (l : List Nat) : Nat := if l.isEmpty then 0 else (2 * l.sum + l.length) / (2 * l.length)

/-- The middle value; of an even number, what lies between the two in the middle. -/
def medianOf (l : List Nat) : Nat :=
  let x := l.mergeSort (fun a b => decide (a ≤ b))
  if x.length % 2 = 1 then x.getD (x.length / 2) 0 else Config.evenMedian (x.getD (x.length / 2 - 1) 0) (x.getD (x.length / 2) 0)

/-- A value in 16 bits, rounded by RNA and clamped (R258). -/
def fixed16 (x : Fp) : Nat :=
  match x with
  | .fin neg m e => min 65535 (rnaInt neg m e).toNat
  | .inf neg => if neg then 0 else 65535
  | .nan => 0

/-- Black level: the code less BLACK, clamped at 0 and scaled to 16 bits. -/
def IspSet.blackLevel (p : IspSet) (img : List (List Nat)) : List (List Nat) :=
  mapPixels (fun _ _ v => Config.blackScale p.dt p.black (v - p.black)) img

/-- Defect correction: a pixel that differs from every same-colour neighbour by more than the threshold becomes their median. -/
def IspSet.defects (p : IspSet) (img : List (List Nat)) : List (List Nat) :=
  mapPixels (fun r c v =>
    let near := pixelsNear img r c (Config.sameColour p.mosaic p.phase r c)
    if !near.isEmpty && near.all (fun x => decide (Config.blobThreshold p.blob < max v x - min v x)) then medianOf near else v) img

/-- The offsets of the I pixels nearest to a pixel (R260): two beside it, two above and below, four across, or the four next ones of an I pixel. -/
def IspSet.nearIr (p : IspSet) (row col : Nat) : List (Int × Int) :=
  if p.colour row col = 3 then [(-2, 0), (2, 0), (0, -2), (0, 2)]
  else if p.colour row (col + 1) = 3 then [(0, -1), (0, 1)]
  else if p.colour (row + 1) col = 3 then [(-1, 0), (1, 0)]
  else [(-1, -1), (-1, 1), (1, -1), (1, 1)]

/-- IR_est of a pixel (R260). -/
def IspSet.irEst (p : IspSet) (img : List (List Nat)) (row col : Nat) : Nat :=
  if p.mosaic = 2 then meanOf (pixelsNear img row col (p.nearIr row col)) else Config.noIr img row col

/-- KR, KG or KB of a colour. -/
def IspSet.irShare (p : IspSet) (colour : Nat) : Fp := fmtFP16.decode (if colour = 0 then p.kr else if colour = 1 then p.kg else p.kb)

/-- IR subtraction (R260), of an RGB-IR sensor only: each R, G and B pixel less its share, clamped at 0; each I position takes the mean of its
four G neighbours. -/
def IspSet.subtractIr (p : IspSet) (img : List (List Nat)) : List (List Nat) :=
  if p.mosaic ≠ 2 then img else
  let less := mapPixels (fun r c v =>
    let k := p.colour r c
    if k = 3 then v else fixed16 ((fpInt v).add ((p.irShare k).mul (fpInt (p.irEst img r c))).neg)) img
  mapPixels (fun r c v => if p.colour r c = 3 then meanOf (pixelsNear less r c [(-1, 0), (1, 0), (0, -1), (0, 1)]) else v) less

/-- White-balance gain and lens shading, in FP32. -/
def IspSet.gains (p : IspSet) (img : List (List Nat)) : List (List Nat) :=
  mapPixels (fun r c v =>
    let k := p.colour r c
    fixed16 (fpOf (fMul (fMul (fOfInt v) (Config.blobGain p.blob k)) (Config.blobShade p.blob p.width p.height k r c)))) img

/-- The pixels before IR subtraction, and after the whole front. -/
def IspSet.corrected (p : IspSet) (lines : List (List Nat)) : List (List Nat) := p.defects (p.blackLevel lines)
def IspSet.front (p : IspSet) (lines : List (List Nat)) : List (List Nat) := p.gains (p.subtractIr (p.corrected lines))

/-- The sum of three products in FP32. -/
def matrixSum (a b c : Word) : Word :=
  match Config.matrixOrder with
  | 0 => fAdd (fAdd a b) c
  | 1 => fAdd (fAdd b c) a
  | 2 => fAdd (fAdd a c) b

/-- A channel of a pixel after demosaic, colour matrix and tone curve; the channels of a mono sensor take the luma (R259). -/
def IspSet.channel (p : IspSet) (img : List (List Nat)) (c row col : Nat) : Byte :=
  if p.mosaic = 0 then Config.blobTone p.blob (fOfInt (pixelAt img row col)) else
  let v (j : Nat) : Word := fMul (Config.blobMatrix p.blob c j) (fOfInt (Config.demosaic p.mosaic p.phase img j row col))
  Config.blobTone p.blob (matrixSum (v 0) (v 1) (v 2))

/-- The FP32 value of plane 0, 1 or 2 (R, G, B), 3 (luma) or 4 (IR, past gains and matrix: R260) of a pixel of a frame. -/
def IspSet.pixel (p : IspSet) (lines : List (List Nat)) (plane row col : Nat) : Word :=
  let img := p.front lines
  let byte : Byte :=
    if plane < 3 then p.channel img plane row col
    else if plane = 4 then Config.blobTone p.blob (fOfInt (p.irEst (p.corrected lines) row col))
    else if p.mosaic = 0 then p.channel img 0 row col
    else Config.lumaOf (p.channel img 0 row col) (p.channel img 1 row col) (p.channel img 2 row col)
  fOfInt byte.toNat

end Sys2Proof.Machine
end

