-- ==== Sys2Proof/Machine/Camera.lean ====
section
/-!
DEFINITION. The camera links and the image pipeline (spec/13): frame starts, lines and frame ends, link errors, output streams
and their buffers, the loss and return of sensors, and gap records.
-/
namespace Sys2Proof.Machine

/-! ## Sensors -/

def CamSensor.unseen : CamSensor := ⟨.unseen, none, none, [], 0⟩
def State.sensor (s : State) (k : Nat) : CamSensor := SMap.get s.cam.sensors k CamSensor.unseen
def State.setSensor (s : State) (k : Nat) (x : CamSensor) : State :=
  { s with cam := { s.cam with sensors := SMap.put s.cam.sensors k x CamSensor.unseen } }

/-- The receiver takes packets: it is enabled, and its domain and the ISP's have power good. -/
def State.csiOn (s : State) (link : Nat) : Bool :=
  s.flag .csiCtrlEn link && s.powerGood (5 + link) && s.powerGood 9 && s.powerGood 10 && s.powerGood 11 &&
  s.clocked (3 + link) && s.clocked 7 && s.clocked 8 && s.clocked 9 && s.pllILocked && !s.flag .clkStatusHeld 0

/-- The enabled sensor of a link that has a virtual channel (R254). -/
def State.sensorOf (s : State) (link vc : Nat) : Option Nat :=
  ((List.range 4).map (4 * link + ·)).find? (fun k => s.flag .ispSensorEn k && s.fld .ispSensorVc k == vc)

/-- The data types of pixel lines that a receiver supports (R253): RAW8 to RAW16. -/
def rawTypes : List Nat := [0x2A, 0x2B, 0x2C, 0x2D, 0x2E]

/-- Add 1 to a counter of a link. -/
def State.countLink (s : State) (o : Obj) (link : Nat) : State := s.bumpObj o (link + 1) 1

/-- Count a header that ECC corrected, or could not correct (R256, R270). -/
def State.countHeader (s : State) (link hdr : Nat) : State :=
  let v := s.obj .hdrErrors (link + 1)
  if hdr = 0 then s
  else if hdr = 1 then s.setObj .hdrErrors (link + 1) (setBits v 31 0 (v + 1))
  else s.setObj .hdrErrors (link + 1) (setBits v 63 32 (v / 2 ^ 32 + 1))

/-- The frame period of a sensor in nanoseconds (R267): PERIOD, or the mean of the last eight intervals; 0 when none is known. -/
def State.framePeriod (s : State) (k : Nat) : Nat :=
  let p := s.fld .ispSensorPeriod k
  if 0 < p then p * 1000 else
  let l := (s.sensor k).intervals
  if l.isEmpty then 0 else l.sum / l.length

/-- The settings of the pipeline for a frame: ISP_SENSORs, and the blob that the frame is processed with. -/
def State.ispSet (s : State) (k : Nat) (blob : List Byte) : IspSet :=
  ⟨s.fld .ispSensorMosaic k, s.fld .ispSensorPhase k, s.fld .ispSensorWidth k, s.fld .ispSensorHeight k, s.fld .ispSensorDt k,
    s.fld .ispSensorBlack k, s.fld .ispSensorKr k, s.fld .ispSensorKg k, s.fld .ispSensorKb k, blob⟩

/-- A colour blob as bytes. -/
def State.colourBlob (s : State) (k : Nat) : List Byte := (s.objVal .camColour (k + 1)).toBytes

/-! ## Output streams -/

/-- The ISP writes for a stream in its world (R319). -/
def State.osReq (s : State) (n : Nat) : Requester := unitReq 0x0E (bit (s.fld .secWmapOs 0) n)

/-- Values of a pixel: the channels of a TENSOR of PLANE 1 or 2 are one, all others three. -/
def State.osChans (s : State) (n : Nat) : Nat := if s.fld .osFmt n = 2 ∧ s.fld .osPlane n ≠ 0 then 1 else 3

/-- The bytes of a frame, and D (R262). -/
def State.osBytes (s : State) (n : Nat) : Nat :=
  let px := s.fld .osOutw n * s.fld .osOuth n
  if s.fld .osFmt n = 0 then px * 3 / 2 else px * s.osChans n
def State.osD (s : State) (n : Nat) : Nat := ceilDiv (s.osBytes n) 256

/-- The buffers of a stream. -/
def State.osNbufs (s : State) (n : Nat) : Nat := s.fld .osNbuf n + 1

/-- The byte offset of grain `g` of a buffer, in the Bin or in the Unified Range. -/
def State.osAddr (s : State) (n buf g : Nat) : Nat :=
  s.fld .osBase n * (if s.fld .osFmt n = 2 then 256 else 4096) + (buf * (1 + s.osD n) + g) * 256

/-- The sensor whose frames a stream cuts. -/
def State.osSensorOf (s : State) (n : Nat) : Nat := s.fld .osSensor n

/-- The running streams on a sensor. -/
def State.streamsOf (s : State) (k : Nat) : List Nat :=
  (List.range 16).filter (fun n => (s.osRun n).isSome && s.osSensorOf n == k)

/-- Write bytes into a stream's destination, in both Bins with DUAL; true when a write is refused (R264, R268). -/
def State.osWrite (s : State) (n off : Nat) (b : List Byte) : Bool × State :=
  let q := s.osReq n
  if s.fld .osFmt n = 2 then
    let w := s.binUnitWrite q 4 (s.fld .osBin n) off b
    if w.1.isSome then (true, w.2)
    else if s.flag .osDual n then
      let w2 := w.2.binUnitWrite q 4 (s.fld .osBin2 n) off b
      (w2.1.isSome, w2.2)
    else (false, w.2)
  else
    let w := s.urWrite q off b []
    (w.1.isSome, w.2)

/-- Write grains, each at its place; true when one is refused. -/
def State.osWriteAll (s : State) (n : Nat) (l : List (Nat × List Byte)) : Bool × State :=
  l.foldl (fun (a : Bool × State) e => if a.1 then a else a.2.osWrite n e.1 e.2) (false, s)

/-- One channel value of an output pixel (R205, R261): bilinear over the four neighbouring pixels of the sensor's image, with the
crop as the box. -/
def State.osValue (s : State) (n : Nat) (f : CamFrame) (row x c : Nat) : Word :=
  let k := s.osSensorOf n
  let p := s.ispSet k f.blob
  let cx := s.fld .osCropx n; let cy := s.fld .osCropy n
  let sx := svCoord (fOfInt cx) (fOfInt (cx + s.fld .osCropw n : Nat)) x (s.fld .osOutw n)
  let sy := svCoord (fOfInt cy) (fOfInt (cy + s.fld .osCroph n : Nat)) row (s.fld .osOuth n)
  let px := fFloor sx; let py := fFloor sy
  let plane := if s.fld .osPlane n = 0 then c else if s.fld .osPlane n = 1 then 3 else 4
  let at_ (i j : Int) : Word :=
    if i < 0 ∨ j < 0 ∨ (s.fld .ispSensorWidth k : Int) ≤ i ∨ (s.fld .ispSensorHeight k : Int) ≤ j then fZero
    else p.pixel f.lines plane j.toNat i.toNat
  svBilinear (at_ px py) (at_ (px + 1) py) (at_ px (py + 1)) (at_ (px + 1) (py + 1))
    (fSub sx (fOfInt px)) (fSub sy (fOfInt py))

/-- The last input line that an output row reads: one below its sample point (R205), in the image. -/
def State.osLastLine (s : State) (n row : Nat) : Nat :=
  let h := s.fld .osOuth n
  let y := (s.fld .osCropy n : Int) + (((2 * row + 1) * s.fld .osCroph n : Nat) - (h : Int)) / (2 * h : Nat) + 1
  min y.toNat (s.fld .ispSensorHeight (s.osSensorOf n) - 1)

/-- The value of channel `c` at column `x` of an output row. -/
def State.osAt (s : State) (n : Nat) (rows : List (List Word)) (row x c : Nat) : Word :=
  ((rows.getD row []).getD (x * s.osChans n + c) fZero)

/-- A channel value encoded for a TENSOR stream (R261; R58 steps 5 to 7). -/
def State.osConv (s : State) (n c : Nat) (v : Word) : Conv :=
  let mean := BitVec.ofNat 32 (s.fld ([Fld.osMean0, .osMean1, .osMean2].getD c .osMean0) n)
  let istd := BitVec.ofNat 32 (s.fld ([Fld.osIstd0, .osIstd1, .osIstd2].getD c .osIstd0) n)
  Fmt.int8.encode (signed 16 (s.fld .osOzp n))
    (fpOf (fMul (fMul (fSub v mean) istd) (fDiv fOne (BitVec.ofNat 32 (s.fld .osOscale n)))))

/-- The elements of new rows that saturate or are NaN count for the partition of the stream's Bin (R51, R52, R65). -/
def State.osCount (s : State) (n : Nat) (rows : List (List Word)) : State :=
  if s.fld .osFmt n ≠ 2 then s else
  match s.partOf (s.fld .osBin n) with
  | none => s
  | some p =>
    let cs := rows.flatMap (fun r => r.zipIdx.map (fun x => s.osConv n (x.2 % s.osChans n) x.1))
    (s.bumpObj .satElems (p + 1) (cs.countP (·.sat))).bumpObj .nanElems (p + 1) (cs.countP (·.nan))

/-- One encoded byte of a frame from the rows formed so far (R261); none while its rows have not been formed. -/
def State.osByte (s : State) (n : Nat) (rows : List (List Word)) (i : Nat) : Option Byte :=
  let w := s.fld .osOutw n; let h := s.fld .osOuth n
  let m := rows.length
  let chans := s.osChans n
  match s.fld .osFmt n with
  | 2 =>
    let row := i / (w * chans)
    let c := i % chans
    if m ≤ row then none else
    some (BitVec.ofNat 8 (s.osConv n c (s.osAt n rows row (i / chans % w) c)).raw)
  | 1 =>
    let row := i % (w * h) / w
    if m ≤ row then none else
    some (BitVec.ofNat 8 (Fmt.uint8.encode 0 (fpOf (s.osAt n rows row (i % w) (i / (w * h))))).raw)
  | _ =>
    let mt := s.fld .osMatrix n; let rg := s.fld .osRange n
    if i < w * h then
      let row := i / w
      if m ≤ row then none else
      some (Config.nv12Y mt rg (s.osAt n rows row (i % w) 0) (s.osAt n rows row (i % w) 1) (s.osAt n rows row (i % w) 2))
    else
      let j := i - w * h
      let row := j / w * 2
      if m ≤ row + 1 then none else
      let x := j % w / 2 * 2
      let vs := [(0, 0), (0, 1), (1, 0), (1, 1)].flatMap (fun (d : Nat × Nat) =>
        (List.range 3).map (fun c => s.osAt n rows (row + d.1) (x + d.2) c))
      let c := Config.nv12C mt rg vs
      some (if j % 2 = 0 then c.1 else c.2)

/-- The data grain `g` of a frame, when all its bytes are formed. -/
def State.osGrain (s : State) (n : Nat) (rows : List (List Word)) (g : Nat) : Option (List Byte) :=
  let l := (List.range 256).map (fun i => if s.osBytes n ≤ g * 256 + i then some (0#8) else s.osByte n rows (g * 256 + i))
  if l.all Option.isSome then some (l.map (fun x => x.getD 0)) else none

/-- The fill of one byte of a frame (R262): OZP, black, or zero. -/
def State.osFill (s : State) (n i : Nat) : Byte :=
  if s.osBytes n ≤ i then 0 else
  match s.fld .osFmt n with
  | 2 => BitVec.ofNat 8 (s.fld .osOzp n)
  | 1 => 0
  | _ => if i < s.fld .osOutw n * s.fld .osOuth n then (if s.flag .osRange n then 16 else 0) else 128

/-- The buffer of the frame that a stream writes (R262). -/
def State.osBuf (s : State) (n : Nat) (r : OsRun) : Nat := r.frameNo % s.osNbufs n

/-- Form the rows of a stream that the lines of the frame allow, eight lines behind their last line or all of them at the
frame's end, and write the grains that become whole. -/
def State.osAdvance (s : State) (n : Nat) (f : CamFrame) (final : Bool) : State :=
  match s.osRun n with
  | none => s
  | some r =>
    match r.rows with
    | none => s
    | some rows =>
      let ready := (List.range (s.fld .osOuth n)).filter (fun k =>
        decide (rows.length ≤ k) && (final || decide (s.osLastLine n k + 8 < f.lines.length)))
      let more := ready.map (fun k => (List.range (s.fld .osOutw n * s.osChans n)).map (fun i =>
        s.osValue n f k (i / s.osChans n) (i % s.osChans n)))
      let rows' := rows ++ more
      let grains := (List.range (s.osD n)).filterMap (fun g =>
        if (s.osGrain n rows g).isSome then none
        else (s.osGrain n rows' g).map (fun b => (s.osAddr n (s.osBuf n r) (1 + g), b)))
      let w := s.osWriteAll n grains
      if w.1 then w.2.osOff n 4 else (w.2.osCount n more).setOsRun n (some { r with rows := some rows' })

/-- The bytes of a header grain (R265). -/
def osHeader (frameNo sof eof status flags number skipped sensor crc hdr filled : Nat) : List Byte :=
  let h := natLe 8 frameNo ++ natLe 8 sof ++ natLe 8 eof ++ natLe 1 status ++ natLe 1 flags ++ natLe 2 number ++
    natLe 2 skipped ++ natLe 1 sensor ++ [0] ++ natLe 4 crc ++ natLe 4 hdr ++ natLe 4 filled
  h ++ List.replicate (256 - h.length) 0

/-- Take the releases of a stream (R263, R264, R102): each frees the oldest occupied buffer, with DUAL when both Bins have had
theirs taken; a release that finds nothing to free stays in its tally. -/
def State.osTake (s : State) (n : Nat) : State :=
  match s.osRun n with
  | none => s
  | some r =>
    if s.fld .osFmt n ≠ 2 then s else
    let t := s.fld .osRelease n
    let take (s : State) (b have' : Nat) : Nat × State :=
      let k := min (s.tally b t) (r.occupied - have')
      (k, s.setFld .binTallyCount (b * 1024 + t) (s.tally b t - k))
    let a := take s (s.fld .osBin n) r.ahead
    if !s.flag .osDual n then a.2.setOsRun n (some { r with occupied := r.occupied - a.1 })
    else
      let b := take a.2 (s.fld .osBin2 n) r.ahead2
      let x := r.ahead + a.1
      let y := r.ahead2 + b.1
      b.2.setOsRun n (some { r with occupied := r.occupied - min x y, ahead := x - min x y, ahead2 := y - min x y })

/-- End a frame or a gap of a stream (R262, R265): the header, the tallies, the counters, the FRAME record, and the stop of a
stream that was to end. -/
def State.osEnd (s : State) (n : Nat) (r : OsRun) (status sof eof : Nat) (f : Option CamFrame) : State :=
  let k := s.osSensorOf n
  let ov := match f with | some x => x.overflow | none => false
  let flags := b2n (r.resumed || (match f with | some x => x.resumed | none => false)) + 2 * b2n (bit (s.fld .doorStatusShut 0) (k / 4)) + 4 * b2n ov
  let h := osHeader r.frameNo sof eof status flags ((f.map (·.number)).getD 0) r.skipped k ((f.map (·.crcErr)).getD 0)
    ((f.map (·.hdrErr)).getD 0) ((f.map (·.filled)).getD 0)
  let buf := s.osBuf n r
  let w := s.osWrite n (s.osAddr n buf 0) h
  if w.1 then w.2.osOff n 4 else
  let s := w.2
  let s := if s.fld .osFmt n = 2 then
      let s := s.raiseTally (s.fld .osBin n) (s.fld .osTally n) (s.osD n + 1)
      if s.flag .osDual n then s.raiseTally (s.fld .osBin2 n) (s.fld .osTally n) (s.osD n + 1) else s
    else s
  let s := s.bumpObj .frames (n + 1) 1
  let s := if status = 0 then s else s.bumpObj .notOk (n + 1) 1
  let s := if s.fld .osRing n = 0 then s else
    s.publishTo (s.fld .osRing n) 0 sof 0 0 n (natLe 8 r.frameNo ++ natLe 1 buf ++ natLe 1 status)
  let s := s.setFld .osFrameno n (r.frameNo + 1)
  if r.stopping then (s.osOff n 0).pwrSync else
  (s.setOsRun n (some { r with
    frameNo := (r.frameNo + 1) % 2 ^ 64, occupied := r.occupied + 1, skipped := 0, resumed := false, rows := none })).osTake n

/-- Complete the frame of a stream (R262): the grains not yet written are filled when it ended early, and the header follows. -/
def State.osComplete (s : State) (n : Nat) (f : CamFrame) (status : Nat) : State :=
  let s := if status < 2 then s.osAdvance n f true else s
  match s.osRun n with
  | none => s
  | some r =>
    match r.rows with
    | none => s
    | some rows =>
      let fills := if status < 2 then [] else (List.range (s.osD n)).filterMap (fun g =>
        if (s.osGrain n rows g).isSome then none
        else some (s.osAddr n (s.osBuf n r) (1 + g), (List.range 256).map (fun i => s.osFill n (g * 256 + i))))
      let w := s.osWriteAll n fills
      if w.1 then w.2.osOff n 4 else w.2.osEnd n r status f.sof s.time (some f)

/-- The streams of a sensor complete their frames with a status. -/
def State.camComplete (s : State) (k : Nat) (f : CamFrame) (status : Nat) : State :=
  (s.streamsOf k).foldl (fun s n => s.osComplete n f status) s

/-- A stream skips a frame or a gap whose buffer is occupied (R263). -/
def State.osSkip (s : State) (n : Nat) (r : OsRun) : State :=
  (s.setOsRun n (some { r with skipped := min (r.skipped + 1) 65535 })).bumpObj .skipped (n + 1) 1

/-- A frame starts for a stream (R263): it is written when its buffer is free. -/
def State.osStart (s : State) (n : Nat) : State :=
  match s.osRun n with
  | none => s
  | some r =>
    if r.off || r.stopping then s
    else if s.osNbufs n ≤ r.occupied then s.osSkip n r
    else s.setOsRun n (some { r with rows := some [] })

/-- A gap record of a stream (R268): D fill grains and a header with STATUS GAP, counted as a frame; skipped like one when its
buffer is occupied. -/
def State.osGap (s : State) (n start : Nat) : State :=
  match s.osRun n with
  | none => s
  | some r =>
    if r.off then s
    else if s.osNbufs n ≤ r.occupied then s.osSkip n r
    else
      let fills := (List.range (s.osD n)).map (fun g =>
        (s.osAddr n (s.osBuf n r) (1 + g), (List.range 256).map (fun i => s.osFill n (g * 256 + i))))
      let w := s.osWriteAll n fills
      if w.1 then w.2.osOff n 4 else w.2.osEnd n r 4 start 0 none

/-! ## Frames -/

/-- The open frame of a sensor ends early (R268). -/
def State.truncateFrame (s : State) (k : Nat) : State :=
  let x := s.sensor k
  match x.frame with
  | none => s
  | some f => (if f.dropped then s else s.camComplete k f 2).setSensor k { (s.sensor k) with frame := none }

/-- A sensor is lost (R267, R268): its frame is TRUNCATED, and CAMERA_LOST is published. -/
def State.loseSensor (s : State) (k : Nat) : State :=
  if (s.sensor k).phase = .lost then s else
  let s := s.truncateFrame k
  let x := s.sensor k
  let base := x.lastSof.getD s.time
  (s.setSensor k { x with phase := .lost, expected := base + s.framePeriod k }).event 0x0006 k s.time

/-- Update a sensor's open frame. -/
def State.setFrame (s : State) (k : Nat) (f : CamFrame) : State := s.setSensor k { s.sensor k with frame := some f }

/-- The remainder of a frame is dropped (R256, R257): its streams complete it, and no further line of it enters the ISP. -/
def State.dropFrame' (s : State) (k : Nat) (f : CamFrame) : State :=
  let f := { f with dropped := true }
  (s.camComplete k f 3).setFrame k f

/-- A line enters the ISP, and the streams of the sensor go on. -/
def State.takeLine (s : State) (k : Nat) (f : CamFrame) (line : List Nat) : State :=
  let f := { f with lines := f.lines ++ [line] }
  (s.streamsOf k).foldl (fun s n => s.osAdvance n f false) (s.setFrame k f)

/-- The line that fills a lost one (R257). -/
def State.fillLine (s : State) (k : Nat) (f : CamFrame) : List Nat :=
  f.lastGood.getD (List.replicate (s.fld .ispSensorWidth k) (s.fld .ispSensorBlack k))

/-- A line of a frame is lost (R256): filled under MARK, the end of the frame under DROP; lines beyond HEIGHT are only marked. -/
def State.loseLine (s : State) (link k : Nat) (f : CamFrame) : State :=
  let h := s.fld .ispSensorHeight k
  if h ≤ f.lines.length then s.setFrame k { f with marked := true }
  else if s.flag .csiCtrlMode link then s.dropFrame' k f
  else s.takeLine k { f with marked := true, filled := f.filled + 1 } (s.fillLine k f)

/-- A short packet is discarded for its header (R256): the open frame of its sensor counts it, and is MARKED or DROPPED. -/
def State.badShort (s : State) (link vc : Nat) : State :=
  match s.sensorOf link vc with
  | none => s
  | some k =>
    match (s.sensor k).frame with
    | none => s
    | some f =>
      if f.dropped then s
      else if s.flag .csiCtrlMode link then s.dropFrame' k { f with hdrErr := f.hdrErr + 1 }
      else s.setFrame k { f with hdrErr := f.hdrErr + 1, marked := true }

/-- Cut or fill a line to WIDTH (R256): the missing pixels come from the fill of R257. -/
def State.fitLine (s : State) (k : Nat) (f : CamFrame) (line : List Nat) : List Nat :=
  let w := s.fld .ispSensorWidth k
  line.take w ++ (s.fillLine k f).drop line.length

/-- CSI_FRAME_START (R254, R255, R263, R268): a frame-start packet, with its frame number, the result of its header's ECC (0 good,
1 corrected, 2 uncorrectable), and whether the link has completed a deskew. -/
def execCsiFrameStart (link vc number hdr : Nat) (deskewed : Bool) (at_ : Nat) (s : State) :
    Host.Outcome State Fault Refusal := s.command fun s =>
  let s := s.reach at_
  if !s.csiOn link then .next s else
  let s := ((if deskewed then s.setFld .csiStatusDeskewed link 1 else s).setFld .csiStatusHs link 1).countHeader link hdr
  if 2 ≤ hdr then .next (s.badShort link vc).settle else
  match s.sensorOf link vc with
  | none => .next (s.countLink .unmapped link)
  | some k =>
    let s := s.truncateFrame k
    let x := s.sensor k
    if x.phase = .lost ∧ s.flag .csiStatusHpd link = false then .next s else
    let back := decide (x.phase = .lost)
    let sof := s.time / 4 * 4
    let ints := match x.phase, x.lastSof with
      | .present, some t => ((sof - t) :: x.intervals).take 8
      | _, _ => x.intervals
    let f : CamFrame := ⟨sof, number, [], none, 0, 0, 0, false, false, false, back, s.colourBlob k⟩
    let s := s.setSensor k { x with phase := .present, frame := some f, lastSof := some sof, intervals := ints }
    let s := if back then s.event 0x0007 k sof else s
    .next ((s.streamsOf k).foldl (fun (s : State) n => (s.osTake n).osStart n) s).settle

/-- CSI_LONG_PACKET (R253, R254, R256): a pixel line with its data type and pixel codes, its header's ECC, its CRC, and whether the
receiver's queue overflows at it (1) or is still losing lines (2). -/
def execCsiLongPacket (link vc dt : Nat) (line : List Nat) (hdr : Nat) (crcBad : Bool) (overflow at_ : Nat) (s : State) :
    Host.Outcome State Fault Refusal := s.command fun s =>
  let s := s.reach at_
  if !s.csiOn link then .next s else
  let s := (s.setFld .csiStatusHs link 1).countHeader link hdr
  let s := if crcBad ∧ hdr < 2 then s.countLink .crcErrors link else s
  match s.sensorOf link vc with
  | none => .next (if 2 ≤ hdr then s else s.countLink .unmapped link)
  | some k =>
    if hdr < 2 ∧ (dt ≠ s.fld .ispSensorDt k ∨ !rawTypes.contains dt) then .next (s.countLink .unsupported link) else
    let s := if overflow = 1 then (s.countLink .overflows link).setFld .csiStatusOverflow link 1 else s
    match (s.sensor k).frame with
    | none => .next s
    | some f =>
      if f.dropped then .next s
      else if 2 ≤ hdr then .next (s.loseLine link k { f with hdrErr := f.hdrErr + 1 }).settle
      else if 0 < overflow then .next (s.loseLine link k { f with overflow := true }).settle
      else
        let f := if crcBad then { f with crcErr := f.crcErr + 1 } else f
        let short := decide (line.length ≠ s.fld .ispSensorWidth k)
        if s.fld .ispSensorHeight k ≤ f.lines.length then .next (s.setFrame k { f with marked := true })
        else if (crcBad || short) && s.flag .csiCtrlMode link then .next (s.dropFrame' k f).settle
        else
          let f' := { f with
            marked := f.marked || crcBad || short
            lastGood := if crcBad || short then f.lastGood else some line }
          .next (s.takeLine k f' (s.fitLine k f line)).settle

/-- The statistics page of a frame (R258). -/
def State.writeStats (s : State) (k : Nat) (f : CamFrame) : State :=
  let p := s.obj .camStats (k + 1)
  if p = 0 then s
  else
    let x := s.ispSet k f.blob
    (s.urWrite (unitReq 0x0E false) (p * 4096) ((Config.ispStats x.nums x.blob (x.front f.lines)).take 4096) []).2

/-- CSI_FRAME_END (R262, R268): the frame closes; a frame with fewer lines than HEIGHT ended early. -/
def execCsiFrameEnd (link vc hdr at_ : Nat) (s : State) : Host.Outcome State Fault Refusal := s.command fun s =>
  let s := s.reach at_
  if !s.csiOn link then .next s else
  let s := (s.setFld .csiStatusHs link 1).countHeader link hdr
  if 2 ≤ hdr then .next (s.badShort link vc).settle else
  match s.sensorOf link vc with
  | none => .next (s.countLink .unmapped link)
  | some k =>
    match (s.sensor k).frame with
    | none => .next (s.countLink .unmapped link)
    | some f =>
      let status := if f.lines.length < s.fld .ispSensorHeight k then 2 else b2n f.marked
      let s := if f.dropped then s else (s.writeStats k f).camComplete k f status
      .next (s.setSensor k { s.sensor k with frame := none }).settle

/-- The accepted level of a link's hot-plug detect is absent, and its sensors are lost (R267, R294). -/
def State.hotplugLoss (s : State) (link : Nat) : State :=
  let s := s.setFld .csiStatusHpd link 0
  let m := s.fld .doorStatusCamhpd 0
  let s := s.setFld .doorStatusCamhpd 0 (setBits m link link 0)
  ((List.range 4).foldl (fun s i => if s.flag .ispSensorEn (4 * link + i) then s.loseSensor (4 * link + i) else s) s).settle

/-- CAMERA_HOTPLUG_LOSS (R267, R294, R297): the change wakes the device when the link's bit is set. -/
def execCameraHotplugLoss (link at_ : Nat) (s : State) : Host.Outcome State Fault Refusal := s.command fun s =>
  let s := s.reach at_
  let wakes := bit (s.fld .doorStatusCamhpd 0) link && bit (s.obj .doorWakeMask 0) (12 + link)
  let s := s.hotplugLoss link
  .next (if wakes then s.wake 4 s.time link else s)

/-- CSI_LOSS_TIMEOUT (R267): the link has been out of high-speed mode for LOSS_TIMEOUT during a frame. -/
def execCsiLossTimeout (link at_ : Nat) (s : State) : Host.Outcome State Fault Refusal := s.command fun s =>
  let s := (s.reach at_).setFld .csiStatusHs link 0
  .next ((List.range 4).foldl (fun s i =>
    if (s.sensor (4 * link + i)).frame.isSome then s.loseSensor (4 * link + i) else s) s).settle

/-- FRAME_START_TIMEOUT (R267): no frame start for 2 × PERIOD since the last one. -/
def execFrameStartTimeout (sensor at_ : Nat) (s : State) : Host.Outcome State Fault Refusal := s.command fun s =>
  let s := s.reach at_
  let x := s.sensor sensor
  match x.lastSof with
  | none => .next s
  | some t =>
    let p := s.framePeriod sensor
    if x.phase ≠ .lost ∧ s.flag .ispSensorEn sensor ∧ 0 < p ∧ t + 2 * p ≤ s.time then .next (s.loseSensor sensor).settle
    else .next s

/-- GAP_RECORD (R268): an expected start of a lost sensor has passed by PERIOD with no frame start. -/
def execGapRecord (sensor at_ : Nat) (s : State) : Host.Outcome State Fault Refusal := s.command fun s =>
  let s := s.reach at_
  let x := s.sensor sensor
  let p := s.framePeriod sensor
  if x.phase = .lost ∧ 0 < p ∧ x.expected + p ≤ s.time then
    let s := s.setSensor sensor { x with expected := x.expected + p }
    .next ((s.streamsOf sensor).foldl (fun s n => (s.osTake n).osGap n x.expected) s).settle
  else .next s

/-! ## Enabling and releasing -/

/-- The grains or pages of a stream's buffers, as units of their space. -/
def State.osUnits (s : State) (n : Nat) : List Nat :=
  let len := s.osNbufs n * (1 + s.osD n)
  if s.fld .osFmt n = 2 then (List.range len).map (s.fld .osBase n + ·)
  else (List.range (ceilDiv len 16)).map (s.fld .osBase n + ·)

/-- The checks of R261: 0, 1 BAD_VALUE, 2 WORLD or 3 SENSOR. -/
def State.osCheck (s : State) (n : Nat) : Nat :=
  let k := s.osSensorOf n
  let fmt := s.fld .osFmt n
  let cw := s.fld .osCropw n; let ch := s.fld .osCroph n
  let ow := s.fld .osOutw n; let oh := s.fld .osOuth n
  let units := s.osUnits n
  let fits := if fmt = 2 then decide (s.fld .osBase n + units.length ≤ binGrains)
    else decide (s.fld .osBase n + units.length ≤ s.urPages)
  let even := [s.fld .osCropx n, s.fld .osCropy n, cw, ch, ow, oh].all (fun v => v % 2 == 0)
  if !s.flag .ispSensorEn k then 3
  else if !(decide (s.fld .ispSensorMosaic k < 6 ∧ fmt < 3 ∧ s.fld .osPlane n < 3 ∧ 1 ≤ s.fld .osNbuf n) &&
    decide (s.fld .osCropx n + cw ≤ s.fld .ispSensorWidth k ∧ s.fld .osCropy n + ch ≤ s.fld .ispSensorHeight k) &&
    decide (1 ≤ ow ∧ ow ≤ 4096 ∧ 1 ≤ oh ∧ oh ≤ 4096 ∧ cw ≤ 16 * ow ∧ ow ≤ 2 * cw ∧ ch ≤ 16 * oh ∧ oh ≤ 2 * ch) &&
    (decide (fmt ≠ 0) || even) && (decide (fmt ≠ 2) || Fmt.int8.zpOk (signed 16 (s.fld .osOzp n))) && fits) then 1
  else
    let q := s.osReq n
    let spaces := if fmt = 2 then (s.fld .osBin n + 1) :: (if s.flag .osDual n then [s.fld .osBin2 n + 1] else []) else [0]
    if spaces.all (fun sp => units.all (fun u => s.allowed q true sp u)) then 0 else 2

/-- OS_ENABLE (R261). -/
def execOsEnable (stream : Nat) (s : State) : Host.Outcome State Fault Refusal := s.command fun s =>
  if !s.clocked 9 then .next s.gatedError else
  if (s.osRun stream).isSome then .next s else
  let r := s.osCheck stream
  let s := s.setFld .osResult stream r
  .next (if r = 0 then ((s.setOsRun stream (some OsRun.start)).setFlds stream [(.osEn, 1), (.osFrameno, 0)]).pwrSync else s)

/-- OS_DISABLE (R268): the current frame completes with its header, and the stream stops. -/
def execOsDisable (stream : Nat) (s : State) : Host.Outcome State Fault Refusal := s.command fun s =>
  if !s.clocked 9 then .next s.gatedError else
  match s.osRun stream with
  | none => .next s
  | some r => .next (if r.rows.isSome then s.setOsRun stream (some { r with stopping := true }) else (s.osOff stream 0).pwrSync)

/-- OS_RELEASE (R263): `add` buffers are released by OS_RELEASEn, or (with 0) a RELEASE tally has been raised. -/
def execOsRelease (stream add : Nat) (s : State) : Host.Outcome State Fault Refusal := s.command fun s =>
  if 0 < add ∧ s.clocked 9 = false then .next s.gatedError else
  match s.osRun stream with
  | none => .next s
  | some r =>
    .next (if add = 0 then s.osTake stream else
      let left := r.occupied - min add r.occupied
      s.setOsRun stream (some { r with occupied := left, ahead := min r.ahead left, ahead2 := min r.ahead2 left }))

/-- CAM_COLOUR_WRITE (R258): a new colour blob, in force from the sensor's next frame start. -/
def execCamColourWrite (sensor : Nat) (blob : List Byte) (s : State) : Host.Outcome State Fault Refusal := s.command fun s =>
  .next ((s.setObjVal .camColour (sensor + 1) (.bytes blob)).bumpVersion (Obj.key .camColour (sensor + 1)))

/-- The streams stop after their current frame for REST or LISTEN (R268): no frame start and no gap until the resume. -/
def State.camSuspend (s : State) : State :=
  (List.range 16).foldl (fun (s : State) n => match s.osRun n with
    | some r => s.setOsRun n (some { r with off := true })
    | none => s) s

/-- The streams go on after a resume (R268): the first frame carries RESUMED, FRAMENO continues, and no gap is written for the
time spent off; the interval that spans it is not measured. -/
def State.camResume (s : State) : State :=
  let s := (List.range 16).foldl (fun (s : State) n => match s.osRun n with
    | some r => if r.off then s.setOsRun n (some { r with off := false, resumed := true }) else s
    | none => s) s
  (List.range 16).foldl (fun (s : State) k =>
    let x := s.sensor k
    s.setSensor k { x with
      phase := if x.phase = .present then .unseen else x.phase
      lastSof := x.lastSof.map (fun _ => s.time)
      expected := if x.phase = .lost then s.time + s.framePeriod k else x.expected }) s

/-- Streams that a reset or a lost Bin stops at once (R268). -/
def State.camStopAll (s : State) (result : Nat) : State :=
  (List.range 16).foldl (fun (s : State) n => if (s.osRun n).isSome then s.osOff n result else s) s

end Sys2Proof.Machine
end

