-- ==== Sys2Proof/Machine/Audio.lean ====
section
/-!
DEFINITION. Microphones and the Watch (spec/14): the aligned stream, voice activity and first-stage detection, the pre-roll and
its lock, the span push and its verdict, pulls, mute, and the loss of the listening microphone.
-/
namespace Sys2Proof.Machine

/-! ## Inputs -/

/-- Mute is in effect (R289); a clock-source failure stops the PDM clocks too (R431). -/
def State.muted (s : State) : Bool := s.flag .doorStatusMute 0
def State.micsStopped (s : State) : Bool := s.muted || s.flag .clkStatusHeld 0

/-- The array of a microphone is present (R271, R294). -/
def State.micPresent (s : State) (m : Nat) : Bool := bit (s.fld .doorStatusMichpd 0) (m / 8)

/-- The microphones of LISTEN_ORDER, first to last (R288). -/
def State.listenOrder (s : State) : List Nat :=
  let v := s.obj .listenOrder 0
  ((List.range 4).map (fun i => bits v (4 * i + 3) (4 * i))).takeWhile (fun m => m != 15)

/-- Audio wake is enabled (R280, R281). -/
def State.audioWakeOn (s : State) : Bool :=
  s.obj .audioWakeEn 0 == 1 && s.flag .watchSpanEn 0 && s.watch.mic.isSome

def State.setWatch (s : State) (w : WatchGroup) : State := { s with watch := w }

/-! ## The aligned stream -/

/-- The front end as an initiator (R319). -/
def State.audReq (s : State) : Requester := unitReq 0x0F (s.flag .secWmapAud 0)

/-- The channels and references of a stream, and its grains per block (R276). -/
def AudRun.chans (a : AudRun) : List Nat := (List.range 16).filter (bit a.chmask)
def AudRun.refList (a : AudRun) : List Nat := (List.range 2).filter (bit a.refs)
def AudRun.grains (a : AudRun) : Nat := 1 + a.chans.length + a.refList.length

/-- A grain of 128 samples of PCM16. -/
def pcmGrain (x : List Int) : List Byte := (List.range 128).flatMap (fun i => natLe 2 (unsignedOf 16 (x.getD i 0)))

/-- The samples of a channel after its fractional trim (R273). -/
def State.trimmed (s : State) (mic stamp : Nat) (x : List Int) : List Int :=
  let t := s.fld .audTrimTrim mic
  if t = 0 then x else (List.range x.length).map (Config.fracDelay t stamp x)

/-- Take the releases of the aligned stream (R276, R102). -/
def State.audTake (s : State) : State :=
  match s.aud.stream with
  | none => s
  | some a =>
    let t := s.fld .audStreamRelease 0
    let k := min (s.tally a.bin t) a.occupied
    let s := s.setFld .binTallyCount (a.bin * 1024 + t) (s.tally a.bin t - k)
    { s with aud := ⟨some { a with occupied := a.occupied - k }⟩ }

/-- AUDIO_BLOCK (R276, R283, R285): 128 samples of every microphone and reference, the stamp of sample 0, and whether the
slave-mode reference cannot be followed (R275; in master mode it is aligned by construction). -/
def execAudioBlock (mics refs : List (List Int)) (lost : Bool) (stamp at_ : Nat) (s : State) :
    Host.Outcome State Fault Refusal := s.command fun s =>
  let s := (s.reach at_).audTake
  let slave := bit (s.obj .audTdm 0) 9
  let refUnlocked := lost && slave
  match s.aud.stream with
  | none => .next s
  | some a =>
    if a.off ∨ s.powerGood 4 = false ∨ s.clocked 2 = false ∨ s.flag .clkStatusHeld 0 = true then .next s else
    let s := s.setFld .audStatusReflock 0 (b2n (slave && !lost))
    if a.nbuf ≤ a.occupied then
      .next (({ s with aud := ⟨some { a with skipped := min (a.skipped + 1) 65535 }⟩ } : State).bumpObj .audSkipped 0 1)
    else
      let live := a.chans.filter (fun c => s.micPresent c && !s.muted)
      let mask := live.foldl (fun m c => m + 2 ^ c) 0
      let rmask := if refUnlocked then 0 else a.refs
      let zero : List Int := []
      let data := a.chans.flatMap (fun c => pcmGrain (if live.contains c then s.trimmed c stamp (mics.getD c []) else zero)) ++
        a.refList.flatMap (fun r => pcmGrain (if refUnlocked then zero else refs.getD r []))
      let h := natLe 8 a.blockNo ++ natLe 8 stamp ++ natLe 2 mask ++ natLe 1 rmask ++
        natLe 1 (b2n s.muted + 2 * b2n a.resumed + 4 * b2n refUnlocked) ++ natLe 2 a.skipped
      let base := (s.fld .audStreamBase 0 + a.blockNo % a.nbuf * a.grains) * 256
      let w := s.binUnitWrite s.audReq 5 a.bin (base + 256) data
      let w := if w.1.isSome then w else w.2.binUnitWrite s.audReq 5 a.bin base (h ++ List.replicate 234 0)
      if w.1.isSome then .next (w.2.audOff 3) else
      let s := w.2.raiseTally a.bin (s.fld .audStreamTally 0) a.grains
      let a := { a with blockNo := (a.blockNo + 1) % 2 ^ 64, occupied := a.occupied + 1, skipped := 0, resumed := false }
      .next (({ s with aud := ⟨some a⟩ } : State).audTake).settle

/-- The checks of AUD_STREAM.EN (R287): 0, 1 BAD_VALUE or 2 WORLD. -/
def State.audCheck (s : State) (a : AudRun) : Nat :=
  let base := s.fld .audStreamBase 0
  let n := a.nbuf * a.grains
  if a.nbuf < 2 ∨ binGrains < base + n then 1
  else if (List.range n).all (fun i => s.allowed s.audReq true (a.bin + 1) (base + i)) then 0 else 2

/-- AUD_STREAM_ENABLE (R276, R287): a write of EN. -/
def execAudStreamEnable (en : Bool) (s : State) : Host.Outcome State Fault Refusal := s.command fun s =>
  if !s.clocked 2 then .next s.gatedError
  else if !en then .next (if s.aud.stream.isSome then s.audOff 0 else s)
  else if s.aud.stream.isSome then .next s
  else
    let a : AudRun := ⟨s.fld .audStreamBin 0, s.fld .audStreamNbuf 0 + 1, s.fld .audStreamRefs 0, s.fld .audStreamChmask 0,
      0, 0, 0, false, false⟩
    let r := s.audCheck a
    let s := s.setFld .audStreamResult 0 r
    .next (if r = 0 then ({ s with aud := ⟨some a⟩ } : State).setFld .audStreamEn 0 1 else s)

/-- AUDIO_RELEASE (R276): the RELEASE tally of the stream has been raised. -/
def execAudioRelease (s : State) : Host.Outcome State Fault Refusal := s.command fun s => .next s.audTake

/-! ## The pre-roll -/

/-- The samples of a block, and of the whole buffer (R279). -/
def prerollBlock : Nat := 505
def prerollMax : Nat := 193920

/-- Drop the oldest blocks beyond 384. -/
def WatchGroup.trim (w : WatchGroup) : WatchGroup :=
  let excess := w.silent + w.recent.length - prerollMax
  let drop := ceilDiv excess prerollBlock * prerollBlock
  { w with silent := w.silent - drop, recent := w.recent.drop (drop - w.silent) }

/-- Record one sample: the codec sees the samples before it in its block. -/
def WatchGroup.record (w : WatchGroup) (x : Int) : WatchGroup :=
  let k := w.count % prerollBlock
  let before := w.recent.drop (w.recent.length - k)
  { w with recent := w.recent ++ [if k = 0 then x else Config.prerollCodec before x], count := w.count + 1 }

/-- The sample with a number, and zero outside the buffer (R281). -/
def WatchGroup.sampleAt (w : WatchGroup) (i : Int) : Int :=
  let first : Int := (w.count : Int) - (w.recent.length : Nat)
  if i < first then 0 else w.recent.getD (i - first).toNat 0

/-- The pre-roll is erased, and begins again empty (R283, R285). -/
def WatchGroup.erase (w : WatchGroup) : WatchGroup := { w with silent := 0, recent := [] }

/-- The number of the sample after the detection sample is `detIndex`; `start` samples from the detection sample. -/
def WatchGroup.runStart (w : WatchGroup) (start : Int) : Int := (w.detIndex : Int) - 1 + start

/-! ## Detection -/

/-- A first-stage detection (R278, R280, R281, R285). -/
def State.firstStage (s : State) : State :=
  let s := s.bumpObj .wakes 0 1
  match s.watch.lock with
  | .locked =>
    if !s.audioWakeOn then s else
    let w := s.watch
    let s := s.setWatch { w with lock := .span, detIndex := w.count, detTime := w.lastTime, span := none }
    s.wake 1 w.lastTime s.micArg
  | .span | .open => s.bumpObj .wakesIgnored 0 1
  | .erasing => s

/-- VAD_FRAME (R278, R279): the 160 samples of 10 ms, their voice-activity score, the score of the wake model, and the time of
the last sample. -/
def execVadFrame (samples : List Int) (vad score at_ : Nat) (s : State) : Host.Outcome State Fault Refusal := s.command fun s =>
  let s := s.reach at_
  if s.micsStopped || s.watch.mic.isNone then .next s else
  let w := { (samples.foldl WatchGroup.record s.watch).trim with lastTime := at_ }
  let w := { w with voiceHold := if s.obj .vadThreshold 0 < vad then 31 else w.voiceHold - 1 }
  let s := s.setWatch w
  if 0 < w.voiceHold ∧ s.obj .wakeThreshold 0 ≤ score then .next s.firstStage else .next s

/-! ## The span -/

/-- The samples and grains of a span (R281). -/
def State.spanSamples (s : State) : Nat := s.obj .spanMs 0 * 16
def State.spanGrains (s : State) : Nat := 1 + ceilDiv s.spanSamples 128

/-- The push fails (R280): to LOCKED, with the span zeroed. -/
def State.spanFail (s : State) : State :=
  let s := s.zeroSpan
  s.setWatch { s.watch with lock := .locked }

/-- SPAN_PUSH (R281): the verify Bin is READY, and the push starts with the check of its range. -/
def execSpanPush (at_ : Nat) (s : State) : Host.Outcome State Fault Refusal := s.command fun s =>
  let s := s.reach at_
  let b := s.fld .watchSpanBin 0
  let base := s.fld .watchSpanBase 0
  let n := s.spanGrains
  if s.watch.lock ≠ .span ∨ s.watch.span.isSome ∨ s.binReady b = false then .next s
  else
    let w := s.binAdmit s.watchReq true 5 b ((List.range n).map (base + ·))
    match w.1 with
    | some _ => .next w.2.spanFail
    | none => .next (w.2.setWatch { w.2.watch with span := some ⟨b, base, n, false, 0⟩ })

/-- The bytes of the span: its header, and its grains of PCM16. -/
def State.spanBytes (s : State) (n : Nat) : List Byte :=
  let w := s.watch
  let h := natLe 8 (w.detTime - (s.spanSamples - 1) * 62500) ++ natLe 8 w.detTime ++ List.replicate 240 0
  let first := w.runStart (1 - (s.spanSamples : Int))
  h ++ (List.range (n - 1)).flatMap (fun g => pcmGrain ((List.range 128).map (fun i =>
    if g * 128 + i < s.spanSamples then w.sampleAt (first + ((g * 128 + i : Nat) : Int)) else 0)))

/-- SPAN_PUSH_COMPLETE (R281): every grain is written and counted, and the verdict window starts. -/
def execSpanPushComplete (at_ : Nat) (s : State) : Host.Outcome State Fault Refusal := s.command fun s =>
  let s := s.reach at_
  match s.watch.span with
  | none => .next s
  | some x =>
    if x.done then .next s else
    let w := s.binUnitWrite s.watchReq 5 x.bin (x.base * 256) (s.spanBytes x.grains)
    match w.1 with
    | some _ => .next w.2.spanFail
    | none =>
      let s := w.2.raiseTally x.bin (w.2.fld .watchSpanTally 0) x.grains
      .next (s.setWatch { s.watch with span := some { x with done := true, ended := s.time } }).settle

/-- WATCH_VERDICT_ACCEPT (R280, R281, R285). -/
def execWatchVerdictAccept (at_ : Nat) (s : State) : Host.Outcome State Fault Refusal := s.command fun s =>
  let s := s.reach at_
  if s.watch.lock ≠ .span then .next (s.bumpObj .verdictLate 0 1)
  else
    let s := (s.setWatch { s.watch with lock := .open, openAt := s.time, span := none }).bumpObj .wakesAccepted 0 1
    .next (s.event 0x0001 s.micArg s.watch.detTime)

/-- WATCH_VERDICT_REJECT (R281). -/
def execWatchVerdictReject (s : State) : Host.Outcome State Fault Refusal := s.command fun s =>
  .next (if s.watch.lock = .span then s.watchReject else s)

/-- VERIFY_TIMEOUT (R281): no verdict within VERIFY_MS of the end of the push. -/
def execVerifyTimeout (at_ : Nat) (s : State) : Host.Outcome State Fault Refusal := s.command fun s =>
  let s := s.reach at_
  match s.watch.span with
  | none => .next s
  | some x =>
    .next (if s.watch.lock = .span ∧ x.done = true ∧ x.ended + s.obj .verifyMs 0 * 1000000 ≤ s.time then s.watchReject else s)

/-- LOCK_OPEN_EXPIRY (R280): 10,000 ms after ACCEPT. -/
def execLockOpenExpiry (at_ : Nat) (s : State) : Host.Outcome State Fault Refusal := s.command fun s =>
  let s := s.reach at_
  .next (if s.watch.lock = .open ∧ s.watch.openAt + 10000000000 ≤ s.time then s.setWatch { s.watch with lock := .erasing } else s)

/-- ERASING_COMPLETE (R280): the whole buffer has been written with silent blocks. -/
def execErasingComplete (s : State) : Host.Outcome State Fault Refusal := s.command fun s =>
  .next (if s.watch.lock = .erasing then s.setWatch { s.watch with lock := .locked, silent := prerollMax, recent := [] } else s)

/-! ## Pulls -/

/-- The RESULT of a pull (R282): 1 LOCKED, 2 RANGE, 3 WORLD, or 0 with the state after the push. -/
def State.watchPull (s : State) (bin base count tally : Nat) (start : Int) : Nat × State :=
  let w := s.watch
  let first := w.runStart start
  let oldest : Int := (w.count : Int) - ((w.silent + w.recent.length : Nat) : Int)
  if w.lock ≠ .open then (1, s)
  else if count < 1 ∨ 1515 < count ∨ first < oldest ∨ (w.count : Int) < first + ((128 * count : Nat) : Int) ∨
    binGrains < base + count then (2, s)
  else
    let r := s.binUnitWrite s.watchReq 5 bin (base * 256) ((List.range count).flatMap (fun g =>
      pcmGrain ((List.range 128).map (fun i => w.sampleAt (first + ((g * 128 + i : Nat) : Int))))))
    match r.1 with
    | none => (0, (r.2.raiseTally bin tally count).settle)
    | some .world => (3, r.2)
    | some _ => (2, r.2)

/-- WATCH_PULL (R282): the three words with GO = 1; START is a 21-bit number. -/
def execWatchPull (bin base count tally start : Nat) (s : State) : Host.Outcome State Fault Refusal := s.command fun s =>
  let s := s.setFlds 0 [(.watchPullBin, bin), (.watchPullBase, base), (.watchPullCount, count), (.watchPullTally, tally),
    (.watchPullStart, start)]
  let r := s.watchPull (bin % 8) (base % 2 ^ 17) (count % 4096) (tally % 1024) (signed 21 start)
  .next (r.2.setFld .watchPullResult 0 r.1)

/-- WATCH_SPAN_WRITE (R281, R287). -/
def execWatchSpanWrite (value : Nat) (secure : Bool) (s : State) : Host.Outcome State Fault Refusal := s.command fun s =>
  if s.flag .secWmapWatch 0 && !secure then .next (s.worldError .watchSpanBin 0)
  else if s.watch.lock ≠ .locked then .next s
  else .next (s.setFlds 0 [(.watchSpanBin, bits value 31 29), (.watchSpanBase, bits value 28 12), (.watchSpanEn, bits value 10 10),
    (.watchSpanTally, bits value 9 0)])

/-! ## Mute -/

/-- MUTE_ASSERT (R283, R289, R290): in logic that no firmware controls. -/
def execMuteAssert (at_ : Nat) (s : State) : Host.Outcome State Fault Refusal := s.command fun s =>
  let s := s.reach at_
  if s.muted then .next s else
  let s := (s.setFlds 0 [(.doorStatusMute, 1), (.doorStatusPriv, 1)]).zeroSpan
  let s := (s.setWatch { s.watch with lock := .erasing, voiceHold := 0 }).cancelWake 1
  .next (s.doorEvent 0x000F 0 s.time)

/-- MUTE_RELEASE (R283, R289): MUTE_IN has stayed low for 50 ms. -/
def execMuteRelease (at_ : Nat) (s : State) : Host.Outcome State Fault Refusal := s.command fun s =>
  let s := s.reach at_
  if !s.muted then .next s else
  let s := (s.setFlds 0 [(.doorStatusMute, 0), (.doorStatusPriv, 0)]).setWatch s.watch.erase
  .next (s.doorEvent 0x0010 0 s.time)

/-! ## The listening microphone -/

/-- The microphone after one in the order whose array is present. -/
def State.nextMic (s : State) (m : Nat) : Option Nat :=
  let order := s.listenOrder
  let i := order.findIdx (· == m)
  ((order.drop (i + 1)) ++ order.take i).find? s.micPresent

/-- The Watch moves to a microphone, or has none (R284): the wake model's state is cleared and the break is marked by a silent
block. -/
def State.moveMic (s : State) (m : Option Nat) (at_ : Nat) : State :=
  let w := s.watch
  let w := { w with recent := w.recent ++ List.replicate prerollBlock 0, count := w.count + prerollBlock, voiceHold := 0, mic := m }
  let s := (s.setWatch w.trim).setFld .watchStatusWakeOff 0 (b2n m.isNone)
  match m with
  | some k => (s.bumpObj .micChanges 0 1).watchEvent 0x0003 k at_
  | none => s.watchEvent 0x0004 0 at_

/-- The listening microphone is lost (R284); a loss wakes the device only under WAKE_ON_MIC_LOSS. -/
def State.micLost (s : State) (at_ : Nat) : State :=
  match s.watch.mic with
  | none => s
  | some m =>
    let s := s.moveMic (s.nextMic m) at_
    if s.obj .wakeOnMicLoss 0 = 1 then s.wake 4 at_ (m / 8) else s

/-- LISTEN_MIC_LOST (R284): the PDM data of the listening microphone has not changed for 10 ms, or its array reads absent. -/
def execListenMicLost (at_ : Nat) (s : State) : Host.Outcome State Fault Refusal := s.command fun s =>
  let s := s.reach at_
  .next (if s.muted then s else s.micLost s.time)

/-- A listed microphone returns when there is none (R284). -/
def State.micBack (s : State) (at_ : Nat) : State :=
  if s.watch.mic.isSome then s else
  match s.listenOrder.find? s.micPresent with
  | some m => s.moveMic (some m) at_
  | none => s

/-- A reset other than a job abort erases the pre-roll, and the lock is LOCKED (R285). -/
def State.watchReset (s : State) : State := s.setWatch { s.watch.erase with lock := .locked, span := none, voiceHold := 0 }

/-- The aligned stream stops for REST or LISTEN; it starts again from block 0, with RESUMED, after the resume. -/
def State.audSuspend (s : State) : State :=
  { s with aud := ⟨s.aud.stream.map (fun a => { a with off := true })⟩ }
def State.audResume (s : State) : State :=
  { s with aud := ⟨s.aud.stream.map (fun a =>
    if a.off then { a with off := false, resumed := true, blockNo := 0, occupied := 0, skipped := 0 } else a)⟩ }

end Sys2Proof.Machine
end

