-- ==== Sys2Proof/Machine/Door.lean ====
section
/-!
DEFINITION. Buttons, touch, hot-plug and shutter sense, and the LED drivers (spec/15).
-/
namespace Sys2Proof.Machine

def State.setDoor (s : State) (d : DoorGroup) : State := { s with door := d }

/-- Set bit `i` of a field of DOOR_STATUS. -/
def State.setDoorBit (s : State) (f : Fld) (i : Nat) (on : Bool) : State := s.setFld f 0 (setBits (s.fld f 0) i i (b2n on))

/-- A bit of DOOR_WAKE_MASK (R299). -/
def State.doorWakes (s : State) (i : Nat) : Bool := bit (s.obj .doorWakeMask 0) i

/-- BUTTON_CHANGE (R291, R292, R297): an accepted change of a button, with its first edge. -/
def execButtonChange (button : Nat) (pressed : Bool) (edge at_ : Nat) (s : State) : Host.Outcome State Fault Refusal := s.command fun s =>
  let s := s.reach at_
  if bit (s.fld .doorStatusBtn 0) button = pressed then .next s else
  let s := s.setDoorBit .doorStatusBtn button pressed
  let d := s.door
  let s := s.setDoor { d with
    pressedAt := SMap.put d.pressedAt button (if pressed then edge else 0) 0
    longDone := setBits d.longDone button button 0 }
  let s := s.doorEvent (if pressed then 0x0011 else 0x0012) button edge
  let s := if !pressed && decide (button ≤ 1) then s.buttonsUp else s
  .next (if pressed && s.doorWakes button then s.wake 2 edge button else s)

/-- BUTTON_LONG (R291): a press has been held for LONGPRESS_MS; once for each press. -/
def execButtonLong (button at_ : Nat) (s : State) : Host.Outcome State Fault Refusal := s.command fun s =>
  let s := s.reach at_
  let due := SMap.get s.door.pressedAt button 0 + s.obj .longpressMs 0 * 1000000
  if bit (s.fld .doorStatusBtn 0) button ∧ bit s.door.longDone button = false ∧ due ≤ s.time then
    .next ((s.setDoor { s.door with longDone := setBits s.door.longDone button button 1 }).doorEvent 0x0013 button due)
  else .next s

/-- One channel of a touch scan (R293). -/
def State.touchScan (s : State) (c meas : Nat) : State :=
  let x := SMap.get s.door.touch c ⟨0, 0, 0⟩
  let on := bit (s.fld .doorStatusTouch 0) c
  let count := meas - x.baseline
  let th := s.fld .doorTouchThreshold c
  let period := if s.pwrState = 4 then 100 else s.obj .touchPeriodMs 0
  let asks := if on then decide (2 * count < th) else decide (th ≤ count)
  let change := asks && x.streak == 1
  let x' : TouchCh := ⟨if on then x.baseline else Config.baselineStep x.baseline meas period,
    if change || !asks then 0 else 1, if asks ∧ x.streak = 0 then s.time else x.first⟩
  let s := (s.setFld .doorTouchCount c count).setDoor { s.door with touch := SMap.put s.door.touch c x' ⟨0, 0, 0⟩ }
  if !change then s else
  let s := (s.setDoorBit .doorStatusTouch c (!on)).doorEvent (if on then 0x0015 else 0x0014) c x.first
  if !on && s.doorWakes (4 + c) then s.wake 3 x.first c else s

/-- TOUCH_SCAN (R293): the measurements of the eight channels. -/
def execTouchScan (meas : List Nat) (at_ : Nat) (s : State) : Host.Outcome State Fault Refusal := s.command fun s =>
  .next ((List.range 8).foldl (fun s c => s.touchScan c (meas.getD c 0)) (s.reach at_))

/-- HPD_CHANGE (R294, R297): an accepted level of CAM_HPD0 to CAM_HPD3 (0 to 3), or of MIC_HPD0 and MIC_HPD1 (4 and 5). -/
def execHpdChange (input : Nat) (present : Bool) (edge at_ : Nat) (s : State) : Host.Outcome State Fault Refusal := s.command fun s =>
  let s := s.reach at_
  if input < 4 then
    if bit (s.fld .doorStatusCamhpd 0) input = present then .next s else
    let s := if present then (s.setDoorBit .doorStatusCamhpd input true).setFld .csiStatusHpd input 1 else s.hotplugLoss input
    .next (if s.doorWakes (12 + input) then s.wake 4 edge input else s)
  else
    let a := input - 4
    if bit (s.fld .doorStatusMichpd 0) a = present then .next s else
    let s := (s.setDoorBit .doorStatusMichpd a present).doorEvent 0x0005 (a + 2 * b2n present) edge
    .next (if present then s.micBack edge
      else if (match s.watch.mic with | some m => m / 8 == a | none => false) then s.micLost edge else s)

/-- SHUTTER_CHANGE (R295). -/
def execShutterChange (link : Nat) (closed : Bool) (edge at_ : Nat) (s : State) : Host.Outcome State Fault Refusal := s.command fun s =>
  let s := s.reach at_
  if bit (s.fld .doorStatusShut 0) link = closed then .next s
  else .next ((s.setDoorBit .doorStatusShut link closed).doorEvent (if closed then 0x0008 else 0x0009) link edge)

/-- The present duty of an LED (R296): on the line from the duty at the last write to DUTY over RAMP ms. -/
def State.ledDuty (s : State) (n : Nat) : Nat :=
  let r := SMap.get s.door.leds n ⟨0, 0⟩
  let ramp := s.fld .doorLedRamp n * 1000000
  let to' := s.fld .doorLedDuty n
  let t := s.time - r.at_
  if ramp ≤ t then to' else ((r.from' * (ramp - t) + to' * t) / ramp)

/-- The outputs are forced by a clock-source failure or a thermal trip (R431, R454). -/
def State.outputsForced (s : State) : Bool := s.flag .clkStatusHeld 0 || s.boot.stage == .tripped

/-- The duty that the sink of an LED shows (R296): none while it is disabled, in LISTEN, under forced outputs and in reset. -/
def State.ledSink (s : State) (n : Nat) : Nat :=
  if s.flag .doorLedEn n && decide (s.pwrState ≠ 4) && !s.outputsForced && s.boot.holds == 0 then s.ledDuty n else 0

/-- The level of CAM_ENn (R269, R431). -/
def State.camEnPin (s : State) (n : Nat) : Bool := s.flag .csiCtrlCamEn n && !s.outputsForced

/-- The level of RAIL_EN (R447, R454): low in OFF, after a thermal trip, and in LISTEN until the latch of a wake or a source failure. -/
def State.railEnPin (s : State) : Bool :=
  s.boot.stage != .off && s.boot.stage != .tripped && (s.pwrState != 4 || s.resuming || s.flag .clkStatusHeld 0)

/-- DOOR_LED_WRITE (R296, R428): the duty begins to move from where it stands. -/
def execDoorLedWrite (led value at_ : Nat) (s : State) : Host.Outcome State Fault Refusal := s.command fun s =>
  let s := s.reach at_
  if !s.clocked 1 then .next s.gatedError else
  let now := s.ledDuty led
  let s := s.setDoor { s.door with leds := SMap.put s.door.leds led ⟨now, s.time⟩ ⟨0, 0⟩ }
  .next (s.setFlds led [(.doorLedEn, bits value 31 31), (.doorLedRamp, bits value 27 16), (.doorLedDuty, bits value 11 0)])

end Sys2Proof.Machine
end

