-- ==== Sys2Proof/Machine/SafetyUnit.lean ====
section
/-!
DEFINITION. The safety monitor (spec/16): the comparator of guarded networks, the window watchdogs' commands, the causes of
nFAULT, and injected faults.
-/
namespace Sys2Proof.Machine

/-! ## The comparator -/

/-- COMPARATOR_START (R305): both copies have completed and their writes are committed. -/
def execComparatorStart (net : Nat) (s : State) : Host.Outcome State Fault Refusal := s.command fun s =>
  let n := s.net net
  .next (if n.comparing then s.setNet net { n with reading := true } else s)

/-- The codes of the elements of a byte run, in order (R306): an INT4 pair takes the low nibble first (R26). -/
def elemCodes (f : Fmt) (b : List Byte) : List Nat :=
  if f = .int4 then b.flatMap (fun x => [x.toNat % 16, x.toNat / 16])
  else
    let k := f.bits / 8
    (List.range (b.length / k)).map (fun i => leNat ((b.drop (i * k)).take k))

/-- The ordered integer of a floating-point code (R306). -/
def orderedInt (bits' : Nat) (v : Nat) : Int :=
  if v / 2 ^ (bits' - 1) % 2 = 0 then (v % 2 ^ (bits' - 1) : Nat) else -((v % 2 ^ (bits' - 1) : Nat) : Int)

/-- Two codes agree (R306). -/
def codesAgree (f : Fmt) (tol a b : Nat) : Bool :=
  match f.fp with
  | none => decide ((f.intOf a - f.intOf b).natAbs ≤ tol)
  | some g =>
    let x := (g.decode a).isNan
    let y := (g.decode b).isNan
    if x || y then x && y else decide ((orderedInt f.bits a - orderedInt f.bits b).natAbs ≤ tol)

/-- The places of the elements that disagree. -/
def disagreements (f : Fmt) (tol : Nat) (a b : List Byte) : List Nat :=
  ((elemCodes f a).zip (elemCodes f b)).zipIdx.filterMap (fun x => if codesAgree f tol x.1.1 x.1.2 then none else some x.2)

/-- The comparator reads a range of a Bin in the secure world through the NOC port, verifying every grain (R305). -/
def State.cmpRead (s : State) (b base count : Nat) (obs : List Obs) : Option (List Byte) × State :=
  match s.binUnitRead (unitReq 0x14 true) 3 b (base * 256) (count * 256) obs with
  | (.error _, s) => (none, s)
  | (.ok bs, s) => (some bs, s)

/-- The frame of a network ends with an ending of its job, on the record of copy A with what either copy met (R222). -/
def State.endFrame (s : State) (k : Nat) (n : GuardRun) (e : Ending) : State :=
  match n.ended with
  | [] => s.setNet k { GuardRun.idle with fallbackNext := n.fallbackNext, due := n.due }
  | (_, j, _) :: _ =>
    let any (p : Job → Bool) : Bool := n.ended.any (fun x => p x.2.1)
    let s := s.setNet k { GuardRun.idle with fallbackNext := n.fallbackNext, due := n.due }
    s.completeJob { j with late := any (·.late), degraded := any (·.degraded), preempted := any (·.preempted) } e

/-- COMPARATOR_COMPLETE (R306, R307): the comparator has read both ranges. -/
def execComparatorComplete (net : Nat) (obs : List Obs) (at_ : Nat) (s : State) : Host.Outcome State Fault Refusal := s.command fun s =>
  let s := s.reach at_
  let n := s.net net
  if !n.reading then .next s else
  let base := s.fld .cmpNetBase net
  let count := s.fld .cmpNetCount net
  let a := s.cmpRead n.west base count obs
  let b := a.2.cmpRead n.east base count obs
  match a.1, b.1 with
  | some x, some y =>
    let s := b.2
    let tol := s.fld .cmpNetTol net
    let injected := SMap.get s.safe.injectNet net false
    let d := disagreements ((Fmt.ofCode (s.fld .cmpNetFmt net)).getD .uint8) tol x y
    let d := if injected then 0 :: d.filter (· != 0) else d
    let s : State := { s with safe := { s.safe with injectNet := SMap.put s.safe.injectNet net false false } }
    if s.fld .cmpNetThresh net < d.length then
      let s := ((s.bumpObj .cmpWithheld (net + 1) 1).logIt .guard 0x14 (b2n injected) net (d.headD 0) d.length).countOutcome net true
      .next (s.endFrame net n ⟨2, 0x0B, net, d.length, false⟩).decideNext.settle
    else
      let s := (s.countOutcome net false).raiseTally n.west (s.fld .cmpNetOtally net) count
      .next (s.endFrame net n ⟨0, 0, 0, 0, false⟩).decideNext.settle
  | _, _ =>
    .next ((b.2.bumpObj .cmpDataFail (net + 1) 1).endFrame net n ⟨3, 1, 5, 0, false⟩).decideNext.settle

/-! ## Watchdogs -/

/-- A kick of a watchdog whose ARM is not 3 is ignored, and counted (R311). -/
def State.wwForeign (s : State) (ww : Nat) : State := s.bumpObj .wwFaults (ww + 1) 1

/-- WW_KICK_ARM (R309). -/
def execWwKickArm (ww at_ : Nat) (s : State) : Host.Outcome State Fault Refusal := s.command fun s =>
  let s := s.reach at_
  .next (if s.fld .wwArm ww = 3 then s.wwArm ww none else s.wwForeign ww)

/-- WW_KICK (R310). -/
def execWwKick (ww at_ : Nat) (s : State) : Host.Outcome State Fault Refusal := s.command fun s =>
  let s := s.reach at_
  if s.fld .wwArm ww ≠ 3 then .next (s.wwForeign ww) else
  match (s.windowsOf ww).head? with
  | none => .next s
  | some x => .next (s.wwKickWindow ww x)

/-- WATCHDOG_LIMIT_EXPIRY (R310): windows with no kick by LIMIT end as MISSED. -/
def execWatchdogLimitExpiry (ww at_ : Nat) (s : State) : Host.Outcome State Fault Refusal := s.command fun s =>
  let s := s.reach at_
  let due := (s.windowsOf ww).filter (fun x => decide (x.armed + s.fld .wwLimit ww * 1000 < s.time))
  let s := s.setWindows ww ((s.windowsOf ww).filter (fun x => !due.contains x))
  .next (due.foldl (fun s x => s.wwFault ww x .missed false) s).settle

/-! ## nFAULT -/

/-- A cause of SAFE_FAULT persists (R312): a marked pair, a clock source that has failed, a DRAM that failed its training, or a
core that failed its self-test; a watchdog fault is over when it is recorded. -/
def State.causes (s : State) : Nat :=
  b2n ((List.range 16).any (fun k => (List.range 4).any (fun i => s.flag (pairFlds i).2.2.1 k && s.flag (pairFlds i).2.2.2 k))) +
  4 * b2n (s.flag .clkStatusFail 0 || s.flag .clkStatusHeld 0) + 8 * b2n (s.flag .mcStatusTrainfail 0) +
  16 * b2n ((List.range 8).any (fun c => SMap.get s.safe.failed c false))

/-- SAFE_FAULT_CLEAR (R312): writing 1 to bits clears them, and a cause that persists sets its bit again at once. -/
def execSafeFaultClear (mask : Nat) (secure : Bool) (s : State) : Host.Outcome State Fault Refusal := s.command fun s =>
  if !secure then .next (s.worldError .safeFaultSuspect 0) else
  let c := s.causes
  .next ([(Fld.safeFaultSuspect, 0), (.safeFaultWatchdog, 1), (.safeFaultClock, 2), (.safeFaultDramTrain, 3),
    (.safeFaultSelftest, 4)].foldl (fun s f => if bit mask f.2 then s.setFld f.1 0 (b2n (bit c f.2)) else s) s)

/-! ## Injection -/

/-- SAFE_INJECT_COMPARE (R317): the next compare of the network reads one element of copy B as TOL + 1 away. -/
def execSafeInjectCompare (net : Nat) (secure : Bool) (s : State) : Host.Outcome State Fault Refusal := s.command fun s =>
  .next (if secure then { s with safe := { s.safe with injectNet := SMap.put s.safe.injectNet (net % 32) true false } }
    else s.worldError .safeInjectGo 0)

/-- SAFE_INJECT_WATCHDOG (R317): the next kick of the watchdog is taken as EARLY. -/
def execSafeInjectWatchdog (ww : Nat) (secure : Bool) (s : State) : Host.Outcome State Fault Refusal := s.command fun s =>
  .next (if secure then { s with safe := { s.safe with injectWw := SMap.put s.safe.injectWw (ww % 32) true false } }
    else s.worldError .safeInjectGo 0)

end Sys2Proof.Machine
end

