-- ==== Sys2Proof/Machine/SecUnit.lean ====
section
/-!
DEFINITION. The security engine (spec/17): boundary regions and worlds of units, key slots, the unwrap of model packages,
attestation, measurements, and debug unlock.
-/
namespace Sys2Proof.Machine

def State.setSec (s : State) (x : SecGroup) : State := { s with sec := x }

/-- The security engine as an initiator (R319). -/
def secReq : Requester := unitReq 0x16 true

/-! ## Boundary regions -/

def State.region (s : State) (n : Nat) : Region := SMap.get s.sec.regions n ⟨false, false, false, 0, 0, 0⟩
def State.setRegion (s : State) (n : Nat) (r : Region) : State :=
  s.setSec { s.sec with regions := SMap.put s.sec.regions n r ⟨false, false, false, 0, 0, 0⟩ }

/-- The units of a space: pages of the Unified Range, or grains of a Bin. -/
def State.spaceUnits (s : State) (space : Nat) : Nat := if space = 0 then s.urPages else binGrains

/-- The units of a region. -/
def Region.units (r : Region) : List Nat := (List.range (r.limit + 1 - r.base)).map (r.base + ·)

/-- Two regions share a unit. -/
def Region.overlaps (a b : Region) : Bool := a.space == b.space && decide (a.base ≤ b.limit ∧ b.base ≤ a.limit)

/-- The check of a new region (R323): 0, 1 OVERLAP (with another enabled region, the Ledger, or the store of ring 0x1000), 2 RANGE,
or 3 MODEL without S. -/
def State.brCheck (s : State) (n : Nat) (r : Region) : Nat :=
  if 8 < r.space ∨ r.limit < r.base ∨ s.spaceUnits r.space ≤ r.limit then 2
  else if (List.range 256).any (fun m => m != n && (s.region m).en && (s.region m).overlaps r) then 1
  else if r.space = 0 ∧ s.ring0Base ≤ r.limit then 1
  else if r.model && !r.secure then 3
  else 0

/-- The units that a change turns from S to NS, or out of MODEL (R323). -/
def State.brZeroes (s : State) (n : Nat) (r : Region) : List (Nat × Nat) :=
  let a := r.units.filter (fun u => (!r.secure && s.unitSecure r.space u) || (!r.model && s.unitModel r.space u))
  let old := s.region n
  let b := if old.en && old.model then
      old.units.filter (fun u => !(old.space == r.space && decide (r.base ≤ u ∧ u ≤ r.limit)))
    else []
  a.map (fun u => (r.space, u)) ++ b.map (fun u => (old.space, u))

/-- Write zeros, with their seals, over units of a space (R323): grains of a Bin, or pages through the tiers. -/
def State.zeroUnits (s : State) (space : Nat) (us : List Nat) : State :=
  us.foldl (fun s u =>
    if space = 0 then s.urPutWhole u (List.replicate 4096 0)
    else (s.binUnitWrite secReq 3 (space - 1) (u * 256) (List.replicate 256 0)).2) s

/-- A region's setting applies, and its register shows it. -/
def State.applyRegion (s : State) (n : Nat) (r : Region) : State :=
  (s.setRegion n r).setFlds n [(.brEn, b2n r.en), (.brWorld, b2n r.secure), (.brModel, b2n r.model), (.brSpace, r.space),
    (.brBusy, 0), (.brResult, 0)]

/-- BOUNDARY_REGION_WRITE (R323): a write of word 0 of BR_n, after words 1 and 2. -/
def execBoundaryRegionWrite (n word : Nat) (secure : Bool) (s : State) : Host.Outcome State Fault Refusal := s.command fun s =>
  if !secure then .next (s.worldError .brEn n)
  else if s.flag .brBusy n then .next s
  else
    let r : Region := ⟨bit word 31, bit word 30, bit word 29, bits word 27 24, s.fld .brBase n, s.fld .brLimit n⟩
    if !r.en then .next (s.applyRegion n r) else
    let k := s.brCheck n r
    if k ≠ 0 then .next (s.setFld .brResult n k) else
    let z := s.brZeroes n r
    if z.isEmpty then .next (s.applyRegion n r)
    else .next ((s.setSec { s.sec with changes := SMap.put s.sec.changes n (some ⟨r, z⟩) none }).setFld .brBusy n 1)

/-- REGION_ZEROING_COMPLETE (R323): the units are zero, and the new setting applies. -/
def execRegionZeroingComplete (n : Nat) (s : State) : Host.Outcome State Fault Refusal := s.command fun s =>
  match SMap.get s.sec.changes n none with
  | none => .next s
  | some c =>
    let s := c.units.foldl (fun s u => s.zeroUnits u.1 [u.2]) s
    .next ((s.setSec { s.sec with changes := SMap.put s.sec.changes n none none }).applyRegion n c.region)

/-- SEC_WMAP_WRITE (R320): a bit of a unit that is enabled keeps its value, and the write is counted. -/
def execSecWmapWrite (value : Nat) (secure : Bool) (s : State) : Host.Outcome State Fault Refusal := s.command fun s =>
  if !secure then .next (s.worldError .secWmapOs 0) else
  let old := s.fld .secWmapOs 0
  let os := (List.range 16).foldl (fun v n =>
    if s.flag .osEn n then v else setBits v n n (b2n (bit value n))) old
  let busy := s.flag .audStreamEn 0
  let aud := if busy then s.fld .secWmapAud 0 else bits value 16 16
  let watch := if busy then s.fld .secWmapWatch 0 else bits value 17 17
  let t := s.setFlds 0 [(.secWmapOs, os), (.secWmapAud, aud), (.secWmapWatch, watch)]
  .next (if os = bits value 15 0 ∧ aud = bits value 16 16 ∧ watch = bits value 17 17 then t else t.bumpObj .brFaults 3 1)

/-! ## Key slots -/

/-- The world of a slot (R327). -/
def slotSecure (n : Nat) : Bool := decide (128 ≤ n)

/-- Load a slot, or zero it; the counters of its senders start again (R377). -/
def State.loadSlot (s : State) (n : Nat) (k : KeySlot) : State :=
  let s := s.setKeySlot n k
  { s with hedge := { s.hedge with rxCtr := SMap.clear s.hedge.rxCtr (n * 8) 8 } }

/-- The fields of SEC_KSLOT as a command writes them. -/
def State.kslotFields (s : State) (op slot part src : Nat) : State :=
  s.setFlds 0 [(.secKslotOp, op), (.secKslotSlot, slot), (.secKslotPart, part), (.secKslotSrc, src)]

/-- A SEC_KSLOT operation is not taken while one is in progress. -/
def State.kslotBusy (s : State) : Bool := s.flag .secKslotBusy 0

/-- KEY_SLOT_AGREE (R327, R377): the slot is the link base of the peer SRC, whose identity the AUTH record lists. -/
def execKeySlotAgree (slot part src at_ : Nat) (secure : Bool) (s : State) : Host.Outcome State Fault Refusal := s.command fun s =>
  let s := s.reach at_
  if s.kslotBusy then .next s else
  let s := s.kslotFields 0 slot part src
  if !mayReach secure (slotSecure slot) then .next (s.setFld .secKslotResult 0 1)
  else if !(decide (slot = 120 + src ∨ slot = 232 + src) && decide (src < 8) && s.sec.peers.contains src) then
    .next (s.setFld .secKslotResult 0 2)
  else .next ((s.setSec { s.sec with agree := some ⟨slot, part, src, s.time⟩ }).setFld .secKslotBusy 0 1)

/-- AGREE_HANDSHAKE_END (R377): the handshake has given its key and fixed nonce field, or the peer did not run AGREE within
100 ms. -/
def execAgreeHandshakeEnd (key : List Byte) (fixed : Nat) (ok : Bool) (at_ : Nat) (s : State) :
    Host.Outcome State Fault Refusal := s.command fun s =>
  let s := s.reach at_
  match s.sec.agree with
  | none => .next s
  | some a =>
    let s := (s.setSec { s.sec with agree := none }).setFld .secKslotBusy 0 0
    if ok ∧ s.time ≤ a.start + 100000000 then
      .next ((s.loadSlot a.slot ⟨true, true, key.take 32, fixed % 2 ^ 32, 0, a.part⟩).setFld .secKslotResult 0 0)
    else .next ((s.setFld .secKslotResult 0 3).logIt .keySlot 0x16 2 a.slot 0 0)

/-- KEY_SLOT_DERIVE (R327): SHAKE256 of the source's key, the label and the context, from a slot of the same world. -/
def execKeySlotDerive (slot part src context : Nat) (secure : Bool) (s : State) : Host.Outcome State Fault Refusal := s.command fun s =>
  if s.kslotBusy then .next s else
  let s := (s.kslotFields 1 slot part src).setFlds 0 [(.secKslotContextLo, context), (.secKslotContextHi, context / 2 ^ 32)]
  if !mayReach secure (slotSecure slot) || slotSecure src != slotSecure slot then .next (s.setFld .secKslotResult 0 1)
  else if !(s.keySlot src).loaded then .next (s.setFld .secKslotResult 0 4)
  else
    let k := Config.shake256 ((s.keySlot src).key ++ Config.deriveLabel ++ natLe 8 context) 36
    .next ((s.loadSlot slot ⟨true, false, k.take 32, leNat (k.drop 32), 0, part % 8⟩).setFld .secKslotResult 0 0)

/-- KEY_SLOT_CLEAR (R327). -/
def execKeySlotClear (slot : Nat) (secure : Bool) (s : State) : Host.Outcome State Fault Refusal := s.command fun s =>
  if s.kslotBusy then .next s else
  let s := s.kslotFields 2 slot (s.fld .secKslotPart 0) (s.fld .secKslotSrc 0)
  if !mayReach secure (slotSecure slot) then .next (s.setFld .secKslotResult 0 1)
  else .next ((s.loadSlot slot KeySlot.empty).setFld .secKslotResult 0 0)

/-! ## Unwrapping -/

/-- The device's public keys and its certificate, from enrolment (R326). -/
def identityPub : List Byte := Config.enrolled 0
def agreePub : List Byte := Config.enrolled 1

/-- A package's header field. -/
def hdrField (h : List Byte) (a n : Nat) : List Byte := (h.drop a).take n

/-- The checks of a header (R329, R330), in the order of the RESULT codes 1 to 5, and 9 once debug has been unlocked; the content
key when they pass. -/
def State.unwrapCheck (s : State) (h : List Byte) (dst : Nat) : Nat × List Byte :=
  let len := leNat (hdrField h 184 8)
  let pages := ceilDiv len 4096
  let key := Config.gcmOpen (Config.kek (hdrField h 80 56)) (List.replicate 12 0) [] (hdrField h 136 48)
  if leNat (hdrField h 0 4) ≠ 0x4B475046 ∨
    Config.signedBy 0 s.sec.auth (Config.shake256 (h.take 256) 64) (hdrField h 256 114) = false then (1, [])
  else if hdrField h 16 64 ≠ Config.shake256 identityPub 64 then (2, [])
  else if leNat (hdrField h 4 2) ≠ 1 ∨ SMap.get s.sec.versions 3 0 < leNat (hdrField h 8 4) then (3, [])
  else match key with
    | none => (4, [])
    | some k =>
      if !(decide (dst + pages ≤ s.urPages) && (List.range pages).all (fun i => s.unitModel 0 (dst + i))) then (5, [])
      else if s.flag .secStatusDebugged 0 then (9, [])
      else (0, k)

/-- Read and decrypt the chunks of a package from chunk `i` on, whose ciphertext and tag stand at `off`: the plaintext, or the RESULT and the
chunk that fails, 8 for a source grain and 6 for a tag. -/
def State.unwrapChunks (key aad : List Byte) (obs : List Obs) (fuel i left off : Nat) (s : State) : Except (Nat × Nat) (List Byte) × State :=
  match fuel with
  | 0 => (.ok [], s)
  | n + 1 =>
    let len := min left 65536
    match s.urRead secReq off (len + 16) obs with
    | (.error _, s) => (.error (8, i), s)
    | (.ok c, s) =>
      match Config.gcmOpen key (List.replicate 4 0 ++ natLe 8 i) aad c with
      | none => (.error (6, i), s)
      | some p =>
        let rest := unwrapChunks key aad obs n (i + 1) (left - len) (off + len + 16) s
        (rest.1.map (p ++ ·), rest.2)

/-- SEC_UNWRAP (R330): GO. -/
def execSecUnwrap (src dst : Nat) (secure : Bool) (s : State) : Host.Outcome State Fault Refusal := s.command fun s =>
  if !secure then .next (s.worldError .secUnwrapGo 0)
  else if s.sec.unwrap.isSome then .next s
  else .next ((s.setSec { s.sec with unwrap := some (src % 2 ^ 24, dst % 2 ^ 24) }).setFlds 0 [(.secUnwrapSrc, src),
    (.secUnwrapDst, dst), (.secUnwrapBusy, 1), (.secUnwrapDone, 0)])

/-- An unwrap ends with its RESULT; the content key is gone with it. -/
def State.endUnwrap (s : State) (r done : Nat) : State :=
  let s := (s.setSec { s.sec with unwrap := none }).setFlds 0 [(.secUnwrapBusy, 0), (.secUnwrapResult, r), (.secUnwrapDone, done)]
  if r = 0 then s.bumpObj .unwraps 4 1 else (s.bumpObj .unwrapFails 5 1).logIt .unwrap 0x16 2 r 0 0

/-- UNWRAP_COMPLETE (R330): the package is read with the errors its source met, checked, decrypted and written; on a failure after
the first chunk every page written is zeroed. -/
def execUnwrapComplete (obs : List Obs) (at_ : Nat) (s : State) : Host.Outcome State Fault Refusal := s.command fun s =>
  let s := s.reach at_
  match s.sec.unwrap with
  | none => .next s
  | some (src, dst) =>
    match s.urRead secReq (src * 4096) 384 obs with
    | (.error _, s) => .next (s.endUnwrap 8 0)
    | (.ok h, s) =>
      let c := s.unwrapCheck h dst
      if c.1 ≠ 0 then .next (s.endUnwrap c.1 0) else
      let chunks := leNat (hdrField h 12 4)
      let len := leNat (hdrField h 184 8)
      let pages := (List.range (ceilDiv len 4096)).map (dst + ·)
      match s.unwrapChunks c.2 (Config.shake256 h 64) obs chunks 0 len (src * 4096 + 384) with
      | (.error e, s) => .next ((s.zeroUnits 0 (pages.take (16 * e.2))).endUnwrap e.1 e.2)
      | (.ok p, s) =>
        if Config.shake256 p 64 ≠ hdrField h 192 64 then .next ((s.zeroUnits 0 pages).endUnwrap 7 chunks) else
        let padded := p ++ List.replicate (pages.length * 4096 - p.length) 0
        let s := (s.urWrite secReq (dst * 4096) padded []).2
        .next (s.endUnwrap 0 chunks)

/-! ## Attestation and measurements -/

/-- ATTEST_NONCE_WRITE (R331). -/
def State.attestNonce (s : State) (nonce : List Byte) : State := s.setSec { s.sec with nonce := some nonce }
def execAttestNonceWrite (nonce : List Byte) (s : State) : Host.Outcome State Fault Refusal := s.command fun s =>
  .next (if nonce.length = 32 then s.attestNonce nonce else s)

/-- Bytes padded with zeros to a length. -/
def padTo (n : Nat) (b : List Byte) : List Byte := (b ++ List.replicate n 0).take n

/-- The report over a nonce (R331), before its signature. -/
def State.reportBody (s : State) (nonce : List Byte) : List Byte :=
  let flags := b2n (s.flag .secStatusDebugged 0) + 2 * b2n (s.flag .rstStatusRecovery 0) + 4 * b2n (s.flag .secStatusRootOk 0)
  let b := natLe 2 1 ++ natLe 2 flags ++ natLe 4 0xB1 ++ natLe 8 s.time ++ padTo 32 nonce ++ padTo 64 identityPub ++
    padTo 64 agreePub ++ (List.range 6).flatMap (fun i => padTo 64 (SMap.get s.sec.meas i [])) ++
    (List.range 4).flatMap (fun i => natLe 4 (SMap.get s.sec.versions i 0)) ++ natLe 4 (s.obj .configSeq 6)
  padTo 640 b

/-- ATTEST_REPORT_SIGNED (R331): the new report replaces the previous one. -/
def execAttestReportSigned (at_ : Nat) (s : State) : Host.Outcome State Fault Refusal := s.command fun s =>
  let s := s.reach at_
  match s.sec.nonce with
  | none => .next s
  | some n =>
    let body := s.reportBody n
    let sig := padTo 114 (Config.sign 0 (Config.shake256 body 64))
    let s := s.bumpVersion (Obj.key .attestReport 8)
    .next ((s.setSec { s.sec with nonce := none }).setObjVal .attestReport 8 (.bytes (padTo 768 (body ++ sig))))

/-- SEC_MEAS_WRITE (R336): sixteen words set MEAS5 once per boot, the sixteenth committing it. -/
def execSecMeasWrite (index value : Nat) (secure : Bool) (s : State) : Host.Outcome State Fault Refusal := s.command fun s =>
  if !secure then .next (s.worldError .secMeasWord index)
  else if s.sec.measDone then .next s
  else
    let w := SMap.put s.sec.measWords (index % 16) (value % 2 ^ 32) 0
    let s := s.setSec { s.sec with measWords := w }
    if index % 16 = 15 then
      .next (s.setSec { s.sec with
        measDone := true
        meas := SMap.put s.sec.meas 5 ((List.range 16).flatMap (fun i => natLe 4 (SMap.get w i 0))) [] })
    else .next s

/-! ## Debug -/

/-- What CHALLENGE reads (R334): the identity digest, the nonce, and the attempt count. -/
def State.challengeBytes (s : State) : List Byte :=
  Config.shake256 identityPub 64 ++ (List.range 32).map (Config.freeByte s.sec.challenge) ++ natLe 4 s.sec.attempts

/-- DEBUG_TOKEN (R334): a token over the challenge and a level, with its signature; a new nonce follows every attempt, and after
three rejected tokens the port takes no more until power-on. -/
def execDebugToken (level : Nat) (sig : List Byte) (s : State) : Host.Outcome State Fault Refusal := s.command fun s =>
  if 3 ≤ s.sec.rejected ∨ s.sec.unlocking.isSome then .next s else
  let ok := (level == 1 || level == 2) && Config.signedBy 1 s.sec.auth (s.challengeBytes ++ natLe 1 level) sig
  let f := s.fresh
  let s := f.2.setSec { f.2.sec with challenge := f.1, attempts := f.2.sec.attempts + 1 }
  if ok then .next (s.setSec { s.sec with unlocking := some level })
  else .next ((s.setSec { s.sec with rejected := s.sec.rejected + 1 }).logIt .debugToken 0x15 2 level 0 0)

/-- Zero every MODEL region, which stays MODEL (R335, R440). -/
def State.zeroModel (s : State) : State :=
  (s.sec.regions.filter (fun e => e.2.en && e.2.model)).foldl (fun s e =>
    s.zeroUnits e.2.space e.2.units) s

/-- DEBUG_UNLOCK (R335): the steps before the level opens. -/
def execDebugUnlock (s : State) : Host.Outcome State Fault Refusal := s.command fun s =>
  match s.sec.unlocking with
  | none => .next s
  | some level =>
    let s := if s.sec.unwrap.isSome then s.endUnwrap 9 (s.fld .secUnwrapDone 0) else s
    let s := (s.zeroSlots (fun _ _ => true)).zeroModel
    let s := s.setFlds 0 [(.secStatusDebugged, 1), (.secStatusLevel, level)]
    let s := ((s.setSec { s.sec with unlocking := none }).setObj .debugLevel 2 level).logIt .debugUnlock 0x15 2 level 0 0
    .next s.pwrSync

end Sys2Proof.Machine
end

