-- ==== Sys2Proof/Machine/HedgeUnit.lean ====
section
/-!
DEFINITION. The Hedgeline's commands (spec/19): a port's training and loss, HELLO and the wiring rules, packets that arrive, their
acknowledgement and replay, transfers and their replies, SYNC, nHLWAKE, and the Crier frames of followers.
-/
namespace Sys2Proof.Machine

/-! ## Ports -/

/-- The devices that can be reached (R383): this one, and what the ports that carry packets lead to. -/
def State.hlMembers (s : State) : State :=
  let m := (List.range 2).foldl (fun m p => if s.portCarries p then Nat.lor m (s.hlPort p).reach else m) (2 ^ s.cascadeId)
  s.setObj .members 0 m

/-- A port is lost (R370): an UP port's loss is counted, and what it held is forgotten. -/
def State.portDown (s : State) (p : Nat) : State :=
  let was := s.portUp p
  let s := (s.setHlPort p { HlPort.empty with lseq := (s.hlPort p).lseq }).setFld .hlStatusState p 0
  let s := if was then (s.bumpObj .linkDrops (p + 1) 1).logIt .link 0x13 4 p 0 0 else s
  s.hlMembers

/-- A port may train: its domain has power good and EN is 1 (R370, R382). -/
def State.portPowered (s : State) (p : Nat) : Bool := s.powerGood (14 + p) && s.flag .hlCtrlEn p

/-- A DOWN port trains. -/
def State.portTrain (s : State) (p : Nat) : State :=
  if s.portPowered p ∧ s.fld .hlStatusState p = 0 then s.setFld .hlStatusState p 1 else s

/-- What HELLO carries (R373): the ID, MASTER_SEL, and the digest of the identity key. -/
def State.helloBody (s : State) : List Byte :=
  natLe 1 s.cascadeId ++ natLe 1 (b2n s.isMaster) ++ Config.shake256 identityPub 64

/-- HL_PORT_UP (R370): training ends at a width and a rate, and HELLO is sent. -/
def execHlPortUp (port width rate : Nat) (s : State) : Host.Outcome State Fault Refusal := s.command fun s =>
  if !s.portPowered port || s.fld .hlStatusState port == 2 then .next s else
  let rate := if s.flag .hlCtrlRate16 port then 1 else rate % 2
  let s := s.setFlds port [(.hlStatusState, 2), (.hlStatusWidth, min width 2), (.hlStatusRate, rate)]
  .next (s.sendPacket port { s.packet 6 0 with body := s.helloBody })

/-- HL_PORT_DOWN (R370): an UP port has lost lock, heard nothing for 10 µs or failed 16 replays, and trains again at once; a
training has failed, and the port waits for the next 10 ms. -/
def execHlPortDown (port : Nat) (s : State) : Host.Outcome State Fault Refusal := s.command fun s =>
  if s.portUp port then .next ((s.portDown port).portTrain port) else .next (s.portDown port)

/-- HL_RETRAIN (R370): the 10 ms of a DOWN port pass. -/
def execHlRetrain (port : Nat) (s : State) : Host.Outcome State Fault Refusal := s.command fun s => .next (s.portTrain port)

/-! ## Receiving -/

/-- What a received packet is for this device (R370, R372, R374). -/
inductive Arrival where
  | consume | done
deriving DecidableEq, Repr

/-- Acknowledge a packet on its hop (R372): LINKACK carries its LSEQ. -/
def State.ackPacket (s : State) (p lseq : Nat) : State :=
  let x := { s.packet 3 0 with lseq := lseq }
  s.send ⟨.hedgeline p, 3, [x.dst, 0, 0, 0], x.bytes⟩

/-- A packet arrives on a port: one that fails its CRC is not acknowledged, one already taken is only acknowledged, and one for
another device goes on by the route of R374, with the next hop's LSEQ. -/
def State.arrive (s : State) (p : Nat) (x : HlPacket) (crcOk : Bool) : Arrival × State :=
  if !s.portCarries p || !crcOk then (.done, s) else
  let h := s.hlPort p
  let s := s.ackPacket p x.lseq
  if h.seen.contains x.lseq then (.done, s) else
  let s := s.setHlPort p { h with seen := (x.lseq :: h.seen).take 2048 }
  if x.dst = s.cascadeId then (.consume, s) else
  match s.route x.dst with
  | some q => (.done, s.sendPacket q x)
  | none => (.done, s)

/-- The wiring rules of R373 for a HELLO on a port: HL1 leads to the next ID, HL0 to the previous one, in a ring the highest ID to
ID 0, and no two masters. -/
def State.wired (s : State) (p id : Nat) (master ring : Bool) : Bool :=
  let me := s.cascadeId
  !(master && s.isMaster) &&
  (if p = 1 then decide (id = me + 1) || (ring && decide (id = 0 ∧ 0 < me))
   else decide (id + 1 = me) || (ring && decide (me = 0 ∧ 0 < id)))

/-- HELLO (R373): the partner's ID, MASTER_SEL and identity digest, with the devices that lie beyond the port, as a mask, and
whether the cascade is a ring; a link that breaks the rules carries nothing. -/
def execHlHello (port id : Nat) (master : Bool) (digest : List Byte) (members : Nat) (ring : Bool) (s : State) :
    Host.Outcome State Fault Refusal := s.command fun s =>
  if !s.portUp port then .next s else
  let s := s.setFlds port [(.hlStatusPeer, id), (.hlStatusPeermaster, b2n master)]
  if s.wired port id master ring && digest.length == 64 then
    let s := s.setHlPort port { s.hlPort port with joined := true, reach := Nat.lor (members % 256) (2 ^ (id % 8)) }
    let s : State := { s with hedge := { s.hedge with isRing := ring } }
    .next s.hlMembers.pumpAll
  else
    let s := s.setHlPort port { s.hlPort port with joined := false }
    .next (((s.setFld .hlStatusCascadeFault port 1).logIt .link 0x13 4 port id 1).hlMembers)

/-- HL_UNKNOWN_PACKET (R371): a packet of an unknown TYPE is dropped, and counted. -/
def execHlUnknownPacket (port : Nat) (s : State) : Host.Outcome State Fault Refusal := s.command fun s =>
  if s.portCarries port then
    .next { s with hedge := { s.hedge with unknown := SMap.put s.hedge.unknown port (SMap.get s.hedge.unknown port 0 + 1) 0 } }
  else .next s

/-! ## Grains that arrive -/

/-- Decrypt a DATA packet for a gate (R377, R379): the gate's slot must be a loaded job key of the Bin's partition, CTR above the
highest that the slot has taken from the sender, and the tag good; then the grain and its seal. -/
def State.openGrain (s : State) (x : HlPacket) : Option (List Byte × Word) × State :=
  let n := s.fld .binGateKeyslot (x.bin * 64 + x.gate)
  let k := s.keySlot n
  let last := SMap.get s.hedge.rxCtr (n * 8 + x.src) 0
  if !(k.loaded && jobKey n && s.partOf x.bin == some k.part && decide (last < x.ctr + 1)) then (none, s) else
  match Config.gcmOpen k.key (nonceOf k.fixed x.src x.ctr) x.aad x.body with
  | none => (none, s)
  | some plain =>
    let s : State := { s with hedge := { s.hedge with rxCtr := SMap.put s.hedge.rxCtr (n * 8 + x.src) (x.ctr + 1) 0 } }
    (some (plain.take 256, BitVec.ofNat 32 (leNat ((plain.drop 256).take 4))), s)

/-- What the receiving port does with a grain (R379): the reply code. -/
def State.takeGrain (s : State) (p : Nat) (x : HlPacket) : Nat × State :=
  if s.fld .binGateState (x.bin * 64 + x.gate) ≠ 1 then s.rejectGate x.bin x.gate 1 else
  match s.openGrain x with
  | (none, s) => (6, s.bumpObj .keyRejects (p + 1) 1)
  | (some (data, sealWord), s) => s.gateArrival x.bin x.gate x.offset x.tally x.src data sealWord

/-- DATA (R371, R372, R379): a grain for a gate of this device is taken and answered with REPLY; one for another device goes on. -/
def execHlData (port dst src lseq tally gate offset bin xfer ctr : Nat) (body : List Byte) (crcOk : Bool) (s : State) :
    Host.Outcome State Fault Refusal := s.command fun s =>
  let x : HlPacket := ⟨1, dst % 8, src % 8, lseq, tally % 1024, gate % 64, offset, bin % 8, 0, xfer, ctr, body⟩
  match s.arrive port x crcOk with
  | (.done, s) => .next s
  | (.consume, s) =>
    let r := s.takeGrain port x
    let reply := { r.2.packet 2 x.src with xfer := x.xfer, offset := x.offset, code := r.1 }
    match r.2.route x.src with
    | some q => .next (r.2.sendPacket q reply).settle
    | none => .next r.2.settle

/-! ## Replies to grains sent -/

/-- A transfer ends without completing (R378): the job ends FAILED_DATA, and grains still queued are not sent. -/
def State.failTransfer (s : State) (t : Transfer) (detail darg : Nat) : State :=
  let s := s.setTransfers (s.hedge.transfers.filter (fun u => decide (u.xfer ≠ t.xfer)))
  (s.endJob (s.furrowOf t.core).1 ⟨3, detail, darg, t.accepted, false⟩).settle

/-- A grain has been accepted: the transfer goes on, or is over and its command can complete (R378). -/
def State.acceptGrain (s : State) (t : Transfer) (g : Nat) : State :=
  let s := s.updTransfer t.xfer (fun t => { t with
    out := t.out.filter (fun o => decide (o.grain ≠ g)), accepted := t.accepted + 1 })
  if t.count ≤ t.accepted + 1 then s.setTransfers (s.hedge.transfers.filter (fun u => decide (u.xfer ≠ t.xfer)))
  else s.pumpAll

/-- A REPLY for a grain that waits for one (R378). -/
def State.takeReply (s : State) (xfer offset code : Nat) : State :=
  match s.hedge.transfers.find? (fun t => decide (t.xfer = xfer)) with
  | none => s
  | some t =>
    match t.out.find? (fun o => decide (t.offset + o.grain = offset)) with
    | none => s
    | some o =>
      if code = 0 then s.acceptGrain t o.grain
      else if code = 5 ∧ o.resends < 2 ∧ s.slotUsable t.slot = true then
        match s.route t.dst with
        | some p => s.sendGrain t o.grain p (o.resends + 1)
        | none => s
      else if code < 8 then s.failTransfer t 0x0D code
      else s

/-- REPLY (R378): the answer to a grain this device sent, or one for another device. -/
def execHlReply (port dst src lseq xfer offset code : Nat) (crcOk : Bool) (s : State) : Host.Outcome State Fault Refusal := s.command fun s =>
  let x : HlPacket := ⟨2, dst % 8, src % 8, lseq, 0, 0, offset, 0, code, xfer, 0, []⟩
  match s.arrive port x crcOk with
  | (.done, s) => .next s
  | (.consume, s) => .next (s.takeReply xfer offset code)

/-- LINKACK (R372): the packet of that LSEQ leaves the replay buffer. -/
def execHlLinkack (port lseq : Nat) (s : State) : Host.Outcome State Fault Refusal := s.command fun s =>
  let h := s.hlPort port
  .next (if s.portUp port then s.setHlPort port { h with replay := h.replay.filter (fun e => decide (e.1.lseq ≠ lseq)) } else s)

/-- HL_REPLAY (R370, R372): a packet that is not acknowledged is sent again unchanged; after 16 replays the port goes DOWN. -/
def execHlReplay (port lseq : Nat) (s : State) : Host.Outcome State Fault Refusal := s.command fun s =>
  let h := s.hlPort port
  if !s.portUp port then .next s else
  match h.replay.find? (fun e => decide (e.1.lseq = lseq)) with
  | none => .next s
  | some (x, n) =>
    if 16 ≤ n then .next ((s.portDown port).portTrain port) else
    let s := (s.bumpObj .replays (port + 1) 1).setHlPort port { h with
      replay := h.replay.map (fun e => if e.1.lseq = lseq then (e.1, n + 1) else e) }
    .next (s.send ⟨.hedgeline port, x.type, [x.dst, x.xfer, x.offset, x.code], x.bytes⟩)

/-- HL_REPLY_TIMEOUT (R378): a grain has had no REPLY for HL_REPLY_TIMEOUT. -/
def execHlReplyTimeout (xfer grain at_ : Nat) (s : State) : Host.Outcome State Fault Refusal := s.command fun s =>
  let s := s.reach at_
  match s.hedge.transfers.find? (fun t => decide (t.xfer = xfer)) with
  | none => .next s
  | some t =>
    match t.out.find? (fun o => decide (o.grain = grain)) with
    | none => .next s
    | some o =>
      if o.at_ + s.obj .hlReplyTimeout 0 * 1000 ≤ s.time then .next (s.failTransfer t 0x0C o.port) else .next s

/-! ## Time -/

/-- SYNC_SEND (R375): the master sends its time base on each port that is UP. -/
def execHlSyncSend (at_ : Nat) (s : State) : Host.Outcome State Fault Refusal := s.command fun s =>
  let s := s.reach at_
  if !s.isMaster then .next s else
  .next ((List.range 2).foldl (fun (s : State) p =>
    if s.portCarries p then s.sendPacket p { s.packet 4 (s.fld .hlStatusPeer p) with body := natLe 8 s.time } else s) s)

/-- SYNC goes on from this device to its neighbour on a port (R374, R375): always in a chain; in a ring when the route from the
master to the neighbour leads through here, a tie going through HL1. -/
def State.syncOnward (s : State) (master p : Nat) : Bool :=
  let k := s.fld .hlStatusPeer p
  s.portCarries p && decide (k ≠ master) &&
  (!s.hedge.isRing ||
    (let n := s.cascadeSize
     let up := (k + n - master) % n
     if p = 1 then decide (up ≤ n - up) else decide (n - up < up)))

/-- The time base is set once to the master's before any result ring is open, and slewed toward it from then on (R375). -/
def State.alignTime (s : State) (goal : Nat) : State :=
  let off : Int := (s.time : Int) - goal
  let s := (s.setObj .timeOffset 0 (off % (2 ^ 32 : Int)).toNat).setObj .timeAligned 0 1
  if !s.hedge.stepped && s.ledger.rings.all (fun e => !e.2.isOpen) then
    { s with time := goal, hedge := { s.hedge with stepped := true, slew := 0, lastSync := goal } }
  else { s with hedge := { s.hedge with slew := -off, lastSync := s.time } }

/-- SYNC (R375): a follower takes the master's time with the delay of the hop, which is measured by a round trip, and sends SYNC
on. -/
def execHlSync (port src lseq stamp delay : Nat) (crcOk : Bool) (at_ : Nat) (s : State) : Host.Outcome State Fault Refusal := s.command fun s =>
  let s := s.reach at_
  let x : HlPacket := ⟨4, s.cascadeId, src % 8, lseq, 0, 0, 0, 0, 0, 0, 0, natLe 8 stamp⟩
  match s.arrive port x crcOk with
  | (.done, s) => .next s
  | (.consume, s) =>
    if s.isMaster then .next s else
    let s := s.alignTime (stamp + delay)
    let q := 1 - port
    .next (if s.syncOnward (src % 8) q then
        s.sendPacket q { x with dst := s.fld .hlStatusPeer q, body := natLe 8 s.time } else s)

/-- SYNC_LOSS (R375): no SYNC for 10 ms; the follower runs free. -/
def execHlSyncLoss (at_ : Nat) (s : State) : Host.Outcome State Fault Refusal := s.command fun s =>
  let s := s.reach at_
  if s.isMaster || decide (s.time < s.hedge.lastSync + 10000000) then .next s
  else .next { s.setObj .timeAligned 0 0 with hedge := { s.hedge with slew := 0, slewTicks := 0 } }

/-- NHLWAKE_PULSE (R376): the line wakes a follower; it wakes the master when CASCADE_WAKE_ALL is 1. -/
def execNhlwakePulse (at_ : Nat) (s : State) : Host.Outcome State Fault Refusal := s.command fun s =>
  let s := s.reach at_
  .next (if s.isMaster && s.obj .cascadeWakeAll 0 != 1 then s else s.wake 6 at_ 0)

/-! ## Crier frames of followers -/

/-- Send a Crier frame to another device of the cascade in an MGMT packet (R380). -/
def State.sendMgmt (s : State) (dst : Nat) (frame : List Byte) : State :=
  match s.route dst with
  | some p => s.sendPacket p { s.packet 5 dst with body := frame }
  | none => s

/-- MGMT (R380).  With `fromNet`, a UDP frame that reached the master on CRIER_PORT + `dst` goes to follower `dst`; otherwise a
packet arrives on `port`: the master returns a follower's frame on the port number it came for, and a follower serves the frame,
whose operation is the Crier command that follows. -/
def execHlMgmt (fromNet : Bool) (port dst src lseq : Nat) (frame : List Byte) (crcOk : Bool) (s : State) :
    Host.Outcome State Fault Refusal := s.command fun s =>
  if fromNet then .next (if s.isMaster ∧ 1 ≤ dst ∧ dst ≤ 7 then s.sendMgmt dst frame else s) else
  let x : HlPacket := ⟨5, dst % 8, src % 8, lseq, 0, 0, 0, 0, 0, 0, 0, frame⟩
  match s.arrive port x crcOk with
  | (.done, s) => .next s
  | (.consume, s) =>
    .next (if s.isMaster then s.send ⟨.crier, 0x200 + x.src, [s.crier.net.port + x.src], frame⟩ else s)

end Sys2Proof.Machine
end

