-- ==== Sys2Proof/Machine/LedgerUnit.lean ====
section
/-!
DEFINITION. The operations of the Session Ledger (R167) with the layout checks of each record type (R166, R188, R209, R237,
R286, R351, R363), and the page-table writes of R466.
-/
namespace Sys2Proof.Machine

/-- The results of LG_CMD (R171). -/
inductive LgResult where
  | done | full | stale | busy | world | badValue | data
deriving DecidableEq, Repr

/-- An operation as written to the LG registers: what they hold when GO is set (R171). -/
def State.lgStart (s : State) (op type part handle a0 a1 a2 : Nat) : State :=
  (s.setFlds 0 [(.lgCmdOp, op), (.lgCmdType, type), (.lgCmdPart, part), (.lgHandleValue, handle), (.lgArgValue, a0)]).setFld
    .lgArgValue 1 a1 |>.setFld .lgArgValue 2 a2

/-- The end of an operation: its RESULT; a WORLD refusal is logged (R171). -/
def State.lgEnd (s : State) (r : LgResult) : State :=
  let s := s.setFld .lgCmdResult 0 r.ctorIdx
  if r = .world then s.logIt .ledger 0x11 4 (s.fld .lgHandleValue 0) 0 0 else s

/-- The result of a failed access (R466). -/
def UrErr.lgResult (e : UrErr) : LgResult := match e with | .world => .world | _ => .data

/-! ## OPEN -/

/-- The bits of ARG0, ARG1 and ARG2 that each record type may set (R165, R167, R188, R209, R237, R286, R351). -/
def lgArgBits (type : Nat) : Option (Nat × Nat × Nat) :=
  match type with
  | 1 => some (0x00380000, 0x0000FFFF, 0x00FFFFFF)
  | 2 => some (0xFFFFFFFF, 0x00FFFFFF, 0x000001FF)
  | 3 => some (0xE7E00000, 0, 0)
  | 4 => some (0xFFFF000F, 0x00FFFFFF, 0)
  | 5 => some (0x00FF800F, 0xFFFFFFFF, 0)
  | 6 => some (0x00000FFF, 0x00FFFFFF, 0)
  | 7 => some (0x07FFFFFF, 0, 0)
  | _ => none

/-- `v` sets no bit outside `mask`. -/
def onlyBits (v mask : Nat) : Bool := Nat.land v mask == v

/-- The size of a slab (R161). -/
def slabBytes (dh : Nat) (int4 : Bool) : Nat :=
  let d := 64 * 2 ^ dh
  ceilDiv (2 * ((if int4 then 128 else 256) * d) + 16 * d) 4096 * 4096

/-- The lowest free record of a bank (R167). -/
def State.freeRecord (s : State) (bank : Nat) : Option Nat :=
  ((List.range 65536).find? (fun i => recState (s.recAt (bank * 65536 + i)) == 0)).map (bank * 65536 + ·)

/-- The generation a slot takes when it is opened: from 16,383 it wraps to 1 (R163). -/
def State.nextRecGen (s : State) (slot : Nat) : Nat := recGen (s.recAt slot) % 16383 + 1

/-- The header of an open record (R164). -/
def recHeader (type part owner gen : Nat) (secure : Bool) : Nat :=
  type + 1 * 2 ^ 8 + b2n secure * 2 ^ 11 + part * 2 ^ 12 + gen * 2 ^ 16 + owner * 2 ^ 32

/-- The caller may use the partition (R167). -/
def State.lgPartOk (s : State) (part : Nat) (secure : Bool) : Bool := s.partActive part && (secure || !s.partSecure part)

/-- The page that OPEN gives an audio beam: the lowest of the partition's area that no open beam names (R286). -/
def State.beamPage (s : State) (part : Nat) : Option Nat :=
  let used := (s.ledger.recs.filter (fun e => decide (recType e.2 = 5 ∧ recState e.2 ≠ 0 ∧ recPart e.2 = part))).map
    (fun e => recField e.2 16 23 0)
  ((List.range (s.obj .beamPages (part + 1))).map (s.obj .beamBase (part + 1) + ·)).find? (fun p => !used.contains p)

/-- The store of a result ring is 64 whole pages in a boundary region of the caller's world (R351). -/
def State.ringStoreOk (s : State) (store : Nat) (secure : Bool) : Bool :=
  s.sec.regions.any (fun e => let r := e.2
    r.en && r.space == 0 && r.secure == secure && decide (r.base ≤ store ∧ store + 63 ≤ r.limit))

/-- The core of a stream is a core of the partition, its lead in a furrow, and FWIDTH is the furrow's (R188). -/
def State.streamOk (s : State) (part a0 : Nat) : Bool :=
  let core := bits a0 31 29
  let fw := if s.partFurrow part then widthCode (s.partSize part) else 0
  decide (bits a0 22 21 ≤ 1) && s.partOf core == some part && (!s.partFurrow part || core == s.partBase part) &&
  bits a0 24 23 == fw

/-- Bytes 8 to 63 of the record that OPEN makes, from its arguments, and the state after the reads and grants this takes; or
why it is refused (R166, R188, R209, R237, R286, R351). -/
def State.lgBody (s : State) (type part handle a0 a1 a2 : Nat) (secure : Bool) (obs : List Obs) :
    Except LgResult Nat × State :=
  match type with
  | 1 =>
    let dh := bits a0 21 20
    let hkv := bits a1 15 8
    let layers := bits a1 7 0
    if dh = 3 ∨ hkv < 1 ∨ 64 < hkv ∨ layers < 1 ∨ s.urPages ≤ a2 then (.error .badValue, s) else
    let slab := slabBytes dh (bit a0 19)
    (.ok (a0 + a1 * 2 ^ 32 + a2 * 2 ^ 64 + slab * 2 ^ 96 + layers * hkv * slab * 2 ^ 128), s)
  | 2 => (.ok (pgEntry 0 0 a2 0 a1), s)
  | 3 =>
    if !s.streamOk part a0 then (.error .badValue, s) else
    match s.grantState (bits a0 31 29) part handle (bit a0 26) (bit a0 25) with
    | none => (.error .full, s.bumpObj .refused (part + 1) 1)
    | some s =>
      match s.hearth.leases.find? (fun l => decide (l.owner = handle)) with
      | none => (.error .full, s)
      | some l => (.ok (a0 + l.hearth * 2 ^ 27 + l.gen + l.slot * 2 ^ 32), s)
  | 4 => if 255 < bits a0 31 16 then (.error .badValue, s) else (.ok (a0 + a1 * 2 ^ 32 + s.time % 2 ^ 64 * 2 ^ 64), s)
  | 5 =>
    match s.beamPage part with
    | none => (.error .full, s)
    | some p => (.ok (a0 + a1 * 2 ^ 32 + p * 2 ^ 64 + s.time % 2 ^ 64 * 2 ^ 128), s)
  | 6 =>
    let r := bits a0 11 0
    if r = 0 ∨ (s.ring r).isOpen then (.error .busy, s)
    else if !s.ringStoreOk a1 secure then (.error .badValue, s)
    else (.ok (a0 + a1 * 2 ^ 32),
      s.setRing r ⟨true, handle, secure, a1, 1, 1, (s.ring r).drops⟩)
  | 7 =>
    let page := bits a0 23 0
    if s.urPages ≤ page then (.error .badValue, s) else
    match s.urRead (unitReq 0x11 secure) (page * 4096) 48 obs with
    | (.error e, s) => (.error e.lgResult, s)
    | (.ok b, s) => (.ok (a0 + leNat b * 2 ^ 64), s)
  | _ => (.error .badValue, s)

/-- The checks on the sequence that owns a KV page (R167): its world, its generation, its type, and a free PIDX. -/
def State.lgOwnerCheck (s : State) (seq pidx : Nat) (secure : Bool) : LgResult :=
  let r := s.recOf seq
  if recState r = 0 then .stale
  else if !secure ∧ recWorld r = 1 then .world
  else if s.stale seq then .stale
  else if recType r ≠ 1 then .badValue
  else if (s.pageSlot seq pidx).isSome then .busy
  else .done

/-- OPEN (R167): the result and the state; on success LG_HANDLE holds the new handle. -/
def State.lgOpen (s : State) (type part bank a0 a1 a2 : Nat) (secure : Bool) (obs : List Obs) : LgResult × State :=
  match lgArgBits type with
  | none => (if type = 8 then .world else .badValue, s)
  | some m =>
    if !(onlyBits a0 m.1 && onlyBits a1 m.2.1 && onlyBits a2 m.2.2 && s.lgPartOk part secure) then (.badValue, s) else
    let own := if type = 2 then s.lgOwnerCheck a0 a2 secure else .done
    if own ≠ .done then (own, s) else
    match s.freeRecord bank with
    | none => (.full, s)
    | some slot =>
      let gen := s.nextRecGen slot
      let handle := handleOf slot gen
      match s.lgBody type part handle a0 a1 a2 secure obs with
      | (.error e, s) => (e, s)
      | (.ok body, s) =>
        let old := s.recAt slot
        let s := s.setRec slot (recHeader type part (if type = 2 then a0 else 0) gen secure + body % 2 ^ 448 * 2 ^ 64)
        match if type = 2 then s.writePageEntry a0 slot 0 0 obs else (none, s) with
        | (some e, s) => (e.lgResult, (s.setRec slot old).logIt .ledger 0x11 4 slot 0 0)
        | (none, s) => (.done, s.setFld .lgHandleValue 0 handle)

/-! ## CLOSE and TRUNCATE -/

/-- The checks of an operation on an open record (R163, R167, R363). -/
def State.lgCheck (s : State) (h : Nat) (secure sessionOk : Bool) : LgResult :=
  let r := s.recOf h
  if recState r = 0 then .stale
  else if !secure ∧ recWorld r = 1 then .world
  else if recType r = 8 ∧ !(sessionOk && secure) then .world
  else if s.stale h then .stale
  else .done

/-- A record is freed; its slot keeps its generation (R163). -/
def State.freeRec (s : State) (slot : Nat) : State := s.setRec slot (recGen (s.recAt slot) * 2 ^ 16)

/-- The open page records of a sequence. -/
def State.pagesOf (s : State) (seq : Nat) : List Nat :=
  (s.ledger.recs.filter (fun e => decide (recType e.2 = 2 ∧ recState e.2 ≠ 0 ∧ recOwner e.2 = seq))).map (·.1)

/-- Free the page records of a sequence, each with its entry zeroed in the same update (R166, R167). -/
def State.freePages (s : State) (seq : Nat) (slots : List Nat) : State :=
  slots.foldl (fun s p => ((s.putEntry seq (pgPidx (pageWord (s.recAt p))) 0 []).2).freeRec p) s

/-- What a record's dependants lose with it (R166, R188, R350); an entry write that is refused or fails stops the close, and no record
changes. -/
def State.lgRelease (s : State) (h : Nat) (obs : List Obs) : Option UrErr × State :=
  let slot := handleSlot h
  let r := s.recAt slot
  match recType r with
  | 1 =>
    let pages := s.pagesOf h
    match s.admitEntries h (pages.map (fun p => pgPidx (pageWord (s.recAt p)))) obs with
    | (some e, s) => (some e, s)
    | (none, s) => (none, s.freePages h pages)
  | 2 =>
    let seq := recOwner r
    if s.stale seq then (none, s) else
    s.putEntry seq (pgPidx (pageWord r)) 0 obs
  | 3 =>
    (none, (s.hearth.leases.filter (fun l => decide (l.owner = h))).foldl (fun s l => s.releaseLease l) s)
  | 6 =>
    let n := recField r 8 11 0
    (none, s.setRing n { Ring.closed with drops := (s.ring n).drops })
  | _ => (none, s)

/-- CLOSE (R167). -/
def State.lgClose (s : State) (h : Nat) (secure : Bool) (obs : List Obs) : LgResult × State :=
  match s.lgCheck h secure false with
  | .done =>
    if recState (s.recOf h) = 2 then (.busy, s) else
    match s.lgRelease h obs with
    | (some e, s) => (e.lgResult, s.logIt .ledger 0x11 4 (handleSlot h) 0 0)
    | (none, s) => (.done, s.freeRec (handleSlot h))
  | e => (e, s)

/-- TRUNCATE's update of the pages of a sequence: COUNT takes the tokens below the new LEN, and Q is cleared from the page of
the new LEN on, with the quarantine of the page's run (R128, R167). -/
def State.truncatePages (s : State) (seq n : Nat) : List Nat → Option UrErr × State
  | [] => (none, s)
  | slot :: r =>
    let e := pageWord (s.recAt slot)
    let clear := decide (n / 256 ≤ pgPidx e)
    match s.setPageCount seq slot (if clear then 0 else pgQ e) (min (n - 256 * pgPidx e) 256) with
    | (some x, s) => (some x, s)
    | (none, s) =>
      let run := (List.range (ceilDiv (recField (s.recOf seq) 24 63 0) 4096)).map (pgBase e + ·)
      let s := if clear then (run.filter (fun p => (s.pageState p).q)).foldl (fun s p => s.clearQ p) s else s
      s.truncatePages seq n r

/-- TRUNCATE (R167, R466). -/
def State.lgTruncate (s : State) (h n : Nat) (secure : Bool) (obs : List Obs) : LgResult × State :=
  match s.lgCheck h secure false with
  | .done =>
    let r := s.recOf h
    if recState r = 2 then (.busy, s)
    else if recType r ≠ 1 ∨ kvLen r < n then (.badValue, s)
    else
      let pages := s.pagesOf h
      match (match s.admitEntries h (pages.map (fun p => pgPidx (pageWord (s.recAt p)))) obs with
        | (some e, s) => (some e, s.logIt .ledger 0x11 4 (handleSlot h) 0 0)
        | (none, s) => s.truncatePages h n pages) with
      | (some e, s) => (e.lgResult, s)
      | (none, s) => (.done, s.setRec (handleSlot h) (setKvLen (s.recOf h) n))
  | e => (e, s)

/-! ## The commands -/

/-- LEDGER_OPEN (R167): `handle` gives the bank. -/
def execLedgerOpen (type part handle a0 a1 a2 : Nat) (secure : Bool) (s : State) (obs : List Obs := []) : Host.Outcome State Fault Refusal := s.command fun s =>
  let s := s.lgStart 0 type part handle a0 a1 a2
  let r := s.lgFetch.lgOpen type part (bits handle 31 30) a0 a1 a2 secure obs
  .next (r.2.lgEnd r.1)

/-- LEDGER_CLOSE (R167). -/
def execLedgerClose (handle : Nat) (secure : Bool) (s : State) (obs : List Obs := []) : Host.Outcome State Fault Refusal := s.command fun s =>
  let s := s.lgStart 1 (s.fld .lgCmdType 0) (s.fld .lgCmdPart 0) handle (s.fld .lgArgValue 0) (s.fld .lgArgValue 1)
    (s.fld .lgArgValue 2)
  let r := s.lgFetch.lgClose handle secure obs
  .next (r.2.lgEnd r.1).settle

/-- LEDGER_TRUNCATE (R167). -/
def execLedgerTruncate (handle len : Nat) (secure : Bool) (s : State) (obs : List Obs := []) : Host.Outcome State Fault Refusal := s.command fun s =>
  let s := s.lgStart 2 (s.fld .lgCmdType 0) (s.fld .lgCmdPart 0) handle len (s.fld .lgArgValue 1) (s.fld .lgArgValue 2)
  let r := s.lgFetch.lgTruncate handle len secure obs
  .next (r.2.lgEnd r.1)

/-- LEDGER_READ (R167, R171): LG_DATA takes the record. -/
def execLedgerRead (handle : Nat) (secure : Bool) (s : State) : Host.Outcome State Fault Refusal := s.command fun s =>
  let s := s.lgStart 3 (s.fld .lgCmdType 0) (s.fld .lgCmdPart 0) handle (s.fld .lgArgValue 0) (s.fld .lgArgValue 1)
    (s.fld .lgArgValue 2)
  let s := s.lgFetch
  match s.lgCheck handle secure true with
  | .done =>
    let r := s.recOf handle
    .next (((List.range 16).foldl (fun s i => s.setFld .lgDataWord i (recField r (4 * i) 31 0)) s).lgEnd .done)
  | e => .next (s.lgEnd e)

end Sys2Proof.Machine
end

