-- ==== Sys2Proof/Machine/Sessions.lean ====
section
/-!
DEFINITION. Crier sessions as other units see them (R357, R358): reading one, and ending one or all.
-/
namespace Sys2Proof.Machine

def State.setCrier (s : State) (c : CrierGroup) : State := { s with crier := c }

/-- The session of a number, if it is open. -/
def State.session (s : State) (n : Nat) : Option Session := SMap.get s.crier.sessions n none
def State.setSession (s : State) (n : Nat) (x : Option Session) : State :=
  s.setCrier { s.crier with sessions := SMap.put s.crier.sessions n x none }

/-- The numbers of the open sessions. -/
def State.sessionList (s : State) : List Nat := s.crier.sessions.map (·.1)

/-- SESSIONS_OPEN follows the sessions (R368). -/
def State.countSessions (s : State) : State := s.setObj .sessionsOpen 0 s.crier.sessions.length

/-- End a session (R358): its subscriptions and its staging go, its key slot is cleared, and its record is closed. -/
def State.endSession (s : State) (n : Nat) : State :=
  match s.session n with
  | none => s
  | some x =>
    let s := if x.secure then s.setKeySlot x.slot KeySlot.empty else s
    ((s.freeRec (handleSlot x.record)).setSession n none).countSessions

/-- The network settings apply at a start of PD02 (R368). -/
def State.applyNet (s : State) : State :=
  let n : NetCfg :=
    ⟨s.obj .ipv4Addr 0, s.obj .ipv4Mask 0, s.obj .ipv4Gw 0, s.obj .crierPort 0, s.obj .vlanId 0, s.obj .ethRole 0⟩
  s.setCrier { s.crier with net := n }

/-- End every session (R358): at a reset and at entry to LISTEN. -/
def State.endSessions (s : State) : State := s.sessionList.foldl (fun s n => s.endSession n) s

end Sys2Proof.Machine
end

