-- ==== Sys2Proof/Machine/Power.lean ====
section
/-!
DEFINITION. Power management (spec/21): entry to the states and resume from them (R407 to R411, R418 to R420), the Ringer (R412 to
R414), the Watch regulator (R415, R416) and the switching of domains (R406).
-/
namespace Sys2Proof.Machine

def State.setPwr (s : State) (p : PwrGroup) : State := { s with pwr := p }

/-! ## Switching a domain off -/

/-- The domains that each PLL feeds (R424), in the order of CLK_STATUS.LOCK. -/
def pllDomains (pll : Nat) : List Nat :=
  if pll ≤ 1 then (List.range 16).map (31 + ·)
  else if pll = 2 then [26, 27, 28, 29, 30]
  else if pll = 3 then [20, 21, 22, 23, 24, 25] ++ (List.range 8).map (39 + ·)
  else if pll ≤ 7 then [16 + (pll - 4)]
  else if pll = 8 then [9, 10, 11, 12, 13, 47]
  else if pll = 9 then [1, 2, 3, 49]
  else [14, 15]

/-- A PLL is off, and not locked, when every domain that it feeds is off (R424). -/
def State.pllSync (s : State) : State :=
  (List.range 11).foldl (fun (s : State) p =>
    if (pllDomains p).any s.powerGood then s
    else s.setFld .clkStatusLock 0 (setBits (s.fld .clkStatusLock 0) p p 0)) s

/-- The words of a run of free values, in canonical form. -/
def freeRun (key base n : Nat) : SMap Word :=
  (List.range n).filterMap (fun i =>
    let w := Config.freeWord (base + i)
    if w = 0#32 then none else some (key + i, w))

/-- The planes of a core whose array is off are lost: what they hold at the next start is open (R405). -/
def State.losePlanes (s : State) (c : Nat) : State :=
  let k := planeKey c 0 0 0
  { s with
    free := s.free + 16384
    hearth := { s.hearth with
      plane := s.hearth.plane.filter (fun e => decide (e.1 < k)) ++ freeRun k s.free 16384 ++
        s.hearth.plane.filter (fun e => decide (k + 16384 ≤ e.1)) } }

/-- A domain switches off (R406) and loses its contents (R405): a plane, a Bin with its gates and tallies (R104), a port, a DRAM
quad, lanes, the Sieve's call, or the root. -/
def State.powerOff (s : State) (d : Nat) : State :=
  if !s.powerGood d then s else
  let s := s.setPower d false
  let s : State := s.setPwr { s.pwr with leaving := SMap.put s.pwr.leaving d 0 0 }
  let s : State :=
    if 31 ≤ d ∧ d ≤ 38 then s.losePlanes (d - 31)
    else if 39 ≤ d ∧ d ≤ 46 then (s.resetGates (d - 39)).setFlds (d - 39) [(.binStatusReady, 0), (.binStatusInitbusy, 0)]
    else if d = 14 ∨ d = 15 then s.portDown (d - 14)
    else if 16 ≤ d ∧ d ≤ 19 then
      let s := s.setFlds 0 [(.mcStatusReady, 0), (.mcStatusSelfref, 1)]
      -- an all-bank refresh precedes self-refresh (R132): no bank owes one, and every row is closed
      { s with mc := { s.mc with
          trained := 0
          retried := 0
          queue := []
          held := []
          opened := []
          near := []
          owed := []
          rolling := []
          powerDown := false } }
    else if d = 12 then s.svDrop
    else if d = 13 then { s with hp := { s.hp with lanes := [] } }
    else if d = 47 then (s.setFld .secStatusRootOk 0 0).setObj .rootOk 1 0
    else s
  s.pllSync

/-- DOMAIN_SWITCH_OFF (R406): 1 ms after its Need condition ended, a domain that is still not wanted switches off. -/
def execDomainSwitchOff (domain at_ : Nat) (s : State) : Host.Outcome State Fault Refusal := s.command fun s =>
  let s := s.reach at_
  let since := SMap.get s.pwr.leaving domain 0
  let g := if s.resuming then 0 else s.pwrState
  if since ≠ 0 ∧ since - 1 + 1000000 ≤ s.time ∧ s.wanted g domain = false then .next (s.powerOff domain) else .next s

/-! ## The Ringer -/

/-- The inrush class of a domain (R405), as its weight in tokens (R412). -/
def weightOf (d : Nat) : Nat :=
  if [2, 3, 4, 5, 6, 7, 8, 48, 49].contains d then 1
  else if [1, 12, 13, 14, 15, 47].contains d then 2
  else if [9, 10, 11, 16, 17, 18, 19, 24, 25, 30].contains d then 4
  else 6

/-- What the bucket holds now, in ten-thousandths of a token: INRUSH_BUDGET tokens flow in every 10 µs, up to INRUSH_BUDGET (R413). -/
def State.bucket (s : State) : Nat :=
  let b := s.obj .inrushBudget 0
  min (s.pwr.level + b * (s.time - s.pwr.levelAt)) (b * 10000)

/-- DOMAIN_START (R413): the domain at the head of the queue starts when the bucket holds its weight, 2 µs after the start before. -/
def execDomainStart (at_ : Nat) (s : State) : Host.Outcome State Fault Refusal := s.command fun s =>
  let s := s.reach at_
  match s.pwr.queue with
  | [] => .next s
  | d :: rest =>
    let level := s.bucket
    let w := weightOf d * 10000
    if s.flag .pwrStatusRegOk 0 ∧ w ≤ level ∧ (s.pwr.lastStart = 0 ∨ s.pwr.lastStart - 1 + 2000 ≤ s.time) then
      .next (s.setPwr { s.pwr with
        queue := rest, started := s.pwr.started ++ [d], level := level - w, levelAt := s.time, lastStart := s.time + 1 })
    else .next s

/-- A starting Bin loads its repair map from the copy of R105 once that is valid, and is zeroed (R95). -/
def State.loadBin (s : State) (b : Nat) : State :=
  if !s.bin.copyValid then s else
  let s : State := { s with bin := { s.bin with
    rmap := SMap.copy s.bin.rmap (b * 768) s.bin.rmapCopy (b * 768) 768 } }
  (s.setFld .binStatusSparesMin b (s.sparesMin b)).startZeroing b

/-- DOMAIN_POWER_GOOD (R412, R105, R370): a started domain reaches power good; a Bin loads its map, and a port trains. -/
def execDomainPowerGood (domain at_ : Nat) (s : State) : Host.Outcome State Fault Refusal := s.command fun s =>
  let s := s.reach at_
  if !s.pwr.started.contains domain then .next s else
  let s := (s.setPwr { s.pwr with started := s.pwr.started.filter (fun d => decide (d ≠ domain)) }).setPower domain true
  let s := if 39 ≤ domain ∧ domain ≤ 46 then s.loadBin (domain - 39)
    else if domain = 14 ∨ domain = 15 then s.portTrain (domain - 14)
    else if domain = 2 then s.applyNet else s
  .next s.pwrSync.decideNext.settle

/-! ## The Watch regulator -/

/-- REG_OK (R413, R415): the regulator is in full mode and in regulation; the bucket is full, and the Ringer begins. -/
def execRegOk (at_ : Nat) (s : State) : Host.Outcome State Fault Refusal := s.command fun s =>
  let s := s.reach at_
  if !s.pwr.regTry then .next s else
  let s := (s.setPwr { s.pwr with regTry := false, level := s.obj .inrushBudget 0 * 10000, levelAt := s.time }).setFlds 0
    [(.pwrStatusRegOk, 1), (.pwrStatusRegLp, 0)]
  .next (if s.boot.stage = .powering then s.requestAll else s.pwrSync)

/-- REG_OK_TIMEOUT (R415): 200 µs without REG_OK; the regulator returns to low-power mode. -/
def execRegOkTimeout (at_ : Nat) (s : State) : Host.Outcome State Fault Refusal := s.command fun s =>
  let s := s.reach at_
  if !s.pwr.regTry then .next s else
  .next (((s.setPwr { s.pwr with regTry := false }).setFlds 0 [(.pwrStatusRegLp, 1), (.pwrStatusRegfail, 1)]).bumpObj .regFails 0 1)

/-- REG_RETRY (R415): while the wake stays latched, or start-up or the held state (R432) waits for it, full mode is tried again. -/
def execRegRetry (at_ : Nat) (s : State) : Host.Outcome State Fault Refusal := s.command fun s =>
  let s := s.reach at_
  if (s.resuming && !s.pwr.wakes.isEmpty) || s.flag .clkStatusHeld 0 || s.boot.stage == .powering then .next s.regFull else .next s

/-- BROWN_OUT (R416): the Watch resets, a latched wake is cancelled, the PD00 retention is invalid and the log's buffer is lost; the
regulator switches to full mode and BROWNOUT is latched. -/
def execBrownOut (at_ : Nat) (s : State) : Host.Outcome State Fault Refusal := s.command fun s =>
  let s := s.reach at_
  let s := s.watchReset
  let s : State := (s.setPwr { s.pwr with wakes := [] }).setFlds 0 [(.pwrWakePendPend, 0), (.pwrStatusBrownout, 1),
    (.pwrStatusRegOk, 0)]
  let s := (s.bumpObj .brownouts 0 1).bumpObj .logSuppressed 0 s.log.buf.length
  let s : State := { s with
    bin := { s.bin with copyValid := false, rmapCopy := [] }
    mc := { s.mc with kept := false }
    log := { s.log with buf := [] } }
  .next (s.regFull.wake 9 s.time 0)

/-! ## Entry to a state -/

/-- The conditions of the DOZE timer (R408): no job running or released, no self-test segment. -/
def State.noWork (s : State) : Bool :=
  (List.range 8).all (fun c =>
    let x := s.core c
    x.job.isNone && x.switching == 0 && x.selftest.isNone) &&
  s.rota.wheel.all (fun e => e.2.taken.isNone && e.2.suspended.isNone && e.2.due == []) &&
  s.rota.nets.all (fun e => e.2.taken.isNone && e.2.due == [])

/-- An entry begins: ENTERING is 1 until it completes. -/
def State.beginEntry (s : State) (target : Nat) : State :=
  (s.setPwr { s.pwr with target := target, deferred := 0 }).setFld .pwrStatusEntering 0 1

/-- The device may go from state `n` to the next (R408, R420): PWR_DEEPEST allows it, and no entry or resume is under way. -/
def State.mayDeepen (s : State) (n : Nat) : Bool :=
  s.boot.stage == .run && !s.entering && !s.resuming && decide (n ≤ s.obj .pwrDeepest 0)

/-- IDLE_ENTRY (R407): 4 µs with no command in flight, every host core waiting and no DMA outstanding. -/
def execIdleEntry (at_ : Nat) (s : State) : Host.Outcome State Fault Refusal := s.command fun s =>
  let s := s.reach at_
  if s.mayDeepen 0 ∧ s.pwrState = 0 ∧ (List.range 8).all (fun c => (s.core c).inflight.isEmpty) = true ∧
      s.hedge.transfers.isEmpty = true then .next (s.setFld .pwrStatusState 0 1) else .next s

/-- DOZE_ENTRY (R408, R410): the DOZE timer in effect expires. -/
def execDozeEntry (at_ : Nat) (s : State) : Host.Outcome State Fault Refusal := s.command fun s =>
  let s := s.reach at_
  if s.mayDeepen 1 ∧ s.pwrState ≤ 1 ∧ s.obj .dozeTimerMs 0 ≠ 0 ∧ s.noWork = true then
    .next ((s.setPwr { s.pwr with dozeAt := s.time }).beginEntry 2)
  else .next s

/-- An update is in WRITE or COMMIT, and entry to REST or LISTEN waits for it (R402). -/
def State.updHolds (s : State) : Bool := decide (3 ≤ s.fld .rvStatusUpd 0)

/-- An update in RECEIVE or VERIFY ends ABORTED (R401, R402). -/
def State.abortUpdate (s : State) : State :=
  let u := s.fld .rvStatusUpd 0
  if u = 1 ∨ u = 2 then
    ({ (s.setFld .rvStatusUpd 0 0).setObj .updResult 0 6 with upd := ⟨0, 0, []⟩ }).logIt .update 0xFF 4 6 0 0
  else s

/-- Steps 1 and 2 of R409: dispatch stops, streams stop, STATE leases are released with their records STATE_LOST, and watchdog
windows are cancelled. -/
def State.restSteps (s : State) : State :=
  let s := s.camSuspend.audSuspend
  let lost := s.ledger.recs.filter (fun e => decide (recType e.2 = 3 ∧ recState e.2 ≠ 0))
  let s := lost.foldl (fun (s : State) e => s.setRec e.1 (setRecState e.2 4)) (s.setLeases [])
  { s with safe := { s.safe with windows := [] } }

/-- Entry to REST begins. -/
def State.enterRest (s : State) : State := s.abortUpdate.restSteps.beginEntry 3

/-- A camera frame is open on a sensor with a stream (R409). -/
def State.frameOpen (s : State) : Bool :=
  (List.range 16).any (fun k => (s.sensor k).frame.isSome && !(s.streamsOf k).isEmpty)

/-- The workload that keeps the device out of REST (R408): a guarded network, a PERIODIC slot or a feed that is enabled. -/
def State.keepsUp (s : State) : Bool :=
  (List.range 16).any (fun k => s.flag .rtGnetEn k) ||
  (List.range 512).any (fun k => s.flag .rtWheelEn k && s.flag .rtWheelMode k) ||
  (List.range 8).any (fun n => (s.hpFeed n).isSome)

/-- REST_ENTRY (R402, R408, R409): REST_TIMER_S expires in DOZE.  An open camera frame goes on to its end, which the completion of the
entry waits for; an update in WRITE or COMMIT ends first. -/
def execRestEntry (at_ : Nat) (s : State) : Host.Outcome State Fault Refusal := s.command fun s =>
  let s := s.reach at_
  if s.mayDeepen 2 ∧ s.pwrState = 2 ∧ s.obj .restTimerS 0 ≠ 0 ∧ s.noWork = true ∧ s.keepsUp = false ∧
      s.pwr.wakes.isEmpty = true then
    .next (if s.updHolds then s.setPwr { s.pwr with deferred := 3 } else s.enterRest)
  else .next s

/-- Entry to LISTEN begins (R410): the log goes to flash, sessions end, key slots are zeroed, and the link partner takes the TC10 sleep
request or refuses it. -/
def State.enterListen (s : State) (refused : Bool) : State :=
  let s := (s.abortUpdate.flushLog.endSessions).zeroSlots (fun _ _ => true)
  let s := s.send ⟨.ethernet, 0x101, [], []⟩
  (s.setPwr { s.pwr with tc10Refused := refused }).beginEntry 4

/-- LISTEN_ENTRY (R402, R408, R410): LISTEN_TIMER_S expires in REST, with no bit of SAFE_FAULT set and debug locked. -/
def execListenEntry (refused : Bool) (at_ : Nat) (s : State) : Host.Outcome State Fault Refusal := s.command fun s =>
  let s := s.reach at_
  if s.mayDeepen 3 ∧ s.pwrState = 3 ∧ s.obj .listenTimerS 0 ≠ 0 ∧ s.nfault = false ∧ s.fld .secStatusLevel 0 = 0 ∧
      s.pwr.wakes.isEmpty = true then
    .next (if s.updHolds then s.setPwr { s.pwr with deferred := 4, tc10Refused := refused } else s.enterListen refused)
  else .next s

/-- The entry that waited for an update's COMMIT takes place at once (R402). -/
def State.lateEntry (s : State) : State :=
  if s.pwr.deferred = 3 ∧ s.pwrState = 2 ∧ s.pwr.wakes.isEmpty = true then s.enterRest
  else if s.pwr.deferred = 4 ∧ s.pwrState = 3 ∧ s.pwr.wakes.isEmpty = true then s.enterListen s.pwr.tc10Refused
  else s.setPwr { s.pwr with deferred := 0 }

/-- Every DIRTY frame goes home, the pages of `bad` failing and being quarantined (R127, R409, R440), and the Granary's contents are
dropped. -/
def State.dropGranary (s : State) (bad : List Nat) : State :=
  let s := s.ur.dir.foldl (fun (s : State) e =>
    if e.2.state = .dirty ∨ e.2.state = .writeback then
      let s := (s.frameToHome e.1 e.2.page).bumpFld .urCntCount 3 1
      if bad.contains e.2.page then s.quarantine e.2.page 5 else s
    else s.stopFill e.1) s
  { s with ur := { s.ur with
    dir := []
    frame := []
    frameSealX := []
    fills := []
    writeBacks := []
    pinning := none
    cand := [] } }

/-- The domains that go off with a state, in descending order (R405, R410). -/
def State.leaveDomains (s : State) (state : Nat) : State :=
  (List.range 50).reverse.foldl (fun (s : State) d => if s.wanted state d then s else s.powerOff d) s

/-- A latched source resumes the device (R417, R419): one that fired during the entry is replayed. -/
def State.replayWake (s : State) : State :=
  if s.pwr.wakes.isEmpty || s.flag .clkStatusHeld 0 then s else (s.bumpObj .wakesReplayed 0 1).startResume true

/-- STATE_ENTRY_COMPLETE (R409, R410, R419): the domains of the state are off, and a wake that was latched is replayed.  `bad` are the
pages whose write-back fails on the way to REST, which waits for the end of an open camera frame. -/
def execStateEntryComplete (bad : List Nat) (at_ : Nat) (s : State) : Host.Outcome State Fault Refusal := s.command fun s =>
  let s := s.reach at_
  let t := s.pwr.target
  if !s.entering || (t == 3 && s.frameOpen) then .next s else
  let s := if t = 3 then s.dropGranary bad else s
  let s := s.setFlds 0 [(.pwrStatusEntering, 0), (.pwrStatusState, t)]
  let s := (s.setPwr { s.pwr with queue := [], started := [] }).leaveDomains t
  let s := if t = 4 ∧ s.flag .clkStatusHeld 0 = false then
      s.setFlds 0 [(.pwrStatusRegLp, 1), (.pwrStatusRegOk, 0), (.rvStatusReady, 0)] else s
  .next s.replayWake

/-! ## Resume -/

/-- The resume can complete (R411): from REST and LISTEN the memory is back, and from LISTEN the root and the Reeve. -/
def State.resumed (s : State) : Bool :=
  let from' := s.obj .lastWakeFrom 3
  s.flag .pwrStatusRegOk 0 && (decide (from' < 3) || s.flag .mcStatusReady 0) &&
  (decide (from' < 4) || (s.flag .secStatusRootOk 0 && s.flag .rvStatusReady 0))

/-- A DOZE period of less than 1 ms is remembered for the idle loop (R393). -/
def State.endDoze (s : State) : State :=
  if s.obj .lastWakeFrom 3 = 2 ∧ s.time < s.pwr.dozeAt + 1000000 then
    s.setPwr { s.pwr with shortDozes := s.pwr.shortDozes ++ [s.time] }
  else s

/-- Publish the events that waited for a running Almanac (R284, R297). -/
def State.lateEvents (s : State) : State :=
  let l := s.pwr.events
  l.foldl (fun (s : State) e => s.eventOn e.subject e.code e.arg e.at_) (s.setPwr { s.pwr with events := [] })

/-- The end of a resume (R411, R418): the device is ACTIVE, the latches clear, events that waited are published, and streams and jobs go
on. -/
def State.resumeDone (s : State) : State :=
  let s := s.endDoze
  let deep := decide (3 ≤ s.obj .lastWakeFrom 3)
  let s := (s.setPwr { s.pwr with wakes := [], resumeEnd := s.time, deepEnd := if deep then s.time else s.pwr.deepEnd, tc10Refused := false }).setFlds 0
    [(.pwrStatusResuming, 0), (.pwrStatusState, 0), (.pwrWakePendPend, 0)]
  let s := if deep then s.camResume.audResume else s
  s.lateEvents.pwrSync.decideNext.settle

/-- WAKE_ALARM (R417): the time base reaches the alarm, once for each value written. -/
def execWakeAlarm (at_ : Nat) (s : State) : Host.Outcome State Fault Refusal := s.command fun s =>
  let s := s.reach at_
  let a := s.obj .wakeAlarm 0
  if s.pwr.alarmSet ∧ a ≠ 0 ∧ a ≤ s.time then
    .next ((s.setPwr { s.pwr with alarmSet := false }).wake 8 a 0)
  else .next s

end Sys2Proof.Machine
end

