-- ==== Sys2Proof/Machine/Reset.lean ====
section
/-!
DEFINITION. Reset and start-up (spec/23), with the recovery decision of R292, the device root of R325 and the verification chain of
R332.
-/
namespace Sys2Proof.Machine

def State.setBoot (s : State) (b : BootGroup) : State := { s with boot := b }
def State.setStage (s : State) (x : BootStage) : State := s.setBoot { s.boot with stage := x }

/-- Hold or release one of the inputs that keep the device in reset (R436). -/
def State.setHold (s : State) (k : Nat) (on : Bool) : State := s.setBoot { s.boot with holds := setBits s.boot.holds k k (b2n on) }

/-! ## What a reset keeps -/

/-- Carry field values over from another state. -/
def State.keepFlds (s t : State) (l : List (Fld × Nat)) : State := l.foldl (fun s e => s.setFld e.1 e.2 (t.fld e.1 e.2)) s

/-- Carry object values over from another state. -/
def State.keepObjs (s t : State) (l : List (Obj × Nat)) : State := l.foldl (fun s e => s.setObjVal e.1 e.2 (t.objVal e.1 e.2)) s

/-- An update's outcome at a reset (R401): in RECEIVE or VERIFY, UPD_RESULT reads ABORTED. -/
def State.updAfter (s t : State) : State := if t.fld .rvStatusUpd 0 = 1 ∨ t.fld .rvStatusUpd 0 = 2 then s.setObj .updResult 0 6 else s

/-- The straps, which every reset but the release of nPOR keeps (R437). -/
def strapFlds : List (Fld × Nat) := [(.rstStatusMasterSel, 0), (.rstStatusCascadeId, 0)]
def strapObjs : List (Obj × Nat) := [(.cascadeId, 0), (.master, 0)]

/-- What the boot flash holds: the ruling trailers and the log (R395, R400). -/
def flashObjs : List (Obj × Nat) :=
  (List.range 4).map (fun i => (Obj.slotSeq, i + 1)) ++ (List.range 4).map (fun i => (Obj.slotActive, i + 1)) ++
  [(.logNext, 0), (.logOldest, 0)]

/-- The levels of the person-facing inputs, which PD00 samples (R405). -/
def doorFlds : List (Fld × Nat) :=
  [(.doorStatusShut, 0), (.doorStatusCamhpd, 0), (.doorStatusMichpd, 0), (.doorStatusMute, 0), (.doorStatusPriv, 0),
   (.doorStatusBtn, 0), (.doorStatusTouch, 0)]

/-- The state after a power-on reset (R438): the boot flash, the board's memory and the model's own records are kept; memory reads
as it does after reset; the challenge is a new one (R334). -/
def State.powerOnState (s : State) (cause : Nat) : State :=
  let z := State.reset
  let t : State := { z with
    pending := s.pending
    free := s.free + 1
    sent := s.sent
    sec := { z.sec with challenge := s.free }
    bin := { z.bin with records := s.bin.records }
    ur := { z.ur with dramGiB := s.ur.dramGiB }
    mc := { z.mc with ranks := s.mc.ranks }
    log := { z.log with flash := s.log.flash }
    crier := { z.crier with persist := s.crier.persist }
    boot := { z.boot with stage := .held, holds := s.boot.holds, tripLog := s.boot.tripLog } }
  let t := ((t.keepFlds s (strapFlds ++ doorFlds)).keepObjs s (strapObjs ++ flashObjs)).updAfter s
  (t.setFld .rstStatusCause 0 cause).setObj .resetCause 0 cause

/-- A power-on reset leaves unwritten entries of the log behind, and takes up the sequence at the flash (R395, R396). -/
def State.powerOn (s : State) (cause : Nat) : State :=
  let t := s.powerOnState cause
  match s.log.flash.getLast? with
  | some e => t.setObj .logNext 0 ((e.seq + 1) % 2 ^ 32)
  | none => t.setObj .logNext 0 0

/-- The dies are off and start again (R438, R440): what a warm reset keeps is DRAM with the page states and training values, the
Ledger and the result rings, PD00's retention and inputs, and the boot flash. -/
def State.diesOff (s : State) : State :=
  let z := State.reset
  let t : State := { z with
    pending := s.pending
    time := s.time
    free := s.free
    sent := s.sent
    bin := { z.bin with rmapCopy := s.bin.rmapCopy, copyValid := s.bin.copyValid, records := s.bin.records }
    ur := { z.ur with home := s.ur.home, sealX := s.ur.sealX, pstate := s.ur.pstate, dramGiB := s.ur.dramGiB }
    mc := { z.mc with kept := s.mc.kept, keptRate := s.mc.keptRate, ranks := s.mc.ranks }
    ledger := s.ledger
    log := s.log
    sec := { z.sec with attempts := s.sec.attempts, rejected := s.sec.rejected, challenge := s.sec.challenge }
    door := { s.door with leds := [] }
    hedge := { z.hedge with stepped := s.hedge.stepped }
    crier := { z.crier with persist := s.crier.persist }
    pwr := { z.pwr with events := s.pwr.events }
    boot := s.boot }
  let t := t.keepFlds s (strapFlds ++ doorFlds ++ [(.rstStatusCause, 0), (.rstStatusMerged, 0), (.pwrStatusRegOk, 0)])
  let t := t.keepObjs s (strapObjs ++ flashObjs ++ [(.resetCause, 0), (.warmResets, 0), (.resetLostCq, 0), (.logSuppressed, 0)])
  t.updAfter s

/-! ## Warm reset -/

/-- The ending of a job that a warm reset finds (R438). -/
def warmEnding : Ending := ⟨2, 7, 1, 0, false⟩

/-- Every job that the Rota has taken and that has no completion record (R440). -/
def State.takenJobs (s : State) : List (Nat × Nat) :=
  let cores := (List.range 8).flatMap (fun c =>
    let x := s.core c
    (x.job.map (fun j => (j.ring, j.index))).toList ++ (x.incoming.map (fun j => (j.ring, j.index))).toList ++
      (x.outgoing.map (fun y => (y.job.ring, y.job.index))).toList)
  let slots := s.rota.wheel.flatMap (fun e =>
    (e.2.taken.toList ++ e.2.due).map (fun t => (t.ring, t.index)) ++ (e.2.suspended.map (fun y => (y.job.ring, y.job.index))).toList)
  let nets := s.rota.nets.flatMap (fun e => (e.2.taken.toList ++ e.2.due).map (fun t => (t.ring, t.index)))
  (cores ++ slots ++ nets).eraseDups

/-- Steps 1 and 2 of R440: everything stops at once, and each taken job has its WITHDRAWN record; one that its full completion ring
would hold is lost and counted. -/
def State.warmStop (s : State) : State :=
  let s := (List.range 8).foldl (fun s c => s.updCore c (fun x => { x with inflight := [], queue := [], selftest := none })) s
  let s : State := { s with hedge := { s.hedge with transfers := [] } }
  let s := (s.takenJobs).foldl (fun s j => (s.withdraw j.1 j.2 warmEnding).2) s
  let s := (List.range 8).foldl (fun s c => s.finishJob c) s
  let lost := (s.rota.held.map (fun e => e.2.length)).sum
  let s := s.bumpObj .resetLostCq 0 lost
  { s with
    rota := State.reset.rota
    hearth := State.reset.hearth
    sv := State.reset.sv
    hp := State.reset.hp
    cam := State.reset.cam
    aud := State.reset.aud
    safe := State.reset.safe }

/-- What a warm reset changes in the Ledger (R439): streams become STATE_LOST, and BUSY records return to OPEN with JOB = 0. -/
def State.warmLedger (s : State) : State :=
  s.ledger.recs.foldl (fun (s : State) e =>
    if recType e.2 = 3 ∧ recState e.2 ≠ 0 then s.setRec e.1 (setRecState e.2 4)
    else if recState e.2 = 2 then s.setRec e.1 (setRecField (setRecState e.2 1) 32 31 0 0)
    else s) s

/-- The dies start again: at once, or at the release of the inputs that hold the device (R436). -/
def State.restart (s : State) : State :=
  let s := s.diesOff
  if s.boot.holds = 0 then s.startPower else s.setStage .held

/-- A warm cause (R435, R436, R440): it merges with a warm reset under way, restarts a cold start from its Ringer stage, and otherwise
begins the steps of R440; the gates of every Bin close at once and its tallies are 0 (R104).  A power-on reset, OFF and the thermal trip take no warm cause,
and a held state that no return can end takes nRST alone (R432). -/
def State.warmReset (s : State) (cause : Nat) : State :=
  let begin' (s : State) : State :=
    ((s.setBoot { s.boot with startAt := s.time, recovery := false, hostRun := false }).setFld .rstStatusCause 0 cause).setObj
      .resetCause 0 cause |>.bumpObj .warmResets 0 1
  if s.flag .clkStatusHeld 0 && s.clk.gaveUp && cause != 3 then s else
  match s.boot.stage with
  | .off | .tripped => s
  | .warm => s.setFld .rstStatusMerged 0 1
  | .held => if bit s.boot.holds 0 then s else s.setFld .rstStatusMerged 0 1
  | .buttons | .powering | .rom | .reeve => (begin' s).restart
  | .run | .stopped =>
    let s := (begin' s).logIt .reset 0xFF 4 cause 0 0
    let s := (List.range 8).foldl (fun s b => s.resetGates b) s.warmStop
    ((((s.warmLedger.endSessions).zeroSlots (fun _ _ => true)).watchReset).setFld .rtStatusReady 0 0).setStage .warm

/-- Every failed source has returned in time, and the Reeve, once it runs, requests a warm reset (R432). -/
def State.sourcesBack (s : State) : State :=
  if s.flag .clkStatusHeld 0 ∧ s.clk.failing = 0 ∧ s.clk.gaveUp = false ∧ s.flag .rvStatusReady 0 = true then s.warmReset 4 else s

/-- The Reeve boots alone in LISTEN after a source failure (R432). -/
def State.reeveAlone (s : State) : Bool :=
  s.boot.stage == .run && s.pwrState == 4 && s.flag .clkStatusHeld 0 && s.powerGood 1 && !s.flag .rvStatusReady 0

/-- WARM_RESET_ZEROING_COMPLETE (R440 steps 4 to 6): MODEL regions are zero, dirty frames are home but for those of `bad`, whose pages
are quarantined, DRAM is in self-refresh, and the dies restart. -/
def execWarmResetZeroingComplete (bad : List Nat) (at_ : Nat) (s : State) : Host.Outcome State Fault Refusal := s.command fun s =>
  let s := s.reach at_
  if s.boot.stage ≠ .warm then .next s else
  let s := s.zeroModel.dropGranary bad
  let s : State := { s with mc := { s.mc with kept := s.mc.kept || s.flag .mcStatusReady 0 } }
  .next s.restart

/-! ## The inputs -/

/-- NPOR (R435, R436): nPOR is low; a power-on reset takes over at once. -/
def execNporLow (at_ : Nat) (s : State) : Host.Outcome State Fault Refusal := s.command fun s => .next (((s.reach at_).setHold 0 true).powerOn 1)

/-- NPOR_RELEASE (R292, R437, R441): the straps are sampled; start-up begins, or waits for the recovery decision when BTN0 and BTN1
are both pressed.  `buttons` are the buttons pressed now, which publish no BUTTON_PRESS. -/
def execNporRelease (masterSel : Bool) (id buttons at_ : Nat) (s : State) : Host.Outcome State Fault Refusal := s.command fun s =>
  let s := s.reach at_
  if !(s.boot.stage == .held || s.boot.stage == .off) || !bit s.boot.holds 0 then .next s else
  let s := (s.setFlds 0 [(.rstStatusMasterSel, b2n masterSel), (.rstStatusCascadeId, id), (.doorStatusBtn, buttons)])
  let s := (s.setObj .master 0 (b2n masterSel)).setObj .cascadeId 0 (id % 8)
  let s := (s.setDoor { s.door with longDone := buttons % 16 }).setHold 0 false
  let s := s.setBoot { s.boot with startAt := s.time, stage := .held }
  if buttons % 4 = 3 then .next (s.setStage .buttons)
  else if s.boot.holds ≠ 0 then .next s
  else .next s.startPower

/-- RECOVERY_DECISION (R292, R442): both buttons have stayed pressed for 8,000 ms from the release of nPOR. -/
def execRecoveryDecision (at_ : Nat) (s : State) : Host.Outcome State Fault Refusal := s.command fun s =>
  let s := s.reach at_
  if s.boot.stage = .buttons ∧ s.fld .doorStatusBtn 0 % 4 = 3 ∧ s.boot.startAt + 8000000000 ≤ s.time then
    .next ((s.setBoot { s.boot with recovery := true }).setFld .rstStatusRecovery 0 1).buttonsUp
  else .next s

/-- NRST (R435, R436): nRST is low. -/
def execNrstLow (at_ : Nat) (s : State) : Host.Outcome State Fault Refusal := s.command fun s => .next (((s.reach at_).setHold 1 true).warmReset 3)

/-- An input that held the device is released: start-up resumes when none is left (R436). -/
def State.releaseHold (s : State) (k : Nat) : State :=
  let s := s.setHold k false
  if s.boot.stage = .held ∧ s.boot.holds = 0 then s.startPower else s

/-- NRST_RELEASE (R436). -/
def execNrstRelease (at_ : Nat) (s : State) : Host.Outcome State Fault Refusal := s.command fun s => .next ((s.reach at_).releaseHold 1)

/-- EXTEST_SELECT (R334, R435): a warm reset, held while EXTEST is selected. -/
def execExtestSelect (at_ : Nat) (s : State) : Host.Outcome State Fault Refusal := s.command fun s => .next (((s.reach at_).setHold 2 true).warmReset 7)

/-- EXTEST_DESELECT (R435, R436). -/
def execExtestDeselect (at_ : Nat) (s : State) : Host.Outcome State Fault Refusal := s.command fun s => .next ((s.reach at_).releaseHold 2)

/-- RST_CTRL_WARM (R435). -/
def execRstCtrlWarm (secure : Bool) (at_ : Nat) (s : State) : Host.Outcome State Fault Refusal := s.command fun s =>
  let s := s.reach at_
  .next (if secure then s.warmReset 6 else s.worldError .rstCtrlWarm 0)

/-- RST_CTRL_PARTITION (R213, R438): a reset of one partition, which comes back as it was. -/
def execRstCtrlPartition (part : Nat) (secure : Bool) (s : State) : Host.Outcome State Fault Refusal := s.command fun s =>
  if !secure then .next (s.worldError .rstCtrlPgo 0)
  else if !s.partActive (part % 8) then .next s
  else .next ((s.beginReset (part % 8) (s.partGoal (part % 8))).settle.pwrSync)

/-- WATCH_REGULATOR_OVERLOAD (R416, R435): a power-on reset of CAUSE 2, which start-up follows. -/
def execWatchRegulatorOverload (at_ : Nat) (s : State) : Host.Outcome State Fault Refusal := s.command fun s =>
  let s := s.reach at_
  if s.boot.stage = .off ∨ s.flag .pwrStatusRegOk 0 = false then .next s else
  let s := s.powerOn 2
  let s := s.setBoot { s.boot with startAt := s.time }
  .next (if s.boot.holds = 0 then s.startPower else s)

/-- VDD_AON_IN_REMOVED (R407): the device is OFF; PD00 and all retained state are lost. -/
def execVddAonInRemoved (at_ : Nat) (s : State) : Host.Outcome State Fault Refusal := s.command fun s =>
  let s := (s.reach at_).powerOn 1
  .next (s.setBoot { s.boot with stage := .off, holds := setBits s.boot.holds 0 0 1, tripLog := false })

/-! ## Start-up -/

/-- DEVICE_ROOT_FORMED (R325, R441): at a power-up of PD47 the root is formed; after three failures start-up stops, and the Reeve boots
its recovery image, which serves only IDENTIFY and the event log. -/
def execDeviceRootFormed (ok : Bool) (at_ : Nat) (s : State) : Host.Outcome State Fault Refusal := s.command fun s =>
  let s := s.reach at_
  let starts := s.boot.stage == .powering
  if !(starts || (s.boot.stage == .run && s.resuming)) || !s.powerGood 47 || s.flag .secStatusRootOk 0 then .next s
  else if ok then
    let s := (s.setFlds 0 [(.secStatusRootOk, 1)]).setObj .rootOk 1 1
    .next (if starts then s.setStage .rom else s)
  else
    let s := (s.setStage .stopped).setFlds 0 [(.rstStatusRecovery, 1), (.rvStatusReady, 1)]
    .next (s.logIt .rootFail 0x16 12 0 0 0)

/-- The ruling record of the persistence area (R342): the higher SEQ. -/
def State.rulingSave (s : State) : Option SaveRec :=
  s.crier.persist.foldl (fun b r => match b with
    | none => some r
    | some x => if x.seq < r.seq then some r else some x) none

/-- The Reeve loads the ruling SAVE record (R342): an object without a saved value keeps its default. -/
def State.loadSaved (s : State) : State :=
  match s.rulingSave with
  | none => s
  | some r => r.values.foldl (fun (s : State) e =>
      match Obj.all.find? (fun o => o.desc.index == e.1 / 256) with
      | some o => s.setObjVal o (e.1 % 256) e.2
      | none => s) s

/-- The settings that the Reeve writes at each start (R109, R148, R428, R434). -/
def State.reeveWrites (s : State) : State :=
  let s := (List.range 8).foldl (fun (s : State) b => s.setFld .binScrubInterval b (s.obj .scrubInterval (b + 1))) s
  let s := s.setFlds 0 [(.mcActcfgThreshold, s.obj .actThreshold 0), (.mcActcfgWindow, s.obj .actWindow 0),
    (.mcActcfgNeighbours, s.obj .neighbours 0 - 1), (.mcCtrlRfmEn, s.obj .rfmEn 0), (.clkEnEn, s.obj .clkEnBoot 0)]
  let s := s.setObj .dozeTimerEff 0 (s.obj .dozeTimerMs 0)
  let s := (List.range 16).foldl (fun (s : State) p => s.setTarget p (s.obj .portTarget (p + 1))) s
  let s := if s.flag .mcStatusReady 0 then s
    else s.setFld .mcStatusRate 0 (if s.mc.kept then s.mc.keptRate else rateCode (s.obj .dramRate 0))
  (List.range 4).foldl (fun (s : State) i =>
    s.setFlds i [(.clkSscDepth, s.obj .sscDepth (i + 1)), (.clkSscRate, s.obj .sscRate (i + 1))]) s

/-- Boot ROM builds the repair-map copy when it is not valid, and Bins that wait for it load it (R105): of the entries whose record's
signature passes.  A rejected field record is named by its entry, and the test record, of every other entry, by 6,144. -/
def State.buildCopy (s : State) (rejected : List Nat) : State :=
  if s.bin.copyValid then s else
  let good := s.bin.records.filter (fun e => if e.2.field then !rejected.contains e.1 else !rejected.contains 6144)
  let s : State := { s with bin := { s.bin with rmapCopy := good, copyValid := true } }
  (List.range 8).foldl (fun (s : State) b => if s.powerGood (39 + b) then s.loadBin b else s) s

/-- BOOT_ROM_VERIFY_COMPLETE (R105, R332, R333, R441): the configuration records are verified (those of `rejected` ignored and logged), with
the AUTH record, its SEQ and the CASCADE_IDs of the peers it lists; `slot` is the Reeve slot that runs, 0 for A and 1 for B, or 2
when both have failed, with its version and its measurement and that of the records. -/
def execBootRomVerifyComplete (slot version seq : Nat) (rejected : List Nat) (auth reeveMeas confMeas : List Byte) (peers : List Nat) (at_ : Nat)
    (s : State) : Host.Outcome State Fault Refusal := s.command fun s =>
  let s := s.reach at_
  let starts := s.boot.stage == .rom
  if !(starts || s.reeveAlone || (s.boot.stage == .run && s.resuming && s.flag .secStatusRootOk 0 && !s.flag .rvStatusReady 0)) then .next s else
  let recov := s.boot.recovery || decide (2 ≤ slot)
  let s := s.setSec { s.sec with
    auth := auth, peers := peers
    meas := SMap.put (SMap.put s.sec.meas 0 reeveMeas []) 4 confMeas []
    versions := SMap.put s.sec.versions 0 version 0 }
  let s := (s.setObj .configSeq 6 seq).buildCopy rejected
  let s := if slot ≤ 1 then s.setObj .slotActive 1 slot else s
  let s := rejected.foldl (fun (s : State) i => s.logIt .record 0x16 4 i 0 0) s
  let s := s.setFlds 0 [(.rvStatusReady, 1), (.rstStatusRecovery, b2n (recov || s.flag .rstStatusRecovery 0))]
  let s := if s.boot.tripLog then (s.setBoot { s.boot with tripLog := false }).logIt .thermalAlarm 0xFF 12 1 0 0 else s
  let s := if starts then s.loadSaved.applyNet else s
  let s : State := s.reeveWrites.setPwr { s.pwr with allNeeds := false }
  let s := if starts then s.setStage (if recov then .run else .reeve) else s
  .next s.pwrSync.sourcesBack

/-- WATCH_IMAGE_VERIFIED (R332, R441): the Watch listens on its first microphone with an empty pre-roll; or neither slot of an image is
good, and audio wake is disabled. -/
def execWatchImageVerified (ok : Bool) (modelId watchMeas modelMeas : List Byte) (watchVersion modelVersion at_ : Nat) (s : State) :
    Host.Outcome State Fault Refusal := s.command fun s =>
  let s := s.reach at_
  if !s.flag .rvStatusReady 0 then .next s else
  if ok then
    let s := s.setSec { s.sec with
      meas := SMap.put (SMap.put s.sec.meas 1 watchMeas []) 2 modelMeas []
      versions := SMap.put (SMap.put s.sec.versions 1 watchVersion 0) 2 modelVersion 0 }
    let s := (s.setObjVal .wakeModelId 0 (.bytes modelId)).watchReset
    let m := s.listenOrder.find? s.micPresent
    .next ((s.setWatch { s.watch with mic := m, count := 0 }).setFld .watchStatusWakeOff 0 (b2n m.isNone))
  else
    let s := (s.setWatch { s.watch with mic := none }).setFld .watchStatusWakeOff 0 1
    .next (s.setPwr { s.pwr with events := s.pwr.events ++ [LateEvent.mk 0 0x0004 0 s.time] })

/-- A region of the BOUNDARY record, which the check of R323 can refuse: its number, then EN, S, MODEL, the space, BASE and LIMIT. -/
def State.bootRegion (s : State) (l : List Nat) : State :=
  let g (i : Nat) := l.getD i 0
  let r : Region := ⟨g 1 == 1, g 2 == 1, g 3 == 1, g 4, g 5, g 6⟩
  let k := if r.en then s.brCheck (g 0) r else 0
  let s := s.setFlds (g 0) [(.brBase, g 5), (.brLimit, g 6)]
  if k = 0 then s.applyRegion (g 0) r else s.setFld .brResult (g 0) k

/-- HOST_FIRMWARE_VERIFIED (R332, R346, R441): with DRAM trained, the Reeve reserves the Ledger, opens ring 0x1000 after a power-on reset,
applies BOUNDARY and SEC_WMAP, and releases HC0 to HC3; with both slots bad (`slot` 2) the host cores stay in reset. -/
def execHostFirmwareVerified (slot version wmap : Nat) (regions : List (List Nat)) (measurement : List Byte) (at_ : Nat) (s : State) :
    Host.Outcome State Fault Refusal := s.command fun s =>
  let s := s.reach at_
  if s.boot.stage ≠ .reeve ∨ s.flag .mcStatusReady 0 = false then .next s else
  let s := if (s.ring 0).isOpen then s
    else s.setRing 0 ⟨true, 0, false, s.ring0Base, 1, 1, (s.ring 0).drops⟩
  let s := s.setFlds 0 [(.urStatusReady, 1), (.mcCtrlMaplock, 1), (.secWmapOs, wmap), (.secWmapAud, bits wmap 16 16),
    (.secWmapWatch, bits wmap 17 17)]
  let s := regions.foldl (fun (s : State) l => s.bootRegion l) s
  let s := s.setStage .run
  let s := if slot ≤ 1 then
      let s := s.setSec { s.sec with
        meas := SMap.put s.sec.meas 3 measurement [], versions := SMap.put s.sec.versions 3 version 0 }
      let s := (s.setBoot { s.boot with hostRun := true }).setObj .slotActive 4 slot
      (s.setFld .rtStatusReady 0 1).setObj .startTime 0 (s.time - s.boot.startAt)
    else s
  .next s.lateEvents

end Sys2Proof.Machine
end

