-- ==== Sys2Proof/Machine/Clock.lean ====
section
/-!
DEFINITION. The clocks (spec/22): stop-switch-restart and the change of TCLK step it serves (R390, R426, R427), locks, the failure and the
return of sources (R430 to R432), the block enables (R428), and the thermal protections of R454.
-/
namespace Sys2Proof.Machine

def State.setClk (s : State) (c : ClkGroup) : State := { s with clk := c }

/-- A PLL is locked; the PLLs are numbered as CLK_STATUS.LOCK orders them (R433). -/
def State.locked (s : State) (pll : Nat) : Bool := bit (s.fld .clkStatusLock 0) pll
def State.setLock (s : State) (pll : Nat) (on : Bool) : State :=
  s.setFld .clkStatusLock 0 (setBits (s.fld .clkStatusLock 0) pll pll (b2n on))

/-- The source of a core: 0 for PLL_T0, 1 for PLL_T1. -/
def State.tclkSrc (s : State) (c : Nat) : Nat := b2n (bit (s.fld .clkTcselSel 0) c)

/-! ## The change of step -/

/-- The bands of VDD_MILL by step, in mV (R391). -/
def bandLow (step : Nat) : Nat := [800, 720, 650, 600].getD step 600
def bandTop (step : Nat) : Nat := [900, 840, 780, 700].getD step 700

/-- Ask for switches of cores to a PLL, those already there left out. -/
def State.askSwitches (s : State) (cores : List Nat) (src : Nat) : State :=
  let l := (cores.filter (fun c => decide (s.tclkSrc c ≠ src))).map (fun c => (c, src))
  (s.setClk { s.clk with switches := s.clk.switches ++ l }).setFld .clkTcselBusy 0 (b2n (!(s.clk.switches ++ l).isEmpty))

/-- A new target of VDD_MILL, in mV (R391), which VOUT_COMMAND takes to the regulator that PMB_MAP names for it (R386). -/
def State.setVolt (s : State) (mv : Nat) : State :=
  if s.obj .vddMillMv 0 = mv then s
  else
    let s := s.setObj .vddMillMv 0 mv
    match (List.range 8).find? (fun i => s.flag .rvPmbmapMill i && s.flag .rvPmbmapEn i) with
    | some i => s.send ⟨.pmbus, 0, [s.fld .rvPmbmapAddr i, mv], []⟩
    | none => s

def State.setChange (s : State) (x : Option StepChange) : State := { s with reeve := { s.reeve with change := x } }

/-- WRITE or COMMIT of an update is under way (R394). -/
def State.updWriting (s : State) : Bool := decide (3 ≤ s.fld .rvStatusUpd 0)

/-- A change to a faster step stands still while the Reeve is in reset or writes an update (R18). -/
def State.riseHeld (s : State) (step : Nat) : Bool :=
  decide (step < s.fld .rvStatusStep 0) && (s.updWriting || !s.flag .rvStatusReady 0)

/-- Retune PLL_T0 or PLL_T1 for the next stage of a change; a core that still selects it makes the retune INUSE (R427), and the change
stands until that core has moved. -/
def State.retune (s : State) (pll : Nat) (next : StepChange) : State :=
  if (List.range 8).any (fun c => s.tclkSrc c == pll) then s.setFld .clkTcselResult 0 3
  else (s.setLock pll false).setChange (some next)

/-- The change of step goes on to its next stage when the one before is done (R390): the west cores on PLL_T1, PLL_T0 retuned, every core
on PLL_T0, PLL_T1 retuned, the east cores on PLL_T1; then the step is applied, and the voltage target is the
top of its band. -/
def State.stepNext (s : State) : State :=
  match s.reeve.change with
  | none => s
  | some ⟨g, n⟩ =>
    if s.riseHeld g then s
    else if n = 1 ∧ s.clk.switches.isEmpty then s.retune 0 ⟨g, 2⟩
    else if n = 2 ∧ s.locked 0 then ((s.askSwitches (List.range 8) 0).setChange (some ⟨g, 3⟩))
    else if n = 3 ∧ s.clk.switches.isEmpty then s.retune 1 ⟨g, 4⟩
    else if n = 4 ∧ s.locked 1 then ((s.askSwitches [4, 5, 6, 7] 1).setChange (some ⟨g, 5⟩))
    else if n = 5 ∧ s.clk.switches.isEmpty then
      let s := (s.setChange none).setFld .rvStatusStep 0 g
      ((s.setObj .tclkStep 0 g).setVolt (bandTop g)).bumpObj .stepChanges 0 1
    else s

/-- Take every stage that is due; one whose switches are all done already passes at once. -/
def State.stepOn (s : State) : State := s.stepNext.stepNext.stepNext

/-! ## Switches and locks -/

/-- CLK_TCSEL_SWITCH (R426, R427): a request to move a core to a PLL. -/
def execClkTcselSwitch (core src : Nat) (secure : Bool) (s : State) : Host.Outcome State Fault Refusal := s.command fun s =>
  if !secure then .next (s.worldError .clkTcselGo 0) else
  let core := core % 8
  let src := src % 2
  let s := s.setFlds 0 [(.clkTcselCore, core), (.clkTcselSrc, src)]
  if !s.locked src then .next (s.setFld .clkTcselResult 0 1)
  else if s.clk.switches.any (fun x => x.1 == core) then .next (s.setFld .clkTcselResult 0 2)
  else .next ((s.askSwitches [core] src).setFld .clkTcselResult 0 0)

/-- The switch of the lowest core among those that wait. -/
def State.nextSwitch (s : State) : Option (Nat × Nat) :=
  s.clk.switches.foldl (fun b x => match b with
    | none => some x
    | some y => if x.1 < y.1 then some x else some y) none

/-- TCLK_SWITCH_COMPLETE (R426, R427): one core runs on its new source; after a source failure the mux stays stopped. -/
def execTclkSwitchComplete (s : State) : Host.Outcome State Fault Refusal := s.command fun s =>
  if s.flag .clkStatusHeld 0 then .next s else
  match s.nextSwitch with
  | none => .next s
  | some (c, src) =>
    let l := s.clk.switches.erase (c, src)
    let s := (s.setClk { s.clk with switches := l }).setFlds 0
      [(.clkTcselSel, setBits (s.fld .clkTcselSel 0) c c src), (.clkTcselBusy, b2n (!l.isEmpty)), (.clkTcselResult, 0)]
    .next (s.bumpObj .tclkSwitches 0 1).stepOn

/-- The spread spectrum that PLL_T0, PLL_T1, PLL_H and PLL_N apply from this lock on (R429). -/
def State.takeSpread (s : State) (pll : Nat) : State :=
  if pll < 4 then s.setClk { s.clk with
    spread := SMap.put s.clk.spread pll (s.fld .clkSscDepth pll, s.fld .clkSscRate pll) (0, 40) }
  else s

/-- PLL_LOCK (R424, R429): a PLL that feeds a powered domain locks after its enable or its retune. -/
def execPllLock (pll : Nat) (s : State) : Host.Outcome State Fault Refusal := s.command fun s =>
  if (pllDomains pll).any s.powerGood && decide (pll < 11) && !bit s.clk.failing (5 + pll) then
    .next (((s.setLock pll true).takeSpread pll).stepOn)
  else .next s

/-! ## Source failure -/

/-- The outputs of R431 are forced: SAFE_FAULT.CLOCK when PD48 is powered; every TCLK is stopped by the held state; the pins that read
from a register follow the held state. -/
def State.forceOutputs (s : State) : State := if s.powerGood 48 then s.setFld .safeFaultClock 0 1 else s

/-- A monitor watches a source (R430): SAFECLK runs in PD48, and a PLL is watched while it is enabled (R424). -/
def State.monitored (s : State) (source : Nat) : Bool :=
  decide (source < 16) && s.boot.stage != .off && (source != 4 || s.powerGood 48) &&
  (decide (source < 5) || (pllDomains (source - 5)).any s.powerGood)

/-- CLOCK_SOURCE_FAILURE (R430 to R432): a monitor reports the failure of a source, numbered as CLK_FAIL numbers it. -/
def execClockSourceFailure (source at_ : Nat) (s : State) : Host.Outcome State Fault Refusal := s.command fun s =>
  let s := s.reach at_
  if !s.monitored source then .next s else
  let first := !s.flag .clkStatusHeld 0
  let s := (s.setClk { s.clk with
    failing := setBits s.clk.failing source source 1
    heldAt := if first then s.time else s.clk.heldAt
    gaveUp := if first then s.obj .clkReturnMs 0 == 0 else s.clk.gaveUp }).setFlds 0
    [(.clkFailSrc, setBits (s.fld .clkFailSrc 0) source source 1), (.clkStatusFail, 1), (.clkStatusHeld, 1)]
  let s := if 5 ≤ source then s.setLock (source - 5) false else s
  let losc := if source = 3 then s.fld .clkStatusReeveLosc 0 else 1
  let s := (s.setFld .clkStatusReeveLosc 0 (if bit s.clk.failing 3 && s.locked 9 then 0 else losc)).bumpObj .clkFails 0 1
  let s := if s.pwrState = 4 ∧ s.boot.stage = .run ∧ first = true then s.regFull.requestStart 1 else s
  .next ((s.forceOutputs).logIt .clock 0xFF 12 source 0 0)

/-- CLOCK_SOURCE_RETURN (R430, R432): sources have met their frequency for 1 ms; when every failed one has returned within
CLK_RETURN_MS, the Reeve requests a warm reset. -/
def execClockSourceReturn (sources at_ : Nat) (s : State) : Host.Outcome State Fault Refusal := s.command fun s =>
  let s := s.reach at_
  let left := (List.range 16).foldl (fun m i => if bit sources i then setBits m i i 0 else m) s.clk.failing
  let late := decide (s.clk.heldAt + s.obj .clkReturnMs 0 * 1000000 < s.time)
  let s := (s.setClk { s.clk with failing := left, gaveUp := s.clk.gaveUp || (s.flag .clkStatusHeld 0 && late) }).setFld
    .clkStatusFail 0 (b2n (left != 0))
  .next s.sourcesBack

/-- CLK_RETURN_TIMEOUT (R432): CLK_RETURN_MS passes without a return; the device stays held. -/
def execClkReturnTimeout (at_ : Nat) (s : State) : Host.Outcome State Fault Refusal := s.command fun s =>
  let s := s.reach at_
  if s.flag .clkStatusHeld 0 = true ∧ s.clk.failing ≠ 0 ∧ s.clk.heldAt + s.obj .clkReturnMs 0 * 1000000 ≤ s.time then
    .next (s.setClk { s.clk with gaveUp := true })
  else .next s

/-! ## Block enables -/

/-- The domain whose Need condition guards a block's enable (R405, R428); blocks 0 to 2 have none. -/
def enableDomain (block : Nat) : Option Nat :=
  if 3 ≤ block ∧ block ≤ 13 then some (block + 2) else if block = 14 then some 49 else none

/-- CLK_EN_WRITE (R428): a write that would clear a block whose Need condition holds is ignored, and REFUSED is set. -/
def execClkEnWrite (value : Nat) (secure : Bool) (s : State) : Host.Outcome State Fault Refusal := s.command fun s =>
  if !secure then .next (s.worldError .clkEnEn 0) else
  let old := s.fld .clkEnEn 0
  let refused := (List.range 15).any (fun b => bit old b && !bit value b &&
    (match enableDomain b with | some d => s.needOf d | none => false))
  .next (if refused then s.setFld .clkStatusRefused 0 1 else (s.setFld .clkEnEn 0 value).pwrSync)

/-! ## Thermal protection -/

/-- HARDWARE_THROTTLE (R454): the highest reading, in quarters of a degree; from 105 °C the core clocks are gated at half duty, until
readings have stayed below 100 °C for 1 ms. -/
def execHardwareThrottle (highest : Int) (at_ : Nat) (s : State) : Host.Outcome State Fault Refusal := s.command fun s =>
  let s := s.reach at_
  if 420 ≤ highest then .next (s.setClk { s.clk with throttled := true, coolSince := 0 })
  else if 400 ≤ highest then .next (s.setClk { s.clk with coolSince := 0 })
  else if s.clk.coolSince = 0 then .next (s.setClk { s.clk with coolSince := s.time + 1 })
  else if s.clk.coolSince - 1 + 1000000 ≤ s.time then .next (s.setClk { s.clk with throttled := false })
  else .next s

/-- THERMAL_TRIP (R454): a reading of 115 °C or more, in quarters of a degree, for 10 µs since `since`: the outputs are forced and RAIL_EN
drops every supply but PD00's; only nPOR ends it. -/
def execThermalTrip (reading : Int) (since at_ : Nat) (s : State) : Host.Outcome State Fault Refusal := s.command fun s =>
  let s := s.reach at_
  if reading < 460 ∨ s.time < since + 10000 ∨ s.boot.stage = .off then .next s else
  let s := s.forceOutputs
  let s := (List.range 49).foldl (fun (s : State) i => s.powerOff (49 - i)) s
  let s : State := { s with rota := State.reset.rota, hearth := State.reset.hearth }
  let s := (s.setPwr { s.pwr with queue := [], started := [], regTry := false }).setFld .rvStatusReady 0 0
  .next (s.setBoot { s.boot with stage := .tripped, tripLog := true, hostRun := false })

end Sys2Proof.Machine
end

