-- ==== Sys2Proof/Machine/Reeve.lean ====
section
/-!
DEFINITION. The Reeve's governor (R385 to R394), with the supervision of R64, R129 and R315; PMBus alerts; and the writing of the log's
buffer to flash (R396).
-/
namespace Sys2Proof.Machine

def State.setReeve (s : State) (x : ReeveGroup) : State := { s with reeve := x }

/-- What the governor reads of the hardware in a period (R384, R386, R129): the 40 thermal sensors in quarters of a degree, none for
one that does not answer; READ_POUT of each regulator in mW, none for no answer; the STATUS_WORD of each; READ_VOUT of the regulator of
VDD_MILL in mV; the margin code of each droop monitor; and, of each Granary quarter, the corrected errors per second and the
uncorrectable errors since power-up. -/
structure Sensed where
  temps : List (Option Int)
  pouts : List (Option Nat)
  status : List Nat
  vout : Nat
  margins : List Nat
  ces : List Nat
  ues : List Nat
deriving DecidableEq, Repr

/-! ## Sensors and PMBus -/

/-- A reading outside −50 °C to 150 °C, or none, excludes its sensor (R385). -/
def badReading (t : Option Int) : Bool :=
  match t with
  | none => true
  | some v => decide (v < -200 ∨ 600 < v)

/-- Read one sensor (R385): TEMP follows the reading, and a sensor that is newly excluded is logged. -/
def State.readSensor (s : State) (temps : List (Option Int)) (i : Nat) : State :=
  let t := temps.getD i none
  if bit s.reeve.excluded i then s
  else if badReading t then
    let s := (s.setReeve { s.reeve with excluded := setBits s.reeve.excluded i i 1 }).setObj .temp (i + 1) 0x8000
    s.logIt .thermalAlarm 0xFF 4 i 0 0
  else s.setObj .temp (i + 1) ((t.getD 0) % 65536).toNat

/-- The highest reading among the sensors still included, of those that are read (R385). -/
def State.tmax (s : State) (temps : List (Option Int)) (read : List Nat) : Option Int :=
  (read.filter (fun i => !bit s.reeve.excluded i)).foldl (fun m i =>
    match temps.getD i none with
    | none => m
    | some t => some (match m with | none => t | some u => max t u)) none

/-- All four sensors of some core are excluded (R385): TS4c to TS4c + 3. -/
def State.coreBlind (s : State) : Bool :=
  (List.range 8).any (fun c => (List.range 4).all (fun k => bit s.reeve.excluded (4 * c + k)))

/-- The sensors of a period: all 40, or in REST those of the Granary and the Yard (R394). -/
def State.sensorsRead (s : State) : List Nat := if s.pwrState = 3 then (List.range 8).map (32 + ·) else List.range 40

def State.readSensors (s : State) (temps : List (Option Int)) : State :=
  let l := s.sensorsRead
  let s := l.foldl (fun (s : State) i => s.readSensor temps i) s
  match s.tmax temps l with
  | none => s
  | some t => s.setFld .rvStatusTmax 0 (t % 65536).toNat

/-- Read one regulator in use (R386): an answer is its power, no answer leaves the last one, and the tenth failure in a row is PMBUS_LOST. -/
def State.readRegulator (s : State) (x : Sensed) (i : Nat) : State :=
  if !s.flag .rvPmbmapEn i then s else
  let s := match x.pouts.getD i none with
    | some p => s.setReeve { s.reeve with
        lastPower := SMap.put s.reeve.lastPower i p 0, misses := SMap.put s.reeve.misses i 0 0 }
    | none =>
      let n := SMap.get s.reeve.misses i 0 + 1
      let s := s.setReeve { s.reeve with misses := SMap.put s.reeve.misses i (min n 10) 0 }
      if n = 10 then s.logIt .pmbusFail 0xFF 8 i 0 0 else s
  if s.reeve.alert then s.logIt .pmbus 0xFF 4 i (x.status.getD i 0) 0 else s

/-- Some regulator in use has failed to answer 10 times in a row and has not answered since (R386). -/
def State.pmbusLost (s : State) : Bool :=
  (List.range 8).any (fun i => s.flag .rvPmbmapEn i && SMap.get s.reeve.misses i 0 == 10)

/-- The package power of the period (R389). -/
def State.packagePower (s : State) : Nat :=
  ((List.range 8).map (fun i =>
    if s.flag .rvPmbmapEn i && s.flag .rvPmbmapPackage i then SMap.get s.reeve.lastPower i 0 else 0)).sum

def State.readPmbus (s : State) (x : Sensed) : State :=
  let s := (List.range 8).foldl (fun (s : State) i => s.readRegulator x i) s
  let ps := (s.packagePower :: s.reeve.powers).take 10
  (s.setReeve { s.reeve with alert := false, powers := ps }).setObj .pkgPowerMw 0 (ps.sum / ps.length % 2 ^ 32)

/-! ## The thermal, power and voltage loops -/

/-- The index of a loop after a period (R388, R389): it rises at most once per 10 ms, and falls after 100 periods in a row that call for
it, unless falling is held.  The arguments and the result are the index, when it last rose, plus one, and the run of periods. -/
def loopIndex (index riseAt run now : Nat) (rise fall hold : Bool) : Nat × Nat × Nat :=
  if rise then
    if index < 3 ∧ (riseAt = 0 ∨ riseAt - 1 + 10000000 ≤ now) then (index + 1, now + 1, 0) else (index, riseAt, 0)
  else if fall then
    if 100 ≤ run + 1 ∧ hold = false then (index - 1, riseAt, 0) else (index, riseAt, min (run + 1) 100)
  else (index, riseAt, 0)

/-- The thermal loop (R388), which takes a core without sensors to be at THROTTLE_C (R385). -/
def State.thermalLoop (s : State) (temps : List (Option Int)) (hold : Bool) : State :=
  let limit : Int := 4 * s.obj .throttleC 0
  let hyst : Int := 4 * s.obj .throttleHyst 0
  let t := match s.tmax temps s.sensorsRead with
    | none => if s.coreBlind then some limit else none
    | some t => some (if s.coreBlind then max t limit else t)
  match t with
  | none => s
  | some t =>
    let r := loopIndex s.reeve.thermal s.reeve.thermalAt s.reeve.coolRun s.time (decide (limit ≤ t)) (decide (t ≤ limit - hyst)) hold
    s.setReeve { s.reeve with thermal := r.1, thermalAt := r.2.1, coolRun := r.2.2 }

/-- The power loop (R389), with P10 as the sum over its periods. -/
def State.powerLoop (s : State) (hold : Bool) : State :=
  let cap := s.obj .powerCapW 0 * 1000 * s.reeve.powers.length
  let p := s.reeve.powers.sum
  let r := loopIndex s.reeve.power s.reeve.powerAt s.reeve.lowRun s.time (decide (cap < p)) (decide (10 * p < 9 * cap)) hold
  s.setReeve { s.reeve with power := r.1, powerAt := r.2.1, lowRun := r.2.2 }

/-- The step that the loops ask for (R390). -/
def State.stepWanted (s : State) : Nat := max (max s.reeve.thermal s.reeve.power) (s.obj .tclkMaxStep 0)

/-- Begin a change of step (R390), or go on with one that stood still (R18): a step up raises the voltage first, a step down moves the west cores at once.  No step up is made
while a regulator is lost (R386), or in WRITE and COMMIT of an update (R394). -/
def State.beginChange (s : State) (hold : Bool) : State :=
  let now := s.fld .rvStatusStep 0
  let want := s.stepWanted
  if s.reeve.change.isSome then s.stepOn
  else if want = now then s
  else if want < now then
    if hold ∨ s.pmbusLost then s else (s.setVolt (bandTop want)).setChange (some ⟨want, 0⟩)
  else ((s.askSwitches [0, 1, 2, 3] 1).setChange (some ⟨want, 1⟩)).stepOn

/-- READ_VOUT confirms the raised voltage, and the west cores move (R390). -/
def State.confirmVoltage (s : State) (vout : Nat) : State :=
  match s.reeve.change with
  | some ⟨g, 0⟩ => if bandTop g ≤ vout then ((s.askSwitches [0, 1, 2, 3] 1).setChange (some ⟨g, 1⟩)).stepOn else s
  | _ => s

/-- The voltage loop (R391), within the band of the applied step. -/
def State.voltageLoop (s : State) (margins : List Nat) : State :=
  let step := s.fld .rvStatusStep 0
  let up := match s.reeve.change with
    | some ⟨g, _⟩ => decide (g < step)
    | none => false
  if up then s
  else if s.obj .avsEn 0 = 0 then s.setVolt (bandTop step)
  else
    let m := margins.foldl min 63
    let run := if 16 < m then s.reeve.slackRun + 1 else 0
    let v := s.obj .vddMillMv 0
    let v := if m = 0 then v + 25 else if m < 8 then v + 10 else if 100 ≤ run then v - 5 else v
    let s := (s.setReeve { s.reeve with slackRun := if 100 ≤ run then 0 else run }).setVolt
      (max (bandLow step) (min v (bandTop step)))
    if m = 0 then s.logIt .avs 0xFF 4 v 0 0 else s

/-! ## The migration and idle loops -/

/-- The migration loop (R392). -/
def State.migrationLoop (s : State) : State :=
  let e := s.ur.evictions
  let m := s.obj .migPromote 0
  let m' := if 4096 < e then min (s.obj .migPromoteMax 0) (2 * m)
    else if e < 256 then max (s.obj .migPromoteMin 0) (m - m / 4) else m
  { (s.setObj .migPromote 0 m') with ur := { s.ur with evictions := 0 } }

/-- The idle loop (R393). -/
def State.idleLoop (s : State) : State :=
  let eff := s.obj .dozeTimerEff 0
  let lastShort := s.pwr.shortDozes.getLast?.getD 0
  let base := max s.pwr.lastHalving lastShort
  let recent := s.pwr.shortDozes.filter (fun t => decide (s.time < t + 1000000000))
  if 10 < recent.length then
    (s.setPwr { s.pwr with shortDozes := [], lastHalving := base }).setObj .dozeTimerEff 0 (min (2 * eff) (s.obj .dozeTimerMaxMs 0))
  else if base + 10000000000 ≤ s.time then
    (s.setPwr { s.pwr with shortDozes := recent, lastHalving := s.time }).setObj .dozeTimerEff 0
      (max (eff / 2) (s.obj .dozeTimerMs 0))
  else s.setPwr { s.pwr with shortDozes := recent, lastHalving := base }

/-! ## Supervision -/

/-- Scale adaptation of a partition (R64). -/
def State.watchScale (s : State) (p : Nat) : State :=
  let sat := s.obj .satElems (p + 1)
  let clamp := s.obj .clamp (p + 1)
  let dt := max 1000000 (s.time - s.reeve.lastPeriod)
  let fast := decide (s.obj .satAlarm (p + 1) * dt < (sat - SMap.get s.reeve.satLast p 0) * 1000000000)
  let grown := decide (SMap.get s.reeve.clampLast p 0 < clamp)
  let s := s.setReeve { s.reeve with
    satLast := SMap.put s.reeve.satLast p sat 0, clampLast := SMap.put s.reeve.clampLast p clamp 0 }
  if fast || grown then
    let s := (s.logIt (.event 0x000A) 0xFF 4 p 0 0).event 0x000A p s.time
    if s.obj .adaptFreeze (p + 1) = 1 then s.setObj .adaptEn (p + 1) 0 else s
  else s

/-- The self-test interval of a core (R315): each overdue interval is reported once. -/
def State.watchSelftest (s : State) (c : Nat) : State :=
  let last := s.obj .selftestLast (c + 1)
  if s.obj .selftestMaxMs (c + 1) * 1000000 < s.time - last ∧ SMap.get s.reeve.overdue c 0 ≠ last + 1 then
    let s := s.setReeve { s.reeve with overdue := SMap.put s.reeve.overdue c (last + 1) 0 }
    ((s.logIt (.event 0x0018) 0xFF 4 c 0 0).bumpObj .selftestOverdue (c + 1) 1).event 0x0018 c s.time
  else s

/-- A quarter whose errors pass their limits retires (R129). -/
def State.watchQuarter (s : State) (x : Sensed) (q : Nat) : State :=
  if s.quarterIn q ∧ bit (s.fld .urStatusGqDrain 0) q = false ∧
      (s.obj .gqRetireCe 0 < x.ces.getD q 0 ∨ s.obj .gqUeLimit 0 ≤ x.ues.getD q 0) then
    (s.startRetire q).logIt .quarter 0xFF 4 q 0 0
  else s

/-! ## The period -/

/-- A full period, in the order of R387. -/
def State.fullPeriod (s : State) (x : Sensed) : State :=
  let s := ((s.readSensors x.temps).readPmbus x).confirmVoltage x.vout
  let s := (((s.thermalLoop x.temps false).powerLoop false).beginChange false).voltageLoop x.margins
  let s := s.migrationLoop.idleLoop
  let s := (List.range 4).foldl (fun (s : State) q => s.watchQuarter x q) s
  let s := (List.range 8).foldl (fun (s : State) p => s.watchScale p) s
  (List.range 8).foldl (fun (s : State) c => s.watchSelftest c) s

/-- A period in WRITE or COMMIT of an update (R394): only the thermal and power loops, whose indices may only rise. -/
def State.updatePeriod (s : State) (x : Sensed) : State :=
  let s := (s.readSensors x.temps).readPmbus x
  ((s.thermalLoop x.temps true).powerLoop true).beginChange true

/-- GOVERNOR_PERIOD (R387 to R394): the Reeve runs once every 1 ms; a period that overruns is counted. -/
def execGovernorPeriod (temps : List (Option Int)) (pouts : List (Option Nat)) (status : List Nat) (vout : Nat)
    (margins ces ues : List Nat) (overrun : Bool) (at_ : Nat) (s : State) : Host.Outcome State Fault Refusal := s.command fun s =>
  let s := s.reach at_
  if !s.flag .rvStatusReady 0 then .next s else
  let x : Sensed := ⟨temps, pouts, status, vout, margins, ces, ues⟩
  let rest := decide (s.pwrState = 3)
  let upd := s.updWriting
  let s := if rest then (s.readSensors temps).idleLoop else if upd then s.updatePeriod x else s.fullPeriod x
  let s := (s.setReeve { s.reeve with lastPeriod := s.time }).setFld .rvStatusRestricted 0 (b2n (rest || upd))
  .next (if overrun then s.bumpObj .govOverruns 0 1 else s)

/-- PMBUS_ALERT (R386): STATUS_WORD is read and logged in the next period. -/
def execPmbusAlert (s : State) : Host.Outcome State Fault Refusal := s.command fun s => .next (s.setReeve { s.reeve with alert := true })

/-- LOG_FLUSH (R396): the Reeve writes the buffer to the boot flash. -/
def execLogFlush (at_ : Nat) (s : State) : Host.Outcome State Fault Refusal := s.command fun s =>
  let s := s.reach at_
  .next (if s.flag .rvStatusReady 0 then s.flushLog else s)

end Sys2Proof.Machine
end

