-- ==== Sys2Proof/Machine/Update.lean ====
section
/-!
DEFINITION. Firmware update (R398 to R402): the four stages set in motion through UPD_CMD, and their ends.
-/
namespace Sys2Proof.Machine

def State.setUpd (s : State) (x : UpdGroup) : State := { s with upd := x }

/-- The stage of the update (R403): 0 idle, 1 RECEIVE, 2 VERIFY, 3 WRITE, 4 COMMIT. -/
def State.updStage (s : State) : Nat := s.fld .rvStatusUpd 0

/-- The slot size of a kind (R398). -/
def slotSize (kind : Nat) : Nat := [0, 8 * 2 ^ 20, 2 * 2 ^ 20, 2 ^ 20, 32 * 2 ^ 20].getD kind 0

/-- The update ends with a result (R399): the staging goes, and an entry that waited for it takes place (R402). -/
def State.endUpdate (s : State) (result : Nat) : State :=
  let s := ((s.setFld .rvStatusUpd 0 0).setObj .updResult 0 result).setUpd ⟨0, 0, []⟩
  (s.logIt .update 0xFF (if result = 0 then 0 else 8) result 0 0).lateEntry

/-- BEGIN (R399): a second update is BUSY; a kind or a length that no slot takes fails. -/
def State.updBegin (s : State) : State :=
  let kind := s.obj .updKind 0
  let len := s.obj .updLen 0
  if s.updStage ≠ 0 then s.setObj .updResult 0 7
  else if kind = 0 ∨ 4 < kind then s.endUpdate 2
  else if slotSize kind < len then s.endUpdate 3
  else ((s.setFld .rvStatusUpd 0 1).setObj .updOffset 0 0).setUpd ⟨kind, len, []⟩

/-- UPD_DATA (R399): the bytes are appended at UPD_OFFSET; the staging area holds 32 MiB. -/
def State.updData (s : State) (bytes : List Byte) : State :=
  if s.updStage ≠ 1 then s
  else if 32 * 2 ^ 20 < s.upd.staged.length + bytes.length then s.endUpdate 3
  else (s.setUpd { s.upd with staged := s.upd.staged ++ bytes }).setObj .updOffset 0 (s.upd.staged.length + bytes.length)

/-- FINISH (R399): RECEIVE ends and VERIFY begins. -/
def State.updFinish (s : State) : State := if s.updStage = 1 then s.setFld .rvStatusUpd 0 2 else s

/-- CANCEL (R399): the update ends, and the active slot stays. -/
def State.updCancel (s : State) : State := if s.updStage = 0 then s else s.endUpdate 6

/-- What a write of UPD_CMD sets in motion (R399, R404). -/
def State.updCommand (s : State) (n : Nat) : State :=
  match n with
  | 1 => s.updBegin
  | 2 => s.updFinish
  | 3 => s.updCancel
  | 4 => s.warmReset 5
  | _ => s

/-- A write of UPD_CMD or UPD_DATA has its effect from the secure world alone; another is refused and logged (R8, R340, R399). -/
def State.updWrite (s : State) (o : Obj) (secure : Bool) (f : State → State) : State :=
  if secure then f s else s.objRefused o.desc.index 0

/-- UPD_BEGIN (R399). -/
def execUpdBegin (secure : Bool) (s : State) : Host.Outcome State Fault Refusal := s.command fun s =>
  .next (s.updWrite .updCmd secure State.updBegin)

/-- UPD_DATA (R399): at most 65,536 B in one write (R339). -/
def execUpdData (bytes : List Byte) (secure : Bool) (s : State) : Host.Outcome State Fault Refusal := s.command fun s =>
  .next (s.updWrite .updData secure (fun s => if bytes.length ≤ 65536 then s.updData bytes else s))

/-- UPD_FINISH (R399). -/
def execUpdFinish (secure : Bool) (s : State) : Host.Outcome State Fault Refusal := s.command fun s =>
  .next (s.updWrite .updCmd secure State.updFinish)

/-- UPD_CANCEL (R399). -/
def execUpdCancel (secure : Bool) (s : State) : Host.Outcome State Fault Refusal := s.command fun s =>
  .next (s.updWrite .updCmd secure State.updCancel)

/-- UPD_ACTIVATE (R399, R404). -/
def execUpdActivate (secure : Bool) (at_ : Nat) (s : State) : Host.Outcome State Fault Refusal := s.command fun s =>
  .next ((s.reach at_).updWrite .updCmd secure (fun s => s.updCommand 4))

/-- UPD_VERIFY_COMPLETE (R399): the security engine's result, 0 or a code of UPD_RESULT; an image whose bytes are not those announced
fails with LENGTH. -/
def execUpdVerifyComplete (result : Nat) (s : State) : Host.Outcome State Fault Refusal := s.command fun s =>
  if s.updStage ≠ 2 then .next s
  else if s.upd.staged.length ≠ s.upd.len then .next (s.endUpdate 3)
  else if result % 8 ≠ 0 then .next (s.endUpdate (result % 8))
  else .next (s.setFld .rvStatusUpd 0 3)

/-- UPD_WRITE_COMPLETE (R399): the inactive slot is programmed, and read back with the digest of the image or not. -/
def execUpdWriteComplete (ok : Bool) (s : State) : Host.Outcome State Fault Refusal := s.command fun s =>
  if s.updStage ≠ 3 then .next s
  else .next (if ok then s.setFld .rvStatusUpd 0 4 else s.endUpdate 5)

/-- UPD_COMMIT_COMPLETE (R399, R400): the trailer is programmed with a SEQ one above the highest of its kind, and its slot is the one that
boots next; or programming failed. -/
def execUpdCommitComplete (ok : Bool) (s : State) : Host.Outcome State Fault Refusal := s.command fun s =>
  if s.updStage ≠ 4 then .next s
  else if !ok then .next (s.endUpdate 5)
  else
    let k := s.upd.kind
    let s := (s.setObj .slotSeq k ((s.obj .slotSeq k + 1) % 2 ^ 32)).setObj .slotActive k (1 - s.obj .slotActive k)
    .next (s.endUpdate 0)

end Sys2Proof.Machine
end

