-- ==== Sys2Proof/Machine/Almanac.lean ====
section
/-!
DEFINITION. The Almanac (R338 to R342): addresses of objects, the checks of an access, the values that objects read as, their types and
ranges, what a write does, the directory, the ring sub-objects of R346, and SAVE and RESTORE.
-/
namespace Sys2Proof.Machine

/-- The response codes of R362. -/
inductive Code where
  | ok | notReady | stale | noObject | access | world | badType | badValue | badLength | gated | busy | dataError | noSession
  | duplicate | full | auth | badOp
deriving DecidableEq, Repr

def Code.num (c : Code) : Nat := c.ctorIdx

/-! ## Types -/

/-- The type codes of R339. -/
def ObjType.code (t : ObjType) : Nat :=
  match t with
  | .bool => 1 | .u8 => 2 | .u16 => 3 | .u32 => 4 | .u64 => 5 | .i16 => 7 | .i32 => 8 | .f32 => 0x0A | .time64 => 0x0B
  | .str => 0x0C | .blob => 0x0D | .handle32 => 0x0E

/-- The size of a scalar type; 0 for STR and BLOB. -/
def ObjType.size (t : ObjType) : Nat :=
  match t with
  | .bool | .u8 => 1
  | .u16 | .i16 => 2
  | .u32 | .i32 | .f32 | .handle32 => 4
  | .u64 | .time64 => 8
  | .str | .blob => 0

/-- The bytes of a value (R7, R339). -/
def valBytes (t : ObjType) (v : Val) : List Byte :=
  match t with
  | .str | .blob => v.toBytes
  | t => natLe t.size v.toNat

/-- The value that bytes give. -/
def valOf (t : ObjType) (b : List Byte) : Val :=
  match t with
  | .str | .blob => .bytes b
  | _ => .num (leNat b)

/-- The largest size of an object in bytes. -/
def Obj.maxLen (o : Obj) : Nat :=
  match o with
  | .identityPub => 57
  | .agreePub => 56
  | .attestNonce => 32
  | .attestReport => 768
  | .macAddr => 6
  | .logBlock => 1024
  | o => match o.desc.type with | .str => 64 | .blob => 65536 | t => t.size

/-! ## What an address names -/

/-- What an index and a sub-index name (R338, R341, R346): an object, the highest sub-index of an object, the directory object of an
index, or a ring's sub-object. -/
inductive Target where
  | obj (o : Obj)
  | count (highest : Nat)
  | dir (index : Nat)
  | ring (r sub : Nat)
deriving DecidableEq, Repr

/-- The objects of an index. -/
def objsAt (index : Nat) : List Obj := Obj.all.filter (fun o => o.desc.index == index)

/-- The sub-indices of an object from 0x100 upwards, in ascending order (R338, R346); a ring that is not open has none. -/
def State.subsOf (s : State) (index : Nat) : List Nat :=
  if 0x1000 ≤ index ∧ index < 0x2000 then (if (s.ring (index - 0x1000)).isOpen then List.range 6 else [])
  else
    let l := objsAt index
    let subs := (List.range 64).filter (fun i => l.any (fun o => decide (o.desc.subLo ≤ i ∧ i ≤ o.desc.subHi)))
    if subs.isEmpty ∨ subs.contains 0 then subs else 0 :: subs

/-- A directory object exists when the object that it describes does (R341): 0x00HH.LL for 0xHHLL, and 0x0000.LL for 0x00LL. -/
def State.dirExists (s : State) (index : Nat) : Bool :=
  if index < 0x100 then index == 0 || (List.range 256).any (fun l => !(s.subsOf (index * 256 + l)).isEmpty)
  else !(s.subsOf index).isEmpty

/-- What an index and a sub-index name; none for NO_OBJECT. -/
def State.target (s : State) (index sub : Nat) : Option Target :=
  if index < 0x100 then (if s.dirExists (index * 256 + sub) then some (.dir (index * 256 + sub)) else none)
  else if !(s.subsOf index).contains sub then none
  else if 0x1000 ≤ index then some (if sub = 0 then .count 5 else .ring (index - 0x1000) sub)
  else match (objsAt index).find? (fun o => decide (o.desc.subLo ≤ sub ∧ sub ≤ o.desc.subHi)) with
    | some o => some (.obj o)
    | none => some (.count ((s.subsOf index).getLast?.getD 0))

/-- The type of what an address names. -/
def Target.type (t : Target) : ObjType :=
  match t with
  | .obj o => o.desc.type
  | .count _ => .u8
  | .dir _ => .blob
  | .ring _ sub => if sub = 1 then .handle32 else .u64

/-! ## The values that objects read as -/

/-- The free value of an object whose value comes from enrolment. -/
def enrolledObj (n : Nat) : Val := .bytes (Config.enrolled n)

/-- An entry of the log as LOG_BLOCK gives it (R395, R397): a code of the spec's own is itself, and another lies in the class that R395
gives it; a non-secure reader gets the arguments of SECURE entries as zero. -/
def logBytes (e : LogEntry) (secure : Bool) : List Byte :=
  let code := if e.code < 0x8000 then e.code else e.code / 4096 * 4096 + Config.logCode e.code % 4096
  let hide := bit e.flags 1 && !secure
  let a (n : Nat) := natLe 4 (if hide then 0 else n)
  let b := natLe 8 e.time ++ natLe 4 e.seq ++ natLe 2 code ++ natLe 1 e.source ++ natLe 1 e.flags ++ a e.arg0 ++ a e.arg1 ++ a e.arg2
  b ++ natLe 4 (crc32c b).toNat

/-- Up to 32 entries from LOG_SELECT onwards (R397). -/
def State.logBlock (s : State) (secure : Bool) : List Byte :=
  (((s.log.flash ++ s.log.buf).filter (fun e => decide (s.obj .logSelect 0 ≤ e.seq))).take 32).flatMap (fun e => logBytes e secure)

/-- The value that an object reads as: the stored one, or what the unit that it mirrors holds. -/
def State.objNow (s : State) (o : Obj) (sub : Nat) (secure : Bool) : Val :=
  match o with
  | .leasesLive => .num (s.hearth.leases.filter (fun l => decide (l.part = sub - 1))).length
  | .sparesLeft => .num (((List.range 48).map (fun k => (s.sparesOf (sub - 1) k).length)).sum)
  | .binDegraded => .num (s.fld .binStatusDegraded (sub - 1))
  | .ceCount => .num (s.fld .binErrcntCount ((sub - 1) * 5))
  | .ueCount => .num (s.fld .binErrcntCount ((sub - 1) * 5 + 1))
  | .gateRejects => .num (((List.range 64).map (fun g => s.fld .binGateReject ((sub - 1) * 64 + g))).sum % 2 ^ 64)
  | .gqOut => .num (s.fld .urStatusGqOut 0)
  | .quarantined => .num (s.ur.pstate.filter (fun e => e.2.q)).length
  | .ledgerFree => .num (65536 - (s.ledger.recs.filter (fun e => decide (e.1 / 65536 = sub - 1 ∧ recState e.2 ≠ 0))).length)
  | .ledgerBase => .num s.ledgerBase
  | .edgeTime => .num ((s.obj .edgeTime sub + (match s.hpFeed (sub - 1) with
      | some f => (match f.edge with | some t => s.time - t | none => 0)
      | none => 0)) % 2 ^ 64)
  | .sieveCalls => .num (s.fld .svCntCount 0)
  | .sieveFails => .num (s.fld .svCntCount 3)
  | .identityPub => .bytes identityPub
  | .agreePub => .bytes agreePub
  | .vendorCert => enrolledObj 2
  | .macAddr => enrolledObj 3
  | .rootOk => .num (s.fld .secStatusRootOk 0)
  | .debugLevel => .num (s.fld .secStatusLevel 0)
  | .sessionsOpen => .num s.crier.sessions.length
  | .updState => .num (s.fld .rvStatusUpd 0)
  | .tclkStep => .num (s.fld .rvStatusStep 0)
  | .logBlock => .bytes (s.logBlock secure)
  | .pwrState => .num s.pwrState
  | .resetCause => .num (s.fld .rstStatusCause 0)
  | o => s.objVal o sub

/-- The value of a ring's sub-object (R346). -/
def Ring.sub (x : Ring) (sub : Nat) : Nat :=
  match sub with
  | 1 => x.handle
  | 2 => x.nextSeq
  | 3 => x.oldest
  | 4 => x.retired
  | _ => x.drops

/-! ## Access and world -/

/-- The access code of a world at an object (R8, R65): 0 NS, 1 S, 2 S/NS. -/
def State.worldCode (s : State) (o : Obj) (sub : Nat) : Nat :=
  match o.desc.world with
  | .s => 1
  | .sns => 2
  | .byPartition => if s.partSecure (sub - 1) then 2 else 0
  | _ => 0

/-- A world may read, or write, under a world code (R8). -/
def worldAllows (code : Nat) (write secure : Bool) : Bool := secure || code == 0 || (code == 2 && !write)

/-- The world code, and the access code, of what an address names. -/
def State.targetWorld (s : State) (t : Target) (sub : Nat) : Nat :=
  match t with
  | .obj o => s.worldCode o sub
  | .ring r _ => b2n (s.ring r).secure
  | _ => 2
def Target.access (t : Target) : Access := match t with | .obj o => o.desc.access | _ => .ro

/-- The block of CLK_EN that serves an object (R428); most have none. -/
def Obj.block (o : Obj) (sub : Nat) : Option Nat :=
  match o with
  | .audRate | .audTdm | .audSkipped => some 2
  | .camColour => some 8
  | .camStats | .lossTimeout => some 7
  | .crcErrors | .hdrErrors | .unmapped | .unsupported | .overflows => some (2 + sub)
  | .frames | .notOk | .skipped => some 9
  | .sieveCalls | .sieveFails | .sieveCapped => some 10
  | .samples | .voidSamples | .batches | .lowAlarms | .edgeTime | .ringOver => some 11
  | .replays | .keyRejects | .linkDrops => some (11 + sub)
  | .ledPwmHz => some 1
  | .macAddr | .ipv4Addr | .ipv4Mask | .ipv4Gw | .crierPort | .vlanId | .ethRole | .crierOpenEn | .sessionMax | .timeMode
  | .timeSynced | .crcDrops | .tagDrops | .duplicates => some 0
  | _ => none

/-- The clock of the block that serves an object runs. -/
def State.objClocked (s : State) (t : Target) (sub : Nat) : Bool :=
  match t with
  | .obj o => (match o.block sub with | some b => s.clocked b | none => true)
  | _ => true

/-- Steps 1 to 4 of R340: what the address names, or the code of the first check that fails. -/
def State.checkAccess (s : State) (index sub : Nat) (write secure : Bool) : Except Code Target :=
  match s.target index sub with
  | none => .error .noObject
  | some t =>
    if (write && t.access == .ro) || (!write && t.access == .wo) then .error .access
    else if !worldAllows (s.targetWorld t sub) write secure then .error .world
    else if !s.objClocked t sub then .error .gated
    else .ok t

/-- What a refused access leaves: a WORLD refusal is logged (R8), and a GATED one counted (R428, R434). -/
def State.refused (s : State) (c : Code) (index sub : Nat) : State :=
  if c = .world then s.objRefused index sub
  else if c = .gated then s.bumpObj .gatedAccesses 0 1
  else s

/-! ## The directory -/

/-- One entry of a directory object (R341). -/
def dirEntry (sub type access world : Nat) (persistent : Bool) (maxLen : Nat) (default : List Byte) : List Byte :=
  natLe 1 sub ++ natLe 1 type ++ natLe 1 (access + 4 * world + 16 * b2n persistent) ++ [0] ++ natLe 2 (maxLen % 65536) ++ [0, 0] ++
    (default ++ List.replicate 8 0).take 8

/-- The code of an access code in a directory entry. -/
def Access.dirCode (a : Access) : Nat := match a with | .ro => 0 | .wo => 2 | _ => 1

/-- The entry of one sub-index of an object from 0x100 upwards. -/
def State.dirOf (s : State) (index sub : Nat) : List Byte :=
  match s.target index sub with
  | some (.obj o) =>
    let t := o.desc.type
    let d := if t.size = 0 then natLe 2 (o.reset sub).toBytes.length else natLe 8 (o.reset sub).toNat
    dirEntry sub t.code o.desc.access.dirCode (s.worldCode o sub) o.desc.persistent o.maxLen d
  | some (.ring r n) =>
    dirEntry sub (if n = 1 then 0x0E else 5) 0 (b2n (s.ring r).secure) false (if n = 1 then 4 else 8)
      (natLe 8 (if n = 1 ∨ n = 5 then 0 else 1))
  | some (.count n) => dirEntry sub 2 0 2 false 1 (natLe 8 n)
  | _ => []

/-- The value of the directory object that describes an index. -/
def State.directory (s : State) (index : Nat) : List Byte :=
  if index < 0x100 then
    ((List.range 256).filter (fun l => s.dirExists (index * 256 + l))).flatMap (fun l => dirEntry l 0x0D 0 2 false 4096 [])
  else (s.subsOf index).flatMap (fun i => s.dirOf index i)

/-! ## Reading -/

/-- The bytes of what an address names. -/
def State.targetBytes (s : State) (t : Target) (sub : Nat) (secure : Bool) : List Byte :=
  match t with
  | .obj o => valBytes o.desc.type (s.objNow o sub secure)
  | .count n => natLe 1 n
  | .dir i => s.directory i
  | .ring r n => natLe (if n = 1 then 4 else 8) ((s.ring r).sub n)

/-- A READ (R340): the type and the whole value, or a code; more than 1,024 B is moved by the block operations only (R339). -/
def State.readObj (s : State) (index sub : Nat) (secure : Bool) : Except Code (Nat × List Byte) :=
  match s.checkAccess index sub false secure with
  | .error c => .error c
  | .ok t =>
    let b := s.targetBytes t sub secure
    if 1024 < b.length then .error .badLength else .ok (t.type.code, b)

/-! ## The range of a value -/

/-- The plain ranges of the object tables. -/
def Obj.limits (o : Obj) : Nat × Nat :=
  match o with
  | .holdSteps | .rowCeLimit | .gqUeLimit => (1, 255)
  | .pinMax | .tclkMaxStep | .pwrDeepest => (0, 3)
  | .hearthSplit | .timeMode => (0, 2)
  | .scrubInterval => (1, 65535)
  | .migDecay => (100, 100000)
  | .victimMax => (1, 16)
  | .portTarget => (100, 65535)
  | .actThreshold => (64, 65535)
  | .actWindow => (8, 64)
  | .neighbours => (1, 4)
  | .retrainMs => (20, 1000)
  | .partWorld | .ethRole => (0, 1)
  | .lossTimeout => (100, 1000000)
  | .spanMs => (1000, 12000)
  | .verifyMs => (100, 10000)
  | .beamPages => (0, 256)
  | .btnDebounceMs => (5, 100)
  | .longpressMs => (500, 10000)
  | .touchPeriodMs => (10, 100)
  | .hpdDebounceMs => (1, 100)
  | .ledPwmHz => (200, 32000)
  | .selftestMaxMs => (10, 10000)
  | .crierPort => (1024, 65535)
  | .vlanId => (0, 4094)
  | .sessionMax => (1, 64)
  | .hlReplyTimeout => (10, 100000)
  | .throttleC => (70, 95)
  | .throttleHyst => (2, 20)
  | .powerCapW => (10, 95)
  | .updCmd | .updKind => (1, 4)
  | .inrushBudget => (6, 32)
  | .clkReturnMs => (0, 10000)
  | .clkEnBoot => (0, 0x7FFF)
  | .sscDepth => (0, 20)
  | .sscRate => (40, 125)
  | .camStats => (0, 0xFFFFFF)
  | _ => (0, 2 ^ 64 - 1)

/-- A mask is contiguous from bit 31 downwards (R368). -/
def contiguous (v : Nat) : Bool := (List.range 33).any (fun n => v == 2 ^ 32 - 2 ^ n)

/-- The bits of an FP32 value are a NaN. -/
def bitsNan (v : Nat) : Bool := bits v 30 23 == 255 && bits v 22 0 != 0

/-- The value lies in the object's stated range (step 6 of R340). -/
def State.valueOk (s : State) (o : Obj) (sub v : Nat) : Bool :=
  decide (o.limits.1 ≤ v ∧ v ≤ o.limits.2) &&
  (match o.desc.type with | .bool => decide (v ≤ 1) | .f32 => !bitsNan v | _ => true) &&
  (match o with
  | .scaleMin => decide (v < 2 ^ 31 ∧ 1 ≤ bits v 30 23 ∧ bits v 30 23 ≤ 254)
  | .scaleMax => decide (v < 2 ^ 31 ∧ s.obj .scaleMin sub < v)
  | .spillSlots => decide (v ≤ 1024 * (s.quotaWays (sub - 1)).length)
  | .migPromote => decide (s.obj .migPromoteMin 0 ≤ v ∧ v ≤ s.obj .migPromoteMax 0)
  | .migPromoteMin => decide (1 ≤ v ∧ v ≤ s.obj .migPromoteMax 0)
  | .migPromoteMax => decide (s.obj .migPromoteMin 0 ≤ v)
  | .dramRate => [6400, 7500, 8533, 9600, 10667].contains v
  | .sieveLease | .partBase => decide (v ≤ 7 ∨ v = 0xFF)
  | .partSize => [1, 2, 4, 8].contains v
  | .audRate => [16, 48].contains v
  | .audTdm => decide (2 ≤ bits v 3 0 ∧ bits v 3 0 ≤ 8)
  | .beamBase => decide (v < s.urPages)
  | .ipv4Mask => contiguous v
  | .updLen => decide (v ≤ (if s.obj .updKind 0 = 0 then slotSize 4 else slotSize (s.obj .updKind 0)))
  | .dozeTimerMs => decide (v ≤ s.obj .dozeTimerMaxMs 0)
  | .dozeTimerMaxMs => decide (s.obj .dozeTimerMs 0 ≤ v ∧ v ≤ 60000)
  | _ => true)

/-- An audio-beam record of the partition is open (R286). -/
def State.beamOpen (s : State) (part : Nat) : Bool :=
  s.ledger.recs.any (fun e => decide (recType e.2 = 5 ∧ recState e.2 ≠ 0 ∧ recPart e.2 = part))

/-- The object's unit refuses a write while it is at work (R288, R362). -/
def State.objBusy (s : State) (o : Obj) (sub : Nat) : Bool :=
  match o with
  | .beamBase | .beamPages => s.beamOpen (sub - 1)
  | _ => false

/-! ## SAVE and RESTORE -/

/-- An object that carries P and that a world may write (R342). -/
def State.inScope (s : State) (o : Obj) (sub : Nat) (secure : Bool) : Bool :=
  o.desc.persistent && o.desc.access == .rw && worldAllows (s.worldCode o sub) true secure

/-- The objects, with their sub-indices, that a SAVE or a RESTORE of a world covers, by rising key. -/
def State.scope (s : State) (secure : Bool) : List (Obj × Nat) :=
  Obj.all.flatMap (fun o =>
    ((List.range (o.desc.subHi + 1 - o.desc.subLo)).map (o.desc.subLo + ·)).filterMap (fun i =>
      if s.inScope o i secure then some (o, i) else none))

/-- SAVE_STATE shows the request in progress (R342). -/
def State.showSave (s : State) (idle : Nat) : State :=
  s.setObj .saveState 0 (match s.crier.saves with | [] => idle | j :: _ => if j.restore then 2 else 1)

def State.queueSave (s : State) (j : SaveJob) : State :=
  (s.setCrier { s.crier with saves := s.crier.saves ++ [j] }).showSave 0

/-- SAVE (R342): the objects as they stand. -/
def State.saveObjects (s : State) (secure : Bool) : State :=
  let l := s.scope secure
  s.queueSave ⟨false, l.map (fun e => e.1.key e.2), l.map (fun e => (e.1.key e.2, s.objVal e.1 e.2))⟩

/-- What a write of a value does at once, beside storing it: the register of a port's target (R148), the timer of R393, an alarm that
may fire (R417), and MIG_PROMOTE that moves to the nearer limit (R131). -/
def State.putObj (s : State) (o : Obj) (sub : Nat) (v : Val) : State :=
  let s := s.setObjVal o sub v
  match o with
  | .portTarget => s.setTarget (sub - 1) v.toNat
  | .dozeTimerMs => s.setObj .dozeTimerEff 0 v.toNat
  | .dozeTimerMaxMs => s.setObj .dozeTimerEff 0 (min (s.obj .dozeTimerEff 0) v.toNat)
  | .wakeAlarm => s.setPwr { s.pwr with alarmSet := decide (v.toNat ≠ 0) }
  | .migPromoteMin => s.setObj .migPromote 0 (max v.toNat (s.obj .migPromote 0))
  | .migPromoteMax => s.setObj .migPromote 0 (min v.toNat (s.obj .migPromote 0))
  | _ => s

/-- RESTORE (R342): the objects take their defaults at once, and their saved values are erased. -/
def State.restoreObjects (s : State) (secure : Bool) : State :=
  let l := s.scope secure
  let s := l.foldl (fun (s : State) e => s.putObj e.1 e.2 (e.1.reset e.2)) s
  s.queueSave ⟨true, l.map (fun e => e.1.key e.2), []⟩

/-- The request in progress ends (R342): a record that was written rules, and the next request begins. -/
def State.saveDone (s : State) (ok : Bool) : State :=
  match s.crier.saves with
  | [] => s
  | j :: rest =>
    let old := s.rulingSave
    let kept := ((old.map (·.values)).getD []).filter (fun e => !j.scope.contains e.1)
    let rec' : SaveRec := ⟨(old.map (·.seq)).getD 0 + 1, kept ++ j.values⟩
    let s := s.setCrier { s.crier with
      saves := rest
      persist := if ok then old.toList ++ [rec'] else s.crier.persist }
    s.showSave (if !ok && !j.restore then 3 else 0)

/-- SAVE (R342): the write of SAVE. -/
def execAlmanacSave (secure : Bool) (s : State) : Host.Outcome State Fault Refusal := s.command fun s => .next (s.saveObjects secure)

/-- RESTORE (R342): the write of RESTORE. -/
def execAlmanacRestore (secure : Bool) (s : State) : Host.Outcome State Fault Refusal := s.command fun s => .next (s.restoreObjects secure)

/-- SAVE_COMPLETE (R342): the flash has taken the record of the request in progress, or failed. -/
def execAlmanacSaveComplete (ok : Bool) (s : State) : Host.Outcome State Fault Refusal := s.command fun s => .next (s.saveDone ok)

/-! ## Writing -/

/-- The effect of a write that has passed every check. -/
def State.writeEffect (s : State) (o : Obj) (sub : Nat) (v : Val) (secure : Bool) : State :=
  match o with
  | .partApply => if v.toNat = 1 then s.apply else s
  | .save => if v.toNat = 1 then s.saveObjects secure else s
  | .restore => if v.toNat = 1 then s.restoreObjects secure else s
  | .updCmd => s.updCommand v.toNat
  | .updData => s.updData v.toBytes
  | .attestNonce => s.attestNonce v.toBytes
  | o =>
    let s := if o.desc.type = .blob then s.bumpVersion (o.key sub) else s
    s.putObj o sub v

/-- The length of a value fits its object (step 5 of R340). -/
def Obj.lengthOk (o : Obj) (n : Nat) : Bool :=
  match o with
  | .attestNonce => n == 32
  | o => if o.desc.type.size = 0 then decide (n ≤ o.maxLen) else n == o.desc.type.size

/-- A WRITE (R340); a write through the window carries the object's own type (R343), and one that is not a block commit moves at most
1,024 B (R339). -/
def State.writeObj (s : State) (index sub : Nat) (type : Option Nat) (b : List Byte) (block secure : Bool) : Code × State :=
  match s.checkAccess index sub true secure with
  | .error c => (c, s.refused c index sub)
  | .ok (.obj o) =>
    if (match type with | some t => t != o.desc.type.code | none => false) then (.badType, s)
    else if !o.lengthOk b.length || (!block && decide (1024 < b.length)) then (.badLength, s)
    else if o.desc.type.size ≠ 0 ∧ s.valueOk o sub (leNat b) = false then (.badValue, s)
    else if s.objBusy o sub then (.busy, s)
    else (.ok, s.writeEffect o sub (valOf o.desc.type b) secure)
  | .ok _ => (.access, s)

/-! ## Blocks -/

/-- The blocks of a transfer joined from byte `pos` on, or none where a gap is left (R361). -/
def joinBlocks (fuel pos total : Nat) (l : List (Nat × List Byte)) : Option (List Byte) :=
  if total ≤ pos then some [] else
  match fuel with
  | 0 => none
  | n + 1 =>
    match l.find? (fun e => decide (e.1 ≤ pos ∧ pos < e.1 + e.2.length)) with
    | none => none
    | some e => (joinBlocks n (e.1 + e.2.length) total l).map (e.2.drop (pos - e.1) ++ ·)

/-- One block of a BLOB (R361): TOTAL, VERSION and the data from OFFSET. -/
def State.readBlock (s : State) (index sub offset count : Nat) (secure : Bool) : Except Code (Nat × Nat × List Byte) :=
  match s.checkAccess index sub false secure with
  | .error c => .error c
  | .ok t =>
    if t.type ≠ .blob then .error .badType else
    let b := s.targetBytes t sub secure
    if count < 1 ∨ 1024 < count then .error .badValue
    else if offset % 256 ≠ 0 ∨ b.length < offset ∨ (count % 256 ≠ 0 ∧ offset + count < b.length) then .error .badLength
    else .ok (b.length, SMap.get s.crier.versions (index * 256 + sub) 0, (b.drop offset).take count)

/-- Stage a block, and commit the object with the last one (R361): the code, the staging that is left, and the state. -/
def State.writeBlock (s : State) (st : Option Staging) (index sub offset total : Nat) (data : List Byte) (last secure : Bool) :
    Code × Option Staging × State :=
  match s.checkAccess index sub true secure with
  | .error c => (c, st, s.refused c index sub)
  | .ok t =>
    if t.type ≠ .blob then (.badType, st, s)
    else if offset % 256 ≠ 0 ∨ 65536 < total ∨ total < offset + data.length ∨
        (data.length % 256 ≠ 0 ∧ offset + data.length ≠ total) then (.badLength, st, s)
    else
      let held := match st with
        | some x => if x.index = index ∧ x.sub = sub ∧ x.total = total then x.blocks else []
        | none => []
      let blocks := (offset, data) :: held.filter (fun e => decide (e.1 ≠ offset))
      if !last then (.ok, some ⟨index, sub, total, blocks⟩, s) else
      match joinBlocks (blocks.length + 1) 0 total blocks with
      | none => (.badLength, none, s)
      | some b =>
        let r := s.writeObj index sub none (b.take total) true secure
        (r.1, none, r.2)

/-! ## Rings -/

/-- The ring that an object index names, for PULL, ACK and SUBSCRIBE (R346). -/
def State.ringAt (s : State) (index : Nat) (secure : Bool) : Except Code Nat :=
  if index < 0x1000 ∨ 0x2000 ≤ index then .error .noObject
  else if !(s.ring (index - 0x1000)).isOpen then .error .noObject
  else if (s.ring (index - 0x1000)).secure && !secure then .error .world
  else .ok (index - 0x1000)

/-- What a PULL gives (R348, R356): its code, REPEAT, and the records. -/
structure Pulled where
  code : Code
  repeat' : Nat
  records : List (List Byte)
deriving DecidableEq, Repr

/-- A record's own seal holds (R304). -/
def recordSealOk (b : List Byte) : Bool :=
  leNat ((b.drop 12).take 4) == (crc32c (b.take 12 ++ natLe 4 0 ++ b.drop 16)).toNat

/-- Read records `q`, `q + 1`, … of a ring; with `verify`, the record seal too is checked (R304).  A read that fails gives none. -/
def State.pullRecords (s : State) (r : Nat) (verify : Bool) (obs : List Obs) (n q : Nat) : Option (List (List Byte)) × State :=
  match n with
  | 0 => (some [], s)
  | n + 1 =>
    let x := s.ring r
    match s.urRead (unitReq 0x17 (x.secure || r == 0)) (x.store * 4096 + q % 4096 * 64) 64 obs with
    | (.error _, s) => (none, s.logIt .ring 0x17 8 r q 0)
    | (.ok b, s) =>
      if verify && !recordSealOk b then (none, s.logIt .ring 0x17 8 r q 1) else
      match s.pullRecords r verify obs n (q + 1) with
      | (none, s) => (none, s)
      | (some l, s) => (some (b :: l), s)

/-- PULL (R348, R356). -/
def State.pull (s : State) (r first count : Nat) (verify : Bool) (obs : List Obs) : Pulled × State :=
  let x := s.ring r
  if count < 1 ∨ 16 < count then (⟨.badValue, 0, []⟩, s)
  else if x.nextSeq ≤ first then (⟨.notReady, 0, []⟩, s)
  else if first < x.oldest then (⟨.stale, 0, []⟩, s)
  else
    let n := min count (x.nextSeq - first)
    match s.pullRecords r verify obs n first with
    | (none, s) => (⟨.dataError, 0, []⟩, s)
    | (some l, s) =>
      let slot (i : Nat) := r * 4096 + (first + i) % 4096
      let rep := (List.range n).foldl (fun m i => if SMap.get s.ledger.readBit (slot i) false then m + 2 ^ i else m) 0
      let bits := (List.range n).foldl (fun m i => SMap.put m (slot i) true false) s.ledger.readBit
      (⟨.ok, rep, l⟩, { s with ledger := { s.ledger with readBit := bits } })

/-- ACK (R349): the code, and RETIRED. -/
def State.ack (s : State) (r a : Nat) : Code × State :=
  let x := s.ring r
  if x.nextSeq ≤ a then (.badValue, s) else (.ok, s.setRing r { x with retired := max x.retired (a + 1) })

/-! ## Publication -/

/-- A record of a sequence that a job generates (R13): the moment from which its deadline runs, and the deadline, if it has one. -/
def State.generated (s : State) (j : Job) : Nat × Option Nat :=
  match j.lastReady with
  | none => (j.submit, if j.desc.deadline = 0 then none else some (max j.submit s.pwr.resumeEnd + j.desc.deadline * 1000))
  | some t => (t, some (max t s.pwr.resumeEnd + 250000000))

/-- RESULT_PUBLISH (R11 to R14, R344, R347): the job on a core, or software without one, publishes a record to the ring of a handle. -/
def execResultPublish (core : Option Nat) (handle subject evidence cls flags code : Nat) (payload : List Byte) (at_ : Nat) (s : State) :
    Host.Outcome State Fault Refusal := s.command fun s =>
  let s := s.reach at_
  let job := match core with | some c => (s.core c).job | none => none
  match job with
  | none => .next (s.publishTo handle subject evidence cls (flags / 2 % 2 * 2) code payload)
  | some j =>
    let out := decide (handle = j.desc.outH)
    let gen := out && decide (cls = 2 ∧ j.desc.append ≠ 0)
    let g := if gen then s.generated j else (evidence, some (s.readyBy true cls evidence))
    let r := s.recOf handle
    if s.stale handle || recType r != 6 then .next (s.publishTo handle subject g.1 cls 0 code payload) else
    let n := recField r 8 11 0
    let t := s.publishDue n subject g.1 cls (2 * b2n j.degraded) code payload g.2
    let late := (match g.2 with | some d => decide (d < s.time) | none => false) ||
      decide (j.records = 0 ∧ j.desc.deadline ≠ 0 ∧ j.submit + j.desc.deadline * 1000 < s.time)
    let j' := if out ∧ (t.ring n).nextSeq ≠ (s.ring n).nextSeq then { j with
        records := j.records + 1
        recordLate := j.recordLate || late
        lastReady := if gen then some s.time else j.lastReady }
      else j
    .next (t.updCore (core.getD 0) (fun x => { x with job := some j' }))

end Sys2Proof.Machine
end

