-- ==== Sys2Proof/Machine/Crier.lean ====
section
/-!
DEFINITION. The Crier (R352 to R363): frames and their checks, sessions, the operations on objects and rings, and the window of R343,
which runs the same operations.
-/
namespace Sys2Proof.Machine

/-- The field of `n` bytes at byte `a` of a payload. -/
def pay (p : List Byte) (a n : Nat) : Nat := leNat ((p.drop a).take n)

/-! ## Frames -/

/-- The header of R353. -/
def crierHeader (op flags session len seq ctr : Nat) : List Byte :=
  natLe 2 0x4743 ++ natLe 1 op ++ natLe 1 flags ++ natLe 2 session ++ natLe 2 len ++ natLe 4 seq ++ natLe 4 ctr

def framePeer (f : CrierFrame) : Peer := ⟨f.transport, f.ip, f.mac, f.port⟩

/-- The header of a frame as it arrived. -/
def frameHeader (f : CrierFrame) (op : Nat) : List Byte :=
  natLe 2 f.magic ++ natLe 1 op ++ natLe 1 f.flags ++ natLe 2 f.session ++ natLe 2 f.len ++ natLe 4 f.seq ++ natLe 4 f.ctr

/-- Steps 1 and 2 of R354. -/
def frameIntact (f : CrierFrame) (op : Nat) : Bool :=
  decide (f.magic = 0x4743 ∧ bits f.flags 7 6 = 1 ∧ f.len = f.payload.length ∧ f.len ≤ 1400) &&
  f.crc == (crc32c (frameHeader f op ++ f.payload ++ f.tag)).toNat

def frameSecure (f : CrierFrame) : Bool := bit f.flags 1
def frameLast (f : CrierFrame) : Bool := bit f.flags 3

/-- The nonce of a frame (R357): the slot's fixed field, bit 31 inverted for frames to the device, and CTR. -/
def crierNonce (fixed ctr : Nat) (toDevice : Bool) : List Byte :=
  natLe 4 (if toDevice then fixed ^^^ 2 ^ 31 else fixed) ++ natLe 8 ctr

/-- Send a frame to a peer; a follower's goes to its master (R380). -/
def State.sendFrame (s : State) (peer : Peer) (b : List Byte) : State :=
  if peer.transport = 2 then s.sendMgmt peer.port b
  else s.send ⟨.crier, peer.transport, [peer.ip, peer.mac, peer.port, s.crier.net.vlan], b⟩

/-- Send an open frame. -/
def State.sendOpen (s : State) (peer : Peer) (op flags session seq : Nat) (payload : List Byte) : State :=
  let b := crierHeader op flags session payload.length seq 0 ++ payload
  s.sendFrame peer (b ++ natLe 4 (crc32c b).toNat)

/-- Send a frame on a session; on a secure one it takes the next CTR, and a session whose CTR is used up is closed (R357). -/
def State.sendOn (s : State) (n op flags seq : Nat) (payload : List Byte) : State :=
  match s.session n with
  | none => s
  | some x =>
    if !x.secure then s.sendOpen x.peer op flags n seq payload else
    let k := s.keySlot x.slot
    if 2 ^ 32 ≤ k.ctr then s.endSession n else
    let h := crierHeader op (flags + 2) n payload.length seq k.ctr
    let b := h ++ Config.gcmSeal k.key (crierNonce k.fixed k.ctr false) h payload
    (s.setKeySlot x.slot { k with ctr := k.ctr + 1 }).sendFrame x.peer (b ++ natLe 4 (crc32c b).toNat)

/-- FLAGS of a response, and of a NOTIFY: version 0b01, and RESPONSE. -/
def respFlags : Nat := 0x41
def notifyFlags : Nat := 0x40

/-! ## Which operations are served -/

/-- In recovery the Crier serves CLOSE, and the objects of the log, of attestation and of updates (R442); after a failed root only the log
(R325). -/
def State.serves (s : State) (op index : Nat) : Except Code Unit :=
  let log := decide (0x0410 ≤ index ∧ index ≤ 0x0414)
  let stopped := decide (s.boot.stage = .stopped)
  if !stopped && !s.flag .rstStatusRecovery 0 then .ok ()
  else if op = 3 then .ok ()
  else if op < 4 ∨ 7 < op then .error .badOp
  else if log || (!stopped && (index == 0x0100 || decide (0x0420 ≤ index ∧ index ≤ 0x0428))) then .ok ()
  else .error .noObject

/-- The objects whose domain is off in REST (R405, R417): those of the Mill, the DRAM, the cameras, the Hopper and the Hedgeline's ports. -/
def indexOff (index : Nat) : Bool :=
  decide ((0x0900 ≤ index ∧ index ≤ 0x0DFF) ∨ (0x0E07 ≤ index ∧ index ≤ 0x0E09) ∨ 0x1000 ≤ index)

/-- The index that an operation names; ABORT names a job of the Mill. -/
def opIndex (op : Nat) (p : List Byte) : Nat := if op = 8 then pay p 1 2 else if op = 12 then 0x0C00 else pay p 0 2

/-- The operation must wait for a resume from REST (R417). -/
def State.mustWait (s : State) (op : Nat) (p : List Byte) : Bool :=
  decide (4 ≤ op ∧ op ≤ 12 ∧ op ≠ 9) && indexOff (opIndex op p) &&
  decide (s.pwrState = 3 ∨ (s.entering = true ∧ s.pwr.target = 3))

/-! ## The operations -/

/-- The seals of a run of bytes, the last grain padded with zeros (R361). -/
def grainSeals (fuel : Nat) (b : List Byte) : List Word :=
  match fuel with
  | 0 => []
  | n + 1 => if b.isEmpty then [] else crc32c ((b.take 256) ++ List.replicate (256 - b.length) 0) :: grainSeals n (b.drop 256)
def sealsOf (b : List Byte) : List Byte := (grainSeals (b.length / 256 + 1) b).flatMap (fun w => natLe 4 w.toNat)

/-- What an operation answers: its code, the payload after it, and the state. -/
abbrev Reply := Code × List Byte × State

def State.opRead (s : State) (p : List Byte) (secure : Bool) : Reply :=
  if p.length ≠ 3 then (.badLength, [], s) else
  match s.readObj (pay p 0 2) (pay p 2 1) secure with
  | .error c => (c, [], s.refused c (pay p 0 2) (pay p 2 1))
  | .ok (t, b) => (.ok, natLe 1 t ++ natLe 2 b.length ++ b, s)

def State.opWrite (s : State) (p : List Byte) (secure : Bool) : Reply :=
  if p.length < 6 ∨ p.length ≠ 6 + pay p 4 2 then (.badLength, [], s) else
  let r := s.writeObj (pay p 0 2) (pay p 2 1) (some (pay p 3 1)) (p.drop 6) false secure
  (r.1, [], r.2)

def State.opReadBlock (s : State) (p : List Byte) (secure : Bool) : Reply :=
  if p.length ≠ 9 then (.badLength, [], s) else
  match s.readBlock (pay p 0 2) (pay p 2 1) (pay p 3 4) (pay p 7 2) secure with
  | .error c => (c, [], s.refused c (pay p 0 2) (pay p 2 1))
  | .ok (total, version, b) => (.ok, natLe 4 total ++ natLe 4 version ++ natLe 2 b.length ++ sealsOf b ++ b, s)

/-- WRITE_BLOCK on a session (R361): a block whose seals fail is not staged. -/
def State.opWriteBlock (s : State) (n : Nat) (x : Session) (p : List Byte) (last : Bool) : Reply :=
  let count := pay p 7 2
  let grains := ceilDiv count 256
  if p.length < 13 ∨ p.length ≠ 13 + 4 * grains + count then (.badLength, [], s) else
  let data := p.drop (13 + 4 * grains)
  if (p.drop 13).take (4 * grains) ≠ sealsOf data then (.dataError, [], s) else
  let r := s.writeBlock x.staging (pay p 0 2) (pay p 2 1) (pay p 3 4) (pay p 9 4) data last x.secure
  let s := match r.2.2.session n with
    | some y => r.2.2.setSession n (some { y with staging := r.2.1 })
    | none => r.2.2
  (r.1, [], s)

/-- What a subscription watches (R360): the answer to SUBSCRIBE, and the bytes that a NOTIFY carries. -/
def State.watched (s : State) (kind index sub : Nat) (secure : Bool) : Except Code (List Byte × List Byte) :=
  if kind = 0 then
    match s.ringAt index secure with
    | .error c => .error c
    | .ok r => let b := natLe 8 (s.ring r).nextSeq; .ok (b, b)
  else if kind = 1 then
    match s.readObj index sub secure with
    | .error c => .error c
    | .ok (t, b) => .ok (natLe 1 t ++ natLe 2 b.length ++ b, b)
  else .error .badValue

/-- SUBSCRIBE (R360). -/
def State.opSubscribe (s : State) (n : Nat) (x : Session) (p : List Byte) : Reply :=
  if p.length ≠ 6 then (.badLength, [], s) else
  let kind := pay p 0 1
  let index := pay p 1 2
  let sub := if kind = 0 then 0 else pay p 3 1
  let interval := pay p 4 2
  match s.watched kind index sub x.secure with
  | .error c => (c, [], s.refused c index sub)
  | .ok (answer, shown) =>
    let same (y : Subscription) : Bool := decide (y.kind = kind ∧ y.index = index ∧ y.sub = sub)
    if interval = 0 then
      (.ok, answer, s.setSession n (some { x with subs := x.subs.filter (fun y => !same y) }))
    else if x.subs.any same then
      (.ok, answer, s.setSession n (some { x with subs := x.subs.map (fun y => if same y then { y with interval := interval } else y) }))
    else if 16 ≤ x.subs.length then (.full, [], s)
    else (.ok, answer, s.setSession n (some { x with subs := x.subs ++ [⟨kind, index, sub, interval, shown, 0⟩] }))

/-- PULL on a session (R356): the codes that name a record carry the ring's state. -/
def State.opPull (s : State) (p : List Byte) (obs : List Obs) (secure : Bool) : Reply :=
  if p.length ≠ 11 then (.badLength, [], s) else
  match s.ringAt (pay p 0 2) secure with
  | .error c => (c, [], s.refused c (pay p 0 2) 0)
  | .ok r =>
    let x := s.pull r (pay p 3 8) (pay p 2 1) true obs
    let code := x.1.code
    if code = .ok ∨ code = .notReady ∨ code = .stale then
      (code, natLe 1 x.1.records.length ++ natLe 2 x.1.repeat' ++ natLe 8 (x.2.ring r).nextSeq ++ natLe 8 (x.2.ring r).oldest ++
        x.1.records.flatten, x.2)
    else (code, [], x.2)

def State.opAck (s : State) (p : List Byte) (secure : Bool) : Reply :=
  if p.length ≠ 10 then (.badLength, [], s) else
  match s.ringAt (pay p 0 2) secure with
  | .error c => (c, [], s.refused c (pay p 0 2) 0)
  | .ok r =>
    let x := s.ack r (pay p 2 8)
    (x.1, if x.1 = .ok then natLe 8 (x.2.ring r).retired else [], x.2)

def State.opAbort (s : State) (p : List Byte) (secure : Bool) : Reply :=
  if p.length ≠ 3 then (.badLength, [], s) else
  let r := s.abortJob (pay p 0 1) (pay p 1 2) secure
  (.ok, natLe 1 r.1, r.2)

/-- The operations on a session, by code (R355); any other is BAD_OP. -/
def State.runCrierOp (s : State) (n : Nat) (x : Session) (op : Nat) (p : List Byte) (last : Bool) (obs : List Obs) : Reply :=
  match s.serves op (opIndex op p) with
  | .error c => (c, [], s)
  | .ok _ =>
    match op with
    | 3 => (if p.isEmpty then .ok else .badLength, [], s)
    | 4 => s.opRead p x.secure
    | 5 => s.opWrite p x.secure
    | 6 => s.opReadBlock p x.secure
    | 7 => s.opWriteBlock n x p last
    | 8 => s.opSubscribe n x p
    | 10 => s.opPull p obs x.secure
    | 11 => s.opAck p x.secure
    | 12 => s.opAbort p x.secure
    | _ => (.badOp, [], s)

/-! ## Serving a request -/

/-- Remember an answer (R359): the codes of the last 64 SEQs, and the responses of the last 8. -/
def Session.remember (x : Session) (seq op : Nat) (payload : List Byte) : Session :=
  let top := max seq (x.maxSeq.getD 0)
  let l := (Answer.mk seq op (some payload) :: x.answers).filter (fun a => decide (top ≤ a.seq + 64))
  { x with
    maxSeq := some top
    answers := l.take 8 ++ (l.drop 8).map (fun a => { a with payload := none }) }

/-- Update the session's record (R363). -/
def State.recordSession (s : State) (x : Session) : State :=
  let slot := handleSlot x.record
  let r := setRecField (setRecField (s.recAt slot) 28 31 0 (x.rxCtr - 1)) 32 31 0 (x.maxSeq.getD 0)
  s.setRec slot r

/-- Run a request of a session, answer it, and end the session after a CLOSE. -/
def State.serve (s : State) (n seq op : Nat) (p : List Byte) (last : Bool) (obs : List Obs) : State :=
  match s.session n with
  | none => s
  | some x =>
    let r := s.runCrierOp n x op p last obs
    let payload := natLe 1 r.1.num ++ r.2.1
    let s := match r.2.2.session n with
      | none => r.2.2
      | some y => let y := y.remember seq op payload; (r.2.2.setSession n (some y)).recordSession y
    let s := s.sendOn n op respFlags seq payload
    if op = 3 ∧ r.1 = .ok then s.endSession n else s

/-! ## IDENTIFY and OPEN -/

/-- The bytes of a NONCE. -/
def nonceBytes (place : Nat) : List Byte := (List.range 32).map (Config.freeByte place)

/-- IDENTIFY (R355, R357): the NONCE is the last one given to the same source. -/
def State.identify (s : State) (peer : Peer) (seq : Nat) : State :=
  let f := s.fresh
  let s := f.2
  let name (o : Obj) (i : Nat) := padTo 32 (s.objNow o i false).toBytes
  let p := natLe 1 0 ++ name .vendor 1 ++ name .part 2 ++ name .stepping 3 ++ padTo 64 (Config.shake256 identityPub 64) ++
    nonceBytes f.1
  let s := s.setCrier { s.crier with
    nonces := s.crier.nonces.filter (fun x => decide (x.peer ≠ peer)) ++ [⟨peer, f.1, s.time⟩] }
  s.sendOpen peer 1 respFlags 0 seq p

/-- The lowest free session number and, for a secure session, key slot. -/
def State.freeSession (s : State) : Nat := ((List.range 65).find? (fun i => decide (1 ≤ i) && (s.session i).isNone)).getD 65
def State.freeKeySlot (s : State) : Option Nat := ((List.range 16).map (240 + ·)).find? (fun n => !(s.keySlot n).loaded)

/-- The record of a session (R363). -/
def sessionRecord (n : Nat) (x : Session) (gen : Nat) : Nat :=
  recHeader 8 0 0 gen x.secure + (n + b2n x.secure * 2 ^ 16 + x.slot * 2 ^ 17) * 2 ^ 64 + x.peer.ip % 2 ^ 32 * 2 ^ 96 +
    x.peer.mac % 2 ^ 48 * 2 ^ 128 + x.peer.port % 2 ^ 16 * 2 ^ 176 + x.timeout * 2 ^ 192 + x.keyid % 256 * 2 ^ 208

/-- Open a session whose record is `slot` of bank 0 (R357, R363). -/
def State.openAt (s : State) (x : Session) (slot : Nat) : Nat × State :=
  let gen := s.nextRecGen slot
  let n := s.freeSession
  let x := { x with record := handleOf slot gen }
  (n, ((s.setRec slot (sessionRecord n x gen)).setSession n (some x)).countSessions)

/-- Open a session with its record (R357, R363); FULL when the bank of session records has no free one. -/
def State.newSession (s : State) (x : Session) : Option (Nat × State) := (s.freeRecord 0).map (s.openAt x)

/-- The checks of a secure OPEN (R357): its NONCE, not used and less than 10 s old, when the signature holds. -/
def State.openAuth (s : State) (peer : Peer) (p : List Byte) : Option Nonce :=
  let key := (p.drop 4).take 56
  let sig := (p.drop 60).take 114
  match s.crier.nonces.find? (fun x => decide (x.peer = peer)) with
  | none => none
  | some x =>
    if s.time < x.at_ + 10000000000 ∧ s.flag .secStatusRootOk 0 = true ∧
      Config.signedBy (256 + pay p 3 1) s.sec.auth (nonceBytes x.place ++ key) sig = true then some x else none

/-- A secure session (R357): the NONCE is used up, the key is agreed, and the device signs the transcript. -/
def State.openSecure (s : State) (peer : Peer) (p : List Byte) (timeout : Nat) : Code × Nat × List Byte × State :=
  match s.openAuth peer p, s.freeKeySlot with
  | none, _ => (.auth, 0, [], s.logIt .session 0x12 4 peer.ip 0 0)
  | _, none => (.full, 0, [], s)
  | some x, some slot =>
    let s := s.setCrier { s.crier with nonces := s.crier.nonces.filter (fun y => decide (y ≠ x)) }
    let f := s.fresh
    let mine := padTo 56 (Config.ephemeral f.1)
    let t := Config.transcript (nonceBytes x.place) p mine
    let k := padTo 36 (Config.shake256 (Config.sharedSecret f.1 ((p.drop 4).take 56) ++ t) 36)
    match f.2.newSession ⟨true, peer, timeout, slot, pay p 3 1, 0, 0, none, [], [], none, s.time⟩ with
    | none => (.full, 0, [], f.2)
    | some (n, s) =>
      (.ok, n, mine ++ padTo 114 (Config.sign 0 t), s.loadSlot slot ⟨true, false, k.take 32, leNat (k.drop 32), 0, 8⟩)

/-- OPEN (R355, R357): the code, the session, the rest of the answer, and the state. -/
def State.openSession (s : State) (peer : Peer) (p : List Byte) : Code × Nat × List Byte × State :=
  let mode := pay p 0 1
  let timeout := pay p 1 2
  let only := decide (s.boot.stage = .stopped)
  if p.length < 3 then (.badLength, 0, [], s)
  else if 1 < mode ∨ timeout < 1 ∨ 3600 < timeout then (.badValue, 0, [], s)
  else if p.length ≠ (if mode = 1 then 174 else 3) then (.badLength, 0, [], s)
  else if s.obj .sessionMax 0 ≤ s.crier.sessions.length ∨
      (mode = 1 ∧ 16 ≤ (s.crier.sessions.filter (fun e => (e.2.map (·.secure)).getD false)).length) then (.full, 0, [], s)
  else if mode = 1 then s.openSecure peer p timeout
  else if s.obj .crierOpenEn 0 ≠ 1 ∨ (s.flag .rstStatusRecovery 0 = true ∧ only = false) then (.auth, 0, [], s)
  else match s.newSession ⟨false, peer, timeout, 0, 0, 0, 0, none, [], [], none, s.time⟩ with
    | none => (.full, 0, [], s)
    | some (n, s) => (.ok, n, [], s)

/-- Answer an OPEN. -/
def State.serveOpen (s : State) (peer : Peer) (seq : Nat) (p : List Byte) : State :=
  let r := s.openSession peer p
  r.2.2.2.sendOpen peer 2 respFlags r.2.1 seq (natLe 1 r.1.num ++ (if r.1 = .ok then natLe 2 r.2.1 else []) ++ r.2.2.1)

/-! ## Arrival -/

/-- The Crier runs: its domain and its clock are on, the device is not held, and start-up has reached it (R325, R432). -/
def State.crierUp (s : State) : Bool :=
  s.powerGood 2 && !s.flag .clkStatusHeld 0 && (decide (s.boot.stage = .stopped) || (decide (s.boot.stage = .run) && s.clocked 0))

/-- Steps 3 to 6 of R354 and what follows for a request of a session (R358, R359): its timer starts again; a SEQ that has been answered is
answered as before; a new one runs, or waits for a resume. -/
def State.onSession (s : State) (op : Nat) (f : CrierFrame) (obs : List Obs) : State :=
  let noSession (s : State) := s.sendOpen (framePeer f) op respFlags f.session f.seq (natLe 1 Code.noSession.num)
  match s.session f.session with
  | none => noSession s
  | some x =>
    if x.peer ≠ framePeer f ∨ frameSecure f ≠ x.secure then noSession s else
    let k := s.keySlot x.slot
    let plain := if x.secure then
        (if f.ctr < x.rxCtr then none
         else Config.gcmOpen k.key (crierNonce k.fixed f.ctr true) (frameHeader f op) (f.payload ++ f.tag))
      else some f.payload
    match plain with
    | none => (s.bumpObj .tagDrops 0 1).logIt .tagDrop 0x12 4 f.session 0 0
    | some p =>
      let x := { x with lastFrame := s.time, rxCtr := if x.secure then f.ctr + 1 else 0 }
      let s := (s.setSession f.session (some x)).recordSession x
      let top := x.maxSeq.getD 0
      if f.seq + 64 < top then s
      else match x.answers.find? (fun a => decide (a.seq = f.seq)) with
      | some a =>
        let s := s.bumpObj .duplicates 0 1
        s.sendOn f.session a.op respFlags f.seq (a.payload.getD (natLe 1 Code.duplicate.num))
      | none =>
        if s.crier.waiting.any (fun w => decide (w.session = f.session ∧ w.seq = f.seq)) then s
        else if s.mustWait op p then
          (s.setCrier { s.crier with waiting := s.crier.waiting ++ [⟨f.session, framePeer f, f.seq, op, frameLast f, p⟩] }).wake 7 s.time 0
        else s.serve f.session f.seq op p (frameLast f) obs

/-- A frame arrives (R352, R354).  UDP needs an address; only IDENTIFY may be broadcast; a frame with RESPONSE set is no request.  In
LISTEN with the port awake a frame wakes the device, and IDENTIFY and OPEN wait for the resume (R420). -/
def State.frameIn (s : State) (op : Nat) (f : CrierFrame) (obs : List Obs) : State :=
  if !s.crierUp || (f.transport == 0 && s.crier.net.ip == 0) || (f.broadcast && op != 1) then s
  else if !frameIntact f op then s.bumpObj .crcDrops 0 1
  else if bit f.flags 0 then s
  else
    let listen := decide (s.pwrState = 4 ∨ (s.entering = true ∧ s.pwr.target = 4))
    if (op = 1 ∨ op = 2) ∧ frameSecure f = false then
      if listen then
        (s.setCrier { s.crier with waiting := s.crier.waiting ++ [⟨0, framePeer f, f.seq, op, frameLast f, f.payload⟩] }).wake 7 s.time 0
      else if op = 1 then s.identify (framePeer f) f.seq else s.serveOpen (framePeer f) f.seq f.payload
    else if op = 1 ∨ op = 2 then s.sendOpen (framePeer f) op respFlags f.session f.seq (natLe 1 Code.noSession.num)
    else
      let s := s.onSession op f obs
      if listen then s.wake 7 s.time 0 else s

/-- The requests that waited run after the resume (R417). -/
def State.serveWaiting (s : State) : State :=
  let l := s.crier.waiting
  l.foldl (fun (s : State) w =>
    if w.session = 0 then (if w.op = 1 then s.identify w.peer w.seq else s.serveOpen w.peer w.seq w.payload)
    else s.serve w.session w.seq w.op w.payload w.last []) (s.setCrier { s.crier with waiting := [] })

/-! ## The window -/

/-- The data area of a channel (R343, R367). -/
def chKey (ch i : Nat) : Nat := ch * 4096 + 0x40 + i
def State.chData (s : State) (ch n : Nat) : List Byte := SMap.getRun s.crier.window (chKey ch 0) (min n 4032) 0
def State.setChData (s : State) (ch : Nat) (b : List Byte) : State :=
  (s.setCrier { s.crier with window := SMap.putRun s.crier.window (chKey ch 0) (b.take 4032) 0 }).setFld .chLenLen ch (min b.length 4032)

/-- The staging of a channel. -/
def State.chStaging (s : State) (ch : Nat) : Option Staging := SMap.get s.crier.winStaging ch none
def State.setChStaging (s : State) (ch : Nat) (x : Option Staging) : State :=
  s.setCrier { s.crier with winStaging := SMap.put s.crier.winStaging ch x none }

/-- An operation of the window (R343), in the channel's world: the code and the state with its results. -/
def State.windowOp (s : State) (ch op : Nat) (last : Bool) (obs : List Obs) : Code × State :=
  let secure := decide (8 ≤ ch)
  let index := s.fld .chObjIndex ch
  let sub := s.fld .chObjSub ch
  let len := s.fld .chLenLen ch
  match op with
  | 4 =>
    match s.readObj index sub secure with
    | .error c => (c, s.refused c index sub)
    | .ok (t, b) => (.ok, (s.setChData ch b).setFld .chInfoType ch t)
  | 5 => if 4032 < len then (.badLength, s) else s.writeObj index sub none (s.chData ch len) false secure
  | 6 =>
    match s.readBlock index sub (s.fld .chOffsetOffset ch) len secure with
    | .error c => (c, s.refused c index sub)
    | .ok (total, version, b) => (.ok, s.setChData ch (natLe 4 total ++ natLe 4 version ++ b))
  | 7 =>
    if len < 4 ∨ 4032 < len then (.badLength, s) else
    let d := s.chData ch len
    let r := s.writeBlock (s.chStaging ch) index sub (s.fld .chOffsetOffset ch) (pay d 0 4) (d.drop 4) last secure
    (r.1, r.2.2.setChStaging ch r.2.1)
  | 10 =>
    match s.ringAt index secure with
    | .error c => (c, s.refused c index 0)
    | .ok r =>
      let x := s.pull r (s.fld .chSeqSeq ch) (s.fld .chInfoCount ch) false obs
      let t := x.2.setFlds ch [(.chInfoRepeat, x.1.repeat'), (.chInfoCount, x.1.records.length)]
      if x.1.code = .ok then (.ok, t.setChData ch x.1.records.flatten)
      else if x.1.code = .stale then (.stale, t.setFld .chSeqSeq ch (t.ring r).oldest)
      else if x.1.code = .badValue then (.badValue, s)
      else (x.1.code, t)
  | 11 =>
    match s.ringAt index secure with
    | .error c => (c, s.refused c index 0)
    | .ok r =>
      let x := s.ack r (s.fld .chSeqSeq ch)
      (x.1, if x.1 = .ok then x.2.setChData ch (natLe 8 (x.2.ring r).retired) else x.2)
  | 12 =>
    let d := s.chData ch 3
    let r := s.abortJob (pay d 0 1) (pay d 1 2) secure
    (.ok, r.2.setChData ch (natLe 1 r.1))
  | _ => (.badOp, s)

/-- GO on a channel (R343, R367): the operation runs, DONE is set with the code, and the Almanac interrupts the host cores. -/
def State.windowGo (s : State) (ch op : Nat) (last secure : Bool) (obs : List Obs) : State :=
  if 16 ≤ ch then s
  else if 8 ≤ ch ∧ secure = false then s.worldError .chCmdGo ch
  else
    let s := s.setFlds ch [(.chCmdOp, op), (.chCmdLast, b2n last)]
    let r := s.windowOp ch op last obs
    (r.2.setFlds ch [(.chCmdCode, r.1.num), (.chCmdDone, 1)]).send ⟨.hostIrq, 0x100, [ch], []⟩

/-- An operation comes through the window or as a frame. -/
def State.via (s : State) (op : Nat) (v : Via) (obs : List Obs) : State :=
  match v with
  | .window ch last secure => s.windowGo ch op last secure obs
  | .frame f => s.frameIn op f obs

/-! ## The commands -/

/-- IDENTIFY, OPEN, CLOSE and SUBSCRIBE come as frames only (R343, R355). -/
def execCrierIdentify (frame : CrierFrame) (at_ : Nat) (s : State) : Host.Outcome State Fault Refusal := s.command fun s =>
  .next ((s.reach at_).frameIn 1 frame [])
def execCrierOpen (frame : CrierFrame) (at_ : Nat) (s : State) : Host.Outcome State Fault Refusal := s.command fun s =>
  .next ((s.reach at_).frameIn 2 frame [])
def execCrierClose (frame : CrierFrame) (at_ : Nat) (s : State) : Host.Outcome State Fault Refusal := s.command fun s =>
  .next ((s.reach at_).frameIn 3 frame [])
def execCrierSubscribe (frame : CrierFrame) (at_ : Nat) (s : State) : Host.Outcome State Fault Refusal := s.command fun s =>
  .next ((s.reach at_).frameIn 8 frame [])

/-- READ, WRITE, READ_BLOCK, WRITE_BLOCK, PULL and ACK (R340, R349, R356, R361). -/
def execObjectRead (via : Via) (at_ : Nat) (s : State) : Host.Outcome State Fault Refusal := s.command fun s => .next ((s.reach at_).via 4 via [])
def execObjectWrite (via : Via) (at_ : Nat) (s : State) : Host.Outcome State Fault Refusal := s.command fun s => .next ((s.reach at_).via 5 via [])
def execReadBlock (via : Via) (at_ : Nat) (s : State) : Host.Outcome State Fault Refusal := s.command fun s => .next ((s.reach at_).via 6 via [])
def execWriteBlock (via : Via) (at_ : Nat) (s : State) : Host.Outcome State Fault Refusal := s.command fun s => .next ((s.reach at_).via 7 via [])
def execCrierPull (via : Via) (obs : List Obs) (at_ : Nat) (s : State) : Host.Outcome State Fault Refusal := s.command fun s =>
  .next ((s.reach at_).via 10 via obs)
def execCrierAck (via : Via) (at_ : Nat) (s : State) : Host.Outcome State Fault Refusal := s.command fun s => .next ((s.reach at_).via 11 via [])

/-- UNKNOWN_OPERATION (R343, R362): a code that the Crier or the window does not serve is answered with BAD_OP. -/
def execUnknownOperation (op : Nat) (via : Via) (at_ : Nat) (s : State) : Host.Outcome State Fault Refusal := s.command fun s =>
  .next ((s.reach at_).via (op % 256) via [])

/-- ABORT (R230): by RT_ABORT, or as an operation of the window or the Crier. -/
def execRotaAbort (via : Option Via) (ring index : Nat) (secure : Bool) (at_ : Nat) (s : State) : Host.Outcome State Fault Refusal := s.command fun s =>
  let s := s.reach at_
  match via with
  | some v => .next (s.via 12 v [])
  | none =>
    let s := s.setFlds 0 [(.rtAbortRing, ring), (.rtAbortIndex, index)]
    let r := s.abortJob (s.fld .rtAbortRing 0) (s.fld .rtAbortIndex 0) secure
    .next (r.2.setFlds 0 [(.rtAbortResult, r.1), (.rtAbortBusy, 1)])

/-- NOTIFY (R360): a subscription of a session whose ring or object has changed, at most once per INTERVAL. -/
def execCrierNotify (session kind index sub at_ : Nat) (s : State) : Host.Outcome State Fault Refusal := s.command fun s =>
  let s := s.reach at_
  if !s.crierUp then .next s else
  match s.session session with
  | none => .next s
  | some x =>
    match x.subs.find? (fun y => decide (y.kind = kind ∧ y.index = index ∧ y.sub = sub)) with
    | none => .next s
    | some y =>
      match s.watched kind index sub x.secure with
      | .error _ => .next s
      | .ok (_, b) =>
        if b = y.shown ∨ (y.at_ ≠ 0 ∧ s.time < y.at_ - 1 + y.interval * 1000000) then .next s else
        let subs := x.subs.map (fun z => if z = y then { z with shown := b, at_ := s.time + 1 } else z)
        let seq := s.crier.notifySeq
        let s := (s.setSession session (some { x with subs := subs }))
        let s := s.setCrier { s.crier with notifySeq := (seq + 1) % 2 ^ 32 }
        .next (s.sendOn session 9 notifyFlags seq (natLe 1 kind ++ natLe 2 index ++ natLe 1 sub ++ b))

/-- SESSION_TIMEOUT (R358): TIMEOUT has passed without a frame that passes R354. -/
def execSessionTimeout (session at_ : Nat) (s : State) : Host.Outcome State Fault Refusal := s.command fun s =>
  let s := s.reach at_
  match s.session session with
  | none => .next s
  | some x => .next (if x.lastFrame + x.timeout * 1000000000 ≤ s.time then s.endSession session else s)

/-! ## The Ethernet port -/

/-- The port answers IPv4 (R352). -/
def State.ipUp (s : State) (dst : Nat) : Bool := s.crierUp && s.crier.net.ip != 0 && dst == s.crier.net.ip

/-- ARP_REQUEST (R352). -/
def execArpRequest (target senderIp senderMac : Nat) (s : State) : Host.Outcome State Fault Refusal := s.command fun s =>
  .next (if s.ipUp target then s.send ⟨.ethernet, 0x001, [target, senderIp, senderMac], (enrolledObj 3).toBytes⟩ else s)

/-- ICMP_ECHO (R352): the reply carries the request's data. -/
def execIcmpEcho (target senderIp senderMac : Nat) (payload : List Byte) (s : State) : Host.Outcome State Fault Refusal := s.command fun s =>
  .next (if s.ipUp target then s.send ⟨.ethernet, 0x002, [target, senderIp, senderMac], payload⟩ else s)

/-- TC10_REMOTE_WAKE (R365, R417, R420): a wake-up pulse latches LINK, which cannot fire when the partner refused sleep. -/
def execTc10RemoteWake (at_ : Nat) (s : State) : Host.Outcome State Fault Refusal := s.command fun s =>
  let s := s.reach at_
  .next (if s.pwr.tc10Refused then s else s.wake 5 s.time 0)

/-- The time base follows a measured offset from the grandmaster (R366): slewed once a result ring is open, and stepped before. -/
def State.followTime (s : State) (offset : Int) : State :=
  let s := (s.setCrier { s.crier with gptpOffset := offset }).setObj .timeSynced 0 (b2n (decide (-100 ≤ offset ∧ offset ≤ 100)))
  if s.ledger.rings.any (fun e => e.2.isOpen) then { s with hedge := { s.hedge with slew := -offset, slewTicks := 0 } }
  else { (s.setObj .timeSynced 0 1) with time := ((s.time : Int) - offset).toNat }

/-- GPTP_MESSAGE (R366): kind 0 a Sync with its follow-up, as the offset measured from the grandmaster; 1 a peer-delay request, which is
answered with its timestamp at 8 ns; 2 a peer-delay response, as the delay measured; 3 the time to send a Sync as grandmaster.  In a
cascade only the master follows or serves a grandmaster. -/
def execGptpMessage (kind : Nat) (offset : Int) (delay at_ : Nat) (s : State) : Host.Outcome State Fault Refusal := s.command fun s =>
  let s := s.reach at_
  let stamp := s.time / 8 * 8
  let alone := s.isMaster || s.obj .members 0 == 0
  if !s.crierUp then .next s
  else if kind = 0 then .next (if s.obj .timeMode 0 = 1 ∧ alone = true then s.followTime offset else s)
  else if kind = 1 then .next (s.send ⟨.ethernet, 0x103, [stamp], []⟩)
  else if kind = 2 then .next (s.setCrier { s.crier with peerDelay := delay })
  else .next (if s.obj .timeMode 0 = 2 ∧ alone = true then s.send ⟨.ethernet, 0x104, [stamp], []⟩ else s)

/-! ## Resume -/

/-- RESUME_COMPLETE (R411, R417, R418): the device is ACTIVE, the latches clear, events that waited are published, streams and jobs go on,
and Crier requests that waited run. -/
def execResumeComplete (at_ : Nat) (s : State) : Host.Outcome State Fault Refusal := s.command fun s =>
  let s := s.reach at_
  if !s.resuming || !s.resumed then .next s else .next s.resumeDone.serveWaiting

end Sys2Proof.Machine
end

