-- ==== Sys2Proof/Machine/RegWrite.lean ====
section
/-!
DEFINITION. Writes of registers that have no row of their own (R8, R9), by physical address (R110), with the rules that the register
maps state for single registers; and the clearing of log registers (R461).
-/
namespace Sys2Proof.Machine

/-! ## Addresses -/

/-- The register that an address names: the register, its instance, and the word in it. -/
structure RegAt where
  reg : Reg
  inst : Nat
  word : Nat
deriving DecidableEq, Repr

/-- The register of an address, if `r` is it. -/
def Reg.at? (r : Reg) (addr : Nat) : Option RegAt :=
  let p := r.place
  if addr < p.base then none else
  let off := addr - p.base
  let block := if p.blockStride = 0 then 0 else off / p.blockStride
  let rest := if p.blockStride = 0 then off else off % p.blockStride
  let idx := if p.stride = 0 then 0 else rest / p.stride
  let word := (if p.stride = 0 then rest else rest % p.stride) / 4
  if block < p.blocks ∧ idx < p.count ∧ word < p.words then some ⟨r, block * p.count + idx, word⟩ else none

/-- The register at an address (R110); none where the address is reserved. -/
def regAt (addr : Nat) : Option RegAt := Reg.all.findSome? (fun r => r.at? addr)

/-! ## Worlds and clocks -/

/-- The world code of a field of an instance (R8): 0 NS, 1 S, 2 S/NS. -/
def State.fldWorld (s : State) (f : Fld) (i value : Nat) : Nat :=
  match f.desc.world with
  | .s => 1
  | .ns => 0
  | .sns => 2
  | .byGate => b2n (gateSecure (i % 64))
  | .byTally => b2n (tallySecure (i % 1024))
  | .byRing => b2n (s.ringSecure (if f.desc.reg = .rtAbort then value % 256 else i))
  | .byPartition => b2n (s.partSecure (i / 64))
  | .byFeed => b2n (match s.hpFeed i with | some x => x.secure | none => false)
  | .bySlot => b2n (slotSecure (if f.desc.word = 0 then value % 256 else s.fld .secKslotSlot 0))
  | .byChannel => b2n (decide (8 ≤ i))
  | .watchWorld => s.fld .secWmapWatch 0

/-- The block of CLK_EN that a register belongs to (R428); most have none. -/
def Reg.block (r : Reg) (i : Nat) : Option Nat :=
  match r with
  | .hpStatus | .hpFeed | .hpDb | .hpRelease | .hpAlarm => some 11
  | .csiCtrl | .csiStatus => some (3 + i)
  | .ispSensor => some 7
  | .os | .osRelease => some 9
  | .audStatus | .audTrim | .audStream => some 2
  | .doorLed => some 1
  | .hlCtrl | .hlStatus => some (12 + i)
  | _ => none

/-! ## Fields -/

/-- Fields whose writes are commands of their own. -/
def Fld.ownRow (f : Fld) : Bool :=
  match f with
  | .tcCtrlHalt | .hearthCfgSplit | .tcFaultValid | .binCtrlInit | .binSlotenEn | .binSlotmapSlot | .binErrlogValid | .binRepairGo
  | .binGateOpen | .binTallyCount | .urPinGo | .urQuotaWays | .urPstateDataQ | .urPstateDataSheaf | .urQlogValid | .mcRegionEn
  | .mcRegionBase | .mcRegionChset | .mcRegionGrain | .mcRegionChbase | .mcErrlogValid | .lgCmdGo | .svLeaseEn | .svLeasePart
  | .svDoorbellAdd | .svErrValid | .rtCtrlApply | .rtAbortGo | .rtRingCqhead | .rtDbTail | .hpFeedEn | .hpDbValue | .hpReleaseValue
  | .osEn | .osReleaseAdd | .audStreamEn | .watchPullGo | .watchVerdictVerdict | .watchSpanBin | .watchSpanBase | .watchSpanEn
  | .watchSpanTally | .doorLedEn | .doorLedRamp | .doorLedDuty | .safeFaultSelftest | .safeFaultDramTrain | .safeFaultClock
  | .safeFaultWatchdog | .safeFaultSuspect | .wwKickArm | .wwKickWw | .safeInjectGo | .safeInjectKind | .safeInjectTarget
  | .secWmapWatch | .secWmapAud | .secWmapOs | .brErrlogValid | .secMeasWord | .secUnwrapGo | .secKslotGo | .brEn | .brWorld | .brModel
  | .brSpace | .chCmdGo | .clkEnEn | .clkTcselGo | .rstCtrlWarm | .rstCtrlPgo | .rstCtrlPart => true
  | _ => false

/-- A write of the field is ignored in the state that its register is in (R99, R199, R237, R261, R276, R323, R327, R330, R343). -/
def State.fldHeld (s : State) (f : Fld) (i : Nat) : Bool :=
  match f.desc.reg with
  | .binGate => f.desc.access == .rw && s.fld .binGateState i != 0
  | .svRing0 | .svRing1 => s.flag .svLeaseEn 0
  | .hpFeed => s.flag .hpFeedEn i
  | .os => s.flag .osEn i
  | .audStream => decide (1 ≤ f.desc.word) && s.flag .audStreamEn 0
  | .br => s.flag .brBusy i
  | .secKslot => s.kslotBusy
  | .secUnwrap => s.sec.unwrap.isSome
  | .chCmd | .chObj | .chLen | .chOffset | .chSeq | .chInfo => f.desc.access == .rw && s.flag .chCmdBusy i
  | _ => false

/-- What a field becomes when word `k` of its register is written (R8). -/
def writtenField (f : Fld) (old k value : Nat) : Nat :=
  let d := f.desc
  let a := 32 * d.word + d.lo
  let b := 32 * d.word + d.hi
  let lo := max a (32 * k)
  let hi := min b (32 * k + 31)
  if hi < lo then old else
  let part := bits value (hi - 32 * k) (lo - 32 * k)
  match d.access with
  | .rw => setBits old (hi - a) (lo - a) part
  | .w1c => old - Nat.land old (part * 2 ^ (lo - a))
  | _ => old

/-- A field that lies, in part or whole, in word `k` of a register. -/
def Fld.inWord (f : Fld) (r : Reg) (k : Nat) : Bool :=
  let d := f.desc
  d.reg == r && decide (32 * d.word + d.lo ≤ 32 * k + 31 ∧ 32 * k ≤ 32 * d.word + d.hi)

/-- The value that a register takes in place of the one written: MAPLOCK only rises (R133), a trim lies within ±64 (R273), and at most one
regulator is marked MILL (R403). -/
def State.adjusted (s : State) (f : Fld) (i v : Nat) : Nat :=
  match f with
  | .mcCtrlMaplock => max v (s.fld .mcCtrlMaplock 0)
  | .audTrimTrim => if v < 128 then min v 64 else max v 192
  | .rvPmbmapMill => if (List.range 8).any (fun j => j != i && s.flag .rvPmbmapMill j) then 0 else v
  | _ => v

/-- Write one field. -/
def State.writeFld (s : State) (f : Fld) (i k value : Nat) : State :=
  if f.ownRow || s.fldHeld f i then s
  else if f = .mcPortTarget then s.setTarget i (writtenField f (s.fld f i) k value)
  else s.setFld f i (s.adjusted f i (writtenField f (s.fld f i) k value))

/-! ## Configurations that are refused -/

/-- An enabled wheel slot is legal (R223, R227): its class, its period, and the save areas of its partition. -/
def State.wheelOk (s : State) (i : Nat) : Bool :=
  let p := i / 64
  !s.flag .rtWheelEn i ||
  (decide (s.fld .rtWheelClass i ≠ 0) && !(s.flag .rtWheelMode i && s.fld .rtWheelPeriod i == 0) &&
    decide (s.slotsOn p * 68 * s.partSize p + s.stateLeases p ≤ s.obj .spillSlots (p + 1)))

/-- An enabled guarded network is legal (R223, R231), its comparison is enabled (R316), and no core of its active pair is active in
another network. -/
def State.gnetOk (s : State) (k : Nat) : Bool :=
  !s.flag .rtGnetEn k ||
  (!(s.flag .rtGnetMode k && s.fld .rtGnetPeriod k == 0) && s.flag .cmpNetEn k &&
    (List.range 4).all (fun i => !s.flag (pairFlds i).2.2.1 k || (s.pairCores k i).all (fun c => s.pairCoreOk k c)) &&
    (match s.activePair k with
     | none => true
     | some i => (List.range 16).all (fun q => q == k || !s.flag .rtGnetEn q ||
        (match s.activePair q with
         | none => true
         | some x => (s.pairCores q x).all (fun c => !(s.pairCores k i).contains c)))))

/-- The write would leave a register whose configuration the Rota refuses. -/
def State.cfgRefused (s : State) (x : RegAt) : Bool :=
  match x.reg with
  | .rtWheel => !s.wheelOk x.inst
  | .rtGnet => !s.gnetOk x.inst
  | _ => false

/-! ## What a write sets in motion -/

/-- Secure firmware clears SUSPECT: the history restarts (R308), and NOPAIR follows the pairs that are left (R233). -/
def State.suspectCleared (s t : State) (k : Nat) : State :=
  if (List.range 4).any (fun i => s.flag (pairFlds i).2.2.2 k && !t.flag (pairFlds i).2.2.2 k) then
    let t := t.setFld .rtGnetNopair k (b2n (t.activePair k).isNone)
    { t with safe := { t.safe with hist := SMap.put t.safe.hist k ⟨0, []⟩ ⟨0, []⟩ } }
  else t

/-- What follows a write that changed `s` to `t`. -/
def State.afterWrite (s t : State) (x : RegAt) : State :=
  match x.reg with
  | .rtCtrl | .rtRing | .rtWheel => t.decideNext.settle.pwrSync
  | .rtGnet => (s.suspectCleared t x.inst).decideNext.settle.pwrSync
  | .tcCtrl | .csiCtrl => t.pwrSync
  | .hlCtrl =>
    let on := t.flag .hlCtrlEn x.inst
    let t := if on then (if t.powerGood (14 + x.inst) && !s.flag .hlCtrlEn x.inst then t.portTrain x.inst else t) else t.portDown x.inst
    t.pwrSync
  | _ => t

/-- The block of a register has no clock (R9). -/
def State.regGated (s : State) (x : RegAt) : Bool :=
  match x.reg.block x.inst with
  | some b => !s.clocked b
  | none => false

/-- The fields of a word whose world does not allow an access (R8).  A write of a field that both worlds read and none writes is ignored.
A word whose fields have worlds of their own is refused whole (DESIGN CHOICE, assumption 21). -/
def State.refusedFld (s : State) (x : RegAt) (value : Nat) (write secure : Bool) : Option Fld :=
  (Fld.all.filter (fun f => f.inWord x.reg x.word)).find? (fun f =>
    let w := s.fldWorld f x.inst value
    !worldAllows w write secure && !(write && w == 2 && f.desc.access == .ro))

/-- A word of a register is written (R8, R9): reserved bits, and fields that are read only, keep their values; the world of every field of
the word must allow the write, or it returns a bus error and is logged, as R8 says of an S field (DESIGN CHOICE for an S/NS field,
assumption 21).  GO with a reserved OP is refused with BAD_VALUE (R171). -/
def State.writeReg (s : State) (x : RegAt) (value : Nat) (secure : Bool) : State :=
  match s.refusedFld x value true secure with
  | some f => s.worldError f x.inst
  | none =>
    if s.regGated x then s.gatedError else
    let t := (Fld.all.filter (fun f => f.inWord x.reg x.word)).foldl (fun (t : State) f => t.writeFld f x.inst x.word value) s
    if t.cfgRefused x then s.setFld .rtStatusCfgerr 0 1
    else if x.reg = .lgCmd ∧ bit value 31 = true ∧ 4 ≤ bits value 19 16 then (s.afterWrite t x).setFld .lgCmdResult 0 5
    else s.afterWrite t x

/-- The place in the data area of a channel that an address names (R343, R367). -/
def windowAt (addr : Nat) : Option (Nat × Nat) :=
  if 0x01000000 ≤ addr ∧ addr < 0x01010000 ∧ 0x40 ≤ addr % 4096 then some ((addr - 0x01000000) / 4096, addr % 4096 - 0x40) else none

/-- A write of a word to the data area, in the world of the channel. -/
def State.writeWindow (s : State) (ch i value : Nat) (secure : Bool) : State :=
  if 8 ≤ ch ∧ secure = false then s.worldError .chLenLen ch
  else if s.flag .chCmdBusy ch then s
  else s.setCrier { s.crier with window := SMap.putRun s.crier.window (chKey ch i) (natLe 4 value) 0 }

/-- An address that the map marks reserved, lists nowhere, or that lies beyond the end of the Unified Range (R110). -/
def State.addrReserved (s : State) (addr : Nat) : Bool :=
  !(decide (addr < 0x10000) || decide (0x01000000 ≤ addr ∧ addr < 0x01100000) || decide (0x02000000 ≤ addr ∧ addr < 0x02008000) ||
    decide (0x02010000 ≤ addr ∧ addr < 0x02050000) || decide (0x03000000 ≤ addr ∧ addr < 0x04000000) ||
    decide (0x10000000 ≤ addr ∧ addr < 0x20000000 ∧ addr % 0x02000000 < 0x01800000) ||
    decide (2 ^ 36 ≤ addr ∧ addr < 2 ^ 36 + s.urPages * 4096))

/-! ## Log registers -/

/-- The log registers of R461, by number: TC_FAULT with FAULT_INFO, BIN_ERRLOG, UR_QLOG, MC_ERRLOG, SV_ERR and BR_ERRLOG. -/
def logRegFlds (which : Nat) : List Fld :=
  match which with
  | 0 => [.tcFaultValid, .tcFaultCode, .tcFaultTag, .faultInfoMember, .faultInfoMcode, .faultInfoWhere]
  | 1 => [.binErrlogValid, .binErrlogType, .binErrlogBank, .binErrlogRow, .binErrlogPort]
  | 2 => [.urQlogValid, .urQlogCause, .urQlogPage]
  | 3 => Fld.all.filter (fun f => f.desc.reg == .mcErrlog)
  | 4 => [.svErrValid, .svErrCode, .svErrSlot]
  | 5 => Fld.all.filter (fun f => f.desc.reg == .brErrlog)
  | _ => []

/-- LOG_REGISTER_CLEAR (R461): a write of 1 to VALID from the secure world clears the register of an instance. -/
def execLogRegisterClear (which inst : Nat) (secure : Bool) (s : State) : Host.Outcome State Fault Refusal := s.command fun s =>
  match logRegFlds which with
  | [] => .next s
  | f :: l =>
    if !secure then .next (s.worldError f inst)
    else .next ((f :: l).foldl (fun (s : State) f => s.setFld f inst 0) s)

end Sys2Proof.Machine
end

