-- ==== Sys2Proof/Machine/Flags.lean ====
section
/-!
DEFINITION. What the status fields read as: the flags and counts of the register maps that show what a unit holds (R48, R83, R108,
R130, R210, R251, R269, R287, R317, R336, R403, R421).  Each is computed from the one place that holds it; every other field reads as
it is stored.
-/
namespace Sys2Proof.Machine

/-- A mask of the numbers below `n` that satisfy a condition. -/
def maskOf (n : Nat) (p : Nat → Bool) : Nat := ((List.range n).filter p).foldl (fun m i => m + 2 ^ i) 0

/-- TC_STATUS (R48). -/
def State.tcStatusNow (s : State) (f : Fld) (c : Nat) : Nat :=
  let x := s.core c
  match f with
  | .tcStatusSbused => (x.inflight.map (fun g => g.reads.length + g.writes.length)).sum
  | .tcStatusHlease => maskOf 4 (fun h => !(s.leasesOn c h).isEmpty)
  | .tcStatusFpos => c - (s.furrowOf c).1
  | .tcStatusFwidth => widthCode (s.furrowOf c).2
  | .tcStatusWaitsb => b2n (x.wait == .scoreboard)
  | .tcStatusWaittally => b2n (x.wait == .tally)
  | .tcStatusWaitdma => b2n (x.wait == .dma)
  | .tcStatusFault => s.fld .tcFaultValid c
  | .tcStatusHalted => s.fld .tcCtrlHalt c
  | .tcStatusBusy => b2n (!x.inflight.isEmpty)
  | f => s.fld f c

/-- HEARTH_STATE (R83) of hearth `i % 4` of core `i / 4`. -/
def State.hearthStateNow (s : State) (f : Fld) (i : Nat) : Nat :=
  let ls := s.leasesOn (i / 4) (i % 4)
  let res := s.residentOn (i / 4) (i % 4)
  let out := ls.any (fun l => l.phase == .movingOut)
  let inn := ls.any (fun l => l.phase == .movingIn)
  let held := (res.or (ls.find? (fun l => l.phase == .movingOut))).or (ls.find? (fun l => l.phase == .movingIn))
  match f with
  | .hearthStateGen => (res.map (·.gen)).getD 0
  | .hearthStateLeases => ls.length
  | .hearthStateKind => (held.map (fun l => l.kind.ctorIdx + 1)).getD 0
  | .hearthStatePhase => if res.isSome then 1 else if out && inn then 4 else if out then 2 else if inn then 3 else 0
  | .hearthStateDirty => b2n ((res.map (·.dirty)).getD false)
  | .hearthStatePinned => b2n ((res.map (·.pinned)).getD false)
  | f => s.fld f i

/-- The directory entry of a frame as its word (R113). -/
def DirEntry.word (e : DirEntry) : Nat := e.page * 256 + e.state.ctorIdx * 32 + b2n e.pin * 16 + e.acc

/-- The windows into the repair map, the page states and the directory (R108, R130). -/
def State.selectNow (s : State) (f : Fld) (i : Nat) : Nat :=
  let r := SMap.get s.bin.rmap (i * 768 + s.fld .binRmapSelIndex i) ⟨false, false, 0⟩
  let p := s.pageState (s.fld .urPstateSelPage 0)
  match f with
  | .binRmapDataUsed => b2n r.used
  | .binRmapDataField => b2n r.field
  | .binRmapDataRow => r.row
  | .urPstateDataQ => b2n p.q
  | .urPstateDataSheaf => b2n p.sheaf
  | .urPstateDataForm => b2n p.form
  | .urPstateDataLen => p.len
  | .urDirDataEntry => (s.dirAt (s.fld .urDirSelFrame 0)).word
  | f => s.fld f i

/-- The status of the Sieve, the Hopper and a camera link (R210, R251, R269). -/
def State.streamNow (s : State) (f : Fld) (i : Nat) : Nat :=
  match f with
  | .svStatusQueued => min 255 (s.tally (s.fld .svRing0Bin 0) (s.fld .svRing1Tally 0))
  | .svStatusBusy => b2n s.sv.run.isSome
  | .svStatusReady => b2n s.svReady
  | .hpStatusLanes => s.hp.lanes.length
  | .hpStatusActive => maskOf 8 (fun n => (s.hpFeed n).isSome)
  | .hpStatusReady => b2n s.hpReady
  | .hpAlarmEdge => maskOf 8 (fun n => match s.hpFeed n with | some x => x.atEdge | none => false)
  | .csiStatusPresent => maskOf 4 (fun k => s.flag .ispSensorEn (i * 4 + k) && (s.sensor (i * 4 + k)).phase != .lost)
  | .csiStatusInframe => maskOf 4 (fun k => (s.sensor (i * 4 + k)).frame.isSome)
  | .csiStatusReady => b2n (s.powerGood (5 + i) && s.clocked (3 + i))
  | f => s.fld f i

/-- The status of the microphones and the Watch (R272, R287). -/
def State.listenNow (s : State) (f : Fld) (i : Nat) : Nat :=
  match f with
  | .audStatusHpd => s.fld .doorStatusMichpd 0
  | .audStatusMuted => b2n s.muted
  | .audStatusPdmrun => if s.micsStopped then 0 else if s.pwrState ≤ 2 then 3 else 1
  | .audStatusReady => b2n (s.powerGood 4 && s.clocked 2 && !s.flag .clkStatusHeld 0)
  | .watchStatusVoice => b2n (decide (0 < s.watch.voiceHold))
  | .watchStatusMic => s.watch.mic.getD 0
  | .watchStatusLock => s.watch.lock.ctorIdx
  | f => s.fld f i

/-- The job that RT_ABORT names still waits for its commands in flight (R230, R235). -/
def State.abortPending (s : State) : Bool :=
  (List.range 8).any (fun c => (s.core c).ending.isSome && (match (s.core c).job with
    | some j => j.ring == s.fld .rtAbortRing 0 && j.index == s.fld .rtAbortIndex 0
    | none => false))

/-- What a register field reads as. -/
def State.fldNow (s : State) (f : Fld) (i : Nat) : Nat :=
  match f.desc.reg with
  | .tcStatus => s.tcStatusNow f i
  | .hearthState => s.hearthStateNow f i
  | .binRmapData | .urPstateData | .urDirData => s.selectNow f i
  | .urPin => if f = .urPinBusy then b2n s.pinBusy else if f = .urPinDone ∧ s.ur.pinning.isSome then s.pinDone else
    if f = .urPinResult ∧ s.pinBusy then 0 else s.fld f i
  | .svStatus | .hpStatus | .hpAlarm | .csiStatus => s.streamNow f i
  | .audStatus | .watchStatus => s.listenNow f i
  | .safeStatus => b2n (if f = .safeStatusNfault then s.nfault else s.powerGood 48 && !bit s.clk.failing 4)
  | .ww => if f = .wwState then s.wwState i else s.fld f i
  | .secStatus => if f = .secStatusReady then b2n (s.powerGood 47 && s.pllILocked) else s.fld f i
  | .rvStatus =>
    if f = .rvStatusGov then b2n (decide (0 < s.reeve.lastPeriod ∧ s.time - s.reeve.lastPeriod < 2000000)) else s.fld f i
  | .rtAbort => if f = .rtAbortBusy then b2n (s.flag .rtAbortBusy 0 && s.abortPending) else s.fld f i
  | .pwrStatus => if f = .pwrStatusQueued then s.pwr.queue.length else s.fld f i
  | _ => s.fld f i

/-- The value of a word of a register: its fields at their places, reserved bits zero (R9). -/
def State.wordNow (s : State) (x : RegAt) : Nat :=
  (Fld.all.filter (fun f => f.inWord x.reg x.word)).foldl (fun w f =>
    let d := f.desc
    let a := 32 * d.word + d.lo
    let v := s.fldNow f x.inst
    w + (if a ≤ 32 * x.word then v / 2 ^ (32 * x.word - a) % 2 ^ 32 else v * 2 ^ (a - 32 * x.word) % 2 ^ 32)) 0

/-! ## Accesses to the register space -/

/-- A word of a register is read (R8): the world of every field of it must allow the read, and its block must have its clock. -/
def State.readReg (s : State) (addr : Nat) (x : RegAt) (secure : Bool) : State :=
  match s.refusedFld x (s.wordNow x) false secure with
  | some f => s.worldError f x.inst
  | none => if s.regGated x then s.gatedError else s.send ⟨.bus, 1, [addr], natLe 4 (s.wordNow x)⟩

/-- A read of a word of the data area of a channel (R343). -/
def State.readWindow (s : State) (addr ch i : Nat) (secure : Bool) : State :=
  if 8 ≤ ch ∧ secure = false then s.worldError .chLenLen ch
  else s.send ⟨.bus, 1, [addr], SMap.getRun s.crier.window (chKey ch i) 4 0⟩

/-- REGISTER_WRITE (R8, R9, R110): a 32-bit write at a physical address, or, with `read`, the read of that word, which the table has no
row for (assumption 22).  An access to a reserved address is an error; an offset of a block that lists no register reads zero and takes
no write. -/
def execRegisterWrite (addr value : Nat) (secure : Bool) (s : State) (read : Bool := false) : Host.Outcome State Fault Refusal := s.command fun s =>
  if s.addrReserved addr then .next (s.reservedAccess addr)
  else if addr % 4 ≠ 0 then .next s
  else match windowAt addr, regAt addr with
  | some (ch, i), _ => .next (if read then s.readWindow addr ch i secure else s.writeWindow ch i value secure)
  | none, some x => .next (if read then s.readReg addr x secure else s.writeReg x value secure)
  | none, none => .next (if read then s.send ⟨.bus, 1, [addr], natLe 4 0⟩ else s)

end Sys2Proof.Machine
end

