-- ==== Sys2Proof/Machine/McUnit.lean ====
section
/-!
DEFINITION. The DRAM controller at work (spec/07): the order of requests, refresh, training and the interleave regions.  A request carries
no data here: the bytes move with the commands of the units that make it, a write when it arrives, so that a read of an address with a
write still queued returns what the write carries (R139).
-/
namespace Sys2Proof.Machine

/-! ## Order -/

/-- The highest level in a list of requests, plus one; 0 for none. -/
def State.topLevel (s : State) (l : List McReq) : Nat := (l.map (fun r => s.levelOf r + 1)).foldl max 0

/-- The direction of a channel's bus (R139): true for writes. -/
def State.busTurn (s : State) (c : Nat) : Bool :=
  let ws := (s.mcQueue c).filter (·.write)
  let rs := (s.mcQueue c).filter (fun r => !r.write)
  if SMap.get s.mc.turned c false then !(decide (ws.length ≤ 8 ∧ rs ≠ []) || decide (s.topLevel ws < s.topLevel rs) || ws.isEmpty)
  else decide (32 ≤ ws.length) || decide (s.topLevel rs < s.topLevel ws)

/-- The row of a request is open. -/
def State.rowHit (s : State) (r : McReq) : Bool := SMap.get s.mc.opened r.bankKey 0 == r.row + 1

/-- The request that a channel serves next (R139, rules 2 to 4), in the direction of its bus. -/
def State.mcPick (s : State) (c : Nat) : Option McReq :=
  let cand := (s.mcQueue c).filter (fun r => r.write == s.busTurn c)
  let top := cand.filter (fun r => s.levelOf r + 1 == s.topLevel cand)
  match top with
  | [] => none
  | old :: _ =>
    if 16 ≤ SMap.get s.mc.passed c 0 then some old
    else match top.find? s.rowHit with
      | some r => some r
      | none => some old

/-! ## Commands -/

/-- DRAM_REQUEST (R138): a request of a port arrives, with a deadline or none, and takes its starting urgency. -/
def execDramRequest (port off : Nat) (write : Bool) (deadline : Option Nat) (at_ : Nat) (s : State) :
    Host.Outcome State Fault Refusal := s.command fun s =>
  .next ((s.reach at_).mcRequest port off write deadline)

/-- Record a DRAM error in MC_ERRLOG unless one is held (R461). -/
def State.mcErrlog (s : State) (type : Nat) (r : McReq) : State :=
  if s.flag .mcErrlogValid 0 then s
  else s.setFlds 0 [(.mcErrlogValid, 1), (.mcErrlogType, type), (.mcErrlogChannel, r.channel), (.mcErrlogRank, r.rank),
    (.mcErrlogBank, r.bank), (.mcErrlogRow, r.row)]

/-- A delay update that waits runs once the channel has no request at level 6 or 7, one channel of a quad at a time (R144). -/
def State.runUpdate (s : State) (c : Nat) : State :=
  if (s.mcQueue c).any (fun r => decide (6 ≤ s.levelOf r)) then s
  else { s with mc := { s.mc with update := SMap.put s.mc.update c 0 0 } }

/-- The controller reports an uncorrectable burst to the requester of a port (R146), which retries under R127. -/
def State.reportUe (s : State) (r : McReq) : State := s.send ⟨.bus, 0, [0x14, r.port, r.off], []⟩

/-- DRAM_REQUEST_COMPLETE (R139, R146): a channel's queued neighbour refreshes go first, then it has served the request that its rules
choose; a link error was corrected, or could not be. -/
def execDramRequestComplete (channel : Nat) (ce ue : Bool) (at_ : Nat) (s : State) : Host.Outcome State Fault Refusal := s.command fun s =>
  let s := (s.reach at_).mcSlot channel
  let s := { s with mc := { s.mc with turned := SMap.put s.mc.turned channel (s.busTurn channel) false } }
  match s.mcPick channel with
  | none => .next s
  | some r =>
    let older := ((s.mcQueue channel).takeWhile (fun x => decide (x ≠ r))).any (fun x =>
      x.write == r.write && decide (s.levelOf x = s.levelOf r))
    let n := if s.rowHit r && older then SMap.get s.mc.passed channel 0 + 1 else 0
    let s := { s with mc := { s.mc with passed := SMap.put s.mc.passed channel n 0 } }
    let late := decide (s.mcTarget r.port < s.time - r.arrival)
    let s := if s.rowHit r then s else s.activate r.bankKey r.row
    let s := s.setMcQueue channel ((s.mcQueue channel).erase r)
    let s := if late then s.bumpObj .lateReq (r.port + 1) 1 else s
    let s := if ce then ((s.mcErrlog 1 r).bumpObj .linkCe 0 1).logIt .dram 0x14 0 r.channel r.bank r.row else s
    let s := if ue then (((s.mcErrlog 2 r).bumpObj .linkUe 0 1).logIt .dram 0x14 8 r.channel r.bank r.row).reportUe r else s
    .next (s.runUpdate channel).mcAdmit

/-- A bank is refreshed (R140, R142): its row closes, and the rolling activate counter falls by the device's threshold (PRESUMED from
JESD209-5, assumption 32). -/
def State.refreshBank (s : State) (key : Nat) (owed : Int) : State :=
  { s with mc := { s.mc with
      owed := SMap.put s.mc.owed key owed 0
      opened := SMap.put s.mc.opened key 0 0
      rolling := SMap.put s.mc.rolling key (SMap.get s.mc.rolling key 0 - s.mc.rfmLimit) 0 } }

/-- PER_BANK_REFRESH (R140, rule 1 of R139): a refresh of a bank falls due.  While the bank has requests at level 5 or above it is
postponed, up to 8 times, and then goes before any request; otherwise the bank is refreshed for every interval that it owes.  An idle bank
may pull in up to 8 more: how many is a free value (DESIGN CHOICE, assumption 36).  A refresh that was pulled in needs none. -/
def execPerBankRefresh (channel rank bank : Nat) (s : State) : Host.Outcome State Fault Refusal := s.command fun s =>
  let s := s.mcSlot channel
  let key := bankKeyOf channel rank bank
  let owed := SMap.get s.mc.owed key 0 + 1
  let reqs := (s.mcQueue channel).filter (fun r => r.bankKey == key)
  if owed ≤ 0 then .next { s with mc := { s.mc with owed := SMap.put s.mc.owed key owed 0 } }
  else if reqs.any (fun r => decide (5 ≤ s.levelOf r)) ∧ owed ≤ 8 then .next { s with mc := { s.mc with owed := SMap.put s.mc.owed key owed 0 } }
  else if reqs.isEmpty then
    let f := s.fresh
    .next (f.2.refreshBank key (-((Config.freeNat f.1 % 9 : Nat) : Int)))
  else .next (s.refreshBank key 0)

/-- MR4_READ (R140): the refresh multiplier of a channel, by which its intervals are scaled, and an event when it reports a temperature
above the operating range. -/
def execMr4Read (channel multiplier : Nat) (hot : Bool) (s : State) : Host.Outcome State Fault Refusal := s.command fun s =>
  let s := { s with mc := { s.mc with mr4 := SMap.put s.mc.mr4 channel multiplier 0 } }
  .next (if hot then s.event 0x0019 channel s.time else s)

/-- ACT_WINDOW_CLEAR (R141): every activate-count table is cleared. -/
def execActWindowClear (s : State) : Host.Outcome State Fault Refusal := s.command fun s =>
  .next { s with mc := { s.mc with act := [] } }

/-- DRAM_TRAINING_COMPLETE (R142, R143, R145): a quad passes its training, and its devices state their threshold of refresh management, 0
for none; or a channel of it fails.  A failure of the check of restored values is followed by the full training.  In the full training a
channel is retrained once, at the next lower rate, to which the others move; a second failure, or one at the lowest rate, stops
start-up. -/
def execDramTrainingComplete (quad : Nat) (failed : Option Nat) (s : State) (rfm : Nat := 0) : Host.Outcome State Fault Refusal := s.command fun s =>
  if s.flag .mcStatusTrainfail 0 || s.flag .mcStatusReady 0 then .next s else
  match failed with
  | none =>
    let s := { s with mc := { s.mc with
      trained := if bit s.mc.trained quad then s.mc.trained else s.mc.trained + 2 ^ quad
      rfmLimit := rfm } }
    let s := s.setFld .mcStatusRfmAvail 0 (b2n (decide (rfm ≠ 0)))
    .next (if s.mc.trained = 15 then
      ({ s.setFlds 0 [(.mcStatusReady, 1), (.mcStatusSelfref, 0)] with
        mc := { s.mc with kept := true, keptRate := s.fld .mcStatusRate 0 } }).mcAdmit else s)
  | some ch =>
    if s.mc.kept then
      .next (({ s with mc := { s.mc with kept := false, trained := 0 } } : State).setFld .mcStatusRate 0 (rateCode (s.obj .dramRate 0)))
    else if bit s.mc.retried ch || s.fld .mcStatusRate 0 == 0 then
      .next ((s.setFld .mcStatusTrainfail 0 1).setFld .safeFaultDramTrain 0 1 |>.logIt (.event 0x000D) 0xFF 12 ch 0 0)
    else
      let s := { s with mc := { s.mc with retried := s.mc.retried + 2 ^ ch } }
      .next (s.setFld .mcStatusRate 0 (s.fld .mcStatusRate 0 - 1))

/-- A channel's training has drifted beyond its range (R147, R461): TYPE 3 of MC_ERRLOG, and the log. -/
def State.driftError (s : State) (channel : Nat) : State :=
  let s := if s.flag .mcErrlogValid 0 then s
    else s.setFlds 0 [(.mcErrlogValid, 1), (.mcErrlogType, 3), (.mcErrlogChannel, channel), (.mcErrlogRank, 0), (.mcErrlogBank, 0),
      (.mcErrlogRow, 0)]
  s.logIt .dram 0x14 8 channel 3 0

/-- PERIODIC_RETRAIN (R144): a channel reads its oscillator: no drift (0); more than 1/16 UI since the last adjustment (1), and it updates
its delays, or waits to; or a drift beyond the range (2), which is an error as well. -/
def execPeriodicRetrain (channel drift : Nat) (at_ : Nat) (s : State) : Host.Outcome State Fault Refusal := s.command fun s =>
  let s := s.reach at_
  if !s.flag .mcCtrlRetrainEn 0 || drift == 0 then .next s else
  let s := if drift = 2 then s.driftError channel else s
  let w := SMap.get s.mc.update channel 0
  let s := { s with mc := { s.mc with update := SMap.put s.mc.update channel (if w = 0 then s.time + 1 else w) 0 } }
  .next (s.runUpdate channel)

/-- FORCED_RETRAIN_UPDATE (R144): an update that has waited 50 ms runs at the next command slot. -/
def execForcedRetrainUpdate (channel : Nat) (at_ : Nat) (s : State) : Host.Outcome State Fault Refusal := s.command fun s =>
  let s := s.reach at_
  let w := SMap.get s.mc.update channel 0
  if w ≠ 0 ∧ w - 1 + 50000000 ≤ s.time then .next { s with mc := { s.mc with update := SMap.put s.mc.update channel 0 0 } }
  else .next s

/-- DRAM_POWER_DOWN (R145): 1 µs has passed without requests. -/
def execDramPowerDown (at_ : Nat) (s : State) : Host.Outcome State Fault Refusal := s.command fun s =>
  let s := s.reach at_
  if s.flag .mcStatusReady 0 && s.mc.queue.isEmpty && s.mc.held.isEmpty && decide (s.mc.lastReq + 1000 ≤ s.time) then
    .next { s with mc := { s.mc with powerDown := true } }
  else .next s

/-- MC_REGION_WRITE (R133): a write of one word of a region, while MAPLOCK is 0; a set of regions that breaks the rules is
refused with CFGERR, and so is a channel set or a grain out of range in a region that is not enabled. -/
def execMcRegionWrite (n word value : Nat) (secure : Bool) (s : State) : Host.Outcome State Fault Refusal := s.command fun s =>
  if !secure then .next (s.worldError .mcRegionEn n)
  else if s.flag .mcCtrlMaplock 0 then .next s
  else
    let t := if word = 0 then
        s.setFlds n [(.mcRegionEn, bits value 31 31), (.mcRegionBase, bits value 30 16), (.mcRegionChset, bits value 15 0)]
      else s.setFlds n [(.mcRegionGrain, bits value 19 16), (.mcRegionChbase, bits value 11 0)]
    let shape := regionShape (t.fld .mcRegionChset n) (t.fld .mcRegionGrain n)
    .next (if shape && t.mcLegal t.mcRegions then t else s.setFld .mcStatusCfgerr 0 1)

end Sys2Proof.Machine
end

