-- ==== Sys2Proof/Machine/Tract.lean ====
section
/-!
DEFINITION. The tract commands (R28, R29): each reaches the issue unit of its core, where it is checked, waits, runs or faults
(TcIssue.lean).  What the operation itself does is in Gemm, Window, Attn, Scan, Vec, DmaOps and TcIssue.
-/
namespace Sys2Proof.Machine

/-- GEMM 0x00, the N-split (R35, R39, R463). -/
def execGemmNSplit (core : Nat) (cmd : TcCmd) (obs : List Obs) (s : State) : Host.Outcome State Fault Refusal := s.command fun s =>
  .next (s.tractCommand core ⟨.gemmN, cmd, obs⟩)

/-- GEMM 0x01, the K-split of a furrow (R39). -/
def execGemmKSplit (core : Nat) (cmd : TcCmd) (obs : List Obs) (s : State) : Host.Outcome State Fault Refusal := s.command fun s =>
  .next (s.tractCommand core ⟨.gemmK, cmd, obs⟩)

/-- GEMM 0x02, B transposed (R463). -/
def execGemmBTransposed (core : Nat) (cmd : TcCmd) (obs : List Obs) (s : State) : Host.Outcome State Fault Refusal := s.command fun s =>
  .next (s.tractCommand core ⟨.gemmT, cmd, obs⟩)

/-- CONV 0x00, dense (R193). -/
def execConvDense (core : Nat) (cmd : TcCmd) (obs : List Obs) (s : State) : Host.Outcome State Fault Refusal := s.command fun s =>
  .next (s.tractCommand core ⟨.convDense, cmd, obs⟩)

/-- CONV 0x01, diagonal (R195). -/
def execConvDiagonal (core : Nat) (cmd : TcCmd) (obs : List Obs) (s : State) : Host.Outcome State Fault Refusal := s.command fun s =>
  .next (s.tractCommand core ⟨.convDiag, cmd, obs⟩)

/-- ATTN 0x00, forward (R152). -/
def execAttnForward (core : Nat) (cmd : TcCmd) (ur obs : List Obs) (s : State) : Host.Outcome State Fault Refusal := s.command fun s =>
  .next (s.tractCommand core ⟨.attnFwd, cmd, ur ++ obs⟩)

/-- ATTN 0x01, backward (R159). -/
def execAttnBackward (core : Nat) (cmd : TcCmd) (ur obs : List Obs) (s : State) : Host.Outcome State Fault Refusal := s.command fun s =>
  .next (s.tractCommand core ⟨.attnBwd, cmd, ur ++ obs⟩)

/-- SCAN 0x00, the diagonal chunk (R178). -/
def execScanDiagonal (core : Nat) (cmd : TcCmd) (obs : List Obs) (s : State) : Host.Outcome State Fault Refusal := s.command fun s =>
  .next (s.tractCommand core ⟨.scanDiag, cmd, obs⟩)

/-- SCAN 0x01, the matrix-valued chunk (R180). -/
def execScanMatrixValued (core : Nat) (cmd : TcCmd) (obs : List Obs) (s : State) : Host.Outcome State Fault Refusal := s.command fun s =>
  .next (s.tractCommand core ⟨.scanMat, cmd, obs⟩)

/-- SCAN 0x02, the step scan (R178). -/
def execScanStep (core : Nat) (cmd : TcCmd) (obs : List Obs) (s : State) : Host.Outcome State Fault Refusal := s.command fun s =>
  .next (s.tractCommand core ⟨.scanStep, cmd, obs⟩)

/-- VEC 0x00, copy with conversion (R59). -/
def execVecCopy (core : Nat) (cmd : TcCmd) (obs : List Obs) (s : State) : Host.Outcome State Fault Refusal := s.command fun s =>
  .next (s.tractCommand core ⟨.vecCopy, cmd, obs⟩)

/-- VEC 0x01, add (R29, R60). -/
def execVecAdd (core : Nat) (cmd : TcCmd) (obs : List Obs) (s : State) : Host.Outcome State Fault Refusal := s.command fun s =>
  .next (s.tractCommand core ⟨.vecAdd, cmd, obs⟩)

/-- VEC 0x02, multiply (R29, R60). -/
def execVecMultiply (core : Nat) (cmd : TcCmd) (obs : List Obs) (s : State) : Host.Outcome State Fault Refusal := s.command fun s =>
  .next (s.tractCommand core ⟨.vecMul, cmd, obs⟩)

/-- VEC 0x03, fused multiply-add (R29, R60). -/
def execVecFusedMultiplyAdd (core : Nat) (cmd : TcCmd) (obs : List Obs) (s : State) : Host.Outcome State Fault Refusal := s.command fun s =>
  .next (s.tractCommand core ⟨.vecFma, cmd, obs⟩)

/-- VEC 0x04, maximum (R29, R60). -/
def execVecMaximum (core : Nat) (cmd : TcCmd) (obs : List Obs) (s : State) : Host.Outcome State Fault Refusal := s.command fun s =>
  .next (s.tractCommand core ⟨.vecMax, cmd, obs⟩)

/-- VEC 0x05, minimum (R29, R60). -/
def execVecMinimum (core : Nat) (cmd : TcCmd) (obs : List Obs) (s : State) : Host.Outcome State Fault Refusal := s.command fun s =>
  .next (s.tractCommand core ⟨.vecMin, cmd, obs⟩)

/-- VEC 0x06, exp (R29, R60). -/
def execVecExp (core : Nat) (cmd : TcCmd) (obs : List Obs) (s : State) : Host.Outcome State Fault Refusal := s.command fun s =>
  .next (s.tractCommand core ⟨.vecExp, cmd, obs⟩)

/-- VEC 0x07, log (R29, R60). -/
def execVecLog (core : Nat) (cmd : TcCmd) (obs : List Obs) (s : State) : Host.Outcome State Fault Refusal := s.command fun s =>
  .next (s.tractCommand core ⟨.vecLog, cmd, obs⟩)

/-- VEC 0x08, reciprocal (R29, R60). -/
def execVecReciprocal (core : Nat) (cmd : TcCmd) (obs : List Obs) (s : State) : Host.Outcome State Fault Refusal := s.command fun s =>
  .next (s.tractCommand core ⟨.vecRecip, cmd, obs⟩)

/-- VEC 0x09, sigmoid (R29, R60). -/
def execVecSigmoid (core : Nat) (cmd : TcCmd) (obs : List Obs) (s : State) : Host.Outcome State Fault Refusal := s.command fun s =>
  .next (s.tractCommand core ⟨.vecSigmoid, cmd, obs⟩)

/-- VEC 0x0A, tanh (R29, R60). -/
def execVecTanh (core : Nat) (cmd : TcCmd) (obs : List Obs) (s : State) : Host.Outcome State Fault Refusal := s.command fun s =>
  .next (s.tractCommand core ⟨.vecTanh, cmd, obs⟩)

/-- VEC 0x0B, SiLU (R29, R60). -/
def execVecSilu (core : Nat) (cmd : TcCmd) (obs : List Obs) (s : State) : Host.Outcome State Fault Refusal := s.command fun s =>
  .next (s.tractCommand core ⟨.vecSilu, cmd, obs⟩)

/-- VEC 0x0C, GELU (R29, R60). -/
def execVecGelu (core : Nat) (cmd : TcCmd) (obs : List Obs) (s : State) : Host.Outcome State Fault Refusal := s.command fun s =>
  .next (s.tractCommand core ⟨.vecGelu, cmd, obs⟩)

/-- VEC 0x0D, the sum along D0 (R60). -/
def execVecSumAlongD0 (core : Nat) (cmd : TcCmd) (obs : List Obs) (s : State) : Host.Outcome State Fault Refusal := s.command fun s =>
  .next (s.tractCommand core ⟨.vecSum, cmd, obs⟩)

/-- VEC 0x0E, the maximum along D0 (R60). -/
def execVecMaximumAlongD0 (core : Nat) (cmd : TcCmd) (obs : List Obs) (s : State) : Host.Outcome State Fault Refusal := s.command fun s =>
  .next (s.tractCommand core ⟨.vecMaxD0, cmd, obs⟩)

/-- VEC 0x0F, requantise (R58). -/
def execVecRequantise (core : Nat) (cmd : TcCmd) (obs : List Obs) (s : State) : Host.Outcome State Fault Refusal := s.command fun s =>
  .next (s.tractCommand core ⟨.vecRequant, cmd, obs⟩)

/-- POOL 0x00, max (R197). -/
def execPoolMax (core : Nat) (cmd : TcCmd) (obs : List Obs) (s : State) : Host.Outcome State Fault Refusal := s.command fun s =>
  .next (s.tractCommand core ⟨.poolMax, cmd, obs⟩)

/-- POOL 0x01, average (R197). -/
def execPoolAverage (core : Nat) (cmd : TcCmd) (obs : List Obs) (s : State) : Host.Outcome State Fault Refusal := s.command fun s =>
  .next (s.tractCommand core ⟨.poolAvg, cmd, obs⟩)

/-- DMA 0x00, from the Unified Range into a Bin (R464). -/
def execDmaUnifiedRangeToBin (core : Nat) (cmd : TcCmd) (ur obs : List Obs) (s : State) : Host.Outcome State Fault Refusal := s.command fun s =>
  .next (s.tractCommand core ⟨.dmaIn, cmd, ur ++ obs⟩)

/-- DMA 0x01, from a Bin to the Unified Range (R464). -/
def execDmaBinToUnifiedRange (core : Nat) (cmd : TcCmd) (ur obs : List Obs) (s : State) : Host.Outcome State Fault Refusal := s.command fun s =>
  .next (s.tractCommand core ⟨.dmaOut, cmd, ur ++ obs⟩)

/-- DMA 0x02, from Bin to Bin (R464). -/
def execDmaBinToBin (core : Nat) (cmd : TcCmd) (obs : List Obs) (s : State) : Host.Outcome State Fault Refusal := s.command fun s =>
  .next (s.tractCommand core ⟨.dmaBin, cmd, obs⟩)

/-- DMA 0x03, into a gate of another device (R378). -/
def execDmaBinToRemoteGate (core : Nat) (cmd : TcCmd) (obs : List Obs) (s : State) : Host.Outcome State Fault Refusal := s.command fun s =>
  .next (s.tractCommand core ⟨.dmaGate, cmd, obs⟩)

/-- WAIT_TALLY (R102). -/
def execWaitTally (core : Nat) (cmd : TcCmd) (s : State) : Host.Outcome State Fault Refusal := s.command fun s =>
  .next (s.tractCommand core ⟨.waitTally, cmd, []⟩)

/-- SCALE 0x00, per-row absolute maximum (R61). -/
def execScalePerRowAbsoluteMaximum (core : Nat) (cmd : TcCmd) (obs : List Obs) (s : State) : Host.Outcome State Fault Refusal := s.command fun s =>
  .next (s.tractCommand core ⟨.scaleAbsMax, cmd, obs⟩)

/-- SCALE 0x01, load scales (R61). -/
def execScaleLoad (core : Nat) (cmd : TcCmd) (obs : List Obs) (s : State) : Host.Outcome State Fault Refusal := s.command fun s =>
  .next (s.tractCommand core ⟨.scaleLoad, cmd, obs⟩)

/-- SCALE 0x02, adapt (R62). -/
def execScaleAdapt (core : Nat) (cmd : TcCmd) (obs : List Obs) (s : State) : Host.Outcome State Fault Refusal := s.command fun s =>
  .next (s.tractCommand core ⟨.scaleAdapt, cmd, obs⟩)

/-- SPILL 0x00, a hearth out (R462). -/
def execSpillOut (core : Nat) (cmd : TcCmd) (obs : List Obs) (s : State) : Host.Outcome State Fault Refusal := s.command fun s =>
  .next (s.tractCommand core ⟨.spillOut, cmd, obs⟩)

/-- SPILL 0x01, a hearth in (R462). -/
def execSpillIn (core : Nat) (cmd : TcCmd) (obs : List Obs) (s : State) : Host.Outcome State Fault Refusal := s.command fun s =>
  .next (s.tractCommand core ⟨.spillIn, cmd, obs⟩)

/-- STILE (R225), reaching issue at an instant. -/
def execStilePoint (core at_ : Nat) (cmd : TcCmd) (s : State) (obs : List Obs := []) : Host.Outcome State Fault Refusal := s.command fun s =>
  .next ((s.reach at_).tractCommand core ⟨.stile, cmd, obs⟩)

/-- A command of a reserved CLASS or SUBOP (R29): an illegal command at issue. -/
def execReservedClassCommand (core : Nat) (cmd : TcCmd) (s : State) : Host.Outcome State Fault Refusal := s.command fun s =>
  .next (s.tractCommand core ⟨.reserved, cmd, []⟩)

end Sys2Proof.Machine
end

