-- ==== Sys2Proof/Machine/Dispatch.lean ====
section
/-!
DEFINITION. What each command does: one arm for each constructor of `Instr`, one call of its meaning.
-/
namespace Sys2Proof.Machine

/-- The effect of a command on everything but the queue. -/
def exec (i : Instr) (s : State) : Host.Outcome State Fault Refusal :=
  match i with
  | .gemmNSplit core cmd obs => Sys2Proof.Machine.execGemmNSplit core cmd obs s
  | .gemmKSplit core cmd obs => Sys2Proof.Machine.execGemmKSplit core cmd obs s
  | .gemmBTransposed core cmd obs => Sys2Proof.Machine.execGemmBTransposed core cmd obs s
  | .convDense core cmd obs => Sys2Proof.Machine.execConvDense core cmd obs s
  | .convDiagonal core cmd obs => Sys2Proof.Machine.execConvDiagonal core cmd obs s
  | .attnForward core cmd ur obs => Sys2Proof.Machine.execAttnForward core cmd ur obs s
  | .attnBackward core cmd ur obs => Sys2Proof.Machine.execAttnBackward core cmd ur obs s
  | .scanDiagonal core cmd obs => Sys2Proof.Machine.execScanDiagonal core cmd obs s
  | .scanMatrixValued core cmd obs => Sys2Proof.Machine.execScanMatrixValued core cmd obs s
  | .scanStep core cmd obs => Sys2Proof.Machine.execScanStep core cmd obs s
  | .vecCopy core cmd obs => Sys2Proof.Machine.execVecCopy core cmd obs s
  | .vecAdd core cmd obs => Sys2Proof.Machine.execVecAdd core cmd obs s
  | .vecMultiply core cmd obs => Sys2Proof.Machine.execVecMultiply core cmd obs s
  | .vecFusedMultiplyAdd core cmd obs => Sys2Proof.Machine.execVecFusedMultiplyAdd core cmd obs s
  | .vecMaximum core cmd obs => Sys2Proof.Machine.execVecMaximum core cmd obs s
  | .vecMinimum core cmd obs => Sys2Proof.Machine.execVecMinimum core cmd obs s
  | .vecExp core cmd obs => Sys2Proof.Machine.execVecExp core cmd obs s
  | .vecLog core cmd obs => Sys2Proof.Machine.execVecLog core cmd obs s
  | .vecReciprocal core cmd obs => Sys2Proof.Machine.execVecReciprocal core cmd obs s
  | .vecSigmoid core cmd obs => Sys2Proof.Machine.execVecSigmoid core cmd obs s
  | .vecTanh core cmd obs => Sys2Proof.Machine.execVecTanh core cmd obs s
  | .vecSilu core cmd obs => Sys2Proof.Machine.execVecSilu core cmd obs s
  | .vecGelu core cmd obs => Sys2Proof.Machine.execVecGelu core cmd obs s
  | .vecSumAlongD0 core cmd obs => Sys2Proof.Machine.execVecSumAlongD0 core cmd obs s
  | .vecMaximumAlongD0 core cmd obs => Sys2Proof.Machine.execVecMaximumAlongD0 core cmd obs s
  | .vecRequantise core cmd obs => Sys2Proof.Machine.execVecRequantise core cmd obs s
  | .poolMax core cmd obs => Sys2Proof.Machine.execPoolMax core cmd obs s
  | .poolAverage core cmd obs => Sys2Proof.Machine.execPoolAverage core cmd obs s
  | .dmaUnifiedRangeToBin core cmd ur obs => Sys2Proof.Machine.execDmaUnifiedRangeToBin core cmd ur obs s
  | .dmaBinToUnifiedRange core cmd ur obs => Sys2Proof.Machine.execDmaBinToUnifiedRange core cmd ur obs s
  | .dmaBinToBin core cmd obs => Sys2Proof.Machine.execDmaBinToBin core cmd obs s
  | .dmaBinToRemoteGate core cmd obs => Sys2Proof.Machine.execDmaBinToRemoteGate core cmd obs s
  | .waitTally core cmd => Sys2Proof.Machine.execWaitTally core cmd s
  | .scalePerRowAbsoluteMaximum core cmd obs => Sys2Proof.Machine.execScalePerRowAbsoluteMaximum core cmd obs s
  | .scaleLoad core cmd obs => Sys2Proof.Machine.execScaleLoad core cmd obs s
  | .scaleAdapt core cmd obs => Sys2Proof.Machine.execScaleAdapt core cmd obs s
  | .spillOut core cmd obs => Sys2Proof.Machine.execSpillOut core cmd obs s
  | .spillIn core cmd obs => Sys2Proof.Machine.execSpillIn core cmd obs s
  | .stilePoint core at_ cmd obs => Sys2Proof.Machine.execStilePoint core at_ cmd s obs
  | .commandComplete core tag last at_ => Sys2Proof.Machine.execCommandComplete core tag last at_ s
  | .waitTallyTimeout core => Sys2Proof.Machine.execWaitTallyTimeout core s
  | .hearthSwapInComplete core hearth failed at_ => Sys2Proof.Machine.execHearthSwapInComplete core hearth failed at_ s
  | .hearthSwapOutComplete core hearth => Sys2Proof.Machine.execHearthSwapOutComplete core hearth s
  | .hearthCfgWrite core split secure => Sys2Proof.Machine.execHearthCfgWrite core split secure s
  | .binPortAccess bin port init secure write off len data tally obs => Sys2Proof.Machine.execBinPortAccess bin port init secure write off len data tally obs s
  | .correctedWordWriteBack bin => Sys2Proof.Machine.execCorrectedWordWriteBack bin s
  | .binInit bin secure => Sys2Proof.Machine.execBinInit bin secure s
  | .binZeroingComplete bin => Sys2Proof.Machine.execBinZeroingComplete bin s
  | .patrolScrub bin obs => Sys2Proof.Machine.execPatrolScrub bin obs s
  | .slotMapWrite bin word value secure => Sys2Proof.Machine.execSlotMapWrite bin word value secure s
  | .binRepair bin bank row secure => Sys2Proof.Machine.execBinRepair bin bank row secure s
  | .fieldRowRepair bin bank row => Sys2Proof.Machine.execFieldRowRepair bin bank row s
  | .gateOpen bin gate secure => Sys2Proof.Machine.execGateOpen bin gate secure s
  | .gateClose bin gate secure => Sys2Proof.Machine.execGateClose bin gate secure s
  | .gateArrival bin gate off tally sender data sealWord => Sys2Proof.Machine.execGateArrival bin gate off tally sender data sealWord s
  | .tallyWrite bin tally value secure => Sys2Proof.Machine.execTallyWrite bin tally value secure s
  | .unifiedRangeAccess init secure write off len data obs => Sys2Proof.Machine.execUnifiedRangeAccess init secure write off len data obs s
  | .granaryFillComplete quarter cause => Sys2Proof.Machine.execGranaryFillComplete quarter cause s
  | .granaryWriteBackComplete quarter failed => Sys2Proof.Machine.execGranaryWriteBackComplete quarter failed s
  | .migrationDecay at_ => Sys2Proof.Machine.execMigrationDecay at_ s
  | .urPin page quota count secure => Sys2Proof.Machine.execUrPin page quota count secure s
  | .urUnpin page quota count secure => Sys2Proof.Machine.execUrUnpin page quota count secure s
  | .urQuotaWrite quota ways secure => Sys2Proof.Machine.execUrQuotaWrite quota ways secure s
  | .urPstateWrite page q sheaf secure => Sys2Proof.Machine.execUrPstateWrite page q sheaf secure s
  | .deadlineExpiry core slot at_ => Sys2Proof.Machine.execDeadlineExpiry core slot at_ s
  | .fallbackStart core => Sys2Proof.Machine.execFallbackStart core s
  | .quarterRetireComplete quarter => Sys2Proof.Machine.execQuarterRetireComplete quarter s
  | .quarterLoss quarter => Sys2Proof.Machine.execQuarterLoss quarter s
  | .dramRequest port off write deadline at_ => Sys2Proof.Machine.execDramRequest port off write deadline at_ s
  | .dramRequestComplete channel ce ue at_ => Sys2Proof.Machine.execDramRequestComplete channel ce ue at_ s
  | .perBankRefresh channel rank bank => Sys2Proof.Machine.execPerBankRefresh channel rank bank s
  | .mr4Read channel multiplier hot => Sys2Proof.Machine.execMr4Read channel multiplier hot s
  | .actWindowClear => Sys2Proof.Machine.execActWindowClear s
  | .dramTrainingComplete quad failed rfm => Sys2Proof.Machine.execDramTrainingComplete quad failed s rfm
  | .periodicRetrain channel drift at_ => Sys2Proof.Machine.execPeriodicRetrain channel drift at_ s
  | .forcedRetrainUpdate channel at_ => Sys2Proof.Machine.execForcedRetrainUpdate channel at_ s
  | .dramPowerDown at_ => Sys2Proof.Machine.execDramPowerDown at_ s
  | .mcRegionWrite n word value secure => Sys2Proof.Machine.execMcRegionWrite n word value secure s
  | .ledgerOpen type part handle a0 a1 a2 secure obs => Sys2Proof.Machine.execLedgerOpen type part handle a0 a1 a2 secure s obs
  | .ledgerClose handle secure obs => Sys2Proof.Machine.execLedgerClose handle secure s obs
  | .ledgerTruncate handle len secure obs => Sys2Proof.Machine.execLedgerTruncate handle len secure s obs
  | .ledgerRead handle secure => Sys2Proof.Machine.execLedgerRead handle secure s
  | .svLeaseWrite part en secure => Sys2Proof.Machine.execSvLeaseWrite part en secure s
  | .svDoorbell add secure => Sys2Proof.Machine.execSvDoorbell add secure s
  | .sieveDecode obs => Sys2Proof.Machine.execSieveDecode obs s
  | .sieveCrop obs => Sys2Proof.Machine.execSieveCrop obs s
  | .sieveCallComplete => Sys2Proof.Machine.execSieveCallComplete s
  | .partApply secure => Sys2Proof.Machine.execPartApply secure s
  | .partitionApplyResume part => Sys2Proof.Machine.execPartitionApplyResume part s
  | .submissionDoorbell ring tail at_ secure => Sys2Proof.Machine.execSubmissionDoorbell ring tail at_ secure s
  | .periodicRelease part slot at_ => Sys2Proof.Machine.execPeriodicRelease part slot at_ s
  | .preEmptionSaveComplete core at_ => Sys2Proof.Machine.execPreEmptionSaveComplete core at_ s
  | .switchRestoreComplete core failed at_ => Sys2Proof.Machine.execSwitchRestoreComplete core failed at_ s
  | .cqheadWrite ring value secure => Sys2Proof.Machine.execCqheadWrite ring value secure s
  | .rotaAbort via ring index secure at_ => Sys2Proof.Machine.execRotaAbort via ring index secure at_ s
  | .guardedRelease net at_ => Sys2Proof.Machine.execGuardedRelease net at_ s
  | .selftestSegmentEnd core badRows badCores at_ => Sys2Proof.Machine.execSelftestSegmentEnd core badRows badCores at_ s
  | .hpFeedEnable feed secure => Sys2Proof.Machine.execHpFeedEnable feed secure s
  | .hpFeedDisable feed secure => Sys2Proof.Machine.execHpFeedDisable feed secure s
  | .hpDoorbell feed tail secure => Sys2Proof.Machine.execHpDoorbell feed tail secure s
  | .laneSampleStart lane at_ => Sys2Proof.Machine.execLaneSampleStart lane at_ s
  | .sampleFinish lane obs at_ => Sys2Proof.Machine.execSampleFinish lane obs at_ s
  | .sampleBudgetExpiry lane at_ => Sys2Proof.Machine.execSampleBudgetExpiry lane at_ s
  | .hpRelease feed add secure => Sys2Proof.Machine.execHpRelease feed add secure s
  | .csiFrameStart link vc number hdr deskewed at_ => Sys2Proof.Machine.execCsiFrameStart link vc number hdr deskewed at_ s
  | .csiLongPacket link vc dt line hdr crcBad overflow at_ => Sys2Proof.Machine.execCsiLongPacket link vc dt line hdr crcBad overflow at_ s
  | .csiFrameEnd link vc hdr at_ => Sys2Proof.Machine.execCsiFrameEnd link vc hdr at_ s
  | .cameraHotplugLoss link at_ => Sys2Proof.Machine.execCameraHotplugLoss link at_ s
  | .csiLossTimeout link at_ => Sys2Proof.Machine.execCsiLossTimeout link at_ s
  | .frameStartTimeout sensor at_ => Sys2Proof.Machine.execFrameStartTimeout sensor at_ s
  | .gapRecord sensor at_ => Sys2Proof.Machine.execGapRecord sensor at_ s
  | .osEnable stream => Sys2Proof.Machine.execOsEnable stream s
  | .osDisable stream => Sys2Proof.Machine.execOsDisable stream s
  | .osRelease stream add => Sys2Proof.Machine.execOsRelease stream add s
  | .camColourWrite sensor blob => Sys2Proof.Machine.execCamColourWrite sensor blob s
  | .audioBlock mics refs refUnlocked stamp at_ => Sys2Proof.Machine.execAudioBlock mics refs refUnlocked stamp at_ s
  | .audStreamEnable en => Sys2Proof.Machine.execAudStreamEnable en s
  | .audioRelease => Sys2Proof.Machine.execAudioRelease s
  | .vadFrame samples vad score at_ => Sys2Proof.Machine.execVadFrame samples vad score at_ s
  | .spanPush at_ => Sys2Proof.Machine.execSpanPush at_ s
  | .spanPushComplete at_ => Sys2Proof.Machine.execSpanPushComplete at_ s
  | .watchVerdictAccept at_ => Sys2Proof.Machine.execWatchVerdictAccept at_ s
  | .watchVerdictReject => Sys2Proof.Machine.execWatchVerdictReject s
  | .verifyTimeout at_ => Sys2Proof.Machine.execVerifyTimeout at_ s
  | .lockOpenExpiry at_ => Sys2Proof.Machine.execLockOpenExpiry at_ s
  | .erasingComplete => Sys2Proof.Machine.execErasingComplete s
  | .watchPull bin base count tally start => Sys2Proof.Machine.execWatchPull bin base count tally start s
  | .watchSpanWrite value secure => Sys2Proof.Machine.execWatchSpanWrite value secure s
  | .muteAssert at_ => Sys2Proof.Machine.execMuteAssert at_ s
  | .muteRelease at_ => Sys2Proof.Machine.execMuteRelease at_ s
  | .listenMicLost at_ => Sys2Proof.Machine.execListenMicLost at_ s
  | .buttonChange button pressed edge at_ => Sys2Proof.Machine.execButtonChange button pressed edge at_ s
  | .buttonLong button at_ => Sys2Proof.Machine.execButtonLong button at_ s
  | .recoveryDecision at_ => Sys2Proof.Machine.execRecoveryDecision at_ s
  | .touchScan meas at_ => Sys2Proof.Machine.execTouchScan meas at_ s
  | .hpdChange input present edge at_ => Sys2Proof.Machine.execHpdChange input present edge at_ s
  | .shutterChange link closed edge at_ => Sys2Proof.Machine.execShutterChange link closed edge at_ s
  | .doorLedWrite led value at_ => Sys2Proof.Machine.execDoorLedWrite led value at_ s
  | .comparatorStart net => Sys2Proof.Machine.execComparatorStart net s
  | .comparatorComplete net obs at_ => Sys2Proof.Machine.execComparatorComplete net obs at_ s
  | .wwKickArm ww at_ => Sys2Proof.Machine.execWwKickArm ww at_ s
  | .wwKick ww at_ => Sys2Proof.Machine.execWwKick ww at_ s
  | .watchdogLimitExpiry ww at_ => Sys2Proof.Machine.execWatchdogLimitExpiry ww at_ s
  | .safeFaultClear mask secure => Sys2Proof.Machine.execSafeFaultClear mask secure s
  | .safeInjectCompare net secure => Sys2Proof.Machine.execSafeInjectCompare net secure s
  | .safeInjectWatchdog ww secure => Sys2Proof.Machine.execSafeInjectWatchdog ww secure s
  | .boundaryRegionWrite n word secure => Sys2Proof.Machine.execBoundaryRegionWrite n word secure s
  | .regionZeroingComplete n => Sys2Proof.Machine.execRegionZeroingComplete n s
  | .secWmapWrite value secure => Sys2Proof.Machine.execSecWmapWrite value secure s
  | .keySlotAgree slot part src at_ secure => Sys2Proof.Machine.execKeySlotAgree slot part src at_ secure s
  | .keySlotDerive slot part src context secure => Sys2Proof.Machine.execKeySlotDerive slot part src context secure s
  | .keySlotClear slot secure => Sys2Proof.Machine.execKeySlotClear slot secure s
  | .secUnwrap src dst secure => Sys2Proof.Machine.execSecUnwrap src dst secure s
  | .unwrapComplete obs at_ => Sys2Proof.Machine.execUnwrapComplete obs at_ s
  | .attestNonceWrite nonce => Sys2Proof.Machine.execAttestNonceWrite nonce s
  | .attestReportSigned at_ => Sys2Proof.Machine.execAttestReportSigned at_ s
  | .secMeasWrite index value secure => Sys2Proof.Machine.execSecMeasWrite index value secure s
  | .deviceRootFormed ok at_ => Sys2Proof.Machine.execDeviceRootFormed ok at_ s
  | .debugToken level sig => Sys2Proof.Machine.execDebugToken level sig s
  | .debugUnlock => Sys2Proof.Machine.execDebugUnlock s
  | .crierIdentify frame at_ => Sys2Proof.Machine.execCrierIdentify frame at_ s
  | .crierOpen frame at_ => Sys2Proof.Machine.execCrierOpen frame at_ s
  | .crierClose frame at_ => Sys2Proof.Machine.execCrierClose frame at_ s
  | .objectRead via at_ => Sys2Proof.Machine.execObjectRead via at_ s
  | .objectWrite via at_ => Sys2Proof.Machine.execObjectWrite via at_ s
  | .readBlock via at_ => Sys2Proof.Machine.execReadBlock via at_ s
  | .writeBlock via at_ => Sys2Proof.Machine.execWriteBlock via at_ s
  | .crierSubscribe frame at_ => Sys2Proof.Machine.execCrierSubscribe frame at_ s
  | .crierNotify session kind index sub at_ => Sys2Proof.Machine.execCrierNotify session kind index sub at_ s
  | .crierPull via obs at_ => Sys2Proof.Machine.execCrierPull via obs at_ s
  | .crierAck via at_ => Sys2Proof.Machine.execCrierAck via at_ s
  | .sessionTimeout session at_ => Sys2Proof.Machine.execSessionTimeout session at_ s
  | .resultPublish core handle subject evidence cls flags code payload at_ => Sys2Proof.Machine.execResultPublish core handle subject evidence cls flags code payload at_ s
  | .almanacSave secure => Sys2Proof.Machine.execAlmanacSave secure s
  | .almanacSaveComplete ok => Sys2Proof.Machine.execAlmanacSaveComplete ok s
  | .almanacRestore secure => Sys2Proof.Machine.execAlmanacRestore secure s
  | .arpRequest target senderIp senderMac => Sys2Proof.Machine.execArpRequest target senderIp senderMac s
  | .icmpEcho target senderIp senderMac payload => Sys2Proof.Machine.execIcmpEcho target senderIp senderMac payload s
  | .tc10RemoteWake at_ => Sys2Proof.Machine.execTc10RemoteWake at_ s
  | .gptpMessage kind offset delay at_ => Sys2Proof.Machine.execGptpMessage kind offset delay at_ s
  | .hlPortUp port width rate => Sys2Proof.Machine.execHlPortUp port width rate s
  | .hlPortDown port => Sys2Proof.Machine.execHlPortDown port s
  | .hlRetrain port => Sys2Proof.Machine.execHlRetrain port s
  | .hlHello port id master digest members ring => Sys2Proof.Machine.execHlHello port id master digest members ring s
  | .hlData port dst src lseq tally gate offset bin xfer ctr body crcOk => Sys2Proof.Machine.execHlData port dst src lseq tally gate offset bin xfer ctr body crcOk s
  | .hlReply port dst src lseq xfer offset code crcOk => Sys2Proof.Machine.execHlReply port dst src lseq xfer offset code crcOk s
  | .hlLinkack port lseq => Sys2Proof.Machine.execHlLinkack port lseq s
  | .hlReplay port lseq => Sys2Proof.Machine.execHlReplay port lseq s
  | .hlReplyTimeout xfer grain at_ => Sys2Proof.Machine.execHlReplyTimeout xfer grain at_ s
  | .hlSyncSend at_ => Sys2Proof.Machine.execHlSyncSend at_ s
  | .hlSync port src lseq stamp delay crcOk at_ => Sys2Proof.Machine.execHlSync port src lseq stamp delay crcOk at_ s
  | .hlSyncLoss at_ => Sys2Proof.Machine.execHlSyncLoss at_ s
  | .nhlwakePulse at_ => Sys2Proof.Machine.execNhlwakePulse at_ s
  | .hlMgmt fromNet port dst src lseq frame crcOk => Sys2Proof.Machine.execHlMgmt fromNet port dst src lseq frame crcOk s
  | .governorPeriod temps pouts status vout margins ces ues overrun at_ => Sys2Proof.Machine.execGovernorPeriod temps pouts status vout margins ces ues overrun at_ s
  | .pmbusAlert => Sys2Proof.Machine.execPmbusAlert s
  | .logFlush at_ => Sys2Proof.Machine.execLogFlush at_ s
  | .updBegin secure => Sys2Proof.Machine.execUpdBegin secure s
  | .updData bytes secure => Sys2Proof.Machine.execUpdData bytes secure s
  | .updFinish secure => Sys2Proof.Machine.execUpdFinish secure s
  | .updCancel secure => Sys2Proof.Machine.execUpdCancel secure s
  | .updActivate secure at_ => Sys2Proof.Machine.execUpdActivate secure at_ s
  | .updVerifyComplete result => Sys2Proof.Machine.execUpdVerifyComplete result s
  | .updWriteComplete ok => Sys2Proof.Machine.execUpdWriteComplete ok s
  | .updCommitComplete ok => Sys2Proof.Machine.execUpdCommitComplete ok s
  | .idleEntry at_ => Sys2Proof.Machine.execIdleEntry at_ s
  | .dozeEntry at_ => Sys2Proof.Machine.execDozeEntry at_ s
  | .restEntry at_ => Sys2Proof.Machine.execRestEntry at_ s
  | .listenEntry refused at_ => Sys2Proof.Machine.execListenEntry refused at_ s
  | .stateEntryComplete bad at_ => Sys2Proof.Machine.execStateEntryComplete bad at_ s
  | .resumeComplete at_ => Sys2Proof.Machine.execResumeComplete at_ s
  | .wakeAlarm at_ => Sys2Proof.Machine.execWakeAlarm at_ s
  | .domainStart at_ => Sys2Proof.Machine.execDomainStart at_ s
  | .domainPowerGood domain at_ => Sys2Proof.Machine.execDomainPowerGood domain at_ s
  | .domainSwitchOff domain at_ => Sys2Proof.Machine.execDomainSwitchOff domain at_ s
  | .regOk at_ => Sys2Proof.Machine.execRegOk at_ s
  | .regOkTimeout at_ => Sys2Proof.Machine.execRegOkTimeout at_ s
  | .regRetry at_ => Sys2Proof.Machine.execRegRetry at_ s
  | .brownOut at_ => Sys2Proof.Machine.execBrownOut at_ s
  | .clkTcselSwitch core src secure => Sys2Proof.Machine.execClkTcselSwitch core src secure s
  | .tclkSwitchComplete => Sys2Proof.Machine.execTclkSwitchComplete s
  | .pllLock pll => Sys2Proof.Machine.execPllLock pll s
  | .clockSourceFailure source at_ => Sys2Proof.Machine.execClockSourceFailure source at_ s
  | .clockSourceReturn sources at_ => Sys2Proof.Machine.execClockSourceReturn sources at_ s
  | .clkReturnTimeout at_ => Sys2Proof.Machine.execClkReturnTimeout at_ s
  | .clkEnWrite value secure => Sys2Proof.Machine.execClkEnWrite value secure s
  | .hardwareThrottle highest at_ => Sys2Proof.Machine.execHardwareThrottle highest at_ s
  | .thermalTrip reading since at_ => Sys2Proof.Machine.execThermalTrip reading since at_ s
  | .nporLow at_ => Sys2Proof.Machine.execNporLow at_ s
  | .nporRelease masterSel id buttons at_ => Sys2Proof.Machine.execNporRelease masterSel id buttons at_ s
  | .nrstLow at_ => Sys2Proof.Machine.execNrstLow at_ s
  | .rstCtrlWarm secure at_ => Sys2Proof.Machine.execRstCtrlWarm secure at_ s
  | .rstCtrlPartition part secure => Sys2Proof.Machine.execRstCtrlPartition part secure s
  | .extestSelect at_ => Sys2Proof.Machine.execExtestSelect at_ s
  | .warmResetZeroingComplete bad at_ => Sys2Proof.Machine.execWarmResetZeroingComplete bad at_ s
  | .bootRomVerifyComplete slot version seq rejected auth reeveMeas confMeas peers at_ => Sys2Proof.Machine.execBootRomVerifyComplete slot version seq rejected auth reeveMeas confMeas peers at_ s
  | .watchImageVerified ok modelId watchMeas modelMeas watchVersion modelVersion at_ => Sys2Proof.Machine.execWatchImageVerified ok modelId watchMeas modelMeas watchVersion modelVersion at_ s
  | .hostFirmwareVerified slot version wmap regions measurement at_ => Sys2Proof.Machine.execHostFirmwareVerified slot version wmap regions measurement at_ s
  | .tcCtrlHalt core halt secure => Sys2Proof.Machine.execTcCtrlHalt core halt secure s
  | .logRegisterClear which inst secure => Sys2Proof.Machine.execLogRegisterClear which inst secure s
  | .registerWrite addr value secure read => Sys2Proof.Machine.execRegisterWrite addr value secure s read
  | .reservedClassCommand core cmd => Sys2Proof.Machine.execReservedClassCommand core cmd s
  | .unknownOperation op via at_ => Sys2Proof.Machine.execUnknownOperation op via at_ s
  | .hlUnknownPacket port => Sys2Proof.Machine.execHlUnknownPacket port s
  | .nrstRelease at_ => Sys2Proof.Machine.execNrstRelease at_ s
  | .extestDeselect at_ => Sys2Proof.Machine.execExtestDeselect at_ s
  | .watchRegulatorOverload at_ => Sys2Proof.Machine.execWatchRegulatorOverload at_ s
  | .vddAonInRemoved at_ => Sys2Proof.Machine.execVddAonInRemoved at_ s
  | .agreeHandshakeEnd key fixed ok at_ => Sys2Proof.Machine.execAgreeHandshakeEnd key fixed ok at_ s

end Sys2Proof.Machine
end

