-- ==== Sys2Proof/Safety.lean ====
section
/-!
DEFINITION. What claims about a step are said in: that the block goes on, what a command leaves, and the issue of a tract command
without a wait or a fault.
-/
namespace Sys2Proof.Machine

/-- The step answers a next state: it neither faults nor refuses. -/
def Goes (s : State) : Prop := ∃ t, step s = .next t

/-- The command completes and leaves `t`, but for the queue of waiting commands, which it leaves as it was. -/
def After (c : Instr) (s t : State) : Prop := exec c s = .next { t with pending := s.pending }

/-- No command waits at issue in any core, and no job is ending. -/
def State.calm (s : State) : Bool :=
  (List.range 8).all (fun c => (s.core c).queue.isEmpty && (s.core c).ending.isNone)

/-- The state after `n` steps, if none of them stops. -/
def afterSteps (n : Nat) (s : State) : Option State :=
  match n with
  | 0 => some s
  | n + 1 =>
    match step s with
    | .next t => afterSteps n t
    | _ => none

/-- The addressed memories keep their canonical form: the Bins, the page homes and frames of the Unified Range, the hearth planes and spill slots,
and the window. -/
def State.memWf (s : State) : Bool :=
  SMap.wf (fun _ => 0) s.bin.mem && SMap.wf (fun _ => 0) s.ur.home && SMap.wf (fun _ => 0) s.ur.frame &&
  SMap.wf (fun _ => 0) s.hearth.plane && SMap.wf (fun _ => 0) s.hearth.spill && SMap.wf (fun _ => 0) s.crier.window

/-! ## Bins -/

/-- The grains of a Bin that an access touches serve: the Bin is READY, every grain exists, and the regions allow the access (R95,
R98, R321). -/
def BinServes (s : State) (q : Requester) (write : Bool) (bin : Nat) (gs : List Nat) : Prop :=
  s.binReady bin = true ∧ ∀ g ∈ gs, g < binGrains ∧ s.allowed q write (bin + 1) g = true

/-- A grain reads well: it is not poisoned and its stored seal matches (R92, R93). -/
def GrainGood (s : State) (bin g : Nat) : Prop := s.poisoned bin g = false ∧ SMap.get s.bin.sealX (grainKey bin g) 0#32 = 0#32

/-! ## Tract commands -/

/-- What a tract command brings to the issue unit of which core (R29). -/
def tractIssue (i : Instr) : Option (Nat × Issue) :=
  match i with
  | .gemmNSplit core cmd obs => some (core, ⟨.gemmN, cmd, obs⟩)
  | .gemmKSplit core cmd obs => some (core, ⟨.gemmK, cmd, obs⟩)
  | .gemmBTransposed core cmd obs => some (core, ⟨.gemmT, cmd, obs⟩)
  | .convDense core cmd obs => some (core, ⟨.convDense, cmd, obs⟩)
  | .convDiagonal core cmd obs => some (core, ⟨.convDiag, cmd, obs⟩)
  | .attnForward core cmd ur obs => some (core, ⟨.attnFwd, cmd, ur ++ obs⟩)
  | .attnBackward core cmd ur obs => some (core, ⟨.attnBwd, cmd, ur ++ obs⟩)
  | .scanDiagonal core cmd obs => some (core, ⟨.scanDiag, cmd, obs⟩)
  | .scanMatrixValued core cmd obs => some (core, ⟨.scanMat, cmd, obs⟩)
  | .scanStep core cmd obs => some (core, ⟨.scanStep, cmd, obs⟩)
  | .vecCopy core cmd obs => some (core, ⟨.vecCopy, cmd, obs⟩)
  | .vecAdd core cmd obs => some (core, ⟨.vecAdd, cmd, obs⟩)
  | .vecMultiply core cmd obs => some (core, ⟨.vecMul, cmd, obs⟩)
  | .vecFusedMultiplyAdd core cmd obs => some (core, ⟨.vecFma, cmd, obs⟩)
  | .vecMaximum core cmd obs => some (core, ⟨.vecMax, cmd, obs⟩)
  | .vecMinimum core cmd obs => some (core, ⟨.vecMin, cmd, obs⟩)
  | .vecExp core cmd obs => some (core, ⟨.vecExp, cmd, obs⟩)
  | .vecLog core cmd obs => some (core, ⟨.vecLog, cmd, obs⟩)
  | .vecReciprocal core cmd obs => some (core, ⟨.vecRecip, cmd, obs⟩)
  | .vecSigmoid core cmd obs => some (core, ⟨.vecSigmoid, cmd, obs⟩)
  | .vecTanh core cmd obs => some (core, ⟨.vecTanh, cmd, obs⟩)
  | .vecSilu core cmd obs => some (core, ⟨.vecSilu, cmd, obs⟩)
  | .vecGelu core cmd obs => some (core, ⟨.vecGelu, cmd, obs⟩)
  | .vecSumAlongD0 core cmd obs => some (core, ⟨.vecSum, cmd, obs⟩)
  | .vecMaximumAlongD0 core cmd obs => some (core, ⟨.vecMaxD0, cmd, obs⟩)
  | .vecRequantise core cmd obs => some (core, ⟨.vecRequant, cmd, obs⟩)
  | .poolMax core cmd obs => some (core, ⟨.poolMax, cmd, obs⟩)
  | .poolAverage core cmd obs => some (core, ⟨.poolAvg, cmd, obs⟩)
  | .dmaUnifiedRangeToBin core cmd ur obs => some (core, ⟨.dmaIn, cmd, ur ++ obs⟩)
  | .dmaBinToUnifiedRange core cmd ur obs => some (core, ⟨.dmaOut, cmd, ur ++ obs⟩)
  | .dmaBinToBin core cmd obs => some (core, ⟨.dmaBin, cmd, obs⟩)
  | .dmaBinToRemoteGate core cmd obs => some (core, ⟨.dmaGate, cmd, obs⟩)
  | .waitTally core cmd => some (core, ⟨.waitTally, cmd, []⟩)
  | .scalePerRowAbsoluteMaximum core cmd obs => some (core, ⟨.scaleAbsMax, cmd, obs⟩)
  | .scaleLoad core cmd obs => some (core, ⟨.scaleLoad, cmd, obs⟩)
  | .scaleAdapt core cmd obs => some (core, ⟨.scaleAdapt, cmd, obs⟩)
  | .spillOut core cmd obs => some (core, ⟨.spillOut, cmd, obs⟩)
  | .spillIn core cmd obs => some (core, ⟨.spillIn, cmd, obs⟩)
  | .stilePoint core _ cmd obs => some (core, ⟨.stile, cmd, obs⟩)
  | .reservedClassCommand core cmd => some (core, ⟨.reserved, cmd, []⟩)
  | _ => none

/-- The state with a command at the issue unit of a core whose queue is empty: the fetch has moved past its 16 bytes. -/
def State.atIssue (s : State) (c : Nat) (j : Job) (i : Issue) : State :=
  s.updCore c (fun x => { x with job := some { j with fetch := j.fetch + 16 }, queue := [i] })

/-- The front command of a core leaves the issue unit. -/
def State.issued (s : State) (c : Nat) : State := s.updCore c (fun x => { x with queue := [] })

/-- A command passes the checks of issue and nothing makes it wait (R29 to R31, R33, R38, R46, R48, R73, R92, R93, R98, R155): no core is
halted and their clock is not held, FUR is right, what the members read of the command and of their tables is good and leaves `t`, each
member's checks answer what it uses, every generation matches, and no entry, hearth or DMA descriptor is missing. -/
structure Issues (s : State) (c : Nat) (j : Job) (i : Issue) (us : List Uses) (t : State) : Prop where
  runs : s.issueStopped c (s.issueWidth c i.cmd) = false
  fur : furMisuse i.op (decide (1 < (s.furrowOf c).2)) i.cmd.fur = false
  reads : s.tcReads i.obs (s.issueReads i.op c (s.issueWidth c i.cmd) j i.cmd) = (none, t)
  uses : t.usesAll i.op c (s.issueWidth c i.cmd) i.cmd = .ok us
  gens : ∀ u ∈ us.zipIdx, ∀ g ∈ t.genChecks i.op (c + u.2) j.part i.cmd u.1.named, g = .issues
  board : ∀ u ∈ us.zipIdx, t.boardWaits (c + u.2) i.cmd.ser u.1 = false
  dma : ∀ u ∈ us.zipIdx, t.dmaWaits i.op (c + u.2) u.1 = false

/-- A core runs a job that issues commands: it is not ending and not switching to its fallback. -/
def State.runs (s : State) (c : Nat) (j : Job) : Prop := (s.core c).job = some j ∧ j.switching = false ∧ s.calm = true ∧ c < 8

/-! ## The Crier -/

/-- A frame reaches the operations of an awake device: the Crier runs, the frame is intact and a request, and UDP has an address (R352,
R354, R420). -/
def FrameArrives (s : State) (op : Nat) (f : CrierFrame) : Prop :=
  s.crierUp = true ∧ (f.transport = 0 → s.crier.net.ip ≠ 0) ∧ (f.broadcast = true → op = 1) ∧ frameIntact f op = true ∧
  bit f.flags 0 = false ∧ s.pwrState ≠ 4 ∧ (s.entering = true → s.pwr.target ≠ 4)

/-- A frame is a new request of an open session of its sender, which runs at once (R354, R357, R359, R417). -/
def SessionServes (s : State) (op : Nat) (f : CrierFrame) (x : Session) : Prop :=
  FrameArrives s op f ∧ s.session f.session = some x ∧ x.peer = framePeer f ∧ x.secure = false ∧ frameSecure f = false ∧
  x.maxSeq.getD 0 ≤ f.seq + 64 ∧ (∀ a ∈ x.answers, a.seq ≠ f.seq) ∧
  (∀ w ∈ s.crier.waiting, ¬ (w.session = f.session ∧ w.seq = f.seq)) ∧ s.mustWait op f.payload = false

/-- The session has taken the frame: its timer starts again, and its record follows (R358, R363). -/
def State.takenOn (s : State) (n : Nat) (x : Session) : State :=
  (s.setSession n (some { x with lastFrame := s.time, rxCtr := 0 })).recordSession { x with lastFrame := s.time, rxCtr := 0 }

end Sys2Proof.Machine
end

