-- ==== Sys2Proof/WellFormed.lean ====
section
/-!
DEFINITION. The commands whose operands lie in the ranges that the spec gives their fields: the widths of register fields and of the
command layout (R28), and the numbers of the units that a command names.  The meanings are total: they do not assume it.
-/
namespace Sys2Proof

/-- The fields of a tract command have the widths of R28. -/
def TcCmd.wf (c : TcCmd) : Bool :=
  decide (c.hgen < 2 ^ 12 ∧ c.pb < 2 ^ 20 ∧ c.pa < 2 ^ 32 ∧ c.opc < 1024 ∧ c.opb < 1024 ∧ c.opa < 1024 ∧ c.tag < 256 ∧
    c.haux < 4 ∧ c.hdst < 4 ∧ c.outfmt < 16)

/-- Every number lies below its bound. -/
def below (l : List (Nat × Nat)) : Bool := l.all (fun e => decide (e.1 < e.2))

/-- An error lies in a grain of a Bin (R85), or of the Unified Range (R110). -/
def Obs.wf (o : Obs) : Bool :=
  match o with
  | .bin b g _ => below [(b, 8), (g, 98304)]
  | .ur g _ => below [(g, 2 ^ 28)]

/-- The fields of a frame have their widths (R353). -/
def CrierFrame.wf (f : CrierFrame) : Bool :=
  below [(f.transport, 3), (f.ip, 2 ^ 32), (f.mac, 2 ^ 48), (f.port, 65536), (f.magic, 65536), (f.flags, 256), (f.session, 65536),
    (f.len, 65536), (f.seq, 2 ^ 32), (f.ctr, 2 ^ 32), (f.crc, 2 ^ 32)]

/-- A channel of the window (R343), or a frame. -/
def Via.wf (v : Via) : Bool :=
  match v with
  | .window ch _ _ => below [(ch, 16)]
  | .frame f => f.wf

/-- The operands of a command have their widths and name units that exist. -/
def Instr.wf (i : Instr) : Bool :=
  match i with
  | .gemmNSplit core cmd obs => below [(core, 8)] && cmd.wf && obs.all Obs.wf
  | .gemmKSplit core cmd obs => below [(core, 8)] && cmd.wf && obs.all Obs.wf
  | .gemmBTransposed core cmd obs => below [(core, 8)] && cmd.wf && obs.all Obs.wf
  | .convDense core cmd obs => below [(core, 8)] && cmd.wf && obs.all Obs.wf
  | .convDiagonal core cmd obs => below [(core, 8)] && cmd.wf && obs.all Obs.wf
  | .attnForward core cmd ur obs => below [(core, 8)] && cmd.wf && ur.all Obs.wf && obs.all Obs.wf
  | .attnBackward core cmd ur obs => below [(core, 8)] && cmd.wf && ur.all Obs.wf && obs.all Obs.wf
  | .scanDiagonal core cmd obs => below [(core, 8)] && cmd.wf && obs.all Obs.wf
  | .scanMatrixValued core cmd obs => below [(core, 8)] && cmd.wf && obs.all Obs.wf
  | .scanStep core cmd obs => below [(core, 8)] && cmd.wf && obs.all Obs.wf
  | .vecCopy core cmd obs => below [(core, 8)] && cmd.wf && obs.all Obs.wf
  | .vecAdd core cmd obs => below [(core, 8)] && cmd.wf && obs.all Obs.wf
  | .vecMultiply core cmd obs => below [(core, 8)] && cmd.wf && obs.all Obs.wf
  | .vecFusedMultiplyAdd core cmd obs => below [(core, 8)] && cmd.wf && obs.all Obs.wf
  | .vecMaximum core cmd obs => below [(core, 8)] && cmd.wf && obs.all Obs.wf
  | .vecMinimum core cmd obs => below [(core, 8)] && cmd.wf && obs.all Obs.wf
  | .vecExp core cmd obs => below [(core, 8)] && cmd.wf && obs.all Obs.wf
  | .vecLog core cmd obs => below [(core, 8)] && cmd.wf && obs.all Obs.wf
  | .vecReciprocal core cmd obs => below [(core, 8)] && cmd.wf && obs.all Obs.wf
  | .vecSigmoid core cmd obs => below [(core, 8)] && cmd.wf && obs.all Obs.wf
  | .vecTanh core cmd obs => below [(core, 8)] && cmd.wf && obs.all Obs.wf
  | .vecSilu core cmd obs => below [(core, 8)] && cmd.wf && obs.all Obs.wf
  | .vecGelu core cmd obs => below [(core, 8)] && cmd.wf && obs.all Obs.wf
  | .vecSumAlongD0 core cmd obs => below [(core, 8)] && cmd.wf && obs.all Obs.wf
  | .vecMaximumAlongD0 core cmd obs => below [(core, 8)] && cmd.wf && obs.all Obs.wf
  | .vecRequantise core cmd obs => below [(core, 8)] && cmd.wf && obs.all Obs.wf
  | .poolMax core cmd obs => below [(core, 8)] && cmd.wf && obs.all Obs.wf
  | .poolAverage core cmd obs => below [(core, 8)] && cmd.wf && obs.all Obs.wf
  | .dmaUnifiedRangeToBin core cmd ur obs => below [(core, 8)] && cmd.wf && ur.all Obs.wf && obs.all Obs.wf
  | .dmaBinToUnifiedRange core cmd ur obs => below [(core, 8)] && cmd.wf && ur.all Obs.wf && obs.all Obs.wf
  | .dmaBinToBin core cmd obs => below [(core, 8)] && cmd.wf && obs.all Obs.wf
  | .dmaBinToRemoteGate core cmd obs => below [(core, 8)] && cmd.wf && obs.all Obs.wf
  | .waitTally core cmd => below [(core, 8)] && cmd.wf
  | .scalePerRowAbsoluteMaximum core cmd obs => below [(core, 8)] && cmd.wf && obs.all Obs.wf
  | .scaleLoad core cmd obs => below [(core, 8)] && cmd.wf && obs.all Obs.wf
  | .scaleAdapt core cmd obs => below [(core, 8)] && cmd.wf && obs.all Obs.wf
  | .spillOut core cmd obs => below [(core, 8)] && cmd.wf && obs.all Obs.wf
  | .spillIn core cmd obs => below [(core, 8)] && cmd.wf && obs.all Obs.wf
  | .stilePoint core _ cmd obs => below [(core, 8)] && cmd.wf && obs.all Obs.wf
  | .commandComplete core tag _ _ => below [(core, 8), (tag, 256)]
  | .waitTallyTimeout core => below [(core, 8)]
  | .hearthSwapInComplete core hearth _ _ => below [(core, 8), (hearth, 4)]
  | .hearthSwapOutComplete core hearth => below [(core, 8), (hearth, 4)]
  | .hearthCfgWrite core split _ => below [(core, 8), (split, 4)]
  | .binPortAccess bin port init _ write off len data tally obs => below [(bin, 8), (port, 16), (init, 256), (off, 0x1800000)] && tally.all (fun t => decide (t < 1024)) && obs.all Obs.wf && decide (data.length = if write then len else 0)
  | .correctedWordWriteBack bin => below [(bin, 8)]
  | .binInit bin _ => below [(bin, 8)]
  | .binZeroingComplete bin => below [(bin, 8)]
  | .patrolScrub bin obs => below [(bin, 8)] && obs.all Obs.wf
  | .slotMapWrite bin word value _ => below [(bin, 8), (word, 3), (value, 2 ^ 32)]
  | .binRepair bin bank row _ => below [(bin, 8), (bank, 48), (row, 2048)]
  | .fieldRowRepair bin bank row => below [(bin, 8), (bank, 48), (row, 2048)]
  | .gateOpen bin gate _ => below [(bin, 8), (gate, 64)]
  | .gateClose bin gate _ => below [(bin, 8), (gate, 64)]
  | .gateArrival bin gate off tally sender data _ => below [(bin, 8), (gate, 64), (off, 131072), (tally, 1024), (sender, 8)] && decide (data.length = 256)
  | .tallyWrite bin tally value _ => below [(bin, 8), (tally, 1024), (value, 2 ^ 32)]
  | .unifiedRangeAccess init _ write _ len data obs => below [(init, 256)] && obs.all Obs.wf && decide (data.length = if write then len else 0)
  | .granaryFillComplete quarter _ => below [(quarter, 4)]
  | .granaryWriteBackComplete quarter _ => below [(quarter, 4)]
  | .migrationDecay _ => true
  | .urPin page quota count _ => below [(page, 2 ^ 24), (quota, 16), (count, 8192)]
  | .urUnpin page quota count _ => below [(page, 2 ^ 24), (quota, 16), (count, 8192)]
  | .urQuotaWrite quota ways _ => below [(quota, 16), (ways, 65536)]
  | .urPstateWrite page _ _ _ => below [(page, 2 ^ 24)]
  | .deadlineExpiry core slot _ => below [(core, 8), (slot, 64)]
  | .fallbackStart core => below [(core, 8)]
  | .quarterRetireComplete quarter => below [(quarter, 4)]
  | .quarterLoss quarter => below [(quarter, 4)]
  | .dramRequest port _ _ _ _ => below [(port, 16)]
  | .dramRequestComplete channel _ _ _ => below [(channel, 16)]
  | .perBankRefresh channel rank bank => below [(channel, 16), (rank, 2), (bank, 16)]
  | .mr4Read channel _ _ => below [(channel, 16)]
  | .actWindowClear => true
  | .dramTrainingComplete quad _ _ => below [(quad, 4)]
  | .periodicRetrain channel drift _ => below [(channel, 16), (drift, 3)]
  | .forcedRetrainUpdate channel _ => below [(channel, 16)]
  | .dramPowerDown _ => true
  | .mcRegionWrite n word value _ => below [(n, 8), (word, 2), (value, 2 ^ 32)]
  | .ledgerOpen type part handle a0 a1 a2 _ obs => below [(type, 16), (part, 16), (handle, 2 ^ 32), (a0, 2 ^ 32), (a1, 2 ^ 32), (a2, 2 ^ 32)] && obs.all Obs.wf
  | .ledgerClose handle _ obs => below [(handle, 2 ^ 32)] && obs.all Obs.wf
  | .ledgerTruncate handle len _ obs => below [(handle, 2 ^ 32), (len, 2 ^ 32)] && obs.all Obs.wf
  | .ledgerRead handle _ => below [(handle, 2 ^ 32)]
  | .svLeaseWrite part _ _ => below [(part, 8)]
  | .svDoorbell add _ => below [(add, 2 ^ 32)]
  | .sieveDecode obs => obs.all Obs.wf
  | .sieveCrop obs => obs.all Obs.wf
  | .sieveCallComplete => true
  | .partApply _ => true
  | .partitionApplyResume part => below [(part, 8)]
  | .submissionDoorbell ring tail _ _ => below [(ring, 256), (tail, 4096)]
  | .periodicRelease part slot _ => below [(part, 8), (slot, 64)]
  | .preEmptionSaveComplete core _ => below [(core, 8)]
  | .switchRestoreComplete core _ _ => below [(core, 8)]
  | .cqheadWrite ring value _ => below [(ring, 256), (value, 65536)]
  | .rotaAbort via ring index _ _ => below [(ring, 256), (index, 65536)] && via.all Via.wf
  | .guardedRelease net _ => below [(net, 16)]
  | .selftestSegmentEnd core _ _ _ => below [(core, 8)]
  | .hpFeedEnable feed _ => below [(feed, 8)]
  | .hpFeedDisable feed _ => below [(feed, 8)]
  | .hpDoorbell feed tail _ => below [(feed, 8), (tail, 2 ^ 32)]
  | .laneSampleStart lane _ => below [(lane, 16)]
  | .sampleFinish lane obs _ => below [(lane, 16)] && obs.all Obs.wf
  | .sampleBudgetExpiry lane _ => below [(lane, 16)]
  | .hpRelease feed add _ => below [(feed, 8), (add, 2 ^ 32)]
  | .csiFrameStart link vc number hdr _ _ => below [(link, 4), (vc, 16), (number, 65536), (hdr, 3)]
  | .csiLongPacket link vc dt _ hdr _ _ _ => below [(link, 4), (vc, 16), (dt, 64), (hdr, 3)]
  | .csiFrameEnd link vc hdr _ => below [(link, 4), (vc, 16), (hdr, 3)]
  | .cameraHotplugLoss link _ => below [(link, 4)]
  | .csiLossTimeout link _ => below [(link, 4)]
  | .frameStartTimeout sensor _ => below [(sensor, 16)]
  | .gapRecord sensor _ => below [(sensor, 16)]
  | .osEnable stream => below [(stream, 16)]
  | .osDisable stream => below [(stream, 16)]
  | .osRelease stream add => below [(stream, 16), (add, 2 ^ 32)]
  | .camColourWrite sensor _ => below [(sensor, 16)]
  | .audioBlock _ _ _ _ _ => true
  | .audStreamEnable _ => true
  | .audioRelease => true
  | .vadFrame _ _ _ _ => true
  | .spanPush _ => true
  | .spanPushComplete _ => true
  | .watchVerdictAccept _ => true
  | .watchVerdictReject => true
  | .verifyTimeout _ => true
  | .lockOpenExpiry _ => true
  | .erasingComplete => true
  | .watchPull bin base count tally start => below [(bin, 8), (base, 2 ^ 17), (count, 4096), (tally, 1024), (start, 2 ^ 32)]
  | .watchSpanWrite value _ => below [(value, 2 ^ 32)]
  | .muteAssert _ => true
  | .muteRelease _ => true
  | .listenMicLost _ => true
  | .buttonChange button _ _ _ => below [(button, 4)]
  | .buttonLong button _ => below [(button, 4)]
  | .recoveryDecision _ => true
  | .touchScan meas _ => decide (meas.length = 8)
  | .hpdChange input _ _ _ => below [(input, 6)]
  | .shutterChange link _ _ _ => below [(link, 4)]
  | .doorLedWrite led value _ => below [(led, 6), (value, 2 ^ 32)]
  | .comparatorStart net => below [(net, 16)]
  | .comparatorComplete net obs _ => below [(net, 16)] && obs.all Obs.wf
  | .wwKickArm ww _ => below [(ww, 32)]
  | .wwKick ww _ => below [(ww, 32)]
  | .watchdogLimitExpiry ww _ => below [(ww, 32)]
  | .safeFaultClear mask _ => below [(mask, 32)]
  | .safeInjectCompare net _ => below [(net, 16)]
  | .safeInjectWatchdog ww _ => below [(ww, 32)]
  | .boundaryRegionWrite n word _ => below [(n, 256), (word, 4)]
  | .regionZeroingComplete n => below [(n, 256)]
  | .secWmapWrite value _ => below [(value, 2 ^ 32)]
  | .keySlotAgree slot part src _ _ => below [(slot, 256), (part, 16), (src, 8)]
  | .keySlotDerive slot part src context _ => below [(slot, 256), (part, 16), (src, 256), (context, 2 ^ 64)]
  | .keySlotClear slot _ => below [(slot, 256)]
  | .secUnwrap src dst _ => below [(src, 2 ^ 24), (dst, 2 ^ 24)]
  | .unwrapComplete obs _ => obs.all Obs.wf
  | .attestNonceWrite _ => true
  | .attestReportSigned _ => true
  | .secMeasWrite index value _ => below [(index, 16), (value, 2 ^ 32)]
  | .deviceRootFormed _ _ => true
  | .debugToken level _ => below [(level, 4)]
  | .debugUnlock => true
  | .crierIdentify frame _ => frame.wf
  | .crierOpen frame _ => frame.wf
  | .crierClose frame _ => frame.wf
  | .objectRead via _ => via.wf
  | .objectWrite via _ => via.wf
  | .readBlock via _ => via.wf
  | .writeBlock via _ => via.wf
  | .crierSubscribe frame _ => frame.wf
  | .crierNotify session kind index sub _ => below [(session, 65536), (kind, 2), (index, 65536), (sub, 256)]
  | .crierPull via obs _ => via.wf && obs.all Obs.wf
  | .crierAck via _ => via.wf
  | .sessionTimeout session _ => below [(session, 65536)]
  | .resultPublish core handle subject evidence cls flags code _ _ => below [(handle, 2 ^ 32), (subject, 65536), (evidence, 2 ^ 64), (cls, 256), (flags, 256), (code, 65536)] && core.all (fun c => decide (c < 8))
  | .almanacSave _ => true
  | .almanacSaveComplete _ => true
  | .almanacRestore _ => true
  | .arpRequest target senderIp senderMac => below [(target, 2 ^ 32), (senderIp, 2 ^ 32), (senderMac, 2 ^ 48)]
  | .icmpEcho target senderIp senderMac _ => below [(target, 2 ^ 32), (senderIp, 2 ^ 32), (senderMac, 2 ^ 48)]
  | .tc10RemoteWake _ => true
  | .gptpMessage kind _ _ _ => below [(kind, 8)]
  | .hlPortUp port width rate => below [(port, 2), (width, 3), (rate, 2)]
  | .hlPortDown port => below [(port, 2)]
  | .hlRetrain port => below [(port, 2)]
  | .hlHello port id _ _ members _ => below [(port, 2), (id, 8), (members, 256)]
  | .hlData port dst src lseq tally gate offset bin xfer ctr _ _ => below [(port, 2), (dst, 8), (src, 8), (lseq, 4096), (tally, 1024), (gate, 64), (offset, 131072), (bin, 8), (xfer, 65536), (ctr, 2 ^ 64)]
  | .hlReply port dst src lseq xfer offset code _ => below [(port, 2), (dst, 8), (src, 8), (lseq, 4096), (xfer, 65536), (offset, 131072), (code, 256)]
  | .hlLinkack port lseq => below [(port, 2), (lseq, 4096)]
  | .hlReplay port lseq => below [(port, 2), (lseq, 4096)]
  | .hlReplyTimeout xfer _ _ => below [(xfer, 65536)]
  | .hlSyncSend _ => true
  | .hlSync port src lseq _ _ _ _ => below [(port, 2), (src, 8), (lseq, 4096)]
  | .hlSyncLoss _ => true
  | .nhlwakePulse _ => true
  | .hlMgmt _ port dst src lseq _ _ => below [(port, 2), (dst, 8), (src, 8), (lseq, 4096)]
  | .governorPeriod _ _ _ _ _ _ _ _ _ => true
  | .pmbusAlert => true
  | .logFlush _ => true
  | .updBegin _ => true
  | .updData _ _ => true
  | .updFinish _ => true
  | .updCancel _ => true
  | .updActivate _ _ => true
  | .updVerifyComplete result => below [(result, 8)]
  | .updWriteComplete _ => true
  | .updCommitComplete _ => true
  | .idleEntry _ => true
  | .dozeEntry _ => true
  | .restEntry _ => true
  | .listenEntry _ _ => true
  | .stateEntryComplete _ _ => true
  | .resumeComplete _ => true
  | .wakeAlarm _ => true
  | .domainStart _ => true
  | .domainPowerGood domain _ => below [(domain, 50)]
  | .domainSwitchOff domain _ => below [(domain, 50)]
  | .regOk _ => true
  | .regOkTimeout _ => true
  | .regRetry _ => true
  | .brownOut _ => true
  | .clkTcselSwitch core src _ => below [(core, 8), (src, 2)]
  | .tclkSwitchComplete => true
  | .pllLock pll => below [(pll, 11)]
  | .clockSourceFailure source _ => below [(source, 16)]
  | .clockSourceReturn sources _ => below [(sources, 65536)]
  | .clkReturnTimeout _ => true
  | .clkEnWrite value _ => below [(value, 2 ^ 32)]
  | .hardwareThrottle _ _ => true
  | .thermalTrip _ _ _ => true
  | .nporLow _ => true
  | .nporRelease _ id buttons _ => below [(id, 8), (buttons, 16)]
  | .nrstLow _ => true
  | .rstCtrlWarm _ _ => true
  | .rstCtrlPartition part _ => below [(part, 8)]
  | .extestSelect _ => true
  | .warmResetZeroingComplete _ _ => true
  | .bootRomVerifyComplete slot version seq _ _ _ _ _ _ => below [(slot, 3), (version, 2 ^ 32), (seq, 2 ^ 32)]
  | .watchImageVerified _ _ _ _ _ _ _ => true
  | .hostFirmwareVerified slot version wmap _ _ _ => below [(slot, 3), (version, 2 ^ 32), (wmap, 2 ^ 18)]
  | .tcCtrlHalt core _ _ => below [(core, 8)]
  | .logRegisterClear which _ _ => below [(which, 6)]
  | .registerWrite addr value _ _ => below [(addr, 2 ^ 32), (value, 2 ^ 32)]
  | .reservedClassCommand core cmd => below [(core, 8)] && cmd.wf
  | .unknownOperation op via _ => below [(op, 256)] && via.wf
  | .hlUnknownPacket port => below [(port, 2)]
  | .nrstRelease _ => true
  | .extestDeselect _ => true
  | .watchRegulatorOverload _ => true
  | .vddAonInRemoved _ => true
  | .agreeHandshakeEnd _ _ _ _ => true

end Sys2Proof
end

