-- ==== Sys2Proof/Certificates/Slice0/Obligations.lean ====
section
/-!
DEFINITION. The statements about the model, for the provers.
-/
open Sys2Proof Sys2Proof.Machine

/-- A step takes the command at the front of the queue and has its effect on the state with the rest of the queue (the queue is the model's own:
assumption 1). -/
def Obligations.StepRunsFrontCommand : Prop := ∀ c r (s : State), step { s with pending := c :: r } = exec c { s with pending := r }

/-- With no command waiting, a step is one tick of TIMECLK: 4 ns pass while nothing is slewed, the queue stays empty and no register, object or
memory changes (the model's choice, assumption 1). -/
def Obligations.EmptyQueueStepIsOneTick : Prop :=
  ∀ s : State, s.pending = [] → ∃ t : State, step s = .next t ∧ (s.hedge.slew = 0 → t.time = s.time + 4) ∧
    t =
      { s with
        time := t.time
        bin := { s.bin with slotNow := [] }
        hedge := { s.hedge with slew := t.hedge.slew, slewTicks := t.hedge.slewTicks } }

/-- Every command answers a next state, in every state and with every operand, and leaves the queue of waiting commands as it was: nothing
that reaches the block stops it. -/
def Obligations.EveryCommandAnswersNextState : Prop := ∀ c s, ∃ t, exec c s = .next t ∧ t.pending = s.pending

/-- Waiting commands run first in, first out, one a step: after `k` steps the first `k` commands are gone and the rest wait in their order. -/
def Obligations.QueuedCommandsRunInOrder : Prop :=
  ∀ k s, k ≤ s.pending.length → ∃ t, afterSteps k s = some t ∧ t.pending = s.pending.drop k

/-- Right after reset no command waits, nothing has been sent, every register field and every object reads its reset value, the memories are zero in
their canonical form, and the device is held by nPOR. -/
def Obligations.ResetLeavesTableValues : Prop :=
  let z := State.reset
  z.pending = [] ∧ z.sent = [] ∧ (∀ f i, z.fld f i = f.reset i) ∧ (∀ o sub, z.objVal o sub = o.reset sub) ∧
  (∀ b off n, z.binRead b off n = List.replicate n 0) ∧ z.memWf = true ∧ z.boot.stage = .held ∧ bit z.boot.holds 0 = true

/-- A tract command and its 128-bit word agree: the word of a well-formed command, its fields as wide as R28 says, lies below 2^128, and the
fields read from it with the codes of R29 give the command back on its core.  A word whose CLASS is 0xB to 0xF gives a command of a reserved
class. -/
def Obligations.TractWordReadsBack : Prop :=
  (∀ i core x cls sub cmd, tractIssue i = some (core, x) → i.tract = some (cls, sub, cmd) → cmd.wf = true →
    ∃ w time ur obs, x.obs = ur ++ obs ∧ i.tractWord = some w ∧ w < 2 ^ 128 ∧ Instr.ofTractWord core time ur obs w = i) ∧
  (∀ core time ur obs w, 0xB ≤ w % 16 → Instr.ofTractWord core time ur obs w = .reservedClassCommand core (TcCmd.ofWord w))

/-- Every step keeps the addressed memories in their canonical form: the Bins, the page homes and the frames of the Unified Range, the hearth planes and
their spill slots, and the window list their keys rising and no value that an unlisted key reads as, in every state that does, whatever command is at
the front (the form is the model's own: assumption 4). -/
def Obligations.MemoriesKeepTheirForm : Prop := ∀ s t : State, s.memWf = true → step s = .next t → t.memWf = true

/-- The commands of a Bin complete with their own effect (R89, R91 to R101, R105 to R107): a port read answers the bytes that the Bin
holds; a port write stores its bytes, seals the grains again and counts the whole ones in its tally; a corrected word leaves the list
of words to be written back; INIT takes READY away until every row is zero; a scrub of good grains moves to the next row; a legal slot
map is taken for the next slot 0; a repair maps the row to the first free spare through BIN_REPAIR, and a field repair also settles the row's entry in the table of correctable rows and
enters it in the copy and in the records; a gate opens, closes, and takes a grain that passes its checks; a tally takes the value written. -/
def Obligations.BinCommandsComplete : Prop :=
  (∀ s bin port init secure off len, BinServes s (unitReq init secure) false bin ((grainsOfRun off len).map (·.1)) →
    (∀ g ∈ (grainsOfRun off len).map (·.1), GrainGood s bin g) →
    After (.binPortAccess bin port init secure false off len [] none []) s (s.answer init true (s.binRead bin off len))) ∧
  (∀ s bin port init secure off data tally, BinServes s (unitReq init secure) true bin ((grainsOfRun off data.length).map (·.1)) →
    (∀ g ∈ (grainsOfRun off data.length).map (·.1), GrainGood s bin g) →
    After (.binPortAccess bin port init secure true off data.length data tally []) s
      (((s.binStore bin (placed off data) (grainsOfRun off data.length)).countWhole bin off data.length tally).answer init true []).settle) ∧
  (∀ s bin g, s.bin.writeBacks.find? (fun w => w.1 == bin) = some (bin, g) →
    After (.correctedWordWriteBack bin) s { s with bin := { s.bin with writeBacks := s.bin.writeBacks.erase (bin, g) } }) ∧
  (∀ s bin, s.binInUse bin = false → s.binReady bin = true →
    After (.binInit bin true) s (s.setFlds bin [(.binStatusReady, 0), (.binStatusInitbusy, 1)])) ∧
  (∀ s bin, s.flag .binStatusInitbusy bin = true →
    After (.binZeroingComplete bin) s
      (let u := (s.zeroBin bin).setFlds bin [(.binStatusInitbusy, 0), (.binStatusReady, 1)]
       ((u.setFld .binStatusSparesMin bin (u.sparesMin bin)).decideCore bin).settle)) ∧
  (∀ s bin, s.binReady bin = true → s.flag .binCtrlScrubEn bin = true →
    (∀ g ∈ rowGrains (SMap.get s.bin.patrol bin 0), GrainGood s bin g) →
    After (.patrolScrub bin []) s
      { s with bin := { s.bin with patrol := SMap.put s.bin.patrol bin ((SMap.get s.bin.patrol bin 0 + 1) % 2048) 0 } }) ∧
  (∀ s bin value, ({ s.slotMap bin with en := value % 65536 } : SlotMap).ok = true →
    After (.slotMapWrite bin 0 value true) s (s.setSlotMap bin { s.slotMap bin with en := value % 65536 })) ∧
  (∀ s bin value, ({ s.slotMap bin with map0 := value % 2 ^ 32 } : SlotMap).ok = true →
    After (.slotMapWrite bin 1 value true) s (s.setSlotMap bin { s.slotMap bin with map0 := value % 2 ^ 32 })) ∧
  (∀ s bin value, ({ s.slotMap bin with map1 := value % 2 ^ 32 } : SlotMap).ok = true →
    After (.slotMapWrite bin 2 value true) s (s.setSlotMap bin { s.slotMap bin with map1 := value % 2 ^ 32 })) ∧
  (∀ s bin bank row k r, bank < 48 → row < 2048 → s.binReady bin = true → s.sparesOf bin bank = k :: r →
    After (.binRepair bin bank row true) s
      (let u := ((s.setFld .binRepairBank bin bank).setFld .binRepairRow bin row).repairRow bin bank row true
       u.2.2.setFld .binRepairResult bin u.1)) ∧
  (∀ s bin bank row k r, s.repairDue bin bank row = true → row < 2048 → s.binReady bin = true → s.sparesOf bin bank = k :: r →
    After (.fieldRowRepair bin bank row) s
      (let key := bin * 768 + bank * 16 + k
       let x := ((s.setFld .binRepairBank bin bank).setFld .binRepairRow bin row).repairRow bin bank row true
       let u := x.2.2.setFld .binRepairResult bin x.1
       let e := SMap.get u.bin.rmap key ⟨false, false, 0⟩
       ({ u with bin := { u.bin with
          due := u.bin.due.erase (bin, bank, row)
          ceRows := SMap.put u.bin.ceRows bin
            ((SMap.get u.bin.ceRows bin []).filter (fun y => !(y.bank == bank && y.row == row))) []
          rmapCopy := SMap.put u.bin.rmapCopy key e ⟨false, false, 0⟩
          records := SMap.put u.bin.records key e ⟨false, false, 0⟩ } } : State).logIt .binRepair 0xFF 4 bin bank row)) ∧
  (∀ s bin gate secure, (gateSecure gate = true → secure = true) → s.fld .binGateState (bin * 64 + gate) = 0 →
    s.gateOpens bin gate = true →
    After (.gateOpen bin gate secure) s (s.setFlds (bin * 64 + gate) [(.binGateOpen, 1), (.binGateState, 1)])) ∧
  (∀ s bin gate secure, (gateSecure gate = true → secure = true) →
    After (.gateClose bin gate secure) s (s.setFlds (bin * 64 + gate) [(.binGateOpen, 0), (.binGateState, 0)])) ∧
  (∀ s bin gate off tally sender data,
    let i := bin * 64 + gate
    let g := s.fld .binGateBase i + off
    s.fld .binGateState i = 1 → bit (s.fld .binGateSrcmask i) sender = true → off < s.fld .binGateLen i →
    tally = s.fld .binGateTally i → data.length = 256 → BinServes s (unitReq 0x13 (gateSecure gate)) true bin [g] →
    After (.gateArrival bin gate off tally sender data (crc32c data)) s
      (((s.binStore bin (placed (g * 256) data) [(g, true)]).raiseTally bin tally 1).send
        ⟨.bus, 0, [0x13, bin, gate, off], []⟩).settle) ∧
  (∀ s bin tally value secure, tally < 1024 → (tallySecure tally = true → secure = true) →
    After (.tallyWrite bin tally value secure) s (s.setFld .binTallyCount (bin * 1024 + tally) value).settle)

/-- The commands of the Unified Range and the Granary complete with their own effect (R114 to R119, R127 to R129): an access that its
checks pass answers the bytes read, or takes the bytes written; the first fill of a quarter ends with the page in its frame, or, when a
grain failed, with the page quarantined; the first write-back of a quarter puts the page home and starts the fill that waited; decay
halves every count; a run of pages is pinned, a request that stands until their fills have ended, or unpinned; a quota takes way groups that no other quota holds; a page-state entry takes
SHEAF, and Q only to clear it; a quarter that retires or is lost goes OUT, and the dirty pages of a lost one are quarantined. -/
def Obligations.UnifiedRangeCommandsComplete : Prop :=
  (∀ s init secure off len obs bs u, s.urRead (unitReq init secure) off len obs = (.ok bs, u) →
    After (.unifiedRangeAccess init secure false off len [] obs) s (u.answer init true bs)) ∧
  (∀ s init secure off data obs u, s.urWrite (unitReq init secure) off data obs = (none, u) →
    After (.unifiedRangeAccess init secure true off data.length data obs) s (u.answer init true [])) ∧
  (∀ s quarter x, s.ur.fills.find? (fun y => quarterOf y.page == quarter) = some x →
    ((∀ i < 16, s.grainFails (x.page * 16 + i) true [] = none) → After (.granaryFillComplete quarter none) s (s.endFill x).settle) ∧
    ∀ k, After (.granaryFillComplete quarter (some k)) s (s.quarantine x.page k)) ∧
  (∀ s quarter w, s.nextWriteBack quarter = some w → (∀ i < 16, SMap.get s.ur.frameSealX (w.frame * 16 + i) 0#32 = 0#32) →
    After (.granaryWriteBackComplete quarter false) s
      (let u := ((s.frameToHome w.frame w.page).bumpFld .urCntCount 3 1).dropFrame w.frame .invalid
       let u : State := { u with ur := { u.ur with writeBacks := u.ur.writeBacks.erase w } }
       match w.fill with | some x => u.beginFill x | none => u)) ∧
  (∀ s at_, After (.migrationDecay at_) s
    (let u := s.reach at_
     { u with ur := { u.ur with
        dir := (u.ur.dir.map (fun e => (e.1, { e.2 with acc := e.2.acc / 2 }))).filter (fun e => decide (e.2 ≠ DirEntry.empty))
        cand := u.ur.cand.map (fun e => (e.1, { e.2 with count := e.2.count / 2 })) } })) ∧
  (∀ s page quota count, 1 ≤ count → count ≤ 4096 → quota ≤ 8 → s.pinBusy = false →
    After (.urPin page quota count true) s
      (let ps := (List.range count).map (page + ·)
       let r := (s.setPin page 0 quota count).pinRun quota ps 0
       (r.2.2.pinResult r.1 r.2.1).setPinning (some (ps.take r.2.1, r.1)))) ∧
  (∀ s page quota count, 1 ≤ count → count ≤ 4096 → quota ≤ 8 → page + count ≤ s.urPages → s.pinBusy = false →
    After (.urUnpin page quota count true) s
      ((((List.range count).map (page + ·)).foldl (fun s p => s.unpinPage p) ((s.setPin page 1 quota count).setPinning none)).pinResult 0
        count)) ∧
  (∀ s quota ways, (∀ q < 9, q ≠ quota → ∀ w < 16, bit ways w = true → bit (s.fld .urQuotaWays q) w = false) →
    After (.urQuotaWrite quota ways true) s (s.setFld .urQuotaWays quota ways)) ∧
  (∀ s page q sheaf, page < s.urPages →
    After (.urPstateWrite page q sheaf true) s
      (let u := s.setFld .urPstateSelPage 0 page
       let u := if q = false ∧ (u.pageState page).q = true then u.clearQ page else u
       u.setPageState page { u.pageState page with sheaf := sheaf })) ∧
  (∀ s quarter, bit (s.fld .urStatusGqDrain 0) quarter = true → s.nextWriteBack quarter = none →
    After (.quarterRetireComplete quarter) s (s.quarterGone quarter 0)) ∧
  (∀ s quarter, s.quarterIn quarter = true →
    After (.quarterLoss quarter) s
      (((s.liveFrames quarter).foldl (fun s f =>
          if (s.dirAt f).state = .dirty ∨ (s.dirAt f).state = .writeback then s.quarantine (s.dirAt f).page 6
          else s.stopFill f) s).loseSpills.quarterGone quarter 1))

/-- The commands of the DRAM controller complete with their own effect (R133, R138 to R145): a request takes its starting urgency and
its place in its channel's queue, or is held; a channel serves the request that its rules pick; a refresh that falls due is postponed or
made, and then closes the bank's row, and an idle bank pulls in up to 8 more; MR4, the activate window, training, the delay updates and power-down each set what they name; a
region that keeps the rules of R133 is taken. -/
def Obligations.DramCommandsComplete : Prop :=
  (∀ s port off write deadline at_,
    After (.dramRequest port off write deadline at_) s ((s.reach at_).mcRequest port off write deadline)) ∧
  (∀ s port off write deadline at_, (∀ y ∈ s.mc.held, y.port ≠ port) →
    After (.dramRequest port off write deadline at_) s
      (let u := s.reach at_
       let p := u.dramPlace off
       let l0 := startLevel (u.mcTarget port) u.time deadline
       let r : McReq :=
         ⟨port, write, l0, u.time, off, p.channel, p.rank, p.bank, p.row, p.column, (u.sealPlace off).1, u.stateChannel off, l0⟩
       let u : State := { u with mc := { u.mc with lastReq := u.time, powerDown := false } }
       if u.mcAccepts r then u.setMcQueue r.channel (u.mcQueue r.channel ++ [r])
       else { u with mc := { u.mc with held := u.mc.held ++ [r] } })) ∧
  (∀ s channel at_ r,
    let v := (s.reach at_).mcSlot channel
    let u : State := { v with mc := { v.mc with turned := SMap.put v.mc.turned channel (v.busTurn channel) false } }
    u.mcPick channel = some r → u.rowHit r = true → (u.mcQueue channel).head? = some r → u.time - r.arrival ≤ u.mcTarget r.port →
    After (.dramRequestComplete channel false false at_) s
      ((({ u with mc := { u.mc with passed := SMap.put u.mc.passed channel 0 0 } } : State).setMcQueue channel
        ((u.mcQueue channel).erase r)).runUpdate channel).mcAdmit) ∧
  (∀ s channel rank bank,
    let key := bankKeyOf channel rank bank
    let u := s.mcSlot channel
    let owed := SMap.get u.mc.owed key 0 + 1
    let reqs := (u.mcQueue channel).filter (fun r => r.bankKey == key)
    let later := { u with mc := { u.mc with owed := SMap.put u.mc.owed key owed 0 } }
    (owed ≤ 0 → After (.perBankRefresh channel rank bank) s later) ∧
    (reqs.any (fun r => decide (5 ≤ u.levelOf r)) = true → owed ≤ 8 → After (.perBankRefresh channel rank bank) s later) ∧
    (0 < owed → reqs ≠ [] → (reqs.any (fun r => decide (5 ≤ u.levelOf r)) = false ∨ 8 < owed) →
      After (.perBankRefresh channel rank bank) s (u.refreshBank key 0)) ∧
    (0 < owed → reqs = [] → ∃ n : Nat, n ≤ 8 ∧ After (.perBankRefresh channel rank bank) s (u.fresh.2.refreshBank key (-(n : Int))))) ∧
  (∀ s channel multiplier,
    After (.mr4Read channel multiplier false) s { s with mc := { s.mc with mr4 := SMap.put s.mc.mr4 channel multiplier 0 } } ∧
    After (.mr4Read channel multiplier true) s
      (({ s with mc := { s.mc with mr4 := SMap.put s.mc.mr4 channel multiplier 0 } } : State).event 0x0019 channel s.time)) ∧
  (∀ s, After .actWindowClear s { s with mc := { s.mc with act := [] } }) ∧
  (∀ s quad rfm, s.flag .mcStatusTrainfail 0 = false → s.flag .mcStatusReady 0 = false → quad < 4 → bit s.mc.trained quad = false →
    let u := ({ s with mc := { s.mc with trained := s.mc.trained + 2 ^ quad, rfmLimit := rfm } } : State).setFld .mcStatusRfmAvail 0
      (b2n (decide (rfm ≠ 0)))
    (s.mc.trained + 2 ^ quad ≠ 15 → After (.dramTrainingComplete quad none rfm) s u) ∧
    (s.mc.trained + 2 ^ quad = 15 →
      After (.dramTrainingComplete quad none rfm) s
        ({ u.setFlds 0 [(.mcStatusReady, 1), (.mcStatusSelfref, 0)] with
          mc := { u.mc with kept := true, keptRate := u.fld .mcStatusRate 0 } } : State).mcAdmit)) ∧
  (∀ s quad ch rfm, s.flag .mcStatusTrainfail 0 = false → s.flag .mcStatusReady 0 = false → s.mc.kept = false →
    bit s.mc.retried ch = false → s.fld .mcStatusRate 0 ≠ 0 →
    After (.dramTrainingComplete quad (some ch) rfm) s
      (({ s with mc := { s.mc with retried := s.mc.retried + 2 ^ ch } } : State).setFld .mcStatusRate 0 (s.fld .mcStatusRate 0 - 1))) ∧
  (∀ s channel drift at_, s.flag .mcCtrlRetrainEn 0 = true → drift = 1 ∨ drift = 2 → SMap.get s.mc.update channel 0 = 0 →
    After (.periodicRetrain channel drift at_) s
      (let u := if drift = 2 then (s.reach at_).driftError channel else s.reach at_
       ({ u with mc := { u.mc with update := SMap.put u.mc.update channel (u.time + 1) 0 } } : State).runUpdate channel)) ∧
  (∀ s channel at_, SMap.get s.mc.update channel 0 ≠ 0 →
    SMap.get s.mc.update channel 0 - 1 + 50000000 ≤ (s.reach at_).time →
    After (.forcedRetrainUpdate channel at_) s
      { s.reach at_ with mc := { s.mc with update := SMap.put s.mc.update channel 0 0 } }) ∧
  (∀ s at_, s.flag .mcStatusReady 0 = true → s.mc.queue = [] → s.mc.held = [] → s.mc.lastReq + 1000 ≤ (s.reach at_).time →
    After (.dramPowerDown at_) s { s.reach at_ with mc := { s.mc with powerDown := true } }) ∧
  (∀ s n value, s.flag .mcCtrlMaplock 0 = false →
    let u := s.setFlds n [(.mcRegionEn, bits value 31 31), (.mcRegionBase, bits value 30 16), (.mcRegionChset, bits value 15 0)]
    regionShape (u.fld .mcRegionChset n) (u.fld .mcRegionGrain n) = true → u.mcLegal u.mcRegions = true → After (.mcRegionWrite n 0 value true) s u) ∧
  (∀ s n value, s.flag .mcCtrlMaplock 0 = false →
    let u := s.setFlds n [(.mcRegionGrain, bits value 19 16), (.mcRegionChbase, bits value 11 0)]
    regionShape (u.fld .mcRegionChset n) (u.fld .mcRegionGrain n) = true → u.mcLegal u.mcRegions = true → After (.mcRegionWrite n 1 value true) s u)

/-- The operations of the Session Ledger complete with their own effect (R163, R167, R171): OPEN of a record that no sequence owns takes
the lowest free record of the bank, writes its header and body, and answers its handle; CLOSE of an open record that the caller may use
releases what depends on it and frees the record; TRUNCATE of a sequence cuts its pages and lowers its LEN; READ answers the record's
sixteen words.  Each leaves RESULT DONE. -/
def Obligations.LedgerCommandsComplete : Prop :=
  (∀ s type part handle a0 a1 a2 secure obs m slot body u,
    let w := (s.lgStart 0 type part handle a0 a1 a2).lgFetch
    lgArgBits type = some m → type ≠ 2 → onlyBits a0 m.1 = true → onlyBits a1 m.2.1 = true → onlyBits a2 m.2.2 = true →
    w.lgPartOk part secure = true → w.freeRecord (bits handle 31 30) = some slot →
    w.lgBody type part (handleOf slot (w.nextRecGen slot)) a0 a1 a2 secure obs = (.ok body, u) →
    After (.ledgerOpen type part handle a0 a1 a2 secure obs) s
      (((u.setRec slot (recHeader type part 0 (w.nextRecGen slot) secure + body % 2 ^ 448 * 2 ^ 64)).setFld .lgHandleValue 0
        (handleOf slot (w.nextRecGen slot))).lgEnd .done)) ∧
  (∀ s handle secure obs u,
    let w := (s.lgStart 1 (s.fld .lgCmdType 0) (s.fld .lgCmdPart 0) handle (s.fld .lgArgValue 0) (s.fld .lgArgValue 1)
      (s.fld .lgArgValue 2)).lgFetch
    recState (s.recOf handle) = 1 → (recWorld (s.recOf handle) = 1 → secure = true) → recType (s.recOf handle) ≠ 8 →
    s.stale handle = false → w.lgRelease handle obs = (none, u) →
    After (.ledgerClose handle secure obs) s ((u.freeRec (handleSlot handle)).lgEnd .done).settle) ∧
  (∀ s handle len secure obs v u,
    let w := (s.lgStart 2 (s.fld .lgCmdType 0) (s.fld .lgCmdPart 0) handle len (s.fld .lgArgValue 1) (s.fld .lgArgValue 2)).lgFetch
    recState (s.recOf handle) = 1 → (recWorld (s.recOf handle) = 1 → secure = true) → recType (s.recOf handle) = 1 →
    s.stale handle = false → len ≤ kvLen (s.recOf handle) →
    w.admitEntries handle ((w.pagesOf handle).map (fun p => pgPidx (pageWord (w.recAt p)))) obs = (none, v) →
    v.truncatePages handle len (w.pagesOf handle) = (none, u) →
    After (.ledgerTruncate handle len secure obs) s
      ((u.setRec (handleSlot handle) (setKvLen (u.recOf handle) len)).lgEnd .done)) ∧
  (∀ s handle secure,
    let w := (s.lgStart 3 (s.fld .lgCmdType 0) (s.fld .lgCmdPart 0) handle (s.fld .lgArgValue 0) (s.fld .lgArgValue 1)
      (s.fld .lgArgValue 2)).lgFetch
    recState (s.recOf handle) ≠ 0 → (recWorld (s.recOf handle) = 1 → secure = true) →
    (recType (s.recOf handle) = 8 → secure = true) → s.stale handle = false →
    After (.ledgerRead handle secure) s
      (((List.range 16).foldl (fun s' i => s'.setFld .lgDataWord i (recField (s.recOf handle) (4 * i) 31 0)) w).lgEnd .done))

/-- The commands of the Sieve complete with their own effect (R198, R199, R202 to R206): the lease moves at once when no call runs, and
waits when one does; a doorbell adds to the start tally; a call is taken from the ring, its start tally drawn and its HEAD advanced, its
descriptor and its inputs read, and what it computes waits to be written; the end of a call writes its header and its body, raises its
DONE tally by one for each grain and counts it. -/
def Obligations.SieveCommandsComplete : Prop :=
  (∀ s part en, s.sv.run = none →
    After (.svLeaseWrite part en true) s (s.setFlds 0 [(.svLeasePart, part), (.svLeaseEn, b2n en)]).svMove.pwrSync) ∧
  (∀ s part en c, s.sv.run = some c →
    After (.svLeaseWrite part en true) s (s.setFlds 0 [(.svLeasePart, part), (.svLeaseEn, b2n en), (.svLeasePending, 1)]).pwrSync) ∧
  (∀ s add secure, (tallySecure (s.fld .svRing1Tally 0) = true → secure = true) →
    After (.svDoorbell add secure) s (s.raiseTally (s.fld .svRing0Bin 0) (s.fld .svRing1Tally 0) (add % 256)).settle) ∧
  (∀ s obs d v o u,
    let b := s.fld .svRing0Bin 0
    let head := s.fld .svStatusHead 0
    let g := s.fld .svRing0Base 0 + head
    let t := s.fld .svRing1Tally 0
    let w := (s.setFld .binTallyCount (b * 1024 + t) (s.tally b t - 1)).setFld .svStatusHead 0 ((head + 1) % s.fld .svRing1Depth 0)
    s.svCanTake = true → svNat (s.binRead b (g * 256) 1) 0 1 = 1 → w.svBin b (g * 256) 256 obs = (.ok d, v) → svNat d 0 1 = 1 →
    v.svRunDecode d obs = (.ok o, u) →
    After (.sieveDecode obs) s
      (let c : SvCall := ⟨head, svSources d, bits (svNat d 4 4) 19 17, bits (svNat d 4 4) 16 0, bits (svNat d 8 2) 9 0, svNat d 12 4, 0,
        o.flags, o.count, o.passed, o.body⟩
       let k : State := match u.sv.holder with
         | some p => (u.bumpObj .satElems (p + 1) o.sat).bumpObj .nanElems (p + 1) o.nan
         | none => u
       { k with sv := { k.sv with run := some c } })) ∧
  (∀ s obs d v o u,
    let b := s.fld .svRing0Bin 0
    let head := s.fld .svStatusHead 0
    let g := s.fld .svRing0Base 0 + head
    let t := s.fld .svRing1Tally 0
    let w := (s.setFld .binTallyCount (b * 1024 + t) (s.tally b t - 1)).setFld .svStatusHead 0 ((head + 1) % s.fld .svRing1Depth 0)
    s.svCanTake = true → svNat (s.binRead b (g * 256) 1) 0 1 = 2 → w.svBin b (g * 256) 256 obs = (.ok d, v) → svNat d 0 1 = 2 →
    v.svRunCrop d obs = (.ok o, u) →
    After (.sieveCrop obs) s
      (let c : SvCall := ⟨head, svSources d, bits (svNat d 4 4) 19 17, bits (svNat d 4 4) 16 0, bits (svNat d 8 2) 9 0, svNat d 12 4, 0,
        o.flags, o.count, o.passed, o.body⟩
       let k : State := match u.sv.holder with
         | some p => (u.bumpObj .satElems (p + 1) o.sat).bumpObj .nanElems (p + 1) o.nan
         | none => u
       { k with sv := { k.sv with run := some c } })) ∧
  (∀ s c,
    let n := 1 + c.body.length / 256
    let gs := (List.range n).map (c.grain + ·)
    s.sv.run = some c → c.status = 0 → s.flag .svLeasePending 0 = false → s.svInside (c.bin, c.grain) (n * 256) = true →
    BinServes s s.svReq true c.bin gs →
    After .sieveCallComplete s
      (let u : State := { s with sv := { s.sv with run := none } }
       let u := (u.binStore c.bin (placed (c.grain * 256) (c.header ++ c.body)) (gs.map (fun g => (g, true)))).raiseTally c.bin c.done n
       let u := (u.bumpFld .svCntCount 0 1).bumpFld .svCntCount 1 c.passed
       let u := if c.flags % 2 = 1 then u.bumpObj .sieveCapped 0 1 else u
       if c.passed = 0 then u else u.bumpFld .svCntCount 2 c.count).settle)

/-- A command of the array, the vector engine, the walker, the DMA, SCALE or SPILL completes with its own effect (R28 to R32, R35, R39,
R46, R48): when its core runs a job that issues, no command waits, what it reads is good, its checks pass and nothing makes it wait, its
requests are in time, and the operation meets no error in its data, its effect happens, its tag is noted, and it is in flight on each member until it completes.  For gemmNSplit,
gemmKSplit, gemmBTransposed, convDense, convDiagonal, attnForward, attnBackward, scanDiagonal, scanMatrixValued, scanStep, vecCopy, vecAdd,
vecMultiply, vecFusedMultiplyAdd, vecMaximum, vecMinimum, vecExp, vecLog, vecReciprocal, vecSigmoid, vecTanh, vecSilu, vecGelu,
vecSumAlongD0, vecMaximumAlongD0, vecRequantise, poolMax, poolAverage, dmaUnifiedRangeToBin, dmaBinToUnifiedRange, dmaBinToBin,
scalePerRowAbsoluteMaximum, scaleLoad, scaleAdapt, spillOut and spillIn. -/
def Obligations.TractCommandsIssue : Prop :=
  ∀ i core x s j us t u, tractIssue i = some (core, x) → x.op ≠ .stile → x.op ≠ .waitTally → x.op ≠ .dmaGate → s.runs core j →
    let p := s.atIssue core j x
    let w := p.issueWidth core x.cmd
    Issues p core { j with fetch := j.fetch + 16 } x us t →
    (x.op.isTier = true → t.lateAtIssue core (t.tierTotal x.op core w x.cmd) = false) →
    ((t.updCore core (fun y => { y with wait := .none })).noteIssue x.op core w x.cmd).runWithin x.op core w x.cmd x.obs = (none, u) →
    After i s ((u.enterFlight x.op core x.cmd us).issued core)

/-- The commands of a tract that move no data of their own complete with their own effect (R29, R46, R48, R102, R225, R378): a WAIT_TALLY whose
tally has reached its target draws the target from it; a transfer into a gate of another device starts and stays in flight; a STILE that
no command in flight holds up is taken; a command of a reserved class ends its job with an illegal-command fault. -/
def Obligations.TractControlCommandsComplete : Prop :=
  (∀ s core cmd j us t, s.runs core j →
    let x : Issue := ⟨.waitTally, cmd, []⟩
    let p := s.atIssue core j x
    let w := p.issueWidth core cmd
    let ms := (List.range w).map (core + ·)
    Issues p core { j with fetch := j.fetch + 16 } x us t → t.tallyMet ms cmd = true →
    After (.waitTally core cmd) s
      ((((ms.foldl (fun s' m => s'.setFld .binTallyCount (m * 1024 + bits cmd.pb 9 0) (s'.tally m (bits cmd.pb 9 0) - cmd.pa)) t).noteIssue
        .waitTally core w cmd).updCore core (fun y => { y with wait := .none, tallyWait := none })).issued core)) ∧
  (∀ s core cmd obs j us t u, s.runs core j →
    let x : Issue := ⟨.dmaGate, cmd, obs⟩
    let p := s.atIssue core j x
    let w := p.issueWidth core cmd
    Issues p core { j with fetch := j.fetch + 16 } x us t →
    ((t.updCore core (fun y => { y with wait := .none })).noteIssue .dmaGate core w cmd).gateIssue core cmd obs = (.started, u) →
    After (.dmaBinToRemoteGate core cmd obs) s ((u.enterFlight .dmaGate core cmd us).issued core)) ∧
  (∀ s core at_ cmd obs j us t, (s.reach at_).runs core j →
    let x : Issue := ⟨.stile, cmd, obs⟩
    let p := (s.reach at_).atIssue core j x
    let w := p.issueWidth core cmd
    let u := (t.noteIssue .stile core w cmd).takeStile core cmd
    Issues p core { j with fetch := j.fetch + 16 } x us t → (∀ m ∈ (List.range w).map (core + ·), (t.core m).inflight = []) →
    ((u.core core).queue = [x] ∨ (u.core core).queue = []) → (u.issued core).calm = true →
    After (.stilePoint core at_ cmd obs) s (u.issued core)) ∧
  (∀ s core cmd j t, s.runs core j →
    let p := s.atIssue core j ⟨.reserved, cmd, []⟩
    p.issueStopped core 1 = false → cmd.fur = false →
    p.tcReads [] (p.issueReads .reserved core 1 { j with fetch := j.fetch + 16 } cmd) = (none, t) →
    After (.reservedClassCommand core cmd) s ((t.tcFault core 0 false false cmd.tag 1 0 false).issued core).finishAll)

/-- What happens at a core besides its commands completes with its own effect (R30, R48, R68, R69, R75, R77, R102, R125, R126, R226, R228): a
command that completes leaves the scoreboards of its members, and the last one of a tract ends its job; a WAIT_TALLY whose timeout expires ends
its job with TALLY_TIMEOUT, its tally and the count; a swap ends with its lease resident or parked; a legal split mode is taken; HALT is
written; a late tier request switches its job to the fallback, which starts when nothing of the job is in flight; a save ends, when no swap is in
progress on its core, with the core free to take what comes in, and a restore with the job back in its hearths. -/
def Obligations.CoreEventsComplete : Prop :=
  (∀ s core tag at_ f, s.calm = true → (s.core core).inflight.find? (fun x => x.tag == tag) = some f → s.stillSends core f = false →
    After (.commandComplete core tag false at_) s
      ((if f.fur then s.members core else [core]).foldl
        (fun s' m => (s'.delivers m tag f.fur).updCore m (fun x => { x with inflight := dropTag tag f.fur x.inflight })) (s.reach at_))) ∧
  (∀ s core tag at_ f,
    let u := (s.reach at_).freeCommand core tag
    (s.core core).inflight.find? (fun x => x.tag == tag) = some f → (u.core core).queue = [] → u.quiet core = true →
    After (.commandComplete core tag true at_) s (u.endJob core ⟨0, 0, 0, 0, false⟩).settle) ∧
  (∀ s core t k, (s.core core).tallyWait = some (t, k) →
    After (.waitTallyTimeout core) s ((s.reach t).endJob core ⟨3, 2, k, (s.reach t).tally core k, false⟩).settle) ∧
  (∀ s core hearth at_ l,
    (s.leasesOn core hearth).find? (fun l => decide (l.phase = .movingIn) && !bit l.moved (core - l.core)) = some l →
    s.swapLost l false = false → After (.hearthSwapInComplete core hearth false at_) s ((s.reach at_).swapIn l core).settle) ∧
  (∀ s core hearth l,
    (s.leasesOn core hearth).find? (fun l => decide (l.phase = .movingOut) && !bit l.moved (core - l.core)) = some l →
    After (.hearthSwapOutComplete core hearth) s (s.swapOut l core).settle) ∧
  (∀ s core split, split < 3 → (∀ h ∈ splitChanges (s.fld .hearthCfgSplit core) split, s.leasesOn core h = []) →
    After (.hearthCfgWrite core split true) s (s.setFld .hearthCfgSplit core split)) ∧
  (∀ s core halt, After (.tcCtrlHalt core halt true) s (s.setFld .tcCtrlHalt core (b2n halt)).settle) ∧
  (∀ s core slot at_ j d f, (s.core core).job = some j → (s.core core).ending = none → f ∈ (s.core core).inflight → f.deadline = some d →
    d ≤ (s.reach at_).time → j.fbTract ≠ none → j.degraded = false → j.switching = false → j.net = none →
    After (.deadlineExpiry core slot at_) s
      ((((s.reach at_).updCore core (fun x =>
          { x with
            job := some { j with switching := true }
            queue := []
            wait := .none
            tallyWait := none })).bumpFld .urCntCount 4 1).bumpObj .fallbacks (j.part + 1) 1).settle) ∧
  (∀ s core j, (s.core core).job = some j → j.switching = true → s.quiet core = true → (s.core core).ending = none →
    After (.fallbackStart core) s (s.startFallback j)) ∧
  (∀ s core at_, (s.core core).switching = 1 → (s.reach at_).swapOn core = false →
    After (.preEmptionSaveComplete core at_) s
      (let u := ((s.reach at_).updCore core (fun y =>
          { y with
            switching := 0
            outgoing := none })).decideCore core
       (if (u.core core).switching = 0 then u.noteSwitch core ((s.partOf core).getD 0)
        else u.updCore core (fun y => { y with switchAt := (s.core core).switchAt })).settle)) ∧
  (∀ s core at_ j y, (s.core core).incoming = some j → (s.core core).switching = 2 →
    (s.wslot j.part (j.slot.getD 0)).suspended = some y → y.save.bad = false →
    After (.switchRestoreComplete core false at_) s
      (let u := (s.reach at_).updCore core (fun y =>
          { y with
            switching := 0
            incoming := none })
       let w := s.wslot j.part (j.slot.getD 0)
       (((u.setWslot j.part (j.slot.getD 0)
          { w with
            suspended := none
            running := true }).noteSwitch core j.part).restoreJob y.job y.save).settle))

/-- The commands of the Rota complete with their own effect (R213, R218, R221, R223, R230, R231, R234, R313): a legal set of partitions is taken
and each affected partition starts its change; a partition whose cores are quiet, and whose furrow is up, takes its new configuration; a
doorbell submits what lies between the old tail and the new, at its instant; a release that falls due takes the job at its ring's head, which waits behind a job of its slot or
network that has not ended; an acknowledgement frees completion entries and writes the records that were held; an abort withdraws its job and answers RESULT; the end of a
self-test segment is counted, and moves each member's pass on. -/
def Obligations.RotaCommandsComplete : Prop :=
  (∀ s, s.applyOk = true →
    After (.partApply true) s
      (((List.range 8).filter (fun p => decide (s.partAsked p ≠ s.partGoal p))).foldl (fun s' p => s'.beginReset p (s'.partAsked p)) s).settle.pwrSync) ∧
  (∀ s part, bit s.rota.applying part = true → s.coresQuiet ((s.partNow part).cores ++ (s.partGoal part).cores) = true →
    ((s.partGoal part).furrow = true → ∀ c ∈ (s.partGoal part).cores,
      s.powerGood (31 + c) = true ∧ s.powerGood (39 + c) = true ∧ s.flag .clkStatusHeld 0 = false) →
    After (.partitionApplyResume part) s (s.resumePart part (s.partGoal part)).decideNext.settle.pwrSync) ∧
  (∀ s ring tail at_ secure, (s.ringSecure ring = true → secure = true) → s.flag .rtRingEn ring = true →
    After (.submissionDoorbell ring tail at_ secure) s
      (let u := s.reach at_
       let size := s.ringSize ring
       let old := SMap.get s.rota.tail ring 0
       let n := (tail % size + size - old) % size
       let u : State := { u with rota := { u.rota with
         tail := SMap.put s.rota.tail ring (tail % size) 0
         submit := (List.range n).foldl (fun m i => SMap.put m (ring * 4096 + (old + i) % size) u.time 0) s.rota.submit } }
       (u.setSqLen ring (min (s.sqLen ring + n) size)).decideNext.settle.wakeForJobs)) ∧
  (∀ s ring value secure, (s.ringSecure ring = true → secure = true) →
    After (.cqheadWrite ring value secure) s (s.ackCq ring value).decideNext.settle) ∧
  (∀ s part slot at_,
    let k := part * 64 + slot
    let u := s.reach at_
    s.flag .rtWheelEn k = true → s.flag .rtWheelMode k = true → u.atInstant (s.fld .rtWheelPeriod k) (s.fld .rtWheelOffset k) = true →
    s.sqLen (s.fld .rtWheelRing k) ≠ 0 → s.flag .rtRingEn (s.fld .rtWheelRing k) = true →
    After (.periodicRelease part slot at_) s
      (if u.slotOpen part slot = true ∧ u.ringReady (s.fld .rtWheelRing k) = true ∧ (u.wslot part slot).due = [] then
        u.releaseSlot part slot u.time else u.releaseDue part slot).decideNext.settle.wakeForJobs) ∧
  (∀ s net at_,
    let u := s.reach at_
    let r := s.fld .rtGnetRing net
    s.flag .rtGnetEn net = true →
    (s.flag .rtGnetMode net = true → u.atInstant (s.fld .rtGnetPeriod net) (s.fld .rtGnetOffset net) = true ∧ s.sqLen r ≠ 0 ∧
      s.flag .rtRingEn r = true) →
    (u.netReady net = true → (u.net net).due = [] →
      After (.guardedRelease net at_) s (u.releaseNet net u.time).decideNext.settle.wakeForJobs) ∧
    (s.flag .rtGnetMode net = true → (u.netReady net = false ∨ (u.net net).due ≠ []) →
      After (.guardedRelease net at_) s (u.netDueNow net).decideNext.settle.wakeForJobs)) ∧
  (∀ s ring index secure at_ u, ring < 256 → index < 4096 → (s.ringSecure ring = true → secure = true) →
    ((s.reach at_).setFlds 0 [(.rtAbortRing, ring), (.rtAbortIndex, index)]).withdraw ring index abortEnding = (true, u) →
    After (.rotaAbort none ring index secure at_) s (u.settle.decideNext.setFlds 0 [(.rtAbortResult, 0), (.rtAbortBusy, 1)])) ∧
  (∀ s core badRows badCores at_ i, (s.core core).selftest = some i →
    After (.selftestSegmentEnd core badRows badCores at_) s
      (((s.members core).foldl (fun s' m =>
          let s' := s'.updCore m (fun x => { x with selftest := none })
          let s' := if i < 5 then s'.endMarch m ((badRows.filter (fun r => decide (r.1 = m))).map (·.2)) else s'
          s'.endSegment m i (badCores.contains m)) (s.reach at_)).bumpFld .rtCntCount 3 1 |>.decideCore core).settle)

/-- The commands of the Hopper complete with their own effect (R237, R240, R244 to R246, R248, R250): a feed that passes its checks is enabled with
RESULT OK and starts at sample 0; a disabled feed stops; a doorbell submits the records up to its tail; an idle lane takes the next sample of the
next feed in turn; a sample that has been prepared is written to its slot and entered as good, and one that reaches its budget as SLOW; a release
frees the oldest buffers. -/
def Obligations.HopperCommandsComplete : Prop :=
  (∀ s feed secure u,
    let h := s.fld .hpFeedHandle feed
    let r := s.recOf h
    let world := recWorld r == 1
    s.clocked 11 = true → s.hpFeed feed = none → s.stale h = false → (world = true → secure = true) → recType r = 7 →
    recField r 8 26 24 = feed → ∀ st, s.lgFetch.hpStats (recField r 8 23 0) (bit (recField r 28 31 0) 25) world = (.ok st, u) →
    u.hpCfgOk (recPart r) (hpCfg r st) = true →
    After (.hpFeedEnable feed secure) s
      (((u.setHpFeed feed (some ⟨h, world, hpCfg r st, 0, 0, 0, 0, [], [], true, none⟩)).setFlds feed
        [(.hpFeedResult, 0), (.hpFeedEn, 1), (.hpFeedHead, 0), (.hpFeedAvg, 0)]).pwrSync)) ∧
  (∀ s feed secure f, s.clocked 11 = true → s.hpFeed feed = some f → (f.secure = true → secure = true) →
    After (.hpFeedDisable feed secure) s (s.hpStop feed).pwrSync) ∧
  (∀ s feed tail secure f,
    let size := 2 ^ f.cfg.depth
    let n := (tail % size + size - f.tail % size) % size
    s.clocked 11 = true → s.hpFeed feed = some f → (f.secure = true → secure = true) → f.tail + n - f.published * f.cfg.b ≤ size →
    After (.hpDoorbell feed tail secure) s ((s.setHpFeed feed (some { f with tail := f.tail + n })).hpEdge feed)) ∧
  (∀ s lane at_ n f, lane < 16 → s.hpReady = true → (∀ l ∈ s.hp.lanes, l.lane ≠ lane) →
    ((List.range 8).map (fun i => (s.hp.turn + 1 + i) % 8)).find?
      (fun n => match s.hpFeed n with | some f => f.eligible | none => false) = some n → s.hpFeed n = some f →
    After (.laneSampleStart lane at_) s
      (let u := s.reach at_
       let u : State := { u with hp := { u.hp with lanes := u.hp.lanes ++ [HpLane.mk lane n f.started u.time], turn := n } }
       (u.setHpFeed n (some { f with started := f.started + 1 })).hpEdge n)) ∧
  (∀ s lane obs at_ l f b u, s.hp.lanes.find? (fun l => l.lane == lane) = some l → s.hpFeed l.feed = some f →
    (s.reach at_).hpPrepare f l.sample obs = (.ok b, u) →
    After (.sampleFinish lane obs at_) s (u.hpFinish l f (.ok b))) ∧
  (∀ s lane at_ l f, s.hp.lanes.find? (fun l => l.lane == lane) = some l → s.hpFeed l.feed = some f → 2 ≤ f.cfg.budget →
    16 ≤ f.times.length → f.cfg.budget * f.times.sum ≤ ((s.reach at_).time - l.start) * f.times.length →
    After (.sampleBudgetExpiry lane at_) s ((s.reach at_).hpFinish l f (.error 5))) ∧
  (∀ s feed add secure f, s.clocked 11 = true → s.hpFeed feed = some f → (f.secure = true → secure = true) → 1 ≤ add → add ≤ 16 →
    After (.hpRelease feed add secure) s ((s.raiseTally f.cfg.bin f.cfg.release add).hpTakeReleases feed f))

/-- The commands of the camera complete with their own effect (R254 to R256, R258, R261 to R263, R267, R268): a frame start stamps and opens
a frame on every stream of its sensor that has a free buffer; a good line of the frame's width enters the ISP; a frame end writes the statistics
and completes the frame, OK when its HEIGHT lines came unmarked; a lost link, level or frame start loses the sensor; a gap record follows each
expected start of a lost sensor; a stream that passes its checks is enabled from frame 0, stops at once between frames, and gives back the
buffers that are released; a colour blob is stored. -/
def Obligations.CameraCommandsComplete : Prop :=
  (∀ s link vc number k at_, s.csiOn link = true →
    let u := ((s.reach at_).setFld .csiStatusHs link 1).countHeader link 0
    let v := u.truncateFrame k
    let x := v.sensor k
    let sof := u.time / 4 * 4
    u.sensorOf link vc = some k → x.phase = .unseen →
    After (.csiFrameStart link vc number 0 false at_) s
      ((v.streamsOf k).foldl (fun (s' : State) n =>
          let w := s'.osTake n
          match w.osRun n with
          | none => w
          | some r =>
            if r.off || r.stopping then w
            else if w.osNbufs n ≤ r.occupied then
              (w.setOsRun n (some { r with skipped := min (r.skipped + 1) 65535 })).bumpObj .skipped (n + 1) 1
            else w.setOsRun n (some { r with rows := some [] }))
        (v.setSensor k
          { x with
            phase := .present
            frame := some ⟨sof, number, [], none, 0, 0, 0, false, false, false, false, v.colourBlob k⟩
            lastSof := some sof })).settle) ∧
  (∀ s link vc dt line k f at_, s.csiOn link = true →
    let u := ((s.reach at_).setFld .csiStatusHs link 1).countHeader link 0
    u.sensorOf link vc = some k → dt = u.fld .ispSensorDt k → dt ∈ rawTypes → (u.sensor k).frame = some f → f.dropped = false →
    line.length = u.fld .ispSensorWidth k → f.lines.length < u.fld .ispSensorHeight k →
    After (.csiLongPacket link vc dt line 0 false 0 at_) s (u.takeLine k { f with lastGood := some line } line).settle) ∧
  (∀ s link vc k f at_, s.csiOn link = true →
    let u := ((s.reach at_).setFld .csiStatusHs link 1).countHeader link 0
    u.sensorOf link vc = some k → (u.sensor k).frame = some f → f.dropped = false → u.fld .ispSensorHeight k ≤ f.lines.length →
    After (.csiFrameEnd link vc 0 at_) s
      (let v := (u.writeStats k f).camComplete k f (b2n f.marked)
       v.setSensor k { v.sensor k with frame := none }).settle) ∧
  (∀ s link at_, After (.cameraHotplugLoss link at_) s
    (let wakes := bit (s.fld .doorStatusCamhpd 0) link && bit (s.obj .doorWakeMask 0) (12 + link)
     let u := (s.reach at_).setFld .csiStatusHpd link 0
     let u := u.setFld .doorStatusCamhpd 0 (setBits (u.fld .doorStatusCamhpd 0) link link 0)
     let u := ((List.range 4).foldl (fun s' i =>
       if s'.flag .ispSensorEn (4 * link + i) then s'.loseSensor (4 * link + i) else s') u).settle
     if wakes then u.wake 4 u.time link else u)) ∧
  (∀ s link at_, After (.csiLossTimeout link at_) s
    ((List.range 4).foldl (fun s' i => if (s'.sensor (4 * link + i)).frame.isSome then s'.loseSensor (4 * link + i) else s')
      ((s.reach at_).setFld .csiStatusHs link 0)).settle) ∧
  (∀ s sensor at_ t, (s.sensor sensor).lastSof = some t → (s.sensor sensor).phase ≠ .lost → s.flag .ispSensorEn sensor = true →
    0 < s.framePeriod sensor → t + 2 * s.framePeriod sensor ≤ (s.reach at_).time →
    After (.frameStartTimeout sensor at_) s ((s.reach at_).loseSensor sensor).settle) ∧
  (∀ s sensor at_,
    let x := s.sensor sensor
    let p := s.framePeriod sensor
    x.phase = .lost → 0 < p → x.expected + p ≤ (s.reach at_).time →
    After (.gapRecord sensor at_) s
      ((s.streamsOf sensor).foldl (fun s' n => (s'.osTake n).osGap n x.expected)
        ((s.reach at_).setSensor sensor { x with expected := x.expected + p })).settle) ∧
  (∀ s stream, s.clocked 9 = true → s.osRun stream = none → s.osCheck stream = 0 →
    After (.osEnable stream) s
      (((s.setFld .osResult stream 0).setOsRun stream (some OsRun.start)).setFlds stream [(.osEn, 1), (.osFrameno, 0)]).pwrSync) ∧
  (∀ s stream r, s.clocked 9 = true → s.osRun stream = some r → r.rows = none →
    After (.osDisable stream) s (s.osOff stream 0).pwrSync) ∧
  (∀ s stream add r, s.clocked 9 = true → s.osRun stream = some r → 1 ≤ add → add ≤ r.occupied →
    After (.osRelease stream add) s
      (let left := r.occupied - add
       s.setOsRun stream (some
        { r with
          occupied := left
          ahead := min r.ahead left
          ahead2 := min r.ahead2 left }))) ∧
  (∀ s sensor blob, After (.camColourWrite sensor blob) s
    ((s.setObjVal .camColour (sensor + 1) (.bytes blob)).bumpVersion (Obj.key .camColour (sensor + 1))))

/-- The commands of the microphones and the Watch complete with their own effect (R276, R278, R280 to R285, R287 to R289): a block with a free
buffer is written, sealed and counted, and the others are skipped; the stream starts and stops; its releases are taken; 10 ms of samples enter the
pre-roll and end the voice hold or renew it; the push of a span starts and ends; a verdict, or none in time, ends the wake; the lock expires and is
erased; a pull pushes its samples and answers RESULT; the span's place is taken while the lock is LOCKED; mute erases the pre-roll and lights the
lamp; a lost microphone gives way to the next. -/
def Obligations.AudioCommandsComplete : Prop :=
  (∀ s mics refs lost stamp at_ a,
    let w := (s.reach at_).audTake
    w.aud.stream = some a → a.off = false → w.powerGood 4 = true → w.clocked 2 = true →
    w.flag .clkStatusHeld 0 = false → a.nbuf ≤ a.occupied →
    After (.audioBlock mics refs lost stamp at_) s
      (let u := w.setFld .audStatusReflock 0 (b2n (bit (w.obj .audTdm 0) 9 && !lost))
       ({ u with aud := ⟨some { a with skipped := min (a.skipped + 1) 65535 }⟩ } : State).bumpObj .audSkipped 0 1)) ∧
  (∀ s mics refs stamp at_ a v u,
    let r := (s.reach at_).audTake
    let w := r.setFld .audStatusReflock 0 (b2n (bit (r.obj .audTdm 0) 9))
    let live := a.chans.filter (fun c => w.micPresent c && !w.muted)
    let data := a.chans.flatMap (fun c => pcmGrain (if live.contains c then w.trimmed c stamp (mics.getD c []) else [])) ++
      a.refList.flatMap (fun r => pcmGrain (refs.getD r []))
    let h := natLe 8 a.blockNo ++ natLe 8 stamp ++ natLe 2 (live.foldl (fun m c => m + 2 ^ c) 0) ++ natLe 1 a.refs ++
      natLe 1 (b2n w.muted + 2 * b2n a.resumed + 4 * b2n false) ++ natLe 2 a.skipped
    let base := (w.fld .audStreamBase 0 + a.blockNo % a.nbuf * a.grains) * 256
    r.aud.stream = some a → a.off = false → r.powerGood 4 = true → r.clocked 2 = true → r.flag .clkStatusHeld 0 = false →
    a.occupied < a.nbuf → w.binUnitWrite w.audReq 5 a.bin (base + 256) data = (none, v) →
    v.binUnitWrite w.audReq 5 a.bin base (h ++ List.replicate 234 0) = (none, u) →
    After (.audioBlock mics refs false stamp at_) s
      (({ u.raiseTally a.bin (w.fld .audStreamTally 0) a.grains with aud := ⟨some
          { a with
            blockNo := (a.blockNo + 1) % 2 ^ 64
            occupied := a.occupied + 1
            skipped := 0
            resumed := false }⟩ } : State).audTake).settle) ∧
  (∀ s,
    let a : AudRun := ⟨s.fld .audStreamBin 0, s.fld .audStreamNbuf 0 + 1, s.fld .audStreamRefs 0, s.fld .audStreamChmask 0, 0, 0, 0,
      false, false⟩
    s.clocked 2 = true → s.aud.stream = none → s.audCheck a = 0 →
    After (.audStreamEnable true) s (({ s.setFld .audStreamResult 0 0 with aud := ⟨some a⟩ } : State).setFld .audStreamEn 0 1)) ∧
  (∀ s a, s.clocked 2 = true → s.aud.stream = some a → After (.audStreamEnable false) s (s.audOff 0)) ∧
  (∀ s a, s.aud.stream = some a →
    After .audioRelease s
      (let t := s.fld .audStreamRelease 0
       let k := min (s.tally a.bin t) a.occupied
       { s.setFld .binTallyCount (a.bin * 1024 + t) (s.tally a.bin t - k) with aud := ⟨some { a with occupied := a.occupied - k }⟩ })) ∧
  (∀ s samples vad score at_, s.micsStopped = false → s.watch.mic ≠ none → (vad ≤ s.obj .vadThreshold 0 ∧ s.watch.voiceHold ≤ 1) →
    After (.vadFrame samples vad score at_) s
      ((s.reach at_).setWatch
        { (samples.foldl WatchGroup.record s.watch).trim with
          lastTime := at_
          voiceHold := 0 })) ∧
  (∀ s samples vad score at_, s.micsStopped = false → s.watch.mic ≠ none → s.obj .vadThreshold 0 < vad → s.obj .wakeThreshold 0 ≤ score →
    After (.vadFrame samples vad score at_) s
      ((s.reach at_).setWatch
        { (samples.foldl WatchGroup.record s.watch).trim with
          lastTime := at_
          voiceHold := 31 }).firstStage) ∧
  (∀ s at_,
    let b := s.fld .watchSpanBin 0
    let base := s.fld .watchSpanBase 0
    s.watch.lock = .span → s.watch.span = none → BinServes s s.watchReq true b ((List.range s.spanGrains).map (base + ·)) →
    After (.spanPush at_) s ((s.reach at_).setWatch { s.watch with span := some ⟨b, base, s.spanGrains, false, 0⟩ })) ∧
  (∀ s at_ x u, s.watch.span = some x → x.done = false →
    (s.reach at_).binUnitWrite s.watchReq 5 x.bin (x.base * 256) (s.spanBytes x.grains) = (none, u) →
    After (.spanPushComplete at_) s
      (let v := u.raiseTally x.bin (u.fld .watchSpanTally 0) x.grains
       v.setWatch
        { v.watch with
          span := some
            { x with
              done := true
              ended := v.time } }).settle) ∧
  (∀ s at_, s.watch.lock = .span →
    After (.watchVerdictAccept at_) s
      (let u := s.reach at_
       let v := (u.setWatch
        { u.watch with
          lock := .open
          openAt := u.time
          span := none }).bumpObj .wakesAccepted 0 1
       v.event 0x0001 v.micArg v.watch.detTime)) ∧
  (∀ s, s.watch.lock = .span → After .watchVerdictReject s s.watchReject) ∧
  (∀ s at_ x, s.watch.span = some x → s.watch.lock = .span → x.done = true → x.ended + s.obj .verifyMs 0 * 1000000 ≤ (s.reach at_).time →
    After (.verifyTimeout at_) s (s.reach at_).watchReject) ∧
  (∀ s at_, s.watch.lock = .open → s.watch.openAt + 10000000000 ≤ (s.reach at_).time →
    After (.lockOpenExpiry at_) s ((s.reach at_).setWatch { s.watch with lock := .erasing })) ∧
  (∀ s, s.watch.lock = .erasing →
    After .erasingComplete s (s.setWatch { s.watch with lock := .locked, silent := 193920, recent := [] })) ∧
  (∀ s bin base count tally start u, bin < 8 → base < 2 ^ 17 → count < 4096 → tally < 1024 →
    (s.setFlds 0 [(.watchPullBin, bin), (.watchPullBase, base), (.watchPullCount, count), (.watchPullTally, tally),
      (.watchPullStart, start)]).watchPull bin base count tally (signed 21 start) = (0, u) →
    After (.watchPull bin base count tally start) s (u.setFld .watchPullResult 0 0)) ∧
  (∀ s value secure, (s.flag .secWmapWatch 0 = true → secure = true) → s.watch.lock = .locked →
    After (.watchSpanWrite value secure) s
      (s.setFlds 0 [(.watchSpanBin, bits value 31 29), (.watchSpanBase, bits value 28 12), (.watchSpanEn, bits value 10 10),
        (.watchSpanTally, bits value 9 0)])) ∧
  (∀ s at_, s.muted = false →
    After (.muteAssert at_) s
      (let u := ((s.reach at_).setFlds 0 [(.doorStatusMute, 1), (.doorStatusPriv, 1)]).zeroSpan
       let u := (u.setWatch { u.watch with lock := .erasing, voiceHold := 0 }).cancelWake 1
       u.doorEvent 0x000F 0 u.time)) ∧
  (∀ s at_, s.muted = true →
    After (.muteRelease at_) s
      (let u := ((s.reach at_).setFlds 0 [(.doorStatusMute, 0), (.doorStatusPriv, 0)]).setWatch s.watch.erase
       u.doorEvent 0x0010 0 u.time)) ∧
  (∀ s at_ m, s.muted = false → s.watch.mic = some m →
    After (.listenMicLost at_) s
      (let u := (s.reach at_).moveMic (s.nextMic m) (s.reach at_).time
       if u.obj .wakeOnMicLoss 0 = 1 then u.wake 4 (s.reach at_).time (m / 8) else u))

/-- The commands of the person-facing inputs complete with their own effect (R291 to R297): an accepted press or release is shown, timed and
published, and may wake the device; a press held for LONGPRESS_MS is published once; a touch scan measures its eight channels; an accepted
hot-plug or shutter level is shown and published; a write of an LED starts its ramp from the present duty. -/
def Obligations.DoorCommandsComplete : Prop :=
  (∀ s button edge at_, bit (s.fld .doorStatusBtn 0) button = false →
    After (.buttonChange button true edge at_) s
      (let u := (((s.reach at_).setDoorBit .doorStatusBtn button true).setDoor
        { s.door with
          pressedAt := SMap.put s.door.pressedAt button edge 0
          longDone := setBits s.door.longDone button button 0 }).doorEvent 0x0011 button edge
       if u.doorWakes button then u.wake 2 edge button else u)) ∧
  (∀ s button edge at_, bit (s.fld .doorStatusBtn 0) button = true → 2 ≤ button →
    After (.buttonChange button false edge at_) s
      ((((s.reach at_).setDoorBit .doorStatusBtn button false).setDoor
        { s.door with
          pressedAt := SMap.put s.door.pressedAt button 0 0
          longDone := setBits s.door.longDone button button 0 }).doorEvent 0x0012 button edge)) ∧
  (∀ s button at_,
    let due := SMap.get s.door.pressedAt button 0 + s.obj .longpressMs 0 * 1000000
    bit (s.fld .doorStatusBtn 0) button = true → bit s.door.longDone button = false → due ≤ (s.reach at_).time →
    After (.buttonLong button at_) s
      (((s.reach at_).setDoor { s.door with longDone := setBits s.door.longDone button button 1 }).doorEvent 0x0013 button due)) ∧
  (∀ s meas at_, After (.touchScan meas at_) s ((List.range 8).foldl (fun s' c => s'.touchScan c (meas.getD c 0)) (s.reach at_))) ∧
  (∀ s input edge at_, input < 4 → bit (s.fld .doorStatusCamhpd 0) input = false →
    After (.hpdChange input true edge at_) s
      (let u := ((s.reach at_).setDoorBit .doorStatusCamhpd input true).setFld .csiStatusHpd input 1
       if u.doorWakes (12 + input) then u.wake 4 edge input else u)) ∧
  (∀ s input edge at_, 4 ≤ input → bit (s.fld .doorStatusMichpd 0) (input - 4) = false →
    After (.hpdChange input true edge at_) s
      ((((s.reach at_).setDoorBit .doorStatusMichpd (input - 4) true).doorEvent 0x0005 (input - 4 + 2) edge).micBack edge)) ∧
  (∀ s link closed edge at_, bit (s.fld .doorStatusShut 0) link ≠ closed →
    After (.shutterChange link closed edge at_) s
      (((s.reach at_).setDoorBit .doorStatusShut link closed).doorEvent (if closed then 0x0008 else 0x0009) link edge)) ∧
  (∀ s led value at_, s.clocked 1 = true →
    After (.doorLedWrite led value at_) s
      (((s.reach at_).setDoor { s.door with leds := SMap.put s.door.leds led ⟨(s.reach at_).ledDuty led, (s.reach at_).time⟩ ⟨0, 0⟩ }).setFlds
        led [(.doorLedEn, bits value 31 31), (.doorLedRamp, bits value 27 16), (.doorLedDuty, bits value 11 0)]))

/-- The commands of the safety monitor complete with their own effect (R305 to R307, R309, R310, R312, R317): the comparator starts to read, and
delivers a frame that agrees or withholds one that does not; a register-armed watchdog is armed and kicked, and faults MISSED at its LIMIT; a
cleared SAFE_FAULT bit shows its cause again; an injection is armed for its network or watchdog. -/
def Obligations.SafetyCommandsComplete : Prop :=
  (∀ s net, (s.net net).comparing = true → After (.comparatorStart net) s (s.setNet net { s.net net with reading := true })) ∧
  (∀ s net obs at_ x y v u,
    let n := s.net net
    let base := s.fld .cmpNetBase net
    let count := s.fld .cmpNetCount net
    let injected := SMap.get u.safe.injectNet net false
    let d := disagreements ((Fmt.ofCode (u.fld .cmpNetFmt net)).getD .uint8) (u.fld .cmpNetTol net) x y
    let d := if injected then 0 :: d.filter (· != 0) else d
    n.reading = true → (s.reach at_).cmpRead n.west base count obs = (some x, v) → v.cmpRead n.east base count obs = (some y, u) →
    After (.comparatorComplete net obs at_) s
      (let w : State := { u with safe := { u.safe with injectNet := SMap.put u.safe.injectNet net false false } }
       if u.fld .cmpNetThresh net < d.length then
        (((w.bumpObj .cmpWithheld (net + 1) 1).logIt .guard 0x14 (b2n injected) net (d.headD 0) d.length).countOutcome net true
          |>.endFrame net n ⟨2, 0x0B, net, d.length, false⟩).decideNext.settle
       else
        (((w.countOutcome net false).raiseTally n.west ((w.countOutcome net false).fld .cmpNetOtally net) count).endFrame net n
          ⟨0, 0, 0, 0, false⟩).decideNext.settle)) ∧
  (∀ s ww at_, s.fld .wwArm ww = 3 → After (.wwKickArm ww at_) s ((s.reach at_).wwArm ww none)) ∧
  (∀ s ww at_ x r, s.fld .wwArm ww = 3 → s.windowsOf ww = x :: r → After (.wwKick ww at_) s ((s.reach at_).wwKickWindow ww x)) ∧
  (∀ s ww at_,
    let u := s.reach at_
    let due := (s.windowsOf ww).filter (fun x => decide (x.armed + s.fld .wwLimit ww * 1000 < u.time))
    After (.watchdogLimitExpiry ww at_) s
      (due.foldl (fun s' x => s'.wwFault ww x .missed false)
        (u.setWindows ww ((s.windowsOf ww).filter (fun x => !due.contains x)))).settle) ∧
  (∀ s, After (.safeFaultClear 31 true) s
    (s.setFlds 0 [(.safeFaultSuspect, b2n (bit s.causes 0)), (.safeFaultWatchdog, b2n (bit s.causes 1)),
      (.safeFaultClock, b2n (bit s.causes 2)), (.safeFaultDramTrain, b2n (bit s.causes 3)), (.safeFaultSelftest, b2n (bit s.causes 4))])) ∧
  (∀ s net, net < 32 → After (.safeInjectCompare net true) s
    { s with safe := { s.safe with injectNet := SMap.put s.safe.injectNet net true false } }) ∧
  (∀ s ww, ww < 32 → After (.safeInjectWatchdog ww true) s
    { s with safe := { s.safe with injectWw := SMap.put s.safe.injectWw ww true false } })

/-- The commands of the security engine complete with their own effect (R320, R323, R327, R330, R331, R334 to R336, R377): a region that
passes its checks applies, after zeroing when units change to NS or out of MODEL; SEC_WMAP changes the units that are not enabled; AGREE starts
its handshake, which loads the slot or ends with HANDSHAKE; DERIVE and CLEAR load and zero a slot; an unwrap starts, and ends with the RESULT of its
checks, its plaintext written when all pass; a nonce starts a report, which replaces the previous one; the sixteenth word commits MEAS5; a good
token opens the unlock and a bad one is counted, and the unlock zeroes keys and models first. -/
def Obligations.SecurityCommandsComplete : Prop :=
  (∀ s n word,
    let r : Region := ⟨bit word 31, bit word 30, bit word 29, bits word 27 24, s.fld .brBase n, s.fld .brLimit n⟩
    s.flag .brBusy n = false → r.en = true → s.brCheck n r = 0 → s.brZeroes n r = [] →
    After (.boundaryRegionWrite n word true) s (s.applyRegion n r)) ∧
  (∀ s n word,
    let r : Region := ⟨bit word 31, bit word 30, bit word 29, bits word 27 24, s.fld .brBase n, s.fld .brLimit n⟩
    s.flag .brBusy n = false → r.en = true → s.brCheck n r = 0 → s.brZeroes n r ≠ [] →
    After (.boundaryRegionWrite n word true) s
      ((s.setSec { s.sec with changes := SMap.put s.sec.changes n (some ⟨r, s.brZeroes n r⟩) none }).setFld .brBusy n 1)) ∧
  (∀ s n c, SMap.get s.sec.changes n none = some c →
    After (.regionZeroingComplete n) s
      (let u := c.units.foldl (fun s' x => s'.zeroUnits x.1 [x.2]) s
       (u.setSec { u.sec with changes := SMap.put u.sec.changes n none none }).applyRegion n c.region)) ∧
  (∀ s value, (∀ n < 16, s.flag .osEn n = false) → s.flag .audStreamEn 0 = false → s.fld .secWmapOs 0 < 65536 →
    After (.secWmapWrite value true) s
      (s.setFlds 0 [(.secWmapOs, bits value 15 0), (.secWmapAud, bits value 16 16), (.secWmapWatch, bits value 17 17)])) ∧
  (∀ s slot part src at_ secure, s.kslotBusy = false → (slotSecure slot = true → secure = true) → src < 8 → (slot = 120 + src ∨ slot = 232 + src) →
    src ∈ s.sec.peers →
    After (.keySlotAgree slot part src at_ secure) s
      ((((s.reach at_).kslotFields 0 slot part src).setSec { s.sec with agree := some ⟨slot, part, src, (s.reach at_).time⟩ }).setFld
        .secKslotBusy 0 1)) ∧
  (∀ s key fixed at_ a, s.sec.agree = some a → (s.reach at_).time ≤ a.start + 100000000 →
    After (.agreeHandshakeEnd key fixed true at_) s
      (((((s.reach at_).setSec { s.sec with agree := none }).setFld .secKslotBusy 0 0).loadSlot a.slot
        ⟨true, true, key.take 32, fixed % 2 ^ 32, 0, a.part⟩).setFld .secKslotResult 0 0)) ∧
  (∀ s slot part src context secure, s.kslotBusy = false → (slotSecure slot = true → secure = true) → slotSecure src = slotSecure slot →
    (s.keySlot src).loaded = true →
    let k := Config.shake256 ((s.keySlot src).key ++ Config.deriveLabel ++ natLe 8 context) 36
    After (.keySlotDerive slot part src context secure) s
      ((((s.kslotFields 1 slot part src).setFlds 0 [(.secKslotContextLo, context), (.secKslotContextHi, context / 2 ^ 32)]).loadSlot slot
        ⟨true, false, k.take 32, leNat (k.drop 32), 0, part % 8⟩).setFld .secKslotResult 0 0)) ∧
  (∀ s slot secure, s.kslotBusy = false → (slotSecure slot = true → secure = true) →
    After (.keySlotClear slot secure) s
      (((s.kslotFields 2 slot (s.fld .secKslotPart 0) (s.fld .secKslotSrc 0)).loadSlot slot KeySlot.empty).setFld .secKslotResult 0 0)) ∧
  (∀ s src dst, s.sec.unwrap = none →
    After (.secUnwrap src dst true) s
      ((s.setSec { s.sec with unwrap := some (src % 2 ^ 24, dst % 2 ^ 24) }).setFlds 0
        [(.secUnwrapSrc, src), (.secUnwrapDst, dst), (.secUnwrapBusy, 1), (.secUnwrapDone, 0)])) ∧
  (∀ s obs at_ src dst h v,
    let chunks := leNat (hdrField h 12 4)
    let len := leNat (hdrField h 184 8)
    let pages := (List.range (ceilDiv len 4096)).map (dst + ·)
    s.sec.unwrap = some (src, dst) → (s.reach at_).urRead secReq (src * 4096) 384 obs = (.ok h, v) →
    let r := v.unwrapChunks (v.unwrapCheck h dst).2 (Config.shake256 h 64) obs chunks 0 len (src * 4096 + 384)
    After (.unwrapComplete obs at_) s
      (if (v.unwrapCheck h dst).1 ≠ 0 then v.endUnwrap (v.unwrapCheck h dst).1 0
       else match r.1 with
        | .error e => (r.2.zeroUnits 0 (pages.take (16 * e.2))).endUnwrap e.1 e.2
        | .ok p =>
          if Config.shake256 p 64 = hdrField h 192 64 then
            (r.2.urWrite secReq (dst * 4096) (p ++ List.replicate (pages.length * 4096 - p.length) 0) []).2.endUnwrap 0 chunks
          else (r.2.zeroUnits 0 pages).endUnwrap 7 chunks)) ∧
  (∀ s nonce, nonce.length = 32 → After (.attestNonceWrite nonce) s (s.setSec { s.sec with nonce := some nonce })) ∧
  (∀ s at_ n, s.sec.nonce = some n →
    After (.attestReportSigned at_) s
      (let u := s.reach at_
       let body := u.reportBody n
       ((u.bumpVersion (Obj.key .attestReport 8)).setSec { s.sec with nonce := none }).setObjVal .attestReport 8
        (.bytes (padTo 768 (body ++ padTo 114 (Config.sign 0 (Config.shake256 body 64))))))) ∧
  (∀ s index value, s.sec.measDone = false → index < 15 →
    After (.secMeasWrite index value true) s
      (s.setSec { s.sec with measWords := SMap.put s.sec.measWords index (value % 2 ^ 32) 0 })) ∧
  (∀ s value, s.sec.measDone = false →
    After (.secMeasWrite 15 value true) s
      (let w := SMap.put s.sec.measWords 15 (value % 2 ^ 32) 0
       s.setSec
        { s.sec with
          measWords := w
          measDone := true
          meas := SMap.put s.sec.meas 5 ((List.range 16).flatMap (fun i => natLe 4 (SMap.get w i 0))) [] })) ∧
  (∀ s level sig, s.sec.rejected < 3 → s.sec.unlocking = none → (level = 1 ∨ level = 2) →
    After (.debugToken level sig) s
      (let u := s.fresh.2.setSec { s.sec with challenge := s.fresh.1, attempts := s.sec.attempts + 1 }
       if Config.signedBy 1 s.sec.auth (s.challengeBytes ++ natLe 1 level) sig = true then u.setSec { u.sec with unlocking := some level }
       else (u.setSec { u.sec with rejected := s.sec.rejected + 1 }).logIt .debugToken 0x15 2 level 0 0)) ∧
  (∀ s level, s.sec.unlocking = some level → s.sec.unwrap = none →
    After .debugUnlock s
      (let u := ((s.zeroSlots (fun _ _ => true)).zeroModel).setFlds 0 [(.secStatusDebugged, 1), (.secStatusLevel, level)]
       (((u.setSec { u.sec with unlocking := none }).setObj .debugLevel 2 level).logIt .debugUnlock 0x15 2 level 0 0).pwrSync))

/-- The operations on objects and rings complete with their own effect (R339, R340, R343, R348, R349, R355, R356, R359, R361): through a
channel of the window that the writer may use, an operation that its checks pass leaves its results, CODE OK and DONE, and interrupts the host; as a
frame of an open session, a new request is run and answered.  For objectRead, objectWrite, readBlock, writeBlock, crierPull, crierAck and
rotaAbort, and for unknownOperation, whose answer is BAD_OP. -/
def Obligations.ObjectCommandsComplete : Prop :=
  (∀ i op obs s at_ ch last secure u,
    (i, op, obs) ∈ [(Instr.objectRead (.window ch last secure) at_, 4, ([] : List Obs)),
      (.objectWrite (.window ch last secure) at_, 5, []), (.readBlock (.window ch last secure) at_, 6, []),
      (.writeBlock (.window ch last secure) at_, 7, []), (.crierPull (.window ch last secure) obs at_, 10, obs),
      (.crierAck (.window ch last secure) at_, 11, []), (.rotaAbort (some (.window ch last secure)) 0 0 secure at_, 12, [])] →
    ch < 16 → (8 ≤ ch → secure = true) →
    ((s.reach at_).setFlds ch [(.chCmdOp, op), (.chCmdLast, b2n last)]).windowOp ch op last obs = (.ok, u) →
    After i s ((u.setFlds ch [(.chCmdCode, Code.num .ok), (.chCmdDone, 1)]).send ⟨.hostIrq, 0x100, [ch], []⟩)) ∧
  (∀ i op obs s at_ f x,
    (i, op, obs) ∈ [(Instr.crierClose f at_, 3, ([] : List Obs)), (.objectRead (.frame f) at_, 4, []), (.objectWrite (.frame f) at_, 5, []),
      (.readBlock (.frame f) at_, 6, []), (.writeBlock (.frame f) at_, 7, []), (.crierSubscribe f at_, 8, []),
      (.crierPull (.frame f) obs at_, 10, obs), (.crierAck (.frame f) at_, 11, []), (.rotaAbort (some (.frame f)) 0 0 false at_, 12, [])] →
    SessionServes (s.reach at_) op f x →
    After i s (((s.reach at_).takenOn f.session x).serve f.session f.seq op f.payload (frameLast f) obs)) ∧
  (∀ s op at_ ch last secure, ch < 16 → (8 ≤ ch → secure = true) → op < 256 → op ∉ [4, 5, 6, 7, 10, 11, 12] →
    After (.unknownOperation op (.window ch last secure) at_) s
      ((((s.reach at_).setFlds ch [(.chCmdOp, op), (.chCmdLast, b2n last)]).setFlds ch
        [(.chCmdCode, Code.num .badOp), (.chCmdDone, 1)]).send ⟨.hostIrq, 0x100, [ch], []⟩))

/-- The commands of the Crier and of the Ethernet port complete with their own effect (R342, R344, R347, R352, R355, R357, R358, R360, R365,
R366): IDENTIFY is answered with a fresh NONCE; an OPEN that its checks pass opens a session and is answered with its number; a CLOSE and a
SUBSCRIBE of an open session run; a subscription whose object has changed sends a NOTIFY; a session that hears nothing for TIMEOUT ends; a
record is published; SAVE and RESTORE are queued, and end; ARP, echo, a wake-up pulse and 802.1AS messages are answered. -/
def Obligations.CrierCommandsComplete : Prop :=
  (∀ s f at_, FrameArrives (s.reach at_) 1 f → frameSecure f = false →
    After (.crierIdentify f at_) s ((s.reach at_).identify (framePeer f) f.seq)) ∧
  (∀ s f at_ n rest u, FrameArrives (s.reach at_) 2 f → frameSecure f = false →
    (s.reach at_).openSession (framePeer f) f.payload = (.ok, n, rest, u) →
    After (.crierOpen f at_) s (u.sendOpen (framePeer f) 2 respFlags n f.seq (natLe 1 Code.ok.num ++ natLe 2 n ++ rest))) ∧
  (∀ s f at_ x, SessionServes (s.reach at_) 3 f x →
    After (.crierClose f at_) s (((s.reach at_).takenOn f.session x).serve f.session f.seq 3 f.payload (frameLast f) [])) ∧
  (∀ s f at_ x, SessionServes (s.reach at_) 8 f x →
    After (.crierSubscribe f at_) s (((s.reach at_).takenOn f.session x).serve f.session f.seq 8 f.payload (frameLast f) [])) ∧
  (∀ s session kind index sub at_ x y a b,
    let u := s.reach at_
    u.crierUp = true → s.session session = some x →
    x.subs.find? (fun y => decide (y.kind = kind ∧ y.index = index ∧ y.sub = sub)) = some y → u.watched kind index sub x.secure = .ok (a, b) →
    b ≠ y.shown → (y.at_ ≠ 0 → y.at_ - 1 + y.interval * 1000000 ≤ u.time) →
    After (.crierNotify session kind index sub at_) s
      (let subs := x.subs.map (fun z => if z = y then { z with shown := b, at_ := u.time + 1 } else z)
       let v := u.setSession session (some { x with subs := subs })
       (v.setCrier { v.crier with notifySeq := (s.crier.notifySeq + 1) % 2 ^ 32 }).sendOn session 9 notifyFlags s.crier.notifySeq
        (natLe 1 kind ++ natLe 2 index ++ natLe 1 sub ++ b))) ∧
  (∀ s session at_ x, s.session session = some x → x.lastFrame + x.timeout * 1000000000 ≤ (s.reach at_).time →
    After (.sessionTimeout session at_) s ((s.reach at_).endSession session)) ∧
  (∀ s handle subject evidence cls flags code payload at_,
    After (.resultPublish none handle subject evidence cls flags code payload at_) s
      ((s.reach at_).publishTo handle subject evidence cls (flags / 2 % 2 * 2) code payload)) ∧
  (∀ s secure, After (.almanacSave secure) s (s.saveObjects secure)) ∧
  (∀ s secure, After (.almanacRestore secure) s (s.restoreObjects secure)) ∧
  (∀ s ok j r, s.crier.saves = j :: r → After (.almanacSaveComplete ok) s (s.saveDone ok)) ∧
  (∀ s target ip mac, s.ipUp target = true →
    After (.arpRequest target ip mac) s (s.send ⟨.ethernet, 0x001, [target, ip, mac], (enrolledObj 3).toBytes⟩)) ∧
  (∀ s target ip mac payload, s.ipUp target = true →
    After (.icmpEcho target ip mac payload) s (s.send ⟨.ethernet, 0x002, [target, ip, mac], payload⟩)) ∧
  (∀ s at_, s.pwr.tc10Refused = false → After (.tc10RemoteWake at_) s ((s.reach at_).wake 5 (s.reach at_).time 0)) ∧
  (∀ s offset delay at_, (s.reach at_).crierUp = true →
    After (.gptpMessage 1 offset delay at_) s ((s.reach at_).send ⟨.ethernet, 0x103, [(s.reach at_).time / 8 * 8], []⟩) ∧
    After (.gptpMessage 2 offset delay at_) s ((s.reach at_).setCrier { s.crier with peerDelay := delay }) ∧
    (s.obj .timeMode 0 = 1 → (s.isMaster = true ∨ s.obj .members 0 = 0) →
      After (.gptpMessage 0 offset delay at_) s ((s.reach at_).followTime offset)) ∧
    (s.obj .timeMode 0 = 2 → (s.isMaster = true ∨ s.obj .members 0 = 0) →
      After (.gptpMessage 3 offset delay at_) s ((s.reach at_).send ⟨.ethernet, 0x104, [(s.reach at_).time / 8 * 8], []⟩)))

/-- The commands of the Hedgeline complete with their own effect (R370 to R380): a port that trains goes UP and sends HELLO; an UP port that is
lost goes DOWN and trains again, and a DOWN port trains every 10 ms; a HELLO that keeps the wiring rules joins the link; a grain for this device
is taken and answered; a reply is taken; an acknowledged packet leaves the replay buffer, and one that is not is sent again; a grain without a
reply ends its transfer; SYNC is sent by the master and followed by a follower, which runs free without it; nHLWAKE wakes; MGMT carries Crier
frames; an unknown packet is counted. -/
def Obligations.HedgelineCommandsComplete : Prop :=
  (∀ s port width rate, s.portPowered port = true → s.fld .hlStatusState port ≠ 2 →
    After (.hlPortUp port width rate) s
      (let u := s.setFlds port [(.hlStatusState, 2), (.hlStatusWidth, min width 2),
         (.hlStatusRate, if s.flag .hlCtrlRate16 port then 1 else rate % 2)]
       u.sendPacket port { u.packet 6 0 with body := u.helloBody })) ∧
  (∀ s port, s.portUp port = true → After (.hlPortDown port) s ((s.portDown port).portTrain port)) ∧
  (∀ s port, s.portPowered port = true → s.fld .hlStatusState port = 0 →
    After (.hlRetrain port) s (s.setFld .hlStatusState port 1)) ∧
  (∀ s port id master digest members ring, s.portUp port = true → digest.length = 64 →
    let u := s.setFlds port [(.hlStatusPeer, id), (.hlStatusPeermaster, b2n master)]
    u.wired port id master ring = true →
    After (.hlHello port id master digest members ring) s
      (let v := u.setHlPort port
        { u.hlPort port with
          joined := true
          reach := Nat.lor (members % 256) (2 ^ (id % 8)) }
       ({ v with hedge := { v.hedge with isRing := ring } } : State).hlMembers.pumpAll)) ∧
  (∀ s port dst src lseq tally gate offset bin xfer ctr body q u r,
    let x : HlPacket := ⟨1, dst % 8, src % 8, lseq, tally % 1024, gate % 64, offset, bin % 8, 0, xfer, ctr, body⟩
    s.arrive port x true = (.consume, u) → u.takeGrain port x = r → r.2.route (src % 8) = some q →
    After (.hlData port dst src lseq tally gate offset bin xfer ctr body true) s
      (r.2.sendPacket q { r.2.packet 2 (src % 8) with xfer := xfer, offset := offset, code := r.1 }).settle) ∧
  (∀ s port dst src lseq xfer offset code u,
    s.arrive port ⟨2, dst % 8, src % 8, lseq, 0, 0, offset, 0, code, xfer, 0, []⟩ true = (.consume, u) →
    After (.hlReply port dst src lseq xfer offset code true) s (u.takeReply xfer offset code)) ∧
  (∀ s port lseq, s.portUp port = true →
    After (.hlLinkack port lseq) s
      (s.setHlPort port { s.hlPort port with replay := (s.hlPort port).replay.filter (fun e => decide (e.1.lseq ≠ lseq)) })) ∧
  (∀ s port lseq x n, s.portUp port = true → (s.hlPort port).replay.find? (fun e => decide (e.1.lseq = lseq)) = some (x, n) → n < 16 →
    After (.hlReplay port lseq) s
      (((s.bumpObj .replays (port + 1) 1).setHlPort port
        { s.hlPort port with
          replay := (s.hlPort port).replay.map (fun e => if e.1.lseq = lseq then (e.1, n + 1) else e) }).send
        ⟨.hedgeline port, x.type, [x.dst, x.xfer, x.offset, x.code], x.bytes⟩)) ∧
  (∀ s xfer grain at_ t o, s.hedge.transfers.find? (fun t => decide (t.xfer = xfer)) = some t →
    t.out.find? (fun o => decide (o.grain = grain)) = some o → o.at_ + s.obj .hlReplyTimeout 0 * 1000 ≤ (s.reach at_).time →
    After (.hlReplyTimeout xfer grain at_) s ((s.reach at_).failTransfer t 0x0C o.port)) ∧
  (∀ s at_, s.isMaster = true →
    After (.hlSyncSend at_) s
      ((List.range 2).foldl (fun (s' : State) p =>
        if s'.portCarries p then s'.sendPacket p { s'.packet 4 (s'.fld .hlStatusPeer p) with body := natLe 8 s'.time } else s') (s.reach at_))) ∧
  (∀ s port src lseq stamp delay at_ u, s.isMaster = false →
    let x : HlPacket := ⟨4, s.cascadeId, src % 8, lseq, 0, 0, 0, 0, 0, 0, 0, natLe 8 stamp⟩
    (s.reach at_).arrive port x true = (.consume, u) → u.isMaster = false →
    After (.hlSync port src lseq stamp delay true at_) s
      (let v := u.alignTime (stamp + delay)
       if v.syncOnward (src % 8) (1 - port) then
        v.sendPacket (1 - port) { x with dst := v.fld .hlStatusPeer (1 - port), body := natLe 8 v.time } else v)) ∧
  (∀ s at_, s.isMaster = false → s.hedge.lastSync + 10000000 ≤ (s.reach at_).time →
    After (.hlSyncLoss at_) s
      { (s.reach at_).setObj .timeAligned 0 0 with hedge := { s.hedge with slew := 0, slewTicks := 0 } }) ∧
  (∀ s at_, (s.isMaster = true → s.obj .cascadeWakeAll 0 = 1) → After (.nhlwakePulse at_) s ((s.reach at_).wake 6 at_ 0)) ∧
  (∀ s port dst src lseq frame crcOk, s.isMaster = true → 1 ≤ dst → dst ≤ 7 →
    After (.hlMgmt true port dst src lseq frame crcOk) s (s.sendMgmt dst frame)) ∧
  (∀ s port dst src lseq frame u, s.arrive port ⟨5, dst % 8, src % 8, lseq, 0, 0, 0, 0, 0, 0, 0, frame⟩ true = (.consume, u) →
    u.isMaster = true →
    After (.hlMgmt false port dst src lseq frame true) s
      (u.send ⟨.crier, 0x200 + src % 8, [u.crier.net.port + src % 8], frame⟩)) ∧
  (∀ s port, s.portCarries port = true →
    After (.hlUnknownPacket port) s
      { s with hedge := { s.hedge with unknown := SMap.put s.hedge.unknown port (SMap.get s.hedge.unknown port 0 + 1) 0 } })

/-- The commands of the Reeve and of an update complete with their own effect (R386, R387, R394, R396, R398 to R400, R402): a period runs its loops,
the full ones, those of an update or those of REST, and RESTRICTED says which; an alert is read in the next period; the buffer goes to flash; an
update is begun, takes its bytes, is verified, written and committed, or is cancelled; ACTIVATE is a warm reset. -/
def Obligations.ReeveCommandsComplete : Prop :=
  (∀ s temps pouts status vout margins ces ues at_, s.flag .rvStatusReady 0 = true →
    let x : Sensed := ⟨temps, pouts, status, vout, margins, ces, ues⟩
    let u := s.reach at_
    (s.pwrState ≠ 3 → s.updWriting = false →
      After (.governorPeriod temps pouts status vout margins ces ues false at_) s
        (let v := u.fullPeriod x
         (v.setReeve { v.reeve with lastPeriod := v.time }).setFld .rvStatusRestricted 0 0)) ∧
    (s.pwrState ≠ 3 → s.updWriting = true →
      After (.governorPeriod temps pouts status vout margins ces ues false at_) s
        (let v := u.updatePeriod x
         (v.setReeve { v.reeve with lastPeriod := v.time }).setFld .rvStatusRestricted 0 1)) ∧
    (s.pwrState = 3 →
      After (.governorPeriod temps pouts status vout margins ces ues false at_) s
        (let v := (u.readSensors temps).idleLoop
         (v.setReeve { v.reeve with lastPeriod := v.time }).setFld .rvStatusRestricted 0 1))) ∧
  (∀ s, After .pmbusAlert s (s.setReeve { s.reeve with alert := true })) ∧
  (∀ s at_, s.flag .rvStatusReady 0 = true → After (.logFlush at_) s (s.reach at_).flushLog) ∧
  (∀ s, s.updStage = 0 → 1 ≤ s.obj .updKind 0 → s.obj .updKind 0 ≤ 4 → s.obj .updLen 0 ≤ slotSize (s.obj .updKind 0) →
    After (.updBegin true) s
      (((s.setFld .rvStatusUpd 0 1).setObj .updOffset 0 0).setUpd ⟨s.obj .updKind 0, s.obj .updLen 0, []⟩)) ∧
  (∀ s bytes, s.updStage = 1 → bytes.length ≤ 65536 → s.upd.staged.length + bytes.length ≤ 32 * 2 ^ 20 →
    After (.updData bytes true) s
      ((s.setUpd { s.upd with staged := s.upd.staged ++ bytes }).setObj .updOffset 0 (s.upd.staged.length + bytes.length))) ∧
  (∀ s, s.updStage = 1 → After (.updFinish true) s (s.setFld .rvStatusUpd 0 2)) ∧
  (∀ s, s.updStage ≠ 0 → After (.updCancel true) s (s.endUpdate 6)) ∧
  (∀ s at_, After (.updActivate true at_) s ((s.reach at_).warmReset 5)) ∧
  (∀ s, s.updStage = 2 → s.upd.staged.length = s.upd.len → After (.updVerifyComplete 0) s (s.setFld .rvStatusUpd 0 3)) ∧
  (∀ s, s.updStage = 3 → After (.updWriteComplete true) s (s.setFld .rvStatusUpd 0 4)) ∧
  (∀ s, s.updStage = 4 →
    After (.updCommitComplete true) s
      (((s.setObj .slotSeq s.upd.kind ((s.obj .slotSeq s.upd.kind + 1) % 2 ^ 32)).setObj .slotActive s.upd.kind
        (1 - s.obj .slotActive s.upd.kind)).endUpdate 0))

/-- The commands of power management complete with their own effect (R406 to R416, R417, R419): IDLE, DOZE, REST and LISTEN are entered when their
conditions hold, and an entry ends with its domains off and a latched wake replayed; a resume ends; an alarm fires; the Ringer starts a domain, which
reaches power good, or switches off 1 ms after it is last wanted; the Watch regulator comes up, fails or is tried again; a brown-out resets the
Watch. -/
def Obligations.PowerCommandsComplete : Prop :=
  (∀ s at_, s.mayDeepen 0 = true → s.pwrState = 0 → (∀ c < 8, (s.core c).inflight = []) → s.hedge.transfers = [] →
    After (.idleEntry at_) s ((s.reach at_).setFld .pwrStatusState 0 1)) ∧
  (∀ s at_, s.mayDeepen 1 = true → s.pwrState ≤ 1 → s.obj .dozeTimerMs 0 ≠ 0 → s.noWork = true →
    After (.dozeEntry at_) s (((s.reach at_).setPwr { s.pwr with dozeAt := (s.reach at_).time }).beginEntry 2)) ∧
  (∀ s at_, s.mayDeepen 2 = true → s.pwrState = 2 → s.obj .restTimerS 0 ≠ 0 → s.noWork = true → s.keepsUp = false →
    s.pwr.wakes = [] → s.updHolds = false → After (.restEntry at_) s (s.reach at_).enterRest) ∧
  (∀ s refused at_, s.mayDeepen 3 = true → s.pwrState = 3 → s.obj .listenTimerS 0 ≠ 0 → s.nfault = false → s.fld .secStatusLevel 0 = 0 →
    s.pwr.wakes = [] → s.updHolds = false → After (.listenEntry refused at_) s ((s.reach at_).enterListen refused)) ∧
  (∀ s bad at_, s.entering = true → (s.pwr.target = 3 → s.frameOpen = false) →
    After (.stateEntryComplete bad at_) s
      (let t := s.pwr.target
       let u := if t = 3 then (s.reach at_).dropGranary bad else s.reach at_
       let u := u.setFlds 0 [(.pwrStatusEntering, 0), (.pwrStatusState, t)]
       let u := (u.setPwr { u.pwr with queue := [], started := [] }).leaveDomains t
       (if t = 4 ∧ u.flag .clkStatusHeld 0 = false then u.setFlds 0 [(.pwrStatusRegLp, 1), (.pwrStatusRegOk, 0), (.rvStatusReady, 0)] else u).replayWake)) ∧
  (∀ s at_, s.resuming = true → s.resumed = true → After (.resumeComplete at_) s (s.reach at_).resumeDone.serveWaiting) ∧
  (∀ s at_, s.pwr.alarmSet = true → s.obj .wakeAlarm 0 ≠ 0 → s.obj .wakeAlarm 0 ≤ (s.reach at_).time →
    After (.wakeAlarm at_) s (((s.reach at_).setPwr { s.pwr with alarmSet := false }).wake 8 (s.obj .wakeAlarm 0) 0)) ∧
  (∀ s at_ d r,
    let u := s.reach at_
    s.pwr.queue = d :: r → s.flag .pwrStatusRegOk 0 = true → weightOf d * 10000 ≤ u.bucket →
    (s.pwr.lastStart = 0 ∨ s.pwr.lastStart - 1 + 2000 ≤ u.time) →
    After (.domainStart at_) s
      (u.setPwr
        { s.pwr with
          queue := r
          started := s.pwr.started ++ [d]
          level := u.bucket - weightOf d * 10000
          levelAt := u.time
          lastStart := u.time + 1 })) ∧
  (∀ s domain at_, s.pwr.started.contains domain = true →
    After (.domainPowerGood domain at_) s
      (let u := ((s.reach at_).setPwr
        { s.pwr with started := s.pwr.started.filter (fun d => decide (d ≠ domain)) }).setPower domain true
       let u := if 39 ≤ domain ∧ domain ≤ 46 then u.loadBin (domain - 39)
         else if domain = 14 ∨ domain = 15 then u.portTrain (domain - 14) else if domain = 2 then u.applyNet else u
       u.pwrSync.decideNext.settle)) ∧
  (∀ s domain at_,
    let since := SMap.get s.pwr.leaving domain 0
    since ≠ 0 → since - 1 + 1000000 ≤ (s.reach at_).time → s.resuming = false → s.wanted s.pwrState domain = false →
    After (.domainSwitchOff domain at_) s ((s.reach at_).powerOff domain)) ∧
  (∀ s at_, s.pwr.regTry = true → s.boot.stage ≠ .powering →
    After (.regOk at_) s
      (((s.reach at_).setPwr
        { s.pwr with
          regTry := false
          level := s.obj .inrushBudget 0 * 10000
          levelAt := (s.reach at_).time }).setFlds 0 [(.pwrStatusRegOk, 1), (.pwrStatusRegLp, 0)]).pwrSync) ∧
  (∀ s at_, s.pwr.regTry = true →
    After (.regOkTimeout at_) s
      ((((s.reach at_).setPwr { s.pwr with regTry := false }).setFlds 0 [(.pwrStatusRegLp, 1), (.pwrStatusRegfail, 1)]).bumpObj
        .regFails 0 1)) ∧
  (∀ s at_, s.resuming = true → s.pwr.wakes ≠ [] → After (.regRetry at_) s (s.reach at_).regFull) ∧
  (∀ s at_,
    After (.brownOut at_) s
      (let u := (s.reach at_).watchReset
       let u := (u.setPwr { u.pwr with wakes := [] }).setFlds 0 [(.pwrWakePendPend, 0), (.pwrStatusBrownout, 1), (.pwrStatusRegOk, 0)]
       let u := (u.bumpObj .brownouts 0 1).bumpObj .logSuppressed 0 s.log.buf.length
       ({ u with
          bin := { u.bin with copyValid := false, rmapCopy := [] }
          mc := { u.mc with kept := false }
          log := { u.log with buf := [] } } : State).regFull.wake 9 (s.reach at_).time 0))

/-- The commands of the clocks complete with their own effect (R424, R426 to R428, R430 to R432, R454): a switch to a locked PLL is queued, and
the lowest core's switch ends on its source; a PLL of a powered domain locks; a failed source holds the device, and its return in time is a warm
reset; enables that clear no needed block are taken; heat gates the core clocks, and at 115 °C drops the rails. -/
def Obligations.ClockCommandsComplete : Prop :=
  (∀ s core src,
    let u := s.setFlds 0 [(.clkTcselCore, core), (.clkTcselSrc, src)]
    core < 8 → src < 2 → u.locked src = true → (∀ x ∈ s.clk.switches, x.1 ≠ core) →
    After (.clkTcselSwitch core src true) s ((u.askSwitches [core] src).setFld .clkTcselResult 0 0)) ∧
  (∀ s c src, s.flag .clkStatusHeld 0 = false → s.nextSwitch = some (c, src) →
    After .tclkSwitchComplete s
      (let l := s.clk.switches.erase (c, src)
       (((s.setClk { s.clk with switches := l }).setFlds 0
        [(.clkTcselSel, setBits (s.fld .clkTcselSel 0) c c src), (.clkTcselBusy, b2n (!l.isEmpty)), (.clkTcselResult, 0)]).bumpObj
          .tclkSwitches 0 1).stepOn)) ∧
  (∀ s pll, (pllDomains pll).any s.powerGood = true → pll < 11 → bit s.clk.failing (5 + pll) = false →
    After (.pllLock pll) s ((s.setLock pll true).takeSpread pll).stepOn) ∧
  (∀ s source at_, source < 3 → s.boot.stage ≠ .off → s.flag .clkStatusHeld 0 = false → s.pwrState ≠ 4 →
    After (.clockSourceFailure source at_) s
      (let u := s.reach at_
       let u := (u.setClk
        { s.clk with
          failing := setBits s.clk.failing source source 1
          heldAt := u.time
          gaveUp := s.obj .clkReturnMs 0 == 0 }).setFlds 0
        [(.clkFailSrc, setBits (s.fld .clkFailSrc 0) source source 1), (.clkStatusFail, 1), (.clkStatusHeld, 1)]
       ((((u.setFld .clkStatusReeveLosc 0 (if bit u.clk.failing 3 && u.locked 9 then 0 else 1)).bumpObj .clkFails 0 1)).forceOutputs).logIt
        .clock 0xFF 12 source 0 0)) ∧
  (∀ s sources at_,
    let left := (List.range 16).foldl (fun m i => if bit sources i then setBits m i i 0 else m) s.clk.failing
    s.flag .clkStatusHeld 0 = true → left = 0 → s.clk.gaveUp = false → s.flag .rvStatusReady 0 = true →
    (s.reach at_).time ≤ s.clk.heldAt + s.obj .clkReturnMs 0 * 1000000 →
    After (.clockSourceReturn sources at_) s
      (((s.reach at_).setClk { s.clk with failing := 0, gaveUp := false }).setFld .clkStatusFail 0 0 |>.warmReset 4)) ∧
  (∀ s at_, s.flag .clkStatusHeld 0 = true → s.clk.failing ≠ 0 → s.clk.heldAt + s.obj .clkReturnMs 0 * 1000000 ≤ (s.reach at_).time →
    After (.clkReturnTimeout at_) s ((s.reach at_).setClk { s.clk with gaveUp := true })) ∧
  (∀ s value, (∀ b < 15, bit (s.fld .clkEnEn 0) b = true → bit value b = false → ∀ d, enableDomain b = some d → s.needOf d = false) →
    After (.clkEnWrite value true) s (s.setFld .clkEnEn 0 value).pwrSync) ∧
  (∀ s highest at_, 420 ≤ highest →
    After (.hardwareThrottle highest at_) s ((s.reach at_).setClk { s.clk with throttled := true, coolSince := 0 })) ∧
  (∀ s reading since at_, 460 ≤ reading → since + 10000 ≤ (s.reach at_).time → s.boot.stage ≠ .off →
    After (.thermalTrip reading since at_) s
      (let u := (List.range 49).foldl (fun (s' : State) i => s'.powerOff (49 - i)) (s.reach at_).forceOutputs
       let u : State := { u with rota := State.reset.rota, hearth := State.reset.hearth }
       let u := (u.setPwr { u.pwr with queue := [], started := [], regTry := false }).setFld .rvStatusReady 0 0
       u.setBoot { u.boot with stage := .tripped, tripLog := true, hostRun := false }))

/-- The commands of reset and start-up complete with their own effect (R292, R325, R332, R334 to R336, R407, R416, R435 to R442): nPOR, its
release, the recovery decision, the warm causes and their release, a partition's reset, the end of zeroing, an overload, the loss of the supply,
the root, Boot ROM, the Watch's image and the host's firmware each take start-up to its next stage. -/
def Obligations.ResetCommandsComplete : Prop :=
  (∀ s at_, After (.nporLow at_) s (((s.reach at_).setHold 0 true).powerOn 1)) ∧
  (∀ s m id buttons at_, s.boot.stage = .held → s.boot.holds = 1 → buttons % 4 ≠ 3 →
    After (.nporRelease m id buttons at_) s
      (let u := ((s.reach at_).setFlds 0 [(.rstStatusMasterSel, b2n m), (.rstStatusCascadeId, id), (.doorStatusBtn, buttons)])
       let u := (u.setObj .master 0 (b2n m)).setObj .cascadeId 0 (id % 8)
       let u := (u.setDoor { u.door with longDone := buttons % 16 }).setHold 0 false
       (u.setBoot { u.boot with startAt := u.time, stage := .held }).startPower)) ∧
  (∀ s at_, s.boot.stage = .buttons → s.fld .doorStatusBtn 0 % 4 = 3 → s.boot.startAt + 8000000000 ≤ (s.reach at_).time →
    After (.recoveryDecision at_) s
      (((s.reach at_).setBoot { s.boot with recovery := true }).setFld .rstStatusRecovery 0 1).buttonsUp) ∧
  (∀ s at_, After (.nrstLow at_) s (((s.reach at_).setHold 1 true).warmReset 3)) ∧
  (∀ s at_, After (.extestSelect at_) s (((s.reach at_).setHold 2 true).warmReset 7)) ∧
  (∀ s at_, After (.nrstRelease at_) s ((s.reach at_).releaseHold 1)) ∧
  (∀ s at_, After (.extestDeselect at_) s ((s.reach at_).releaseHold 2)) ∧
  (∀ s at_, After (.rstCtrlWarm true at_) s ((s.reach at_).warmReset 6)) ∧
  (∀ s part, part < 8 → s.partActive part = true →
    After (.rstCtrlPartition part true) s (s.beginReset part (s.partGoal part)).settle.pwrSync) ∧
  (∀ s bad at_, s.boot.stage = .warm →
    After (.warmResetZeroingComplete bad at_) s
      (let u := (s.reach at_).zeroModel.dropGranary bad
       ({ u with mc := { u.mc with kept := u.mc.kept || u.flag .mcStatusReady 0 } } : State).restart)) ∧
  (∀ s at_, s.boot.stage ≠ .off → s.flag .pwrStatusRegOk 0 = true → s.boot.holds = 0 →
    After (.watchRegulatorOverload at_) s
      (let u := (s.reach at_).powerOn 2
       (u.setBoot { u.boot with startAt := u.time }).startPower)) ∧
  (∀ s at_, After (.vddAonInRemoved at_) s
    (let u := (s.reach at_).powerOn 1
     u.setBoot { u.boot with stage := .off, holds := setBits u.boot.holds 0 0 1, tripLog := false })) ∧
  (∀ s at_, s.boot.stage = .powering → s.powerGood 47 = true → s.flag .secStatusRootOk 0 = false →
    After (.deviceRootFormed true at_) s ((((s.reach at_).setFld .secStatusRootOk 0 1).setObj .rootOk 1 1).setStage .rom)) ∧
  (∀ s slot version seq rejected auth reeveMeas confMeas peers at_, s.boot.stage = .rom → s.boot.recovery = false → slot < 2 → s.boot.tripLog = false →
    After (.bootRomVerifyComplete slot version seq rejected auth reeveMeas confMeas peers at_) s
      (let u := (s.reach at_).setSec
        { s.sec with
          auth := auth
          peers := peers
          meas := SMap.put (SMap.put s.sec.meas 0 reeveMeas []) 4 confMeas []
          versions := SMap.put s.sec.versions 0 version 0 }
       let u := ((u.setObj .configSeq 6 seq).buildCopy rejected).setObj .slotActive 1 slot
       let u := rejected.foldl (fun (v : State) i => v.logIt .record 0x16 4 i 0 0) u
       let u := u.setFlds 0 [(.rvStatusReady, 1), (.rstStatusRecovery, b2n (u.flag .rstStatusRecovery 0))]
       let u := u.loadSaved.applyNet.reeveWrites
       ((u.setPwr { u.pwr with allNeeds := false }).setStage .reeve).pwrSync.sourcesBack)) ∧
  (∀ s modelId watchMeas modelMeas v w at_, s.flag .rvStatusReady 0 = true →
    After (.watchImageVerified true modelId watchMeas modelMeas v w at_) s
      (let u := (s.reach at_).setSec
        { s.sec with
          meas := SMap.put (SMap.put s.sec.meas 1 watchMeas []) 2 modelMeas []
          versions := SMap.put (SMap.put s.sec.versions 1 v 0) 2 w 0 }
       let u := (u.setObjVal .wakeModelId 0 (.bytes modelId)).watchReset
       let m := u.listenOrder.find? u.micPresent
       (u.setWatch { u.watch with mic := m, count := 0 }).setFld .watchStatusWakeOff 0 (b2n m.isNone))) ∧
  (∀ s slot version wmap regions measurement at_, s.boot.stage = .reeve → s.flag .mcStatusReady 0 = true → (s.ring 0).isOpen = true →
    slot < 2 →
    After (.hostFirmwareVerified slot version wmap regions measurement at_) s
      (let u := (s.reach at_).setFlds 0 [(.urStatusReady, 1), (.mcCtrlMaplock, 1), (.secWmapOs, wmap), (.secWmapAud, bits wmap 16 16),
         (.secWmapWatch, bits wmap 17 17)]
       let u := (regions.foldl (fun (s' : State) l => s'.bootRegion l) u).setStage .run
       let u := u.setSec
        { u.sec with
          meas := SMap.put u.sec.meas 3 measurement []
          versions := SMap.put u.sec.versions 3 version 0 }
       let u := (u.setBoot { u.boot with hostRun := true }).setObj .slotActive 4 slot
       ((u.setFld .rtStatusReady 0 1).setObj .startTime 0 (u.time - u.boot.startAt)).lateEvents))

/-- A register access and the clearing of a log register complete with their own effect (R8, R9, R110, R461): a write that the world of every
field of the word allows, to a block whose clock runs, changes each field of the word by its access code, and what follows a register follows; a
read that it allows answers the word; a word of the window's data area takes its bytes, or answers them; an access to a reserved address is
answered with an error and logged; a log register that is cleared reads as zero. -/
def Obligations.RegisterCommandsComplete : Prop :=
  (∀ s addr value secure x,
    let fs := Fld.all.filter (fun f => f.inWord x.reg x.word)
    let t := fs.foldl (fun (t : State) f => t.writeFld f x.inst x.word value) s
    s.addrReserved addr = false → addr % 4 = 0 → windowAt addr = none → regAt addr = some x →
    (∀ f ∈ fs, worldAllows (s.fldWorld f x.inst value) true secure = true) → (∀ b, x.reg.block x.inst = some b → s.clocked b = true) →
    t.cfgRefused x = false → ¬ (x.reg = .lgCmd ∧ bit value 31 = true ∧ 4 ≤ bits value 19 16) →
    After (.registerWrite addr value secure false) s (s.afterWrite t x)) ∧
  (∀ s addr value secure x, s.addrReserved addr = false → addr % 4 = 0 → windowAt addr = none → regAt addr = some x →
    s.refusedFld x (s.wordNow x) false secure = none → (∀ b, x.reg.block x.inst = some b → s.clocked b = true) →
    After (.registerWrite addr value secure true) s (s.send ⟨.bus, 1, [addr], natLe 4 (s.wordNow x)⟩)) ∧
  (∀ s addr value secure ch i, addr % 4 = 0 → windowAt addr = some (ch, i) → (8 ≤ ch → secure = true) →
    (s.flag .chCmdBusy ch = false → After (.registerWrite addr value secure false) s
      (s.setCrier { s.crier with window := SMap.putRun s.crier.window (chKey ch i) (natLe 4 value) 0 })) ∧
    After (.registerWrite addr value secure true) s (s.send ⟨.bus, 1, [addr], SMap.getRun s.crier.window (chKey ch i) 4 0⟩)) ∧
  (∀ s addr value secure read, s.addrReserved addr = true →
    After (.registerWrite addr value secure read) s (s.reservedAccess addr)) ∧
  (∀ s which inst, which < 6 →
    After (.logRegisterClear which inst true) s ((logRegFlds which).foldl (fun (s' : State) f => s'.setFld f inst 0) s))

/-- The placement of R86: a grain is placed by the function of the rule, a bijection from the 98,304 grains onto 48 banks of 2,048 rows; any 48
consecutive grains that start on a multiple of 16 lie in 48 different banks; the three values of t give three bank groups to one row and one b16;
and the 16 grains 256 k lie in 16 different banks, row 16 k, fold k and b16 k. -/
def Obligations.GrainPlacementIsBijective : Prop :=
  (∀ g < binGrains,
    let t := g >>> 15
    let row := (g >>> 4) &&& 0x7FF
    let fold := ((row &&& 0xF) ^^^ ((row >>> 4) &&& 0xF)) ^^^ (row >>> 8)
    let b16 := (g &&& 0xF) ^^^ fold
    let bg := (2 * t + row) % 3
    placeGrain g = (16 * bg + b16, row) ∧ bg = (g >>> 4) % 3 ∧ t < 3) ∧
  (∀ g < binGrains, (placeGrain g).1 < 48 ∧ (placeGrain g).2 < 2048) ∧
  (∀ g < binGrains, ∀ h < binGrains, placeGrain g = placeGrain h → g = h) ∧
  (∀ bank < 48, ∀ row < 2048, ∃ g < binGrains, placeGrain g = (bank, row)) ∧
  (∀ a, 16 * a + 48 ≤ binGrains → ∀ i < 48, ∀ j < 48, (placeGrain (16 * a + i)).1 = (placeGrain (16 * a + j)).1 → i = j) ∧
  (∀ g < 32768, ∀ i < 3, ∀ j < 3, (placeGrain (i * 32768 + g)).1 / 16 = (placeGrain (j * 32768 + g)).1 / 16 → i = j) ∧
  (∀ k < 16, (placeGrain (256 * k)).2 = 16 * k ∧ (placeGrain (256 * k)).1 % 16 = k) ∧
  (∀ k < 16, ∀ l < 16, (placeGrain (256 * k)).1 = (placeGrain (256 * l)).1 → k = l)

/-- The slot map (R88): a write by the secure world whose map reserves more than 12 slots, or names a port above 0x9, changes nothing but
SLOT_REFUSED, which counts it; no write leaves a map that breaks these rules where the map before kept them; and a map that is taken is
in force from the next tick on, the map before until then. -/
def Obligations.SlotMapKeepsFourSlotsFree : Prop :=
  (∀ (s : State) bin word value,
    let old := s.slotMap bin
    let m : SlotMap := if word = 0 then { old with en := value % 65536 } else if word = 1 then { old with map0 := value % 2 ^ 32 }
      else { old with map1 := value % 2 ^ 32 }
    m.ok = false → After (.slotMapWrite bin word value true) s (s.bumpFld .binErrcntCount (bin * 5 + 4) 1)) ∧
  (∀ (s : State) bin word value secure (t : State), bin < 8 → (s.slotMap bin).ok = true → s.fld .binSlotenEn bin < 2 ^ 16 →
    (∀ k < 2, s.fld .binSlotmapSlot (bin * 2 + k) < 2 ^ 32) → exec (.slotMapWrite bin word value secure) s = .next t →
    (t.slotMap bin).ok = true ∧ SMap.get t.bin.slotNow bin (t.slotMap bin) = SMap.get s.bin.slotNow bin (s.slotMap bin) ∧
    SMap.get t.tick.bin.slotNow bin (t.slotMap bin) = t.slotMap bin)

/-- A write that a Bin takes is read back: after it, a read of the run gives the bytes written, a grain that the run covers whole has lost its poison
and its seal matches, and the access is answered. -/
def Obligations.BinWriteReadsBack : Prop :=
  ∀ s bin port init secure off data tally, s.calm = true →
    BinServes s (unitReq init secure) true bin ((grainsOfRun off data.length).map (·.1)) →
    (∀ g ∈ (grainsOfRun off data.length).map (·.1), GrainGood s bin g) →
    ∃ t, exec (.binPortAccess bin port init secure true off data.length data tally []) s = .next t ∧
      t.binRead bin off data.length = data ∧ (∀ g, (g, true) ∈ grainsOfRun off data.length → GrainGood t bin g) ∧
      t.sent = s.sent ++ [⟨.bus, 1, [init], []⟩]

/-- Frame of a port access, whatever comes of it, where no command waits at a core: every byte of every Bin outside the bytes written reads as before, and
every byte of every Bin after a read; no hearth, no page and no unit outside the Bins changes. -/
def Obligations.BinAccessFrame : Prop :=
  ∀ (s : State) bin port init secure write off len data tally obs (t : State), s.calm = true → bin < 8 → (∀ k ∈ tally, k < 1024) →
    exec (.binPortAccess bin port init secure write off len data tally obs) s = .next t →
    (∀ a, ¬ (write = true ∧ binAddr bin off ≤ a ∧ a < binAddr bin off + data.length) → SMap.get t.bin.mem a 0 = SMap.get s.bin.mem a 0) ∧
    t = { s with bin := t.bin, regs := t.regs, objs := t.objs, log := t.log, sec := t.sec, sent := t.sent } ∧
    t.sec = { s.sec with lastRefusal := t.sec.lastRefusal } ∧ (∀ f, ∀ i < 65536, f.desc.reg ≠ .binErrcnt → f.desc.reg ≠ .binErrlog →
      f.desc.reg ≠ .binTally → f.desc.reg ≠ .brErrlog → t.fld f i = s.fld f i)

/-- An access that the boundary regions refuse (R98, R324) reads nothing and writes nothing: the Bins keep every byte, seal and poison bit, the initiator is
answered with a bus error, and BIN_ERRCNT3 and BR_FAULTS count it. -/
def Obligations.RefusedBinAccessChangesNoBin : Prop :=
  ∀ s bin port init secure write off data obs g,
    let gs := (grainsOfRun off data.length).map (·.1)
    bin < 8 → s.binReady bin = true → (∀ x ∈ gs, x < binGrains) → g ∈ gs → s.allowed (unitReq init secure) write (bin + 1) g = false →
    ∃ t, exec (.binPortAccess bin port init secure write off data.length data none obs) s = .next t ∧ t.bin = s.bin ∧
      t.sent = s.sent ++ [⟨.bus, 0, [init], []⟩] ∧ t.obj .brFaults 3 = (s.obj .brFaults 3 + 1) % 2 ^ 64 ∧
      t.fld .binErrcntCount (bin * 5 + 3) = (s.fld .binErrcntCount (bin * 5 + 3) + 1) % 2 ^ 64

/-- Poison (R92, R93): a read that touches a poisoned grain is answered with a bus error, whichever part of the grain it reads, and the grain stays poisoned;
so does a write of part of it; a write that covers the grain, which needs no check of it, clears the poison. -/
def Obligations.PoisonedGrainFailsUntilWholeWrite : Prop :=
  (∀ s bin port init secure off len obs g, bin < 8 → BinServes s (unitReq init secure) false bin ((grainsOfRun off len).map (·.1)) →
    g ∈ (grainsOfRun off len).map (·.1) → s.poisoned bin g = true →
    ∃ t, exec (.binPortAccess bin port init secure false off len [] none obs) s = .next t ∧ t.poisoned bin g = true ∧
      t.sent = s.sent ++ [⟨.bus, 0, [init], []⟩] ∧ t.bin.mem = s.bin.mem) ∧
  (∀ s bin port init secure off data obs g, bin < 8 → BinServes s (unitReq init secure) true bin ((grainsOfRun off data.length).map (·.1)) →
    (g, false) ∈ grainsOfRun off data.length → s.poisoned bin g = true →
    ∃ t, exec (.binPortAccess bin port init secure true off data.length data none obs) s = .next t ∧ t.poisoned bin g = true ∧
      t.sent = s.sent ++ [⟨.bus, 0, [init], []⟩] ∧ t.bin.mem = s.bin.mem) ∧
  (∀ s bin port init secure data obs g, s.calm = true → data.length = 256 → BinServes s (unitReq init secure) true bin [g] →
    ∃ t, exec (.binPortAccess bin port init secure true (g * 256) 256 data none obs) s = .next t ∧ GrainGood t bin g ∧
      t.binRead bin (g * 256) 256 = data)

/-- Tallies (R101): a tally saturates at 2^32 - 1 as it is raised, a raise changes no other tally, a write sets it to the value written, and the secure
world alone writes tallies 512 to 1,023: another write leaves every tally as it was and returns a bus error. -/
def Obligations.TalliesCountAndSaturate : Prop :=
  (∀ (s : State) bin tally n, (s.raiseTally bin tally n).tally bin tally = min (s.tally bin tally + n) (2 ^ 32 - 1)) ∧
  (∀ (s : State) bin tally n b k, b * 1024 + k ≠ bin * 1024 + tally → (s.raiseTally bin tally n).tally b k = s.tally b k) ∧
  (∀ s bin tally value secure, s.calm = true → tally < 1024 → (tallySecure tally = true → secure = true) →
    ∃ t, exec (.tallyWrite bin tally value secure) s = .next t ∧ t.tally bin tally = value % 2 ^ 32 ∧
      ∀ b k, b * 1024 + k ≠ bin * 1024 + tally → t.tally b k = s.tally b k) ∧
  (∀ s bin tally value, 512 ≤ tally → tally < 1024 →
    ∃ t, exec (.tallyWrite bin tally value false) s = .next t ∧ (∀ b k, t.tally b k = s.tally b k) ∧
      t.sent = s.sent ++ [⟨.bus, 0, [Fld.binTallyCount.ctorIdx, bin * 1024 + tally], []⟩])

/-- The checks on a gate arrival, in their order (R100): a gate that is not OPEN, a sender that is not in SRCMASK, an offset that is not below LEN, another
tally, and a world refusal each write nothing, count nothing, increment REJECT and answer their code; a seal that does not match leaves the grain written,
poisoned and not counted; an arrival that passes every check is written and counted once, and its poison is cleared. -/
def Obligations.GateArrivalChecksInOrder : Prop :=
  ∀ (s : State) bin gate off tally sender data w,
    let i := bin * 64 + gate
    let g := s.fld .binGateBase i + off
    let r := s.gateArrival bin gate off tally sender data w
    let rejected (u : State) := u.bumpFld .binGateReject i 1
    let passes := s.fld .binGateState i = 1 ∧ bit (s.fld .binGateSrcmask i) sender = true ∧ off < s.fld .binGateLen i ∧
      tally = s.fld .binGateTally i
    bin < 8 → gate < 64 → tally < 1024 → data.length = 256 →
    (s.fld .binGateState i ≠ 1 → r = (1, rejected s)) ∧
    (s.fld .binGateState i = 1 → bit (s.fld .binGateSrcmask i) sender = false → r = (2, rejected s)) ∧
    (s.fld .binGateState i = 1 → bit (s.fld .binGateSrcmask i) sender = true → s.fld .binGateLen i ≤ off → r = (3, rejected s)) ∧
    (s.fld .binGateState i = 1 → bit (s.fld .binGateSrcmask i) sender = true → off < s.fld .binGateLen i → tally ≠ s.fld .binGateTally i →
      r = (4, rejected s)) ∧
    (passes → s.binReady bin = true → g < binGrains → s.allowed (unitReq 0x13 (gateSecure gate)) true (bin + 1) g = false →
      r.1 = 7 ∧ r.2.bin = s.bin ∧ (∀ b < 8, ∀ k < 1024, r.2.tally b k = s.tally b k) ∧ r.2.fld .binGateReject i = (s.fld .binGateReject i + 1) % 2 ^ 32 ∧
      r.2.fld .binErrcntCount (bin * 5 + 3) = (s.fld .binErrcntCount (bin * 5 + 3) + 1) % 2 ^ 64 ∧
      r.2.obj .brFaults 3 = (s.obj .brFaults 3 + 1) % 2 ^ 64) ∧
    (passes → BinServes s (unitReq 0x13 (gateSecure gate)) true bin [g] → crc32c data ≠ w →
      r.1 = 5 ∧ r.2.poisoned bin g = true ∧ r.2.binRead bin (g * 256) 256 = data ∧ (∀ b < 8, ∀ k < 1024, r.2.tally b k = s.tally b k) ∧
      r.2.fld .binGateReject i = (s.fld .binGateReject i + 1) % 2 ^ 32) ∧
    (passes → BinServes s (unitReq 0x13 (gateSecure gate)) true bin [g] → crc32c data = w →
      r.1 = 0 ∧ GrainGood r.2 bin g ∧ r.2.binRead bin (g * 256) 256 = data ∧ r.2.tally bin tally = min (s.tally bin tally + 1) (2 ^ 32 - 1) ∧
      r.2.fld .binGateReject i = s.fld .binGateReject i)

/-- The boundary regions decide an access (R321, R322): a unit that lies in no enabled region is secure; a non-secure access outside MODEL regions succeeds
only inside an enabled region of its space that is not secure; a MODEL region is read only by a tensor core of the secure world and written only by
the security engine or by a secure core's DMA out of another MODEL region; and what a DMA reads from a MODEL region goes nowhere else. -/
def Obligations.RegionsDecideAccess : Prop :=
  (∀ (s : State) space unit, (∀ e ∈ s.sec.regions, ¬ (e.2.en = true ∧ e.2.space = space ∧ e.2.base ≤ unit ∧ unit ≤ e.2.limit)) →
    s.unitSecure space unit = true ∧ s.unitModel space unit = false) ∧
  (∀ (s : State) q write space unit, q.secure = false → s.unitModel space unit = false → s.allowed q write space unit = true →
    ∃ e ∈ s.sec.regions, e.2.en = true ∧ e.2.space = space ∧ e.2.base ≤ unit ∧ unit ≤ e.2.limit ∧ e.2.secure = false) ∧
  (∀ (s : State) q write space unit, s.unitModel space unit = true → s.allowed q write space unit = true →
    (q.init = 0x16 ∧ write = true) ∨ (0x04 ≤ q.init ∧ q.init ≤ 0x0B ∧ q.secure = true ∧ (write = true → q.fromModel = true))) ∧
  (∀ (s : State) q space unit, q.fromModel = true → s.allowed q true space unit = true → s.unitModel space unit = true)

/-- A refused access (R324): BR_FAULTS counts it, BR_ERRLOG keeps the first while its VALID is 1, and memory, the regions and every other register are
unchanged. -/
def Obligations.RefusedAccessIsCounted : Prop :=
  ∀ (s : State) q write space unit,
    let t := s.refuseAccess q write space unit
    t.obj .brFaults 3 = (s.obj .brFaults 3 + 1) % 2 ^ 64 ∧
    t = { s with regs := t.regs, objs := t.objs, log := t.log, sec := { s.sec with lastRefusal := t.sec.lastRefusal } } ∧
    (∀ f, ∀ i < 65536, f.desc.reg ≠ .brErrlog → t.fld f i = s.fld f i) ∧
    (s.flag .brErrlogValid 0 = true → t.regs = s.regs)

/-- A write of the non-secure world to a register that only the secure world may write leaves every register, memory and unit as it was; it returns a bus
error and is logged (R8).  For the commands named in the list. -/
def Obligations.NonSecureWritesAreRefused : Prop :=
  (∀ (s : State) f i, s.worldError f i =
    { s with
      sent := s.sent ++ [⟨.bus, 0, [f.ctorIdx, i], []⟩]
      objs := (s.worldError f i).objs
      log := (s.worldError f i).log }) ∧
  ∀ (s : State) a b c (m : Bool), ∀ x ∈ [
      (Instr.binInit a false, Fld.binCtrlInit, a), (.slotMapWrite a b c false, .binSlotenEn, a), (.binRepair a b c false, .binRepairGo, a),
      (.hearthCfgWrite a b false, .hearthCfgSplit, a), (.tcCtrlHalt a m false, .tcCtrlHalt, a), (.urPin a b c false, .urPinGo, 0),
      (.urUnpin a b c false, .urPinGo, 0), (.urQuotaWrite a b false, .urQuotaWays, a), (.urPstateWrite a m m false, .urPstateDataSheaf, 0),
      (.mcRegionWrite a b c false, .mcRegionEn, a), (.svLeaseWrite a m false, .svLeaseEn, 0), (.partApply false, .rtCtrlApply, 0),
      (.safeFaultClear a false, .safeFaultSuspect, 0), (.safeInjectCompare a false, .safeInjectGo, 0),
      (.safeInjectWatchdog a false, .safeInjectGo, 0), (.boundaryRegionWrite a b false, .brEn, a), (.secWmapWrite a false, .secWmapOs, 0),
      (.secUnwrap a b false, .secUnwrapGo, 0), (.secMeasWrite a b false, .secMeasWord, a), (.clkTcselSwitch a b false, .clkTcselGo, 0),
      (.clkEnWrite a false, .clkEnEn, 0), (.rstCtrlPartition a false, .rstCtrlPgo, 0)],
    After x.1 s (s.worldError x.2.1 x.2.2)

/-- SEC_WMAP (R320): a write by the secure world changes the bit of each unit that is disabled, EN = 0 of its stream or of AUD_STREAM for both audio
bits, and of no other; a bit that it would change for a unit that is enabled is counted in BR_FAULTS, and a write while every unit is disabled is
not. -/
def Obligations.SecWmapFollowsOnlyDisabledUnits : Prop :=
  ∀ (s : State) value, ∃ t, exec (.secWmapWrite value true) s = .next t ∧
    (∀ n < 16, bit (t.fld .secWmapOs 0) n = if s.flag .osEn n then bit (s.fld .secWmapOs 0) n else bit value n) ∧
    bit (t.fld .secWmapAud 0) 0 = (if s.flag .audStreamEn 0 then bit (s.fld .secWmapAud 0) 0 else bit value 16) ∧
    bit (t.fld .secWmapWatch 0) 0 = (if s.flag .audStreamEn 0 then bit (s.fld .secWmapWatch 0) 0 else bit value 17) ∧
    ((∃ n < 16, s.flag .osEn n = true ∧ bit (s.fld .secWmapOs 0) n ≠ bit value n) →
      t.obj .brFaults 3 = (s.obj .brFaults 3 + 1) % 2 ^ 64) ∧
    (s.flag .audStreamEn 0 = true → (bit (s.fld .secWmapAud 0) 0 ≠ bit value 16 ∨ bit (s.fld .secWmapWatch 0) 0 ≠ bit value 17) →
      t.obj .brFaults 3 = (s.obj .brFaults 3 + 1) % 2 ^ 64) ∧
    ((∀ n < 16, s.flag .osEn n = false) → s.flag .audStreamEn 0 = false → s.fld .secWmapOs 0 < 2 ^ 16 →
      t.obj .brFaults 3 = s.obj .brFaults 3)

/-- Every key slot is zeroed at power-on reset, at a warm reset, at entry to LISTEN and at debug unlock (R328). -/
def Obligations.KeySlotsAreZeroed : Prop :=
  (∀ (s : State) at_, ∃ t, exec (.nporLow at_) s = .next t ∧ ∀ n, t.keySlot n = KeySlot.empty) ∧
  (∀ (s : State) at_, s.boot.stage = .run → ∃ t, exec (.nrstLow at_) s = .next t ∧ ∀ n, t.keySlot n = KeySlot.empty) ∧
  (∀ (s : State) at_, s.boot.stage = .run → ∃ t, exec (.rstCtrlWarm true at_) s = .next t ∧ ∀ n, t.keySlot n = KeySlot.empty) ∧
  (∀ (s : State) refused at_, s.mayDeepen 3 = true → s.pwrState = 3 → s.obj .listenTimerS 0 ≠ 0 → s.nfault = false →
    s.fld .secStatusLevel 0 = 0 → s.pwr.wakes = [] → s.updHolds = false →
    ∃ t, exec (.listenEntry refused at_) s = .next t ∧ ∀ n, t.keySlot n = KeySlot.empty) ∧
  (∀ (s : State) level, s.sec.unlocking = some level → s.sec.unwrap = none →
    ∃ t, exec .debugUnlock s = .next t ∧ (∀ n, t.keySlot n = KeySlot.empty) ∧ t.flag .secStatusDebugged 0 = true)

/-- The check of R300: the nine ASCII bytes "123456789" have the CRC-32C 0xE306_9283, no bytes have 0, and byte
strings that differ in their last byte alone have different seals. -/
def Obligations.SealIsCrc32c : Prop :=
  crc32c [0x31, 0x32, 0x33, 0x34, 0x35, 0x36, 0x37, 0x38, 0x39] = 0xE3069283#32 ∧ crc32c [] = 0#32 ∧
  ∀ bs a b, a ≠ b → crc32c (bs ++ [a]) ≠ crc32c (bs ++ [b])

/-- A floating-point code that stands for no NaN reads back as itself (R49 to R52): narrowing the value of a code to its own format gives the code, and
saturates nothing, in E4M3, E5M2, BF16, FP16 and FP32. -/
def Obligations.NarrowingReadsBack : Prop :=
  ∀ f ∈ [fmtE4M3, fmtE5M2, fmtBF16, fmtFP16, fmtFP32], ∀ w < 2 ^ (1 + f.ebits + f.mbits), f.decode w ≠ .nan →
    f.narrow (f.decode w) = (w, false)

/-- The generation of a lease (R72): the next value of its counter, from 1 to 4,095 and round again, that is not 0 and that no live lease on the set
holds; and every hearth of the set takes that value. -/
def Obligations.LeaseGenerationIsNextFree : Prop :=
  (∀ used g, used.length < 4095 → ∃ i < 4095, nextGen used g = (g + i) % 4095 + 1 ∧ nextGen used g ∉ used ∧
    ∀ j < i, (g + j) % 4095 + 1 ∈ used) ∧
  (∀ (s : State) cells core hearth, (∀ x ∈ cells, x.2 < 4) → hearth < 4 →
    ((s.stepGen cells).2.genOf core hearth = if (core, hearth) ∈ cells then (s.stepGen cells).1 else s.genOf core hearth) ∧
    (s.stepGen cells).2.hearth.leases = s.hearth.leases ∧ (s.stepGen cells).2.hearth.plane = s.hearth.plane)

/-- ACK (R349): it sets RETIRED to a + 1 when that is higher, and leaves it otherwise; an `a` at or above NEXT_SEQ is refused with BAD_VALUE and changes
nothing; and the non-secure world may not acknowledge on a secure ring. -/
def Obligations.AckSetsRetired : Prop :=
  (∀ (s : State) r a, a < (s.ring r).nextSeq →
    (s.ack r a).1 = .ok ∧ ((s.ack r a).2.ring r).retired = (if (s.ring r).retired < a + 1 then a + 1 else (s.ring r).retired) ∧
    ((s.ack r a).2.ring r).nextSeq = (s.ring r).nextSeq ∧ ∀ q, q ≠ r → (s.ack r a).2.ring q = s.ring q) ∧
  (∀ (s : State) r a, (s.ring r).nextSeq ≤ a → s.ack r a = (.badValue, s)) ∧
  (∀ (s : State) r secure, r < 4096 → (s.ring r).isOpen = true →
    s.ringAt (0x1000 + r) secure = if (s.ring r).secure = true ∧ secure = false then .error .world else .ok r) ∧
  (∀ (s : State) ch last secure at_, ch < 16 → (8 ≤ ch → secure = true) →
    let u := (s.reach at_).setFlds ch [(.chCmdOp, 11), (.chCmdLast, b2n last)]
    ∀ r, u.ringAt (u.fld .chObjIndex ch) (decide (8 ≤ ch)) = .ok r →
      ∃ t, exec (.crierAck (.window ch last secure) at_) s = .next t ∧ t.ledger = (u.ack r (u.fld .chSeqSeq ch)).2.ledger)

/-- Publication (R347, R350): a record that its ring's store takes has the sequence number NEXT_SEQ, which rises by one; no reader holds it up, RETIRED
stays, and OLDEST is the larger of RETIRED and NEXT_SEQ - 4,096 and at least 1; other rings do not change.  A publication to a ring that is not open is dropped
and counted. -/
def Obligations.PublicationAdvancesTheRing : Prop :=
  (∀ (s : State) r subject evidence cls flags code payload due u,
    let x := s.ring r
    let late := match due with | some d => b2n (decide (d < s.time)) | none => 0
    let bs := resultBytes x.nextSeq subject evidence s.time cls (flags / 2 * 2 + late) code payload
    x.isOpen = true → s.urWrite (unitReq 0x17 (x.secure || r == 0)) (x.store * 4096 + x.nextSeq % 4096 * 64) bs [] = (none, u) →
    let t := s.publishDue r subject evidence cls flags code payload due
    (t.ring r).nextSeq = x.nextSeq + 1 ∧ (t.ring r).retired = x.retired ∧ (t.ring r).drops = x.drops ∧
    (t.ring r).oldest = max (max x.retired (x.nextSeq + 1 - 4096)) 1 ∧ (∀ q, q ≠ r → t.ring q = s.ring q) ∧ t.ur = u.ur) ∧
  (∀ (s : State) r subject evidence cls flags code payload due, (s.ring r).isOpen = false →
    s.publishDue r subject evidence cls flags code payload due = s.bumpObj .ringDrops 0 1)

/-- The record that an OPEN has opened (R163, R164): its handle is not stale, and it has the type and the world that were asked for, and is OPEN; its
generation is not the one the slot had.  A record that is freed makes its handle stale. -/
def Obligations.HandlesNameTheirRecord : Prop :=
  (∀ (s : State) slot type part secure body, type < 256 → part < 8 → slot < 4 * 65536 →
    let g := s.nextRecGen slot
    let h := handleOf slot g
    let t := s.setRec slot (recHeader type part 0 g secure + body % 2 ^ 448 * 2 ^ 64)
    handleSlot h = slot ∧ handleGen h = g ∧ t.stale h = false ∧ recType (t.recOf h) = type ∧ recPart (t.recOf h) = part ∧
    recWorld (t.recOf h) = b2n secure ∧ recState (t.recOf h) = 1 ∧ g ≠ recGen (s.recAt slot)) ∧
  (∀ (s : State) h, (s.freeRec (handleSlot h)).stale h = true)

/-- A kick of a window (R310): from OPEN to CLOSE, both ends included, it passes and only ends the window; before OPEN it is EARLY; after CLOSE and by LIMIT
it is LATE, counted in WW_LATE while its job goes on; an injected fault is taken as EARLY. -/
def Obligations.KicksAreJudgedByTheWindow : Prop :=
  ∀ (s : State) w x, w < 32 →
    let t := s.time - x.armed
    let u := s.setWindows w ((s.windowsOf w).filter (fun y => decide (y ≠ x)))
    (SMap.get s.safe.injectWw w false = false → s.fld .wwOpen w * 1000 ≤ t → t ≤ s.fld .wwClose w * 1000 → s.wwKickWindow w x = u) ∧
    (SMap.get s.safe.injectWw w false = false → t < s.fld .wwOpen w * 1000 → s.wwKickWindow w x = u.wwFault w x .early false) ∧
    (SMap.get s.safe.injectWw w false = false → s.fld .wwOpen w * 1000 ≤ t → s.fld .wwClose w * 1000 < t → t ≤ s.fld .wwLimit w * 1000 →
      s.wwKickWindow w x = u.wwFault w x .late false ∧
      (s.wwKickWindow w x).obj .wwLate (w + 1) = (s.obj .wwLate (w + 1) + 1) % 2 ^ 64 ∧
      ∀ id, x.job = some id → (s.wwKickWindow w x).fld .safeFaultWatchdog 0 = s.fld .safeFaultWatchdog 0) ∧
    (SMap.get s.safe.injectWw w false = true →
      s.wwKickWindow w x = ({ u with safe := { u.safe with injectWw := SMap.put u.safe.injectWw w false false } } : State).wwFault w x .early true)

/-- The thermal and the power loop (R388, R389): an index rises by one, only when its limit is passed and 10 ms after it last rose, and never above 3; it falls
by one only when 100 periods in a row called for it; and a period that calls for neither starts the run again. -/
def Obligations.GovernorIndexMovesOneStep : Prop :=
  ∀ index riseAt run now rise fall hold, index ≤ 3 → run ≤ 100 →
    let r := loopIndex index riseAt run now rise fall hold
    r.1 ≤ 3 ∧ r.2.2 ≤ 100 ∧ r.1 ≤ index + 1 ∧ index ≤ r.1 + 1 ∧
    (index < r.1 → rise = true ∧ (riseAt = 0 ∨ riseAt - 1 + 10000000 ≤ now) ∧ r.2.1 = now + 1) ∧
    (r.1 < index → rise = false ∧ fall = true ∧ 99 ≤ run ∧ hold = false) ∧ (rise = false → fall = false → r.2.2 = 0)

/-- The migration loop (R392): more than 4,096 evictions double MIG_PROMOTE up to its maximum, fewer than 256 take a quarter off it down to its minimum, and
otherwise it stays; one that lies within its limits stays within them; the count starts again. -/
def Obligations.MigrationLoopSetsPromote : Prop :=
  ∀ (s : State),
    let m := s.obj .migPromote 0
    s.migrationLoop.ur.evictions = 0 ∧
    s.migrationLoop.obj .migPromote 0 =
      (if s.ur.evictions > 4096 then min (s.obj .migPromoteMax 0) (2 * m)
       else if s.ur.evictions < 256 then max (s.obj .migPromoteMin 0) (m - m / 4) else m) ∧
    (s.obj .migPromoteMin 0 ≤ m → m ≤ s.obj .migPromoteMax 0 →
      s.obj .migPromoteMin 0 ≤ s.migrationLoop.obj .migPromote 0 ∧ s.migrationLoop.obj .migPromote 0 ≤ s.obj .migPromoteMax 0)

/-- The Ringer's bucket (R413): it never holds more than INRUSH_BUDGET tokens; a start begins only while it holds the weight of the domain, at least 2 µs after
the start before it and with the regulator in full mode, takes that weight, and is the domain at the head of the queue. -/
def Obligations.StartsKeepToTheInrushBudget : Prop :=
  (∀ (s : State), s.bucket ≤ s.obj .inrushBudget 0 * 10000) ∧
  (∀ (s t : State) at_, exec (.domainStart at_) s = .next t → t.pwr.started ≠ s.pwr.started →
    ∃ d, s.pwr.queue = d :: t.pwr.queue ∧ t.pwr.started = s.pwr.started ++ [d] ∧ s.flag .pwrStatusRegOk 0 = true ∧
      (s.pwr.lastStart = 0 ∨ s.pwr.lastStart - 1 + 2000 ≤ t.time) ∧ t.pwr.level + weightOf d * 10000 = (s.reach at_).bucket) ∧
  (∀ (s t : State) at_, exec (.domainStart at_) s = .next t →
    t =
      { s with
        time := t.time
        pwr :=
          { s.pwr with
            queue := t.pwr.queue
            started := t.pwr.started
            level := t.pwr.level
            levelAt := t.pwr.levelAt
            lastStart := t.pwr.lastStart } })

/-- A request whose SEQ has been answered is not run again (R359): its held response is sent again, or DUPLICATE when it is no longer held, and DUPLICATES counts
it.  A SEQ more than 64 below the highest is dropped. -/
def Obligations.AnsweredRequestsAreNotRunAgain : Prop :=
  (∀ i op obs (s : State) at_ f x a,
    (i, op, obs) ∈ [(Instr.objectRead (.frame f) at_, 4, ([] : List Obs)), (.objectWrite (.frame f) at_, 5, []),
      (.readBlock (.frame f) at_, 6, []), (.writeBlock (.frame f) at_, 7, []), (.crierSubscribe f at_, 8, []),
      (.crierPull (.frame f) obs at_, 10, obs), (.crierAck (.frame f) at_, 11, []), (.crierClose f at_, 3, [])] →
    FrameArrives (s.reach at_) op f → s.session f.session = some x → x.peer = framePeer f → x.secure = false → frameSecure f = false →
    x.maxSeq.getD 0 ≤ f.seq + 64 → x.answers.find? (fun y => decide (y.seq = f.seq)) = some a →
    After i s ((((s.reach at_).takenOn f.session x).bumpObj .duplicates 0 1).sendOn f.session a.op respFlags f.seq
      (a.payload.getD (natLe 1 Code.duplicate.num)))) ∧
  (∀ (s : State) at_ f x, FrameArrives (s.reach at_) 4 f → s.session f.session = some x → x.peer = framePeer f → x.secure = false →
    frameSecure f = false → f.seq + 64 < x.maxSeq.getD 0 →
    After (.objectRead (.frame f) at_) s ((s.reach at_).takenOn f.session x))

/-- The straps (R437) are sampled at the release of nPOR, which samples nothing unless nPOR holds the device; a power-on reset keeps what was sampled. -/
def Obligations.StrapsAreSampledAtNporRelease : Prop :=
  (∀ (s : State) m id buttons at_, s.boot.stage = .held → bit s.boot.holds 0 = true →
    ∃ t, exec (.nporRelease m id buttons at_) s = .next t ∧ t.flag .rstStatusMasterSel 0 = m ∧ t.fld .rstStatusCascadeId 0 = id % 8 ∧
      t.isMaster = m ∧ t.obj .cascadeId 0 = id % 8) ∧
  (∀ (s : State) m id buttons at_, bit s.boot.holds 0 = false → After (.nporRelease m id buttons at_) s (s.reach at_)) ∧
  (∀ i (s : State) at_, i ∈ [Instr.nporLow at_, .vddAonInRemoved at_] → ∃ t, exec i s = .next t ∧
    t.fld .rstStatusMasterSel 0 = s.fld .rstStatusMasterSel 0 % 2 ∧ t.fld .rstStatusCascadeId 0 = s.fld .rstStatusCascadeId 0 % 8 ∧
    t.obj .cascadeId 0 = s.obj .cascadeId 0 ∧ t.obj .master 0 = s.obj .master 0)

/-- BIN_ERRLOG keeps the first error (R461): while VALID is 0 an error is captured and sets VALID, while it is 1 a later one changes no register, and the clearing of
the register makes it read zero, so that the next is captured. -/
def Obligations.ErrorLogKeepsTheFirst : Prop :=
  (∀ (s : State) b type bank row port, b < 8 → type < 8 → bank < 48 → row < 2048 → port < 16 → s.flag .binErrlogValid b = false →
    let t := s.binErrlog b type bank row port
    t.flag .binErrlogValid b = true ∧ t.fld .binErrlogType b = type ∧ t.fld .binErrlogBank b = bank ∧ t.fld .binErrlogRow b = row ∧
    t.fld .binErrlogPort b = port ∧ ∀ type' bank' row' port', (t.binErrlog b type' bank' row' port').regs = t.regs) ∧
  (∀ (s : State) b, b < 8 → ∃ t, exec (.logRegisterClear 1 b true) s = .next t ∧ t.flag .binErrlogValid b = false ∧
    t.fld .binErrlogType b = 0 ∧ t.fld .binErrlogBank b = 0 ∧ t.fld .binErrlogRow b = 0)

/-- Frame of the commands of the memories that reach no job (R88, R95, R99, R106, R114, R117, R133, R138 to R145, R171), whatever comes of them: each changes
only the parts of the state that its clause names, its registers among them, and what a refused write leaves, its bus error and its log entry. -/
def Obligations.MemoryCommandsFrame : Prop :=
  (∀ (s t : State) bin, exec (.correctedWordWriteBack bin) s = .next t → t = { s with bin := t.bin }) ∧
  (∀ (s t : State) bin secure, exec (.binInit bin secure) s = .next t → t = 
      { s with
        regs := t.regs
        sent := t.sent
        objs := t.objs
        log := t.log }) ∧
  (∀ (s t : State) bin word value secure, exec (.slotMapWrite bin word value secure) s = .next t → t = 
      { s with
        regs := t.regs
        bin := t.bin
        sent := t.sent
        objs := t.objs
        log := t.log }) ∧
  (∀ (s t : State) bin gate secure, exec (.gateOpen bin gate secure) s = .next t → t = 
      { s with
        regs := t.regs
        sent := t.sent
        objs := t.objs
        log := t.log }) ∧
  (∀ (s t : State) bin gate secure, exec (.gateClose bin gate secure) s = .next t → t = 
      { s with
        regs := t.regs
        sent := t.sent
        objs := t.objs
        log := t.log }) ∧
  (∀ (s t : State) at_, exec (.migrationDecay at_) s = .next t → t = 
      { s with
        time := t.time
        ur := t.ur }) ∧
  (∀ (s t : State) quota ways secure, exec (.urQuotaWrite quota ways secure) s = .next t → t = 
      { s with
        regs := t.regs
        sent := t.sent
        objs := t.objs
        log := t.log }) ∧
  (∀ (s t : State) page q sheaf secure, exec (.urPstateWrite page q sheaf secure) s = .next t → t = 
      { s with
        regs := t.regs
        objs := t.objs
        sent := t.sent
        ur := t.ur
        mc := t.mc
        log := t.log }) ∧
  (∀ (s t : State) port off write deadline at_, exec (.dramRequest port off write deadline at_) s = .next t → t = 
      { s with
        time := t.time
        mc := t.mc }) ∧
  (∀ (s t : State) channel rank bank, exec (.perBankRefresh channel rank bank) s = .next t → t = 
      { s with
        free := t.free
        objs := t.objs
        mc := t.mc }) ∧
  (∀ (s t : State), exec (.actWindowClear) s = .next t → t = { s with mc := t.mc }) ∧
  (∀ (s t : State) channel drift at_, exec (.periodicRetrain channel drift at_) s = .next t → t = 
      { s with
        time := t.time
        regs := t.regs
        objs := t.objs
        mc := t.mc
        log := t.log }) ∧
  (∀ (s t : State) channel at_, exec (.forcedRetrainUpdate channel at_) s = .next t → t = 
      { s with
        time := t.time
        mc := t.mc }) ∧
  (∀ (s t : State) at_, exec (.dramPowerDown at_) s = .next t → t = 
      { s with
        time := t.time
        mc := t.mc }) ∧
  (∀ (s t : State) n word value secure, exec (.mcRegionWrite n word value secure) s = .next t → t = 
      { s with
        regs := t.regs
        sent := t.sent
        objs := t.objs
        log := t.log }) ∧
  (∀ (s t : State) handle secure, exec (.ledgerRead handle secure) s = .next t → t = 
      { s with
        free := t.free
        regs := t.regs
        objs := t.objs
        log := t.log }) ∧
  (∀ (s t : State) core split secure, exec (.hearthCfgWrite core split secure) s = .next t → t = 
      { s with
        regs := t.regs
        sent := t.sent
        objs := t.objs
        log := t.log })

/-- Frame of the commands of the streams, the person-facing inputs and the safety monitor that start nothing else (R198, R238, R262, R284 to R287, R296, R305, R312,
R317): each changes only the parts of the state that its clause names. -/
def Obligations.StreamCommandsFrame : Prop :=
  (∀ (s t : State) feed value secure, exec (.hpDoorbell feed value secure) s = .next t → t = 
      { s with
        hp := t.hp
        sent := t.sent
        objs := t.objs
        log := t.log }) ∧
  (∀ (s t : State) lane at_, exec (.laneSampleStart lane at_) s = .next t → t = 
      { s with
        time := t.time
        objs := t.objs
        hp := t.hp }) ∧
  (∀ (s t : State) stream add, exec (.osRelease stream add) s = .next t → t = 
      { s with
        regs := t.regs
        cam := t.cam
        sent := t.sent
        objs := t.objs
        log := t.log }) ∧
  (∀ (s t : State) sensor blob, exec (.camColourWrite sensor blob) s = .next t → t = 
      { s with
        objs := t.objs
        crier := t.crier }) ∧
  (∀ (s t : State), exec (.audioRelease) s = .next t → t = 
      { s with
        regs := t.regs
        aud := t.aud }) ∧
  (∀ (s t : State) en, exec (.audStreamEnable en) s = .next t → t = 
      { s with
        regs := t.regs
        aud := t.aud
        sent := t.sent
        objs := t.objs
        log := t.log }) ∧
  (∀ (s t : State), exec (.erasingComplete) s = .next t → t = { s with watch := t.watch }) ∧
  (∀ (s t : State) at_, exec (.lockOpenExpiry at_) s = .next t → t = 
      { s with
        time := t.time
        watch := t.watch }) ∧
  (∀ (s t : State) value secure, exec (.watchSpanWrite value secure) s = .next t → t = 
      { s with
        regs := t.regs
        sent := t.sent
        objs := t.objs
        log := t.log }) ∧
  (∀ (s t : State) led value at_, exec (.doorLedWrite led value at_) s = .next t → t = 
      { s with
        time := t.time
        regs := t.regs
        door := t.door
        sent := t.sent
        objs := t.objs
        log := t.log }) ∧
  (∀ (s t : State) part en secure, exec (.svLeaseWrite part en secure) s = .next t → t = 
      { s with
        regs := t.regs
        objs := t.objs
        sent := t.sent
        log := t.log
        sv := t.sv
        pwr := t.pwr }) ∧
  (∀ (s t : State) net, exec (.comparatorStart net) s = .next t → t = { s with rota := t.rota }) ∧
  (∀ (s t : State) mask secure, exec (.safeFaultClear mask secure) s = .next t → t = 
      { s with
        regs := t.regs
        sent := t.sent
        objs := t.objs
        log := t.log }) ∧
  (∀ (s t : State) net secure, exec (.safeInjectCompare net secure) s = .next t → t = 
      { s with
        safe := t.safe
        sent := t.sent
        objs := t.objs
        log := t.log }) ∧
  (∀ (s t : State) ww secure, exec (.safeInjectWatchdog ww secure) s = .next t → t = 
      { s with
        safe := t.safe
        sent := t.sent
        objs := t.objs
        log := t.log })

/-- Frame of the commands of security, the Crier, the Hedgeline, the Reeve, power and the clocks that start nothing else (R320, R323, R327, R330 to R335, R342, R365,
R372, R375, R386, R396, R407, R415, R428, R431): each changes only the parts of the state that its clause names. -/
def Obligations.SystemCommandsFrame : Prop :=
  (∀ (s t : State) nonce, exec (.attestNonceWrite nonce) s = .next t → t = { s with sec := t.sec }) ∧
  (∀ (s t : State) index value secure, exec (.secMeasWrite index value secure) s = .next t → t = 
      { s with
        sec := t.sec
        sent := t.sent
        objs := t.objs
        log := t.log }) ∧
  (∀ (s t : State) n word secure, exec (.boundaryRegionWrite n word secure) s = .next t → t = 
      { s with
        regs := t.regs
        sec := t.sec
        sent := t.sent
        objs := t.objs
        log := t.log }) ∧
  (∀ (s t : State) value secure, exec (.secWmapWrite value secure) s = .next t → t = 
      { s with
        regs := t.regs
        sent := t.sent
        objs := t.objs
        log := t.log }) ∧
  (∀ (s t : State) src dst secure, exec (.secUnwrap src dst secure) s = .next t → t = 
      { s with
        regs := t.regs
        sec := t.sec
        sent := t.sent
        objs := t.objs
        log := t.log }) ∧
  (∀ (s t : State) slot secure, exec (.keySlotClear slot secure) s = .next t → t = 
      { s with
        regs := t.regs
        sec := t.sec
        hedge := t.hedge }) ∧
  (∀ (s t : State) level sig, exec (.debugToken level sig) s = .next t → t = 
      { s with
        free := t.free
        sec := t.sec
        objs := t.objs
        log := t.log }) ∧
  (∀ (s t : State) secure, exec (.almanacSave secure) s = .next t → t = { s with crier := t.crier }) ∧
  (∀ (s t : State) target ip mac, exec (.arpRequest target ip mac) s = .next t → t = { s with sent := t.sent }) ∧
  (∀ (s t : State) target ip mac payload, exec (.icmpEcho target ip mac payload) s = .next t → t = { s with sent := t.sent }) ∧
  (∀ (s t : State) port lseq, exec (.hlLinkack port lseq) s = .next t → t = { s with hedge := t.hedge }) ∧
  (∀ (s t : State) port, exec (.hlRetrain port) s = .next t → t = { s with regs := t.regs }) ∧
  (∀ (s t : State) at_, exec (.hlSyncLoss at_) s = .next t → t = 
      { s with
        time := t.time
        objs := t.objs
        hedge := t.hedge }) ∧
  (∀ (s t : State) at_, exec (.hlSyncSend at_) s = .next t → t = 
      { s with
        time := t.time
        hedge := t.hedge
        sent := t.sent }) ∧
  (∀ (s t : State), exec (.pmbusAlert) s = .next t → t = { s with reeve := t.reeve }) ∧
  (∀ (s t : State) at_, exec (.logFlush at_) s = .next t → t = 
      { s with
        time := t.time
        objs := t.objs
        log := t.log }) ∧
  (∀ (s t : State) secure, exec (.updFinish secure) s = .next t → t = 
      { s with
        regs := t.regs
        objs := t.objs
        sent := t.sent
        log := t.log }) ∧
  (∀ (s t : State) at_, exec (.idleEntry at_) s = .next t → t = 
      { s with
        time := t.time
        regs := t.regs }) ∧
  (∀ (s t : State) at_, exec (.clkReturnTimeout at_) s = .next t → t = 
      { s with
        time := t.time
        clk := t.clk }) ∧
  (∀ (s t : State) highest at_, exec (.hardwareThrottle highest at_) s = .next t → t = 
      { s with
        time := t.time
        clk := t.clk }) ∧
  (∀ (s t : State) value secure, exec (.clkEnWrite value secure) s = .next t → t = 
      { s with
        regs := t.regs
        pwr := t.pwr
        sent := t.sent
        objs := t.objs
        log := t.log }) ∧
  (∀ (s t : State) at_, exec (.regOk at_) s = .next t → t = 
      { s with
        time := t.time
        regs := t.regs
        pwr := t.pwr }) ∧
  (∀ (s t : State) at_, exec (.regRetry at_) s = .next t → t = 
      { s with
        time := t.time
        regs := t.regs
        pwr := t.pwr }) ∧
  (∀ (s t : State) which inst secure, exec (.logRegisterClear which inst secure) s = .next t → t = 
      { s with
        regs := t.regs
        sent := t.sent
        objs := t.objs
        log := t.log })

/-- Frame of a tract command that issues (R28 to R32, R39, R46): it changes the Bins, the Unified Range, the hearths, the Ledger, registers, objects and the log, and
notes itself at its core; no stream, no session, no power domain, no clock, no safety monitor and no link changes, and the time base and the queue of commands
stay. -/
def Obligations.TractCommandsFrame : Prop :=
  ∀ i core x (s : State) j us v u, tractIssue i = some (core, x) → x.op ≠ .stile → x.op ≠ .waitTally → x.op ≠ .dmaGate → s.runs core j →
    let p := s.atIssue core j x
    let w := p.issueWidth core x.cmd
    Issues p core { j with fetch := j.fetch + 16 } x us v →
    (x.op.isTier = true → v.lateAtIssue core (v.tierTotal x.op core w x.cmd) = false) →
    ((v.updCore core (fun y => { y with wait := .none })).noteIssue x.op core w x.cmd).runWithin x.op core w x.cmd x.obs = (none, u) →
    ∃ t : State, exec i s = .next t ∧
      t =
        { s with
          free := t.free
          regs := t.regs
          objs := t.objs
          sent := t.sent
          bin := t.bin
          ur := t.ur
          mc := t.mc
          hearth := t.hearth
          rota := { s.rota with cores := t.rota.cores }
          ledger := t.ledger
          log := t.log
          sec := t.sec } ∧
      ∀ d < 8, d < core ∨ core + p.issueWidth core x.cmd ≤ d → t.core d = s.core d
end

