-- ==== Sys2Proof/Laws/SMap.lean ====
section
/-!
SUPPORT. The laws of sparse maps: a read after a write, and the canonical form that every operation keeps.
-/
namespace Sys2Proof.Machine

variable {α : Type} [DecidableEq α]

omit [DecidableEq α] in
/-- The keys of `m` rise strictly and start at `lo` or above. -/
theorem SMap.rising_cons (lo k : Nat) (v : α) (r : SMap α) :
    SMap.rising lo ((k, v) :: r) = true ↔ lo ≤ k ∧ SMap.rising (k + 1) r = true := by
  simp [SMap.rising]

omit [DecidableEq α] in
theorem SMap.rising_mono {a b : Nat} (h : a ≤ b) {m : SMap α} (hm : SMap.rising b m = true) : SMap.rising a m = true := by
  cases m with
  | nil => rfl
  | cons e r => obtain ⟨k, v⟩ := e; rw [SMap.rising_cons] at *; exact ⟨Nat.le_trans h hm.1, hm.2⟩

omit [DecidableEq α] in
/-- A key below every listed key is unlisted. -/
theorem SMap.get_of_lt {m : SMap α} {lo k : Nat} {d : α} (hm : SMap.rising lo m = true) (h : k < lo) : SMap.get m k d = d := by
  induction m generalizing lo with
  | nil => rfl
  | cons e r ih =>
    obtain ⟨k', v⟩ := e
    rw [SMap.rising_cons] at hm
    have : k' ≠ k := by omega
    simp [SMap.get, this, ih hm.2 (by omega)]

omit [DecidableEq α] in
/-- A filter of the keys keeps them rising. -/
theorem SMap.rising_filter {m : SMap α} {lo : Nat} (p : Nat × α → Bool) (hm : SMap.rising lo m = true) :
    SMap.rising lo (m.filter p) = true := by
  induction m generalizing lo with
  | nil => rfl
  | cons e r ih =>
    obtain ⟨k, v⟩ := e
    simp only [SMap.rising, Bool.and_eq_true, decide_eq_true_eq] at hm
    rw [List.filter_cons]
    split
    · simp [SMap.rising, hm.1, ih hm.2]
    · exact SMap.rising_mono (by omega) (ih hm.2)

omit [DecidableEq α] in
/-- Listing a value keeps the keys rising. -/
theorem SMap.rising_insert {m : SMap α} {lo k : Nat} {v : α} (hm : SMap.rising lo m = true) (h : lo ≤ k) :
    SMap.rising lo (SMap.insert m k v) = true := by
  induction m generalizing lo with
  | nil => simp [SMap.insert, SMap.rising, h]
  | cons e r ih =>
    obtain ⟨k', v'⟩ := e
    rw [SMap.rising_cons] at hm
    unfold SMap.insert
    split
    · simp [SMap.rising, h, hm.2]; omega
    · split
      · rw [SMap.rising_cons]; subst_vars; exact hm
      · rw [SMap.rising_cons]; exact ⟨hm.1, ih hm.2 (by omega)⟩

/-- A write keeps the keys rising. -/
theorem SMap.rising_put {m : SMap α} {lo k : Nat} {v d : α} (hm : SMap.rising lo m = true) (h : lo ≤ k) :
    SMap.rising lo (SMap.put m k v d) = true := by
  unfold SMap.put
  split
  · exact SMap.rising_filter _ hm
  · exact SMap.rising_insert hm h

omit [DecidableEq α] in
/-- What is listed after a value is: what was, or the value. -/
theorem SMap.insert_listed {m : SMap α} {k : Nat} {v : α} {e : Nat × α} (he : e ∈ SMap.insert m k v) : e ∈ m ∨ e = (k, v) := by
  induction m with
  | nil => simpa [SMap.insert] using he
  | cons x r ih =>
    obtain ⟨k', v'⟩ := x
    unfold SMap.insert at he
    split at he
    · rcases List.mem_cons.mp he with h | h
      · exact Or.inr h
      · exact Or.inl h
    · split at he
      · rcases List.mem_cons.mp he with h | h
        · exact Or.inr h
        · exact Or.inl (List.mem_cons_of_mem _ h)
      · rcases List.mem_cons.mp he with h | h
        · subst h; simp
        · rcases ih h with h | h
          · exact Or.inl (List.mem_cons_of_mem _ h)
          · exact Or.inr h

/-- No entry of a written map equals what it reads as unlisted. -/
theorem SMap.put_listed {m : SMap α} {k : Nat} {v d : α} {e : Nat × α} (he : e ∈ SMap.put m k v d) : e ∈ m ∨ e = (k, v) ∧ v ≠ d := by
  unfold SMap.put at he
  split at he
  · exact Or.inl (List.mem_filter.mp he).1
  · rcases SMap.insert_listed he with h | h
    · exact Or.inl h
    · exact Or.inr ⟨h, ‹_›⟩

/-- A write keeps the canonical form. -/
theorem SMap.wf_put {m : SMap α} {k : Nat} {v : α} {d : Nat → α} (hm : SMap.wf d m = true) : SMap.wf d (SMap.put m k v (d k)) = true := by
  simp only [SMap.wf, Bool.and_eq_true, List.all_eq_true, decide_eq_true_eq] at *
  refine ⟨SMap.rising_put hm.1 (Nat.zero_le _), fun e he => ?_⟩
  rcases SMap.put_listed he with h | ⟨rfl, h⟩
  · exact hm.2 e h
  · exact h

omit [DecidableEq α] in
theorem SMap.get_insert_same {m : SMap α} {k : Nat} {v d : α} : SMap.get (SMap.insert m k v) k d = v := by
  induction m with
  | nil => simp [SMap.insert, SMap.get]
  | cons e r ih => unfold SMap.insert; split <;> (try split) <;> simp_all [SMap.get]

omit [DecidableEq α] in
theorem SMap.get_insert_ne {m : SMap α} {k j : Nat} {v d : α} (h : j ≠ k) : SMap.get (SMap.insert m k v) j d = SMap.get m j d := by
  induction m with
  | nil => simp [SMap.insert, SMap.get, Ne.symm h]
  | cons e r ih =>
    unfold SMap.insert
    split
    · simp [SMap.get, Ne.symm h]
    · split
      · subst_vars; simp [SMap.get, Ne.symm h]
      · simp [SMap.get, ih]

omit [DecidableEq α] in
/-- A filter that leaves out key `k` makes it unlisted. -/
theorem SMap.get_filter_out {m : SMap α} {k : Nat} {d : α} {p : Nat × α → Bool} (h : ∀ v, p (k, v) = false) :
    SMap.get (m.filter p) k d = d := by
  induction m with
  | nil => rfl
  | cons e r ih =>
    rw [List.filter_cons]
    split
    · have : e.1 ≠ k := by rintro rfl; simp_all
      simp [SMap.get, this, ih]
    · exact ih

omit [DecidableEq α] in
/-- A filter that keeps key `j` keeps what it reads as. -/
theorem SMap.get_filter_in {m : SMap α} {j : Nat} {d : α} {p : Nat × α → Bool} (h : ∀ v, p (j, v) = true) :
    SMap.get (m.filter p) j d = SMap.get m j d := by
  induction m with
  | nil => rfl
  | cons e r ih =>
    rw [List.filter_cons]
    split
    · simp [SMap.get, ih]
    · have : e.1 ≠ j := by rintro rfl; simp_all
      simp [SMap.get, this, ih]

/-- A read of the key written gives the value written. -/
@[simp] theorem SMap.get_put_same {m : SMap α} {k : Nat} {v d : α} : SMap.get (SMap.put m k v d) k d = v := by
  unfold SMap.put
  split
  · rw [SMap.get_filter_out (by simp)]; exact Eq.symm ‹_›
  · exact SMap.get_insert_same

/-- A read of another key gives what it gave. -/
theorem SMap.get_put_ne {m : SMap α} {k j : Nat} {v d d' : α} (h : j ≠ k) : SMap.get (SMap.put m k v d) j d' = SMap.get m j d' := by
  unfold SMap.put
  split
  · exact SMap.get_filter_in (by simp [h])
  · exact SMap.get_insert_ne h

omit [DecidableEq α] in
/-- A cleared key reads as unlisted. -/
theorem SMap.get_clear_in {m : SMap α} {lo n k : Nat} {d : α} (h : lo ≤ k ∧ k < lo + n) : SMap.get (SMap.clear m lo n) k d = d :=
  SMap.get_filter_out (by simp; omega)

omit [DecidableEq α] in
/-- A key outside a cleared run reads as before. -/
theorem SMap.get_clear_out {m : SMap α} {lo n k : Nat} {d : α} (h : k < lo ∨ lo + n ≤ k) :
    SMap.get (SMap.clear m lo n) k d = SMap.get m k d :=
  SMap.get_filter_in (fun _ => by simpa using h)

/-- A run of values written reads back. -/
theorem SMap.get_putRun_out {m : SMap α} {a k : Nat} {vs : List α} {d : α} (h : k < a ∨ a + vs.length ≤ k) :
    SMap.get (SMap.putRun m a vs d) k d = SMap.get m k d := by
  induction vs generalizing m a with
  | nil => rfl
  | cons v r ih =>
    simp only [List.length_cons] at h
    rw [SMap.putRun, ih (by omega), SMap.get_put_ne (by omega)]

theorem SMap.get_putRun_in {m : SMap α} {a i : Nat} {vs : List α} {d : α} (h : i < vs.length) :
    SMap.get (SMap.putRun m a vs d) (a + i) d = vs[i] := by
  induction vs generalizing m a i with
  | nil => simp at h
  | cons v r ih =>
    cases i with
    | zero => rw [SMap.putRun, SMap.get_putRun_out (by omega)]; simp
    | succ i =>
      have := ih (m := SMap.put m a v d) (a := a + 1) (i := i) (by simpa using h)
      rw [SMap.putRun]; simpa [Nat.add_assoc, Nat.add_comm 1 i] using this

/-- Clearing a run keeps the canonical form. -/
theorem SMap.wf_clear {m : SMap α} {lo n : Nat} {d : Nat → α} (hm : SMap.wf d m = true) : SMap.wf d (SMap.clear m lo n) = true := by
  simp only [SMap.wf, Bool.and_eq_true, List.all_eq_true, decide_eq_true_eq] at *
  exact ⟨SMap.rising_filter _ hm.1, fun e he => hm.2 e (List.mem_filter.mp he).1⟩

/-- Writing a run of bytes keeps the canonical form. -/
theorem SMap.wf_putRun {m : SMap α} {a : Nat} {vs : List α} {v : α} (hm : SMap.wf (fun _ => v) m = true) :
    SMap.wf (fun _ => v) (SMap.putRun m a vs v) = true := by
  induction vs generalizing m a with
  | nil => exact hm
  | cons x r ih => exact ih (SMap.wf_put (d := fun _ => v) hm)

omit [DecidableEq α] in
theorem SMap.rising_append {a b : SMap α} {lo mid : Nat} (ha : SMap.rising lo a = true) (hlt : ∀ e ∈ a, e.1 < mid)
    (hb : SMap.rising mid b = true) (h : lo ≤ mid) : SMap.rising lo (a ++ b) = true := by
  induction a generalizing lo with
  | nil => cases b with
    | nil => rfl
    | cons x y => exact SMap.rising_mono h hb
  | cons x y ih =>
    obtain ⟨k, v⟩ := x
    simp only [List.cons_append, SMap.rising, Bool.and_eq_true, decide_eq_true_eq] at *
    exact ⟨ha.1, ih ha.2 (fun e he => hlt e (List.mem_cons_of_mem _ he)) (hlt (k, v) (List.mem_cons_self ..))⟩

omit [DecidableEq α] in
theorem SMap.rising_from {m : SMap α} {lo a : Nat} (hm : SMap.rising lo m = true) (h : ∀ e ∈ m, a ≤ e.1) : SMap.rising a m = true := by
  cases m with
  | nil => rfl
  | cons x y =>
    obtain ⟨k, v⟩ := x
    simp only [SMap.rising, Bool.and_eq_true, decide_eq_true_eq] at *
    exact ⟨h (k, v) (List.mem_cons_self ..), hm.2⟩

omit [DecidableEq α] in
theorem SMap.rising_shift {m : SMap α} {lo a b : Nat} (hm : SMap.rising lo m = true) (h : ∀ e ∈ m, a ≤ e.1) :
    SMap.rising (lo - a + b) (m.map (fun e => (e.1 - a + b, e.2))) = true := by
  induction m generalizing lo with
  | nil => rfl
  | cons x y ih =>
    obtain ⟨k, v⟩ := x
    simp only [List.map_cons, SMap.rising, Bool.and_eq_true, decide_eq_true_eq] at *
    have hk := h (k, v) (List.mem_cons_self ..)
    refine ⟨by simp only at hk ⊢; omega, ?_⟩
    have := ih hm.2 (fun e he => h e (List.mem_cons_of_mem _ he))
    have e : k + 1 - a + b = k - a + b + 1 := by simp only at hk; omega
    rwa [e] at this

/-- Copying a run keeps the canonical form, where every key reads the same unlisted. -/
theorem SMap.wf_copy {m src : SMap α} {t f n : Nat} {v : α} (hm : SMap.wf (fun _ => v) m = true) (hs : SMap.wf (fun _ => v) src = true) :
    SMap.wf (fun _ => v) (SMap.copy m t src f n) = true := by
  simp only [SMap.wf, Bool.and_eq_true, List.all_eq_true, decide_eq_true_eq] at *
  have h1 : SMap.rising 0 (m.filter (fun e => decide (e.1 < t))) = true := SMap.rising_filter _ hm.1
  have hmid : ∀ e ∈ src.filter (fun e => decide (f ≤ e.1 ∧ e.1 < f + n)), f ≤ e.1 := by
    intro e he; have := (List.mem_filter.mp he).2; simp at this; exact this.1
  have h2 : SMap.rising t ((src.filter (fun e => decide (f ≤ e.1 ∧ e.1 < f + n))).map (fun e => (e.1 - f + t, e.2))) = true := by
    have := SMap.rising_shift (b := t) (SMap.rising_from (SMap.rising_filter _ hs.1) hmid) hmid
    simpa using this
  have h3 : SMap.rising (t + n) (m.filter (fun e => decide (t + n ≤ e.1))) = true :=
    SMap.rising_from (SMap.rising_filter _ hm.1) (by intro e he; have := (List.mem_filter.mp he).2; simpa using this)
  refine ⟨?_, ?_⟩
  · unfold SMap.copy
    rw [List.append_assoc]
    refine SMap.rising_append h1 (by intro e he; have := (List.mem_filter.mp he).2; simpa using this) ?_ (Nat.zero_le _)
    refine SMap.rising_append h2 ?_ h3 (by omega)
    intro e he
    obtain ⟨x, hx, rfl⟩ := List.mem_map.mp he
    have := (List.mem_filter.mp hx).2
    simp at this ⊢; omega
  · intro e he
    unfold SMap.copy at he
    rcases List.mem_append.mp he with he | he
    · rcases List.mem_append.mp he with he | he
      · exact hm.2 e (List.mem_filter.mp he).1
      · obtain ⟨x, hx, rfl⟩ := List.mem_map.mp he
        exact hs.2 x (List.mem_filter.mp hx).1
    · exact hm.2 e (List.mem_filter.mp he).1

end Sys2Proof.Machine
end

