-- ==== Sys2Proof/Laws/State.lean ====
section
/-!
SUPPORT. What each named update of Ops.lean leaves as it was: one equation for each part of the state, so that no later proof unfolds a
record update.
-/
namespace Sys2Proof.Machine

/-- A register write changes the register fields alone. -/
@[simp] theorem State.setFld_frame (s : State) (f : Fld) (i v : Nat) :
    (s.setFld f i v).pending = s.pending ∧ (s.setFld f i v).time = s.time ∧ (s.setFld f i v).free = s.free ∧
    (s.setFld f i v).objs = s.objs ∧ (s.setFld f i v).sent = s.sent ∧ (s.setFld f i v).bin = s.bin ∧ (s.setFld f i v).ur = s.ur ∧
    (s.setFld f i v).mc = s.mc ∧ (s.setFld f i v).hearth = s.hearth ∧ (s.setFld f i v).rota = s.rota ∧
    (s.setFld f i v).ledger = s.ledger ∧ (s.setFld f i v).log = s.log ∧ (s.setFld f i v).safe = s.safe ∧
    (s.setFld f i v).sec = s.sec ∧ (s.setFld f i v).hedge = s.hedge ∧ (s.setFld f i v).sv = s.sv ∧ (s.setFld f i v).hp = s.hp ∧
    (s.setFld f i v).cam = s.cam ∧ (s.setFld f i v).aud = s.aud ∧ (s.setFld f i v).watch = s.watch ∧
    (s.setFld f i v).door = s.door ∧ (s.setFld f i v).pwr = s.pwr ∧ (s.setFld f i v).clk = s.clk ∧
    (s.setFld f i v).reeve = s.reeve ∧ (s.setFld f i v).upd = s.upd ∧ (s.setFld f i v).crier = s.crier ∧
    (s.setFld f i v).boot = s.boot := by
  refine ⟨rfl, rfl, rfl, rfl, rfl, rfl, rfl, rfl, rfl, rfl, rfl, rfl, rfl, rfl, rfl, rfl, rfl, rfl, rfl, rfl, rfl, rfl, rfl, rfl, rfl, rfl, rfl⟩

/-- A counter register changes the register fields alone. -/
@[simp] theorem State.bumpFld_frame (s : State) (f : Fld) (i n : Nat) :
    (s.bumpFld f i n).pending = s.pending ∧ (s.bumpFld f i n).time = s.time ∧ (s.bumpFld f i n).free = s.free ∧
    (s.bumpFld f i n).objs = s.objs ∧ (s.bumpFld f i n).sent = s.sent ∧ (s.bumpFld f i n).bin = s.bin ∧
    (s.bumpFld f i n).ur = s.ur ∧ (s.bumpFld f i n).mc = s.mc ∧ (s.bumpFld f i n).hearth = s.hearth ∧
    (s.bumpFld f i n).rota = s.rota ∧ (s.bumpFld f i n).ledger = s.ledger ∧ (s.bumpFld f i n).log = s.log ∧
    (s.bumpFld f i n).safe = s.safe ∧ (s.bumpFld f i n).sec = s.sec ∧ (s.bumpFld f i n).hedge = s.hedge ∧
    (s.bumpFld f i n).sv = s.sv ∧ (s.bumpFld f i n).hp = s.hp ∧ (s.bumpFld f i n).cam = s.cam ∧ (s.bumpFld f i n).aud = s.aud ∧
    (s.bumpFld f i n).watch = s.watch ∧ (s.bumpFld f i n).door = s.door ∧ (s.bumpFld f i n).pwr = s.pwr ∧
    (s.bumpFld f i n).clk = s.clk ∧ (s.bumpFld f i n).reeve = s.reeve ∧ (s.bumpFld f i n).upd = s.upd ∧
    (s.bumpFld f i n).crier = s.crier ∧ (s.bumpFld f i n).boot = s.boot := by
  refine ⟨rfl, rfl, rfl, rfl, rfl, rfl, rfl, rfl, rfl, rfl, rfl, rfl, rfl, rfl, rfl, rfl, rfl, rfl, rfl, rfl, rfl, rfl, rfl, rfl, rfl, rfl, rfl⟩

/-- An object write changes the objects alone. -/
@[simp] theorem State.setObjVal_frame (s : State) (o : Obj) (sub : Nat) (v : Val) :
    (s.setObjVal o sub v).pending = s.pending ∧ (s.setObjVal o sub v).time = s.time ∧ (s.setObjVal o sub v).free = s.free ∧
    (s.setObjVal o sub v).regs = s.regs ∧ (s.setObjVal o sub v).sent = s.sent ∧ (s.setObjVal o sub v).bin = s.bin ∧
    (s.setObjVal o sub v).ur = s.ur ∧ (s.setObjVal o sub v).mc = s.mc ∧ (s.setObjVal o sub v).hearth = s.hearth ∧
    (s.setObjVal o sub v).rota = s.rota ∧ (s.setObjVal o sub v).ledger = s.ledger ∧ (s.setObjVal o sub v).log = s.log ∧
    (s.setObjVal o sub v).safe = s.safe ∧ (s.setObjVal o sub v).sec = s.sec ∧ (s.setObjVal o sub v).hedge = s.hedge ∧
    (s.setObjVal o sub v).sv = s.sv ∧ (s.setObjVal o sub v).hp = s.hp ∧ (s.setObjVal o sub v).cam = s.cam ∧
    (s.setObjVal o sub v).aud = s.aud ∧ (s.setObjVal o sub v).watch = s.watch ∧ (s.setObjVal o sub v).door = s.door ∧
    (s.setObjVal o sub v).pwr = s.pwr ∧ (s.setObjVal o sub v).clk = s.clk ∧ (s.setObjVal o sub v).reeve = s.reeve ∧
    (s.setObjVal o sub v).upd = s.upd ∧ (s.setObjVal o sub v).crier = s.crier ∧ (s.setObjVal o sub v).boot = s.boot := by
  refine ⟨rfl, rfl, rfl, rfl, rfl, rfl, rfl, rfl, rfl, rfl, rfl, rfl, rfl, rfl, rfl, rfl, rfl, rfl, rfl, rfl, rfl, rfl, rfl, rfl, rfl, rfl, rfl⟩

/-- An object write changes the objects alone. -/
@[simp] theorem State.setObj_frame (s : State) (o : Obj) (sub v : Nat) :
    (s.setObj o sub v).pending = s.pending ∧ (s.setObj o sub v).time = s.time ∧ (s.setObj o sub v).free = s.free ∧
    (s.setObj o sub v).regs = s.regs ∧ (s.setObj o sub v).sent = s.sent ∧ (s.setObj o sub v).bin = s.bin ∧
    (s.setObj o sub v).ur = s.ur ∧ (s.setObj o sub v).mc = s.mc ∧ (s.setObj o sub v).hearth = s.hearth ∧
    (s.setObj o sub v).rota = s.rota ∧ (s.setObj o sub v).ledger = s.ledger ∧ (s.setObj o sub v).log = s.log ∧
    (s.setObj o sub v).safe = s.safe ∧ (s.setObj o sub v).sec = s.sec ∧ (s.setObj o sub v).hedge = s.hedge ∧
    (s.setObj o sub v).sv = s.sv ∧ (s.setObj o sub v).hp = s.hp ∧ (s.setObj o sub v).cam = s.cam ∧ (s.setObj o sub v).aud = s.aud ∧
    (s.setObj o sub v).watch = s.watch ∧ (s.setObj o sub v).door = s.door ∧ (s.setObj o sub v).pwr = s.pwr ∧
    (s.setObj o sub v).clk = s.clk ∧ (s.setObj o sub v).reeve = s.reeve ∧ (s.setObj o sub v).upd = s.upd ∧
    (s.setObj o sub v).crier = s.crier ∧ (s.setObj o sub v).boot = s.boot := by
  refine ⟨rfl, rfl, rfl, rfl, rfl, rfl, rfl, rfl, rfl, rfl, rfl, rfl, rfl, rfl, rfl, rfl, rfl, rfl, rfl, rfl, rfl, rfl, rfl, rfl, rfl, rfl, rfl⟩

/-- A counter object changes the objects alone. -/
@[simp] theorem State.bumpObj_frame (s : State) (o : Obj) (sub n : Nat) :
    (s.bumpObj o sub n).pending = s.pending ∧ (s.bumpObj o sub n).time = s.time ∧ (s.bumpObj o sub n).free = s.free ∧
    (s.bumpObj o sub n).regs = s.regs ∧ (s.bumpObj o sub n).sent = s.sent ∧ (s.bumpObj o sub n).bin = s.bin ∧
    (s.bumpObj o sub n).ur = s.ur ∧ (s.bumpObj o sub n).mc = s.mc ∧ (s.bumpObj o sub n).hearth = s.hearth ∧
    (s.bumpObj o sub n).rota = s.rota ∧ (s.bumpObj o sub n).ledger = s.ledger ∧ (s.bumpObj o sub n).log = s.log ∧
    (s.bumpObj o sub n).safe = s.safe ∧ (s.bumpObj o sub n).sec = s.sec ∧ (s.bumpObj o sub n).hedge = s.hedge ∧
    (s.bumpObj o sub n).sv = s.sv ∧ (s.bumpObj o sub n).hp = s.hp ∧ (s.bumpObj o sub n).cam = s.cam ∧
    (s.bumpObj o sub n).aud = s.aud ∧ (s.bumpObj o sub n).watch = s.watch ∧ (s.bumpObj o sub n).door = s.door ∧
    (s.bumpObj o sub n).pwr = s.pwr ∧ (s.bumpObj o sub n).clk = s.clk ∧ (s.bumpObj o sub n).reeve = s.reeve ∧
    (s.bumpObj o sub n).upd = s.upd ∧ (s.bumpObj o sub n).crier = s.crier ∧ (s.bumpObj o sub n).boot = s.boot := by
  refine ⟨rfl, rfl, rfl, rfl, rfl, rfl, rfl, rfl, rfl, rfl, rfl, rfl, rfl, rfl, rfl, rfl, rfl, rfl, rfl, rfl, rfl, rfl, rfl, rfl, rfl, rfl, rfl⟩

/-- Sending changes the outputs alone. -/
@[simp] theorem State.send_frame (s : State) (m : Sent) :
    (s.send m).pending = s.pending ∧ (s.send m).time = s.time ∧ (s.send m).free = s.free ∧ (s.send m).regs = s.regs ∧
    (s.send m).objs = s.objs ∧ (s.send m).bin = s.bin ∧ (s.send m).ur = s.ur ∧ (s.send m).mc = s.mc ∧
    (s.send m).hearth = s.hearth ∧ (s.send m).rota = s.rota ∧ (s.send m).ledger = s.ledger ∧ (s.send m).log = s.log ∧
    (s.send m).safe = s.safe ∧ (s.send m).sec = s.sec ∧ (s.send m).hedge = s.hedge ∧ (s.send m).sv = s.sv ∧ (s.send m).hp = s.hp ∧
    (s.send m).cam = s.cam ∧ (s.send m).aud = s.aud ∧ (s.send m).watch = s.watch ∧ (s.send m).door = s.door ∧
    (s.send m).pwr = s.pwr ∧ (s.send m).clk = s.clk ∧ (s.send m).reeve = s.reeve ∧ (s.send m).upd = s.upd ∧
    (s.send m).crier = s.crier ∧ (s.send m).boot = s.boot := by
  refine ⟨rfl, rfl, rfl, rfl, rfl, rfl, rfl, rfl, rfl, rfl, rfl, rfl, rfl, rfl, rfl, rfl, rfl, rfl, rfl, rfl, rfl, rfl, rfl, rfl, rfl, rfl, rfl⟩

/-- An answer on a bus changes the outputs alone. -/
@[simp] theorem State.answer_frame (s : State) (i : Nat) (ok : Bool) (d : List Byte) :
    (s.answer i ok d).pending = s.pending ∧ (s.answer i ok d).time = s.time ∧ (s.answer i ok d).free = s.free ∧
    (s.answer i ok d).regs = s.regs ∧ (s.answer i ok d).objs = s.objs ∧ (s.answer i ok d).bin = s.bin ∧
    (s.answer i ok d).ur = s.ur ∧ (s.answer i ok d).mc = s.mc ∧ (s.answer i ok d).hearth = s.hearth ∧
    (s.answer i ok d).rota = s.rota ∧ (s.answer i ok d).ledger = s.ledger ∧ (s.answer i ok d).log = s.log ∧
    (s.answer i ok d).safe = s.safe ∧ (s.answer i ok d).sec = s.sec ∧ (s.answer i ok d).hedge = s.hedge ∧
    (s.answer i ok d).sv = s.sv ∧ (s.answer i ok d).hp = s.hp ∧ (s.answer i ok d).cam = s.cam ∧ (s.answer i ok d).aud = s.aud ∧
    (s.answer i ok d).watch = s.watch ∧ (s.answer i ok d).door = s.door ∧ (s.answer i ok d).pwr = s.pwr ∧
    (s.answer i ok d).clk = s.clk ∧ (s.answer i ok d).reeve = s.reeve ∧ (s.answer i ok d).upd = s.upd ∧
    (s.answer i ok d).crier = s.crier ∧ (s.answer i ok d).boot = s.boot := by
  refine ⟨rfl, rfl, rfl, rfl, rfl, rfl, rfl, rfl, rfl, rfl, rfl, rfl, rfl, rfl, rfl, rfl, rfl, rfl, rfl, rfl, rfl, rfl, rfl, rfl, rfl, rfl, rfl⟩

/-- Bringing the time base up changes the time alone. -/
@[simp] theorem State.reach_frame (s : State) (t : Nat) :
    (s.reach t).pending = s.pending ∧ (s.reach t).free = s.free ∧ (s.reach t).regs = s.regs ∧ (s.reach t).objs = s.objs ∧
    (s.reach t).sent = s.sent ∧ (s.reach t).bin = s.bin ∧ (s.reach t).ur = s.ur ∧ (s.reach t).mc = s.mc ∧
    (s.reach t).hearth = s.hearth ∧ (s.reach t).rota = s.rota ∧ (s.reach t).ledger = s.ledger ∧ (s.reach t).log = s.log ∧
    (s.reach t).safe = s.safe ∧ (s.reach t).sec = s.sec ∧ (s.reach t).hedge = s.hedge ∧ (s.reach t).sv = s.sv ∧
    (s.reach t).hp = s.hp ∧ (s.reach t).cam = s.cam ∧ (s.reach t).aud = s.aud ∧ (s.reach t).watch = s.watch ∧
    (s.reach t).door = s.door ∧ (s.reach t).pwr = s.pwr ∧ (s.reach t).clk = s.clk ∧ (s.reach t).reeve = s.reeve ∧
    (s.reach t).upd = s.upd ∧ (s.reach t).crier = s.crier ∧ (s.reach t).boot = s.boot := by
  refine ⟨rfl, rfl, rfl, rfl, rfl, rfl, rfl, rfl, rfl, rfl, rfl, rfl, rfl, rfl, rfl, rfl, rfl, rfl, rfl, rfl, rfl, rfl, rfl, rfl, rfl, rfl, rfl⟩

/-- A new VERSION changes the Crier's part alone. -/
@[simp] theorem State.bumpVersion_frame (s : State) (k : Nat) :
    (s.bumpVersion k).pending = s.pending ∧ (s.bumpVersion k).time = s.time ∧ (s.bumpVersion k).free = s.free ∧
    (s.bumpVersion k).regs = s.regs ∧ (s.bumpVersion k).objs = s.objs ∧ (s.bumpVersion k).sent = s.sent ∧
    (s.bumpVersion k).bin = s.bin ∧ (s.bumpVersion k).ur = s.ur ∧ (s.bumpVersion k).mc = s.mc ∧
    (s.bumpVersion k).hearth = s.hearth ∧ (s.bumpVersion k).rota = s.rota ∧ (s.bumpVersion k).ledger = s.ledger ∧
    (s.bumpVersion k).log = s.log ∧ (s.bumpVersion k).safe = s.safe ∧ (s.bumpVersion k).sec = s.sec ∧
    (s.bumpVersion k).hedge = s.hedge ∧ (s.bumpVersion k).sv = s.sv ∧ (s.bumpVersion k).hp = s.hp ∧ (s.bumpVersion k).cam = s.cam ∧
    (s.bumpVersion k).aud = s.aud ∧ (s.bumpVersion k).watch = s.watch ∧ (s.bumpVersion k).door = s.door ∧
    (s.bumpVersion k).pwr = s.pwr ∧ (s.bumpVersion k).clk = s.clk ∧ (s.bumpVersion k).reeve = s.reeve ∧
    (s.bumpVersion k).upd = s.upd ∧ (s.bumpVersion k).boot = s.boot := by
  refine ⟨rfl, rfl, rfl, rfl, rfl, rfl, rfl, rfl, rfl, rfl, rfl, rfl, rfl, rfl, rfl, rfl, rfl, rfl, rfl, rfl, rfl, rfl, rfl, rfl, rfl, rfl, rfl⟩

/-- Writing several register fields changes the register fields alone. -/
@[simp] theorem State.setFlds_frame (s : State) (i : Nat) (l : List (Fld × Nat)) :
    (s.setFlds i l).pending = s.pending ∧ (s.setFlds i l).time = s.time ∧ (s.setFlds i l).free = s.free ∧
    (s.setFlds i l).objs = s.objs ∧ (s.setFlds i l).sent = s.sent ∧ (s.setFlds i l).bin = s.bin ∧ (s.setFlds i l).ur = s.ur ∧
    (s.setFlds i l).mc = s.mc ∧ (s.setFlds i l).hearth = s.hearth ∧ (s.setFlds i l).rota = s.rota ∧
    (s.setFlds i l).ledger = s.ledger ∧ (s.setFlds i l).log = s.log ∧ (s.setFlds i l).safe = s.safe ∧ (s.setFlds i l).sec = s.sec ∧
    (s.setFlds i l).hedge = s.hedge ∧ (s.setFlds i l).sv = s.sv ∧ (s.setFlds i l).hp = s.hp ∧ (s.setFlds i l).cam = s.cam ∧
    (s.setFlds i l).aud = s.aud ∧ (s.setFlds i l).watch = s.watch ∧ (s.setFlds i l).door = s.door ∧ (s.setFlds i l).pwr = s.pwr ∧
    (s.setFlds i l).clk = s.clk ∧ (s.setFlds i l).reeve = s.reeve ∧ (s.setFlds i l).upd = s.upd ∧ (s.setFlds i l).crier = s.crier ∧
    (s.setFlds i l).boot = s.boot := by
  induction l generalizing s with
  | nil => refine ⟨rfl, rfl, rfl, rfl, rfl, rfl, rfl, rfl, rfl, rfl, rfl, rfl, rfl, rfl, rfl, rfl, rfl, rfl, rfl, rfl, rfl, rfl, rfl, rfl, rfl, rfl, rfl⟩
  | cons x r ih =>
    have h := ih (s.setFld x.1 i x.2)
    simpa [State.setFlds] using h

end Sys2Proof.Machine
end

