-- ==== Sys2Proof/Laws/Ops.lean ====
section
/-!
SUPPORT. What the operations of Ops.lean do to what they are about: a register field or an object reads back what was written to it, and
another reads as before; a command leaves the queue of waiting commands as it was.
-/
namespace Sys2Proof.Machine

/-! ## Commands -/

/-- What a command answers, but for the queue, which stays. -/
theorem State.command_next {s t : State} {f : State → Host.Outcome State Fault Refusal} (h : f s = .next t) :
    s.command f = .next { t with pending := s.pending } := by
  simp [State.command, h]

/-- A command leaves the queue as it was. -/
theorem State.command_pending {s t : State} {f : State → Host.Outcome State Fault Refusal} (h : s.command f = .next t) :
    t.pending = s.pending := by
  unfold State.command at h
  split at h
  · cases h; rfl
  · cases h
  · cases h

/-- A command of a state with another queue gives the same, but for the queue, when its meaning does. -/
theorem State.command_goes {s : State} {f : State → Host.Outcome State Fault Refusal} (h : ∃ t, f s = .next t) :
    ∃ t, s.command f = .next t :=
  let ⟨_, h⟩ := h
  ⟨_, State.command_next h⟩

/-! ## Register fields -/

/-- The key of a field tells the field and the instance. -/
theorem Fld.key_ne {f g : Fld} {i j : Nat} (h : f.ctorIdx ≠ g.ctorIdx) (hi : i < 65536) (hj : j < 65536) : f.key i ≠ g.key j := by
  unfold Fld.key; omega

theorem Fld.key_ne_inst {f : Fld} {i j : Nat} (h : i ≠ j) : f.key i ≠ f.key j := by
  unfold Fld.key; omega

/-- A field reads back the low bits of what was written. -/
@[simp] theorem State.fld_setFld_same (s : State) (f : Fld) (i v : Nat) : (s.setFld f i v).fld f i = v % 2 ^ f.width := by
  simp [State.fld, State.setFld]

/-- A write leaves every other field as it was. -/
theorem State.fld_setFld_ne (s : State) {f g : Fld} {i j v : Nat} (h : g.key j ≠ f.key i) : (s.setFld f i v).fld g j = s.fld g j := by
  simp [State.fld, State.setFld, SMap.get_put_ne h]

@[simp] theorem State.flag_setFld_same (s : State) (f : Fld) (i v : Nat) :
    (s.setFld f i v).flag f i = (v % 2 ^ f.width == 1) := by
  simp [State.flag]

theorem State.flag_setFld_ne (s : State) {f g : Fld} {i j v : Nat} (h : g.key j ≠ f.key i) :
    (s.setFld f i v).flag g j = s.flag g j := by
  simp [State.flag, State.fld_setFld_ne s h]

/-- A counter field takes its sum modulo its width. -/
@[simp] theorem State.fld_bumpFld_same (s : State) (f : Fld) (i n : Nat) :
    (s.bumpFld f i n).fld f i = (s.fld f i + n) % 2 ^ f.width := by
  simp [State.bumpFld]

/-- Fields read from the register map alone. -/
theorem State.fld_congr {s t : State} (h : s.regs = t.regs) (f : Fld) (i : Nat) : s.fld f i = t.fld f i := by
  simp [State.fld, h]

/-! ## Objects -/

/-- An object reads back what was written. -/
@[simp] theorem State.objVal_setObjVal_same (s : State) (o : Obj) (sub : Nat) (v : Val) : (s.setObjVal o sub v).objVal o sub = v := by
  simp [State.objVal, State.setObjVal]

theorem State.objVal_setObjVal_ne (s : State) {o p : Obj} {sub sub' : Nat} {v : Val} (h : p.key sub' ≠ o.key sub) :
    (s.setObjVal o sub v).objVal p sub' = s.objVal p sub' := by
  simp [State.objVal, State.setObjVal, SMap.get_put_ne h]

@[simp] theorem State.obj_setObj_same (s : State) (o : Obj) (sub v : Nat) : (s.setObj o sub v).obj o sub = v := by
  simp [State.obj, State.setObj, Val.toNat]

/-- A counter object wraps at 2^64 (R65). -/
@[simp] theorem State.obj_bumpObj_same (s : State) (o : Obj) (sub n : Nat) : (s.bumpObj o sub n).obj o sub = (s.obj o sub + n) % 2 ^ 64 := by
  simp [State.bumpObj]

/-! ## The canonical form of the registers and objects -/

/-- What a register key reads as unlisted does not matter for the order of the keys. -/
theorem State.setFld_rising (s : State) (f : Fld) (i v : Nat) (h : SMap.rising 0 s.regs = true) :
    SMap.rising 0 (s.setFld f i v).regs = true :=
  SMap.rising_put h (Nat.zero_le _)

theorem State.setObjVal_rising (s : State) (o : Obj) (sub : Nat) (v : Val) (h : SMap.rising 0 s.objs = true) :
    SMap.rising 0 (s.setObjVal o sub v).objs = true :=
  SMap.rising_put h (Nat.zero_le _)

end Sys2Proof.Machine
end

