-- ==== Sys2Proof/Laws/Issue.lean ====
section
/-!
SUPPORT. The issue unit: what settling does when nothing waits, and when one command waits and issues.
-/
namespace Sys2Proof.Machine

/-! ## Cores -/

@[simp] theorem State.core_setCore (s : State) (c : Nat) (x : Core) : (s.setCore c x).core c = x := by
  simp [State.core, State.setCore]

theorem State.core_setCore_ne (s : State) {c d : Nat} (x : Core) (h : d ≠ c) : (s.setCore c x).core d = s.core d := by
  simp [State.core, State.setCore, SMap.get_put_ne h]

@[simp] theorem State.core_updCore (s : State) (c : Nat) (f : Core → Core) : (s.updCore c f).core c = f (s.core c) := by
  simp [State.updCore]

theorem State.core_updCore_ne (s : State) {c d : Nat} (f : Core → Core) (h : d ≠ c) : (s.updCore c f).core d = s.core d := by
  simp [State.updCore, State.core_setCore_ne _ _ h]

/-- Cores read from the Rota's part of the state alone. -/
theorem State.core_congr {s t : State} (h : s.rota = t.rota) (c : Nat) : s.core c = t.core c := by
  simp [State.core, h]

/-! ## Settling -/

theorem State.calm_core {s : State} (h : s.calm = true) {c : Nat} (hc : c < 8) : (s.core c).queue = [] ∧ (s.core c).ending = none := by
  simpa using (List.all_eq_true.mp h) c (List.mem_range.mpr hc)

/-- A core without a waiting command issues nothing. -/
theorem State.drainQueue_empty {s : State} {c n : Nat} (h : (s.core c).queue = []) : s.drainQueue n c = s := by
  cases n with
  | zero => rfl
  | succ n => unfold State.drainQueue; rw [h]

theorem State.drainAll_empty {l : List Nat} {s : State} (h : ∀ c ∈ l, (s.core c).queue = []) :
    l.foldl (fun s c => s.drainQueue ((s.core c).queue.length) c) s = s := by
  induction l with
  | nil => rfl
  | cons a r ih => rw [List.foldl_cons, drainQueue_empty (h a (by simp))]; exact ih (fun c hc => h c (by simp [hc]))

/-- With no waiting command, a sweep does nothing. -/
theorem State.sweep_empty {s : State} {n : Nat} (h : ∀ c < 8, (s.core c).queue = []) : s.sweep n = s := by
  cases n with
  | zero => rfl
  | succ n =>
    unfold State.sweep
    rw [drainAll_empty (fun c hc => h c (List.mem_range.mp hc))]
    simp

/-- With no job ending, none finishes. -/
theorem State.finishAll_none {s : State} (h : ∀ c < 8, (s.core c).ending = none) : s.finishAll = s := by
  have : (List.range 8).filter (fun c => (s.core c).ending.isSome && s.quiet c) = [] := by
    rw [List.filter_eq_nil_iff]
    intro c hc
    simp [h c (List.mem_range.mp hc)]
  unfold State.finishAll
  rw [this]
  rfl

/-- A calm state is settled. -/
theorem State.settle_calm {s : State} (h : s.calm = true) : s.settle = s := by
  unfold State.settle
  rw [sweep_empty (fun c hc => (calm_core h hc).1), finishAll_none (fun c hc => (calm_core h hc).2)]

theorem State.drainAll_one {l : List Nat} {s u : State} {c : Nat} {i : Issue} (hl : ∀ d ∈ l, d < 8) (hq : (s.core c).queue = [i])
    (ho : ∀ d < 8, d ≠ c → (s.core d).queue = []) (hd : s.drainQueue 1 c = u) (hu : ∀ d < 8, (u.core d).queue = []) :
    l.foldl (fun s c => s.drainQueue ((s.core c).queue.length) c) s = if c ∈ l then u else s := by
  induction l with
  | nil => rfl
  | cons a r ih =>
    rw [List.foldl_cons]
    by_cases h : a = c
    · subst h
      rw [hq, List.length_singleton, hd, drainAll_empty (fun d hd' => hu d (hl d (by simp [hd'])))]
      simp
    · rw [drainQueue_empty (ho a (hl a (by simp)) h), ih (fun d hd' => hl d (by simp [hd']))]
      simp [Ne.symm h]

/-- One command waits, and it issues: the state after it, with the jobs that it ends finished. -/
theorem State.settle_one {s u : State} {c : Nat} {i : Issue} (hc : c < 8) (hq : (s.core c).queue = [i])
    (ho : ∀ d < 8, d ≠ c → (s.core d).queue = []) (ht : s.tryIssue c i = (true, u))
    (hu : (u.core c).queue = [i] ∨ (u.core c).queue = []) (huo : ∀ d < 8, d ≠ c → (u.core d).queue = []) :
    s.settle = (u.issued c).finishAll := by
  have hi : s.drainQueue 1 c = u.issued c := by
    unfold State.drainQueue
    rw [hq]
    simp only [ht]
    unfold State.drainQueue State.issued State.updCore
    congr 1
    rcases hu with h | h <;> simp [h]
  have hu' : ∀ d < 8, ((u.issued c).core d).queue = [] := by
    intro d hd
    by_cases h : d = c
    · subst h; simp [State.issued]
    · unfold State.issued; rw [core_updCore_ne _ _ h]; exact huo d hd h
  unfold State.settle State.sweep
  rw [drainAll_one (fun d hd => List.mem_range.mp hd) hq ho hi hu', if_pos (List.mem_range.mpr hc)]
  simp only [sweep_empty hu', ite_self]

end Sys2Proof.Machine
end

