-- ==== Sys2Proof/Laws/Memory.lean ====
section
/-!
SUPPORT. The addressed memories keep their canonical form: one lemma for each operation of the shared files.
-/
namespace Sys2Proof.Machine
set_option linter.all false

/-- The addressed memories of a state are in canonical form. -/
structure MemOk (s : State) : Prop where
  bin : SMap.wf (fun _ => 0) s.bin.mem = true
  home : SMap.wf (fun _ => 0) s.ur.home = true
  frame : SMap.wf (fun _ => 0) s.ur.frame = true
  plane : SMap.wf (fun _ => 0) s.hearth.plane = true
  spill : SMap.wf (fun _ => 0) s.hearth.spill = true
  window : SMap.wf (fun _ => 0) s.crier.window = true

/-- The memories of a state. -/
abbrev State.mems (s : State) := (s.bin.mem, s.ur.home, s.ur.frame, s.hearth.plane, s.hearth.spill, s.crier.window)

/-- A state with the same memories. -/
theorem MemOk.same {s t : State} (h : MemOk s) (e : t.mems = s.mems) : MemOk t := by
  simp only [State.mems, Prod.mk.injEq] at e
  obtain ⟨a, b, c, d, f, g⟩ := e
  exact ⟨a ▸ h.bin, b ▸ h.home, c ▸ h.frame, d ▸ h.plane, f ▸ h.spill, g ▸ h.window⟩

theorem MemOk.foldl {α : Type} {s : State} {F : State → α → State} {xs : List α} (h : MemOk s)
    (hF : ∀ s x, MemOk s → MemOk (F s x)) : MemOk (xs.foldl F s) := by
  induction xs generalizing s with
  | nil => exact h
  | cons a r ih => exact ih (hF s a h)

theorem MemOk.ite {s t : State} {c : Prop} [Decidable c] (h : MemOk s) (k : MemOk t) : MemOk (if c then s else t) := by split <;> assumption

theorem wf_put0 {m : SMap Byte} {k : Nat} {v : Byte} (hm : SMap.wf (fun _ => 0) m = true) : SMap.wf (fun _ => 0) (SMap.put m k v 0) = true :=
  SMap.wf_put (d := fun _ => 0) hm
theorem wf_put32 {m : SMap Word} {k : Nat} {v : Word} (hm : SMap.wf (fun _ => 0) m = true) : SMap.wf (fun _ => 0) (SMap.put m k v 0#32) = true :=
  SMap.wf_put (d := fun _ => 0) hm
theorem wf_puts {α : Type} {m : SMap Byte} {xs : List α} {k : α → Nat} {v : α → Byte} (hm : SMap.wf (fun _ => 0) m = true) :
    SMap.wf (fun _ => 0) (xs.foldl (fun m w => SMap.put m (k w) (v w) 0) m) = true := by
  induction xs generalizing m with
  | nil => exact hm
  | cons a r ih => exact ih (wf_put0 hm)

/-- Whatever next state a command answers has its memories in canonical form. -/
structure MemNext (o : Host.Outcome State Fault Refusal) : Prop where
  ok : ∀ t, o = .next t → MemOk t
theorem MemNext.next {t : State} (h : MemOk t) : MemNext (.next t) := ⟨fun _ e => by cases e; exact h⟩
theorem MemNext.ite {a b : Host.Outcome State Fault Refusal} {c : Prop} [Decidable c] (h : MemNext a) (k : MemNext b) :
    MemNext (if c then a else b) := by split <;> assumption
theorem MemNext.command {s : State} {f : State → Host.Outcome State Fault Refusal} (h : MemNext (f s)) : MemNext (s.command f) := by
  refine ⟨fun t e => ?_⟩
  unfold State.command at e
  split at e
  · rename_i u hu; cases e; exact (h.ok u hu).same rfl
  · cases e
  · cases e

theorem State.setFld_mem {s : State} (f : Fld) (i v : Nat) (hM : MemOk s) : MemOk (State.setFld s f i v) := by
  unfold State.setFld
  repeat' (first
    | with_reducible assumption
    | ((conv => pattern (State.mk ..)); with_reducible apply MemOk.same; case e => (dsimp only [State.mems]; first | done | with_reducible rfl)))

theorem State.setFlds_mem {s : State} (i : Nat) (l : List (Fld × Nat)) (hM : MemOk s) : MemOk (State.setFlds s i l) := by
  unfold State.setFlds
  repeat' (first
    | with_reducible assumption
    | intro _
    | with_reducible apply MemOk.foldl
    | with_reducible apply State.setFld_mem)

theorem State.bumpFld_mem {s : State} (f : Fld) (i n : Nat) (hM : MemOk s) : MemOk (State.bumpFld s f i n) := by
  unfold State.bumpFld
  repeat' (first
    | with_reducible assumption
    | with_reducible apply State.setFld_mem)

theorem State.setObjVal_mem {s : State} (o : Obj) (sub : Nat) (v : Val) (hM : MemOk s) : MemOk (State.setObjVal s o sub v) := by
  unfold State.setObjVal
  repeat' (first
    | with_reducible assumption
    | ((conv => pattern (State.mk ..)); with_reducible apply MemOk.same; case e => (dsimp only [State.mems]; first | done | with_reducible rfl)))

theorem State.setObj_mem {s : State} (o : Obj) (sub v : Nat) (hM : MemOk s) : MemOk (State.setObj s o sub v) := by
  unfold State.setObj
  repeat' (first
    | with_reducible assumption
    | with_reducible apply State.setObjVal_mem)

theorem State.bumpObj_mem {s : State} (o : Obj) (sub n : Nat) (hM : MemOk s) : MemOk (State.bumpObj s o sub n) := by
  unfold State.bumpObj
  repeat' (first
    | with_reducible assumption
    | with_reducible apply State.setObj_mem)

theorem State.bumpVersion_mem {s : State} (key : Nat) (hM : MemOk s) : MemOk (State.bumpVersion s key) := by
  unfold State.bumpVersion
  repeat' (first
    | with_reducible assumption
    | dsimp only
    | ((conv => pattern (State.mk ..)); with_reducible apply MemOk.same; case e => (dsimp only [State.mems]; first | done | with_reducible rfl)))

theorem State.fresh_mem {s : State} (hM : MemOk s) : MemOk (State.fresh s).2 := by
  unfold State.fresh
  repeat' (first
    | with_reducible assumption
    | dsimp only
    | ((conv => pattern (State.mk ..)); with_reducible apply MemOk.same; case e => (dsimp only [State.mems]; first | done | with_reducible rfl)))

theorem State.send_mem {s : State} (m : Sent) (hM : MemOk s) : MemOk (State.send s m) := by
  unfold State.send
  repeat' (first
    | with_reducible assumption
    | ((conv => pattern (State.mk ..)); with_reducible apply MemOk.same; case e => (dsimp only [State.mems]; first | done | with_reducible rfl)))

theorem State.reach_mem {s : State} (t : Nat) (hM : MemOk s) : MemOk (State.reach s t) := by
  unfold State.reach
  repeat' (first
    | with_reducible assumption
    | ((conv => pattern (State.mk ..)); with_reducible apply MemOk.same; case e => (dsimp only [State.mems]; first | done | with_reducible rfl)))

theorem State.tick_mem {s : State} (hM : MemOk s) : MemOk (State.tick s) := by
  unfold State.tick
  repeat' (first
    | with_reducible assumption
    | split
    | dsimp only
    | ((conv => pattern (State.mk ..)); with_reducible apply MemOk.same; case e => (dsimp only [State.mems]; first | done | with_reducible rfl)))

theorem State.answer_mem {s : State} (init : Nat) (ok : Bool) (data : List Byte) (hM : MemOk s) : MemOk (State.answer s init ok data) := by
  unfold State.answer
  repeat' (first
    | with_reducible assumption
    | with_reducible apply State.send_mem)

theorem State.logEvent_mem {s : State} (tag : LogTag) (source flags a0 a1 a2 : Nat) (hM : MemOk s) : MemOk (State.logEvent s tag source flags a0 a1 a2) := by
  unfold State.logEvent
  repeat' (first
    | with_reducible assumption
    | with_reducible apply MemOk.ite
    | with_reducible apply State.bumpObj_mem
    | with_reducible apply State.setObj_mem
    | dsimp only
    | ((conv => pattern (State.mk ..)); with_reducible apply MemOk.same; case e => (dsimp only [State.mems]; first | done | with_reducible rfl)))

theorem State.flushLog_mem {s : State} (hM : MemOk s) : MemOk (State.flushLog s) := by
  unfold State.flushLog
  repeat' (first
    | with_reducible assumption
    | with_reducible apply State.setObj_mem
    | split
    | dsimp only
    | ((conv => pattern (State.mk ..)); with_reducible apply MemOk.same; case e => (dsimp only [State.mems]; first | done | with_reducible rfl)))

theorem State.logIt_mem {s : State} (tag : LogTag) (source flags a0 a1 a2 : Nat) (hM : MemOk s) : MemOk (State.logIt s tag source flags a0 a1 a2) := by
  unfold State.logIt
  repeat' (first
    | with_reducible assumption
    | with_reducible apply MemOk.ite
    | with_reducible apply State.flushLog_mem
    | with_reducible apply State.logEvent_mem)

theorem State.worldError_mem {s : State} (f : Fld) (i : Nat) (hM : MemOk s) : MemOk (State.worldError s f i) := by
  unfold State.worldError
  repeat' (first
    | with_reducible assumption
    | with_reducible apply State.logIt_mem
    | with_reducible apply State.send_mem)

theorem State.reservedAccess_mem {s : State} (addr : Nat) (hM : MemOk s) : MemOk (State.reservedAccess s addr) := by
  unfold State.reservedAccess
  repeat' (first
    | with_reducible assumption
    | intro _
    | with_reducible apply MemOk.ite
    | (extract_lets +onlyGivenNames u; refine (fun (hu : MemOk u) => ?_) ?_; clear_value u; rotate_left; unfold u; clear u)
    | with_reducible apply MemOk.foldl
    | with_reducible apply State.logIt_mem
    | with_reducible apply State.send_mem
    | split
    | dsimp only
    | ((conv => pattern (State.mk ..)); with_reducible apply MemOk.same; case e => (dsimp only [State.mems]; first | done | with_reducible rfl)))

theorem State.objRefused_mem {s : State} (index sub : Nat) (hM : MemOk s) : MemOk (State.objRefused s index sub) := by
  unfold State.objRefused
  repeat' (first
    | with_reducible assumption
    | intro _
    | with_reducible apply MemOk.ite
    | (extract_lets +onlyGivenNames u; refine (fun (hu : MemOk u) => ?_) ?_; clear_value u; rotate_left; unfold u; clear u)
    | with_reducible apply MemOk.foldl
    | with_reducible apply State.logIt_mem
    | split
    | dsimp only
    | ((conv => pattern (State.mk ..)); with_reducible apply MemOk.same; case e => (dsimp only [State.mems]; first | done | with_reducible rfl)))

theorem State.refuseAccess_mem {s : State} (q : Requester) (write : Bool) (space unit : Nat) (hM : MemOk s) : MemOk (State.refuseAccess s q write space unit) := by
  unfold State.refuseAccess
  repeat' (first
    | with_reducible assumption
    | with_reducible apply MemOk.ite
    | with_reducible apply State.logIt_mem
    | with_reducible apply State.bumpObj_mem
    | with_reducible apply State.setFlds_mem
    | dsimp only
    | ((conv => pattern (State.mk ..)); with_reducible apply MemOk.same; case e => (dsimp only [State.mems]; first | done | with_reducible rfl)))

theorem State.setMcQueue_mem {s : State} (c : Nat) (l : List McReq) (hM : MemOk s) : MemOk (State.setMcQueue s c l) := by
  unfold State.setMcQueue
  repeat' (first
    | with_reducible assumption
    | dsimp only
    | ((conv => pattern (State.mk ..)); with_reducible apply MemOk.same; case e => (dsimp only [State.mems]; first | done | with_reducible rfl)))

theorem State.setTarget_mem {s : State} (port v : Nat) (hM : MemOk s) : MemOk (State.setTarget s port v) := by
  unfold State.setTarget
  repeat' (first
    | with_reducible assumption
    | intro _
    | with_reducible apply MemOk.ite
    | (extract_lets +onlyGivenNames u; refine (fun (hu : MemOk u) => ?_) ?_; clear_value u; rotate_left; unfold u; clear u)
    | with_reducible apply MemOk.foldl
    | with_reducible apply State.setFld_mem
    | split
    | dsimp only
    | ((conv => pattern (State.mk ..)); with_reducible apply MemOk.same; case e => (dsimp only [State.mems]; first | done | with_reducible rfl)))

theorem State.mcTake_mem {s : State} (r : McReq) (hM : MemOk s) : MemOk (State.mcTake s r) := by
  unfold State.mcTake
  repeat' (first
    | with_reducible assumption
    | intro _
    | with_reducible apply MemOk.ite
    | (extract_lets +onlyGivenNames u; refine (fun (hu : MemOk u) => ?_) ?_; clear_value u; rotate_left; unfold u; clear u)
    | with_reducible apply MemOk.foldl
    | with_reducible apply State.setMcQueue_mem
    | split
    | dsimp only
    | ((conv => pattern (State.mk ..)); with_reducible apply MemOk.same; case e => (dsimp only [State.mems]; first | done | with_reducible rfl)))

theorem State.mcAdmit_mem {s : State} (hM : MemOk s) : MemOk (State.mcAdmit s) := by
  unfold State.mcAdmit
  repeat' (first
    | with_reducible assumption
    | intro _
    | with_reducible apply MemOk.ite
    | (extract_lets +onlyGivenNames u; refine (fun (hu : MemOk u) => ?_) ?_; clear_value u; rotate_left; unfold u; clear u)
    | with_reducible apply MemOk.foldl
    | with_reducible apply State.mcTake_mem
    | dsimp only
    | ((conv => pattern (State.mk ..)); with_reducible apply MemOk.same; case e => (dsimp only [State.mems]; first | done | with_reducible rfl)))

theorem State.mcRequest_mem {s : State} (port off : Nat) (write : Bool) (deadline : Option Nat) (hM : MemOk s) : MemOk (State.mcRequest s port off write deadline) := by
  unfold State.mcRequest
  repeat' (first
    | with_reducible assumption
    | intro _
    | with_reducible apply MemOk.ite
    | (extract_lets +onlyGivenNames u; refine (fun (hu : MemOk u) => ?_) ?_; clear_value u; rotate_left; unfold u; clear u)
    | with_reducible apply MemOk.foldl
    | with_reducible apply State.mcTake_mem
    | split
    | dsimp only
    | ((conv => pattern (State.mk ..)); with_reducible apply MemOk.same; case e => (dsimp only [State.mems]; first | done | with_reducible rfl)))

theorem State.rollAct_mem {s : State} (key : Nat) (hM : MemOk s) : MemOk (State.rollAct s key) := by
  unfold State.rollAct
  repeat' (first
    | with_reducible assumption
    | intro _
    | with_reducible apply MemOk.ite
    | (extract_lets +onlyGivenNames u; refine (fun (hu : MemOk u) => ?_) ?_; clear_value u; rotate_left; unfold u; clear u)
    | with_reducible apply MemOk.foldl
    | split
    | dsimp only
    | ((conv => pattern (State.mk ..)); with_reducible apply MemOk.same; case e => (dsimp only [State.mems]; first | done | with_reducible rfl)))

theorem State.activate_mem {s : State} (key row : Nat) (hM : MemOk s) : MemOk (State.activate s key row) := by
  unfold State.activate
  repeat' (first
    | with_reducible assumption
    | with_reducible apply MemOk.ite
    | with_reducible apply State.rollAct_mem
    | split
    | dsimp only
    | ((conv => pattern (State.mk ..)); with_reducible apply MemOk.same; case e => (dsimp only [State.mems]; first | done | with_reducible rfl)))

theorem State.nearRefresh_mem {s : State} (key : Nat) (hM : MemOk s) : MemOk (State.nearRefresh s key) := by
  unfold State.nearRefresh
  repeat' (first
    | with_reducible assumption
    | intro _
    | with_reducible apply MemOk.ite
    | (extract_lets +onlyGivenNames u; refine (fun (hu : MemOk u) => ?_) ?_; clear_value u; rotate_left; unfold u; clear u)
    | with_reducible apply MemOk.foldl
    | with_reducible apply State.bumpObj_mem
    | with_reducible apply State.activate_mem
    | split
    | dsimp only
    | ((conv => pattern (State.mk ..)); with_reducible apply MemOk.same; case e => (dsimp only [State.mems]; first | done | with_reducible rfl)))

theorem State.mcSlot_mem {s : State} (channel : Nat) (hM : MemOk s) : MemOk (State.mcSlot s channel) := by
  unfold State.mcSlot
  repeat' (first
    | with_reducible assumption
    | intro _
    | with_reducible apply MemOk.ite
    | (extract_lets +onlyGivenNames u; refine (fun (hu : MemOk u) => ?_) ?_; clear_value u; rotate_left; unfold u; clear u)
    | with_reducible apply MemOk.foldl
    | with_reducible apply State.nearRefresh_mem
    | split
    | dsimp only
    | ((conv => pattern (State.mk ..)); with_reducible apply MemOk.same; case e => (dsimp only [State.mems]; first | done | with_reducible rfl)))

theorem State.setDir_mem {s : State} (f : Nat) (e : DirEntry) (hM : MemOk s) : MemOk (State.setDir s f e) := by
  unfold State.setDir
  repeat' (first
    | with_reducible assumption
    | dsimp only
    | ((conv => pattern (State.mk ..)); with_reducible apply MemOk.same; case e => (dsimp only [State.mems]; first | done | with_reducible rfl)))

theorem State.setPageState_mem {s : State} (p : Nat) (e : PageState) (hM : MemOk s) : MemOk (State.setPageState s p e) := by
  unfold State.setPageState
  repeat' (first
    | with_reducible assumption
    | dsimp only
    | ((conv => pattern (State.mk ..)); with_reducible apply MemOk.same; case e => (dsimp only [State.mems]; first | done | with_reducible rfl)))

theorem State.putHome_mem {s : State} (off : Nat) (bs : List Byte) (gs : List Nat) (hM : MemOk s) : MemOk (State.putHome s off bs gs) := by
  unfold State.putHome
  repeat' (first
    | with_reducible assumption
    | intro _
    | with_reducible apply MemOk.ite
    | (extract_lets +onlyGivenNames u; refine (fun (hu : MemOk u) => ?_) ?_; clear_value u; rotate_left; unfold u; clear u)
    | with_reducible apply MemOk.foldl
    | split
    | dsimp only
    | ((conv => pattern (State.mk ..)); with_reducible apply MemOk.same; case e => (dsimp only [State.mems]; first | done | with_reducible rfl))
    | (with_reducible refine MemOk.mk ?_ ?_ ?_ ?_ ?_ ?_ <;> dsimp only <;> (repeat' (with_reducible first | exact MemOk.bin (by assumption) | exact MemOk.home (by assumption) | exact MemOk.frame (by assumption) | exact MemOk.plane (by assumption) | exact MemOk.spill (by assumption) | exact MemOk.window (by assumption) | apply SMap.wf_putRun | apply SMap.wf_clear | apply SMap.wf_copy | apply wf_puts | apply wf_put0 | apply wf_put32)) <;> done))

theorem State.encodeHome_mem {s : State} (p : Nat) (encode : Bool) (hM : MemOk s) : MemOk (State.encodeHome s p encode) := by
  unfold State.encodeHome
  repeat' (first
    | with_reducible assumption
    | intro _
    | with_reducible apply MemOk.ite
    | (extract_lets +onlyGivenNames u; refine (fun (hu : MemOk u) => ?_) ?_; clear_value u; rotate_left; unfold u; clear u)
    | with_reducible apply MemOk.foldl
    | with_reducible apply State.putHome_mem
    | with_reducible apply State.setPageState_mem
    | (split; all_goals first | (with_reducible have hx := congrArg Prod.snd ‹(_ : _ × State) = (_, _)›; dsimp only at hx; subst hx) | (with_reducible have hx := congrArg (fun x => x.2.2) ‹(_ : _ × _ × State) = (_, _, _)›; dsimp only at hx; subst hx) | skip)
    | dsimp only
    | ((conv => pattern (State.mk ..)); with_reducible apply MemOk.same; case e => (dsimp only [State.mems]; first | done | with_reducible rfl)))

theorem State.mergeHome_mem {s : State} (off : Nat) (bs : List Byte) (gs : List Nat) (hM : MemOk s) : MemOk (State.mergeHome s off bs gs) := by
  unfold State.mergeHome
  repeat' (first
    | with_reducible assumption
    | intro _
    | with_reducible apply MemOk.ite
    | (extract_lets +onlyGivenNames u; refine (fun (hu : MemOk u) => ?_) ?_; clear_value u; rotate_left; unfold u; clear u)
    | with_reducible apply MemOk.foldl
    | with_reducible apply State.encodeHome_mem
    | with_reducible apply State.putHome_mem
    | split
    | dsimp only
    | ((conv => pattern (State.mk ..)); with_reducible apply MemOk.same; case e => (dsimp only [State.mems]; first | done | with_reducible rfl)))

theorem State.wholeHome_mem {s : State} (p : Nat) (bs : List Byte) (hM : MemOk s) : MemOk (State.wholeHome s p bs) := by
  unfold State.wholeHome
  repeat' (first
    | with_reducible assumption
    | intro _
    | with_reducible apply MemOk.ite
    | (extract_lets +onlyGivenNames u; refine (fun (hu : MemOk u) => ?_) ?_; clear_value u; rotate_left; unfold u; clear u)
    | with_reducible apply MemOk.foldl
    | with_reducible apply State.encodeHome_mem
    | with_reducible apply State.putHome_mem
    | split
    | dsimp only
    | ((conv => pattern (State.mk ..)); with_reducible apply MemOk.same; case e => (dsimp only [State.mems]; first | done | with_reducible rfl)))

theorem State.frameToHome_mem {s : State} (f p : Nat) (hM : MemOk s) : MemOk (State.frameToHome s f p) := by
  unfold State.frameToHome
  repeat' (first
    | with_reducible apply State.encodeHome_mem
    | dsimp only
    | (with_reducible refine MemOk.mk ?_ ?_ ?_ ?_ ?_ ?_ <;> dsimp only <;> (repeat' (with_reducible first | exact MemOk.bin (by assumption) | exact MemOk.home (by assumption) | exact MemOk.frame (by assumption) | exact MemOk.plane (by assumption) | exact MemOk.spill (by assumption) | exact MemOk.window (by assumption) | apply SMap.wf_putRun | apply SMap.wf_clear | apply SMap.wf_copy | apply wf_puts | apply wf_put0 | apply wf_put32)) <;> done))

theorem State.homeToFrame_mem {s : State} (p f : Nat) (hM : MemOk s) : MemOk (State.homeToFrame s p f) := by
  unfold State.homeToFrame
  repeat' (first
    | with_reducible assumption
    | intro _
    | with_reducible apply MemOk.ite
    | (extract_lets +onlyGivenNames u; refine (fun (hu : MemOk u) => ?_) ?_; clear_value u; rotate_left; unfold u; clear u)
    | with_reducible apply MemOk.foldl
    | (split; all_goals first | (with_reducible have hx := congrArg Prod.snd ‹(_ : _ × State) = (_, _)›; dsimp only at hx; subst hx) | (with_reducible have hx := congrArg (fun x => x.2.2) ‹(_ : _ × _ × State) = (_, _, _)›; dsimp only at hx; subst hx) | skip)
    | dsimp only
    | ((conv => pattern (State.mk ..)); with_reducible apply MemOk.same; case e => (dsimp only [State.mems]; first | done | with_reducible rfl))
    | (with_reducible refine MemOk.mk ?_ ?_ ?_ ?_ ?_ ?_ <;> dsimp only <;> (repeat' (with_reducible first | exact MemOk.bin (by assumption) | exact MemOk.home (by assumption) | exact MemOk.frame (by assumption) | exact MemOk.plane (by assumption) | exact MemOk.spill (by assumption) | exact MemOk.window (by assumption) | apply SMap.wf_putRun | apply SMap.wf_clear | apply SMap.wf_copy | apply wf_puts | apply wf_put0 | apply wf_put32)) <;> done))

theorem State.dropFrame_mem {s : State} (f : Nat) (st : FrameState) (hM : MemOk s) : MemOk (State.dropFrame s f st) := by
  unfold State.dropFrame
  repeat' (first
    | with_reducible apply State.setDir_mem
    | dsimp only
    | (with_reducible refine MemOk.mk ?_ ?_ ?_ ?_ ?_ ?_ <;> dsimp only <;> (repeat' (with_reducible first | exact MemOk.bin (by assumption) | exact MemOk.home (by assumption) | exact MemOk.frame (by assumption) | exact MemOk.plane (by assumption) | exact MemOk.spill (by assumption) | exact MemOk.window (by assumption) | apply SMap.wf_putRun | apply SMap.wf_clear | apply SMap.wf_copy | apply wf_puts | apply wf_put0 | apply wf_put32)) <;> done))

theorem State.setPinOf_mem {s : State} (p : Nat) (v : Bool) (hM : MemOk s) : MemOk (State.setPinOf s p v) := by
  unfold State.setPinOf
  repeat' (first
    | with_reducible assumption
    | intro _
    | with_reducible apply MemOk.ite
    | (extract_lets +onlyGivenNames u; refine (fun (hu : MemOk u) => ?_) ?_; clear_value u; rotate_left; unfold u; clear u)
    | with_reducible apply MemOk.foldl
    | with_reducible apply State.setDir_mem
    | split
    | dsimp only
    | ((conv => pattern (State.mk ..)); with_reducible apply MemOk.same; case e => (dsimp only [State.mems]; first | done | with_reducible rfl)))

theorem State.fillHome_mem {s : State} (x : Fill) (hM : MemOk s) : MemOk (State.fillHome s x) := by
  unfold State.fillHome
  repeat' (first
    | with_reducible assumption
    | intro _
    | with_reducible apply MemOk.ite
    | (extract_lets +onlyGivenNames u; refine (fun (hu : MemOk u) => ?_) ?_; clear_value u; rotate_left; unfold u; clear u)
    | with_reducible apply MemOk.foldl
    | with_reducible apply State.setPinOf_mem
    | with_reducible apply State.mcRequest_mem
    | with_reducible apply State.setDir_mem
    | with_reducible apply State.homeToFrame_mem
    | split
    | dsimp only
    | ((conv => pattern (State.mk ..)); with_reducible apply MemOk.same; case e => (dsimp only [State.mems]; first | done | with_reducible rfl)))

theorem State.freeFrame_mem {s : State} (f : Nat) (hM : MemOk s) : MemOk (State.freeFrame s f) := by
  unfold State.freeFrame
  repeat' (first
    | with_reducible assumption
    | intro _
    | with_reducible apply MemOk.ite
    | (extract_lets +onlyGivenNames u; refine (fun (hu : MemOk u) => ?_) ?_; clear_value u; rotate_left; unfold u; clear u)
    | with_reducible apply MemOk.foldl
    | with_reducible apply State.fillHome_mem
    | with_reducible apply State.dropFrame_mem
    | split
    | dsimp only
    | ((conv => pattern (State.mk ..)); with_reducible apply MemOk.same; case e => (dsimp only [State.mems]; first | done | with_reducible rfl)))

theorem State.moveFrame_mem {s : State} (f : Nat) (x : Fill) (hM : MemOk s) : MemOk (State.moveFrame s f x) := by
  unfold State.moveFrame
  repeat' (first
    | with_reducible assumption
    | intro _
    | with_reducible apply MemOk.ite
    | (extract_lets +onlyGivenNames u; refine (fun (hu : MemOk u) => ?_) ?_; clear_value u; rotate_left; unfold u; clear u)
    | with_reducible apply MemOk.foldl
    | with_reducible apply State.freeFrame_mem
    | with_reducible apply State.setDir_mem
    | split
    | dsimp only
    | ((conv => pattern (State.mk ..)); with_reducible apply MemOk.same; case e => (dsimp only [State.mems]; first | done | with_reducible rfl))
    | (with_reducible refine MemOk.mk ?_ ?_ ?_ ?_ ?_ ?_ <;> dsimp only <;> (repeat' (with_reducible first | exact MemOk.bin (by assumption) | exact MemOk.home (by assumption) | exact MemOk.frame (by assumption) | exact MemOk.plane (by assumption) | exact MemOk.spill (by assumption) | exact MemOk.window (by assumption) | apply SMap.wf_putRun | apply SMap.wf_clear | apply SMap.wf_copy | apply wf_puts | apply wf_put0 | apply wf_put32)) <;> done))

theorem State.beginFill_mem {s : State} (x : Fill) (hM : MemOk s) : MemOk (State.beginFill s x) := by
  unfold State.beginFill
  repeat' (first
    | with_reducible assumption
    | intro _
    | with_reducible apply MemOk.ite
    | (extract_lets +onlyGivenNames u; refine (fun (hu : MemOk u) => ?_) ?_; clear_value u; rotate_left; unfold u; clear u)
    | with_reducible apply MemOk.foldl
    | with_reducible apply State.fillHome_mem
    | with_reducible apply State.moveFrame_mem
    | split
    | dsimp only
    | ((conv => pattern (State.mk ..)); with_reducible apply MemOk.same; case e => (dsimp only [State.mems]; first | done | with_reducible rfl)))

theorem State.queueWriteBack_mem {s : State} (f : Nat) (fill : Option Fill) (hM : MemOk s) : MemOk (State.queueWriteBack s f fill) := by
  unfold State.queueWriteBack
  repeat' (first
    | with_reducible assumption
    | intro _
    | with_reducible apply MemOk.ite
    | (extract_lets +onlyGivenNames u; refine (fun (hu : MemOk u) => ?_) ?_; clear_value u; rotate_left; unfold u; clear u)
    | with_reducible apply MemOk.foldl
    | with_reducible apply State.mcRequest_mem
    | with_reducible apply State.setDir_mem
    | split
    | dsimp only
    | ((conv => pattern (State.mk ..)); with_reducible apply MemOk.same; case e => (dsimp only [State.mems]; first | done | with_reducible rfl)))

theorem State.startFill_mem {s : State} (x : Fill) (hM : MemOk s) : MemOk (State.startFill s x) := by
  unfold State.startFill
  repeat' (first
    | with_reducible assumption
    | intro _
    | with_reducible apply MemOk.ite
    | (extract_lets +onlyGivenNames u; refine (fun (hu : MemOk u) => ?_) ?_; clear_value u; rotate_left; unfold u; clear u)
    | with_reducible apply MemOk.foldl
    | with_reducible apply State.queueWriteBack_mem
    | with_reducible apply State.dropFrame_mem
    | with_reducible apply State.beginFill_mem
    | (split; all_goals first | (with_reducible have hx := congrArg Prod.snd ‹(_ : _ × State) = (_, _)›; dsimp only at hx; subst hx) | (with_reducible have hx := congrArg (fun x => x.2.2) ‹(_ : _ × _ × State) = (_, _, _)›; dsimp only at hx; subst hx) | skip)
    | dsimp only
    | ((conv => pattern (State.mk ..)); with_reducible apply MemOk.same; case e => (dsimp only [State.mems]; first | done | with_reducible rfl)))

theorem State.endFill_mem {s : State} (x : Fill) (hM : MemOk s) : MemOk (State.endFill s x) := by
  unfold State.endFill
  repeat' (first
    | with_reducible assumption
    | intro _
    | with_reducible apply MemOk.ite
    | (extract_lets +onlyGivenNames u; refine (fun (hu : MemOk u) => ?_) ?_; clear_value u; rotate_left; unfold u; clear u)
    | with_reducible apply MemOk.foldl
    | with_reducible apply State.bumpFld_mem
    | with_reducible apply State.setDir_mem
    | (split; all_goals first | (with_reducible have hx := congrArg Prod.snd ‹(_ : _ × State) = (_, _)›; dsimp only at hx; subst hx) | (with_reducible have hx := congrArg (fun x => x.2.2) ‹(_ : _ × _ × State) = (_, _, _)›; dsimp only at hx; subst hx) | skip)
    | dsimp only
    | ((conv => pattern (State.mk ..)); with_reducible apply MemOk.same; case e => (dsimp only [State.mems]; first | done | with_reducible rfl)))

theorem State.quarantine_mem {s : State} (p cause : Nat) (hM : MemOk s) : MemOk (State.quarantine s p cause) := by
  unfold State.quarantine
  repeat' (first
    | with_reducible assumption
    | intro _
    | with_reducible apply MemOk.ite
    | (extract_lets +onlyGivenNames u; refine (fun (hu : MemOk u) => ?_) ?_; clear_value u; rotate_left; unfold u; clear u)
    | with_reducible apply MemOk.foldl
    | with_reducible apply State.logIt_mem
    | with_reducible apply State.setDir_mem
    | with_reducible apply State.bumpFld_mem
    | with_reducible apply State.setFlds_mem
    | with_reducible apply State.setPageState_mem
    | (split; all_goals first | (with_reducible have hx := congrArg Prod.snd ‹(_ : _ × State) = (_, _)›; dsimp only at hx; subst hx) | (with_reducible have hx := congrArg (fun x => x.2.2) ‹(_ : _ × _ × State) = (_, _, _)›; dsimp only at hx; subst hx) | skip)
    | dsimp only
    | ((conv => pattern (State.mk ..)); with_reducible apply MemOk.same; case e => (dsimp only [State.mems]; first | done | with_reducible rfl)))

theorem State.freeQuarantined_mem {s : State} (p : Nat) (hM : MemOk s) : MemOk (State.freeQuarantined s p) := by
  unfold State.freeQuarantined
  repeat' (first
    | with_reducible assumption
    | intro _
    | with_reducible apply MemOk.ite
    | (extract_lets +onlyGivenNames u; refine (fun (hu : MemOk u) => ?_) ?_; clear_value u; rotate_left; unfold u; clear u)
    | with_reducible apply MemOk.foldl
    | with_reducible apply State.freeFrame_mem
    | split
    | dsimp only
    | ((conv => pattern (State.mk ..)); with_reducible apply MemOk.same; case e => (dsimp only [State.mems]; first | done | with_reducible rfl)))

theorem State.clearQ_mem {s : State} (p : Nat) (hM : MemOk s) : MemOk (State.clearQ s p) := by
  unfold State.clearQ
  repeat' (first
    | with_reducible assumption
    | intro _
    | with_reducible apply MemOk.ite
    | (extract_lets +onlyGivenNames u; refine (fun (hu : MemOk u) => ?_) ?_; clear_value u; rotate_left; unfold u; clear u)
    | with_reducible apply MemOk.foldl
    | with_reducible apply State.freeQuarantined_mem
    | with_reducible apply State.setPageState_mem
    | (split; all_goals first | (with_reducible have hx := congrArg Prod.snd ‹(_ : _ × State) = (_, _)›; dsimp only at hx; subst hx) | (with_reducible have hx := congrArg (fun x => x.2.2) ‹(_ : _ × _ × State) = (_, _, _)›; dsimp only at hx; subst hx) | skip)
    | dsimp only
    | ((conv => pattern (State.mk ..)); with_reducible apply MemOk.same; case e => (dsimp only [State.mems]; first | done | with_reducible rfl)))

theorem State.setCand_mem {s : State} (k : Nat) (c : Cand) (hM : MemOk s) : MemOk (State.setCand s k c) := by
  unfold State.setCand
  repeat' (first
    | with_reducible assumption
    | dsimp only
    | ((conv => pattern (State.mk ..)); with_reducible apply MemOk.same; case e => (dsimp only [State.mems]; first | done | with_reducible rfl)))

theorem State.countCand_mem {s : State} (p : Nat) (hM : MemOk s) : MemOk (State.countCand s p) := by
  unfold State.countCand
  repeat' (first
    | with_reducible assumption
    | with_reducible apply MemOk.ite
    | with_reducible apply State.setCand_mem)

theorem State.promote_mem {s : State} (q : Requester) (p : Nat) (hM : MemOk s) : MemOk (State.promote s q p) := by
  unfold State.promote
  repeat' (first
    | with_reducible assumption
    | with_reducible apply MemOk.ite
    | with_reducible apply State.startFill_mem
    | with_reducible apply State.setCand_mem
    | split)

theorem State.urTouch_mem {s : State} (q : Requester) (p grains : Nat) (write : Bool) (hM : MemOk s) : MemOk (State.urTouch s q p grains write) := by
  unfold State.urTouch
  repeat' (first
    | with_reducible assumption
    | intro _
    | with_reducible apply MemOk.ite
    | (extract_lets +onlyGivenNames u; refine (fun (hu : MemOk u) => ?_) ?_; clear_value u; rotate_left; unfold u; clear u)
    | with_reducible apply MemOk.foldl
    | with_reducible apply State.countCand_mem
    | with_reducible apply State.mcRequest_mem
    | with_reducible apply State.setDir_mem
    | with_reducible apply State.promote_mem
    | with_reducible apply State.bumpFld_mem
    | (split; all_goals first | (with_reducible have hx := congrArg Prod.snd ‹(_ : _ × State) = (_, _)›; dsimp only at hx; subst hx) | (with_reducible have hx := congrArg (fun x => x.2.2) ‹(_ : _ × _ × State) = (_, _, _)›; dsimp only at hx; subst hx) | skip)
    | dsimp only
    | ((conv => pattern (State.mk ..)); with_reducible apply MemOk.same; case e => (dsimp only [State.mems]; first | done | with_reducible rfl)))

theorem State.urCheck_mem {s : State} (q : Requester) (write : Bool) (off n p : Nat) (obs : List Obs) (hM : MemOk s) : MemOk (State.urCheck s q write off n p obs).2 := by
  unfold State.urCheck
  repeat' (first
    | with_reducible assumption
    | intro _
    | with_reducible apply MemOk.ite
    | (extract_lets +onlyGivenNames u; refine (fun (hu : MemOk u) => ?_) ?_; clear_value u; rotate_left; unfold u; clear u)
    | with_reducible apply MemOk.foldl
    | with_reducible apply State.quarantine_mem
    | with_reducible apply State.refuseAccess_mem
    | (split; all_goals first | (with_reducible have hx := congrArg Prod.snd ‹(_ : _ × State) = (_, _)›; dsimp only at hx; subst hx) | (with_reducible have hx := congrArg (fun x => x.2.2) ‹(_ : _ × _ × State) = (_, _, _)›; dsimp only at hx; subst hx) | skip)
    | dsimp only
    | ((conv => pattern (State.mk ..)); with_reducible apply MemOk.same; case e => (dsimp only [State.mems]; first | done | with_reducible rfl)))

theorem State.urReadPage_mem {s : State} (q : Requester) (off n : Nat) (obs : List Obs) (p : Nat) (hM : MemOk s) : MemOk (State.urReadPage s q off n obs p).2 := by
  unfold State.urReadPage
  repeat' (first
    | with_reducible assumption
    | with_reducible apply State.urCheck_mem
    | with_reducible apply State.urTouch_mem
    | (split; all_goals first | (with_reducible have hx := congrArg Prod.snd ‹(_ : _ × State) = (_, _)›; dsimp only at hx; subst hx) | skip)
    | dsimp only)

theorem State.urReadNext_mem {q : Requester} {off n : Nat} {obs : List Obs} {a : Except UrErr (List Byte) × State} (p : Nat) (h : MemOk a.2) :
    MemOk (State.urReadNext q off n obs a p).2 := by
  obtain ⟨e, s⟩ := a
  have k := State.urReadPage_mem (s := s) q off n obs p h
  unfold State.urReadNext
  cases e with
  | error e => exact h
  | ok bs =>
    dsimp only
    generalize s.urReadPage q off n obs p = r at *
    obtain ⟨r1, r2⟩ := r
    cases r1 <;> exact k

theorem State.urReadPages_mem {s : State} (q : Requester) (off n : Nat) (obs : List Obs) (ps : List Nat) (h : MemOk s) :
    MemOk (s.urReadPages q off n obs ps).2 := by
  unfold State.urReadPages
  suffices ∀ a : Except UrErr (List Byte) × State, MemOk a.2 → MemOk (ps.foldl (State.urReadNext q off n obs) a).2 from this _ h
  induction ps with
  | nil => exact fun _ h => h
  | cons p r ih => exact fun a h => ih _ (State.urReadNext_mem p h)

theorem State.urRead_mem {s : State} (q : Requester) (off n : Nat) (obs : List Obs) (hM : MemOk s) : MemOk (State.urRead s q off n obs).2 := by
  unfold State.urRead
  repeat' (first
    | with_reducible assumption
    | with_reducible apply State.urReadPages_mem)

theorem State.urPut_mem {s : State} (off : Nat) (bs : List Byte) (h : MemOk s) : MemOk (s.urPut off bs) := by
  unfold State.urPut
  extract_lets p gs
  split
  · rename_i f hf
    extract_lets e s1
    have h1 : MemOk s1 := State.setDir_mem _ _ h
    exact { h1 with frame := SMap.wf_putRun h1.frame }
  · exact MemOk.ite (State.wholeHome_mem _ _ h) (State.mergeHome_mem _ _ _ h)

theorem State.urPutWhole_mem {s : State} (p : Nat) (bs : List Byte) (hM : MemOk s) : MemOk (State.urPutWhole s p bs) := by
  unfold State.urPutWhole
  repeat' (first
    | with_reducible assumption
    | intro _
    | with_reducible apply MemOk.ite
    | (extract_lets +onlyGivenNames u; refine (fun (hu : MemOk u) => ?_) ?_; clear_value u; rotate_left; unfold u; clear u)
    | with_reducible apply MemOk.foldl
    | with_reducible apply State.wholeHome_mem
    | with_reducible apply State.urPut_mem
    | with_reducible apply State.setPageState_mem
    | with_reducible apply State.freeQuarantined_mem
    | (split; all_goals first | (with_reducible have hx := congrArg Prod.snd ‹(_ : _ × State) = (_, _)›; dsimp only at hx; subst hx) | (with_reducible have hx := congrArg (fun x => x.2.2) ‹(_ : _ × _ × State) = (_, _, _)›; dsimp only at hx; subst hx) | skip)
    | dsimp only
    | ((conv => pattern (State.mk ..)); with_reducible apply MemOk.same; case e => (dsimp only [State.mems]; first | done | with_reducible rfl)))

theorem State.urPutPage_mem {s : State} (q : Requester) (off : Nat) (bs : List Byte) (p : Nat) (hM : MemOk s) : MemOk (State.urPutPage s q off bs p) := by
  unfold State.urPutPage
  repeat' (first
    | with_reducible assumption
    | intro _
    | with_reducible apply MemOk.ite
    | (extract_lets +onlyGivenNames u; refine (fun (hu : MemOk u) => ?_) ?_; clear_value u; rotate_left; unfold u; clear u)
    | with_reducible apply MemOk.foldl
    | with_reducible apply State.urPut_mem
    | with_reducible apply State.urTouch_mem
    | with_reducible apply State.urPutWhole_mem
    | split
    | dsimp only
    | ((conv => pattern (State.mk ..)); with_reducible apply MemOk.same; case e => (dsimp only [State.mems]; first | done | with_reducible rfl)))

theorem State.urCheckPages_mem {q : Requester} {off n : Nat} {obs : List Obs} {a : Option UrErr × State} (p : Nat) (h : MemOk a.2) :
    MemOk (State.urCheckPages q off n obs a p).2 := by
  obtain ⟨e, s⟩ := a
  unfold State.urCheckPages
  cases e with
  | some e => exact h
  | none => exact State.urCheck_mem (s := s) q true off n p obs h

theorem State.urAdmit_mem {s : State} (q : Requester) (off n : Nat) (obs : List Obs) (h : MemOk s) : MemOk (s.urAdmit q off n obs).2 := by
  unfold State.urAdmit
  suffices ∀ a : Option UrErr × State, MemOk a.2 → MemOk ((pagesOfRun off n).foldl (State.urCheckPages q off n obs) a).2 from this _ h
  induction pagesOfRun off n with
  | nil => exact fun _ h => h
  | cons p r ih => exact fun a h => ih _ (State.urCheckPages_mem p h)

theorem State.urStore_mem {s : State} (q : Requester) (off : Nat) (bs : List Byte) (hM : MemOk s) : MemOk (State.urStore s q off bs) := by
  unfold State.urStore
  repeat' (first
    | with_reducible assumption
    | intro _
    | with_reducible apply MemOk.ite
    | (extract_lets +onlyGivenNames u; refine (fun (hu : MemOk u) => ?_) ?_; clear_value u; rotate_left; unfold u; clear u)
    | with_reducible apply MemOk.foldl
    | with_reducible apply State.urPutPage_mem
    | split
    | dsimp only
    | ((conv => pattern (State.mk ..)); with_reducible apply MemOk.same; case e => (dsimp only [State.mems]; first | done | with_reducible rfl)))

theorem State.urWrite_mem {s : State} (q : Requester) (off : Nat) (bs : List Byte) (obs : List Obs) (hM : MemOk s) : MemOk (State.urWrite s q off bs obs).2 := by
  unfold State.urWrite
  repeat' (first
    | with_reducible assumption
    | intro _
    | with_reducible apply MemOk.ite
    | (extract_lets +onlyGivenNames u; refine (fun (hu : MemOk u) => ?_) ?_; clear_value u; rotate_left; unfold u; clear u)
    | with_reducible apply MemOk.foldl
    | with_reducible apply State.urAdmit_mem
    | with_reducible apply State.urStore_mem
    | (split; all_goals first | (with_reducible have hx := congrArg Prod.snd ‹(_ : _ × State) = (_, _)›; dsimp only at hx; subst hx) | (with_reducible have hx := congrArg (fun x => x.2.2) ‹(_ : _ × _ × State) = (_, _, _)›; dsimp only at hx; subst hx) | skip)
    | dsimp only
    | ((conv => pattern (State.mk ..)); with_reducible apply MemOk.same; case e => (dsimp only [State.mems]; first | done | with_reducible rfl)))

theorem State.pinInto_mem {s : State} (p quota port : Nat) (deadline : Option Nat) (hM : MemOk s) : MemOk (State.pinInto s p quota port deadline).2 := by
  unfold State.pinInto
  repeat' (first
    | with_reducible assumption
    | intro _
    | with_reducible apply MemOk.ite
    | (extract_lets +onlyGivenNames u; refine (fun (hu : MemOk u) => ?_) ?_; clear_value u; rotate_left; unfold u; clear u)
    | with_reducible apply MemOk.foldl
    | with_reducible apply State.startFill_mem
    | split
    | dsimp only
    | ((conv => pattern (State.mk ..)); with_reducible apply MemOk.same; case e => (dsimp only [State.mems]; first | done | with_reducible rfl)))

theorem State.pinPage_mem {s : State} (p quota port : Nat) (deadline : Option Nat) (hM : MemOk s) : MemOk (State.pinPage s p quota port deadline).2 := by
  unfold State.pinPage
  repeat' (first
    | with_reducible assumption
    | with_reducible apply State.setPinOf_mem
    | with_reducible apply State.pinInto_mem
    | split
    | dsimp only
    | ((conv => pattern (State.mk ..)); with_reducible apply MemOk.same; case e => (dsimp only [State.mems]; first | done | with_reducible rfl)))

theorem State.unpinPage_mem {s : State} (p : Nat) (hM : MemOk s) : MemOk (State.unpinPage s p) := by
  unfold State.unpinPage
  repeat' (first
    | with_reducible assumption
    | with_reducible apply State.setPinOf_mem
    | split)

theorem State.setPinning_mem {s : State} (x : Option (List Nat × Nat)) (hM : MemOk s) : MemOk (State.setPinning s x) := by
  unfold State.setPinning
  repeat' (first
    | with_reducible assumption
    | intro _
    | with_reducible apply MemOk.ite
    | (extract_lets +onlyGivenNames u; refine (fun (hu : MemOk u) => ?_) ?_; clear_value u; rotate_left; unfold u; clear u)
    | with_reducible apply MemOk.foldl
    | split
    | dsimp only
    | ((conv => pattern (State.mk ..)); with_reducible apply MemOk.same; case e => (dsimp only [State.mems]; first | done | with_reducible rfl)))

theorem State.stopFill_mem {s : State} (f : Nat) (hM : MemOk s) : MemOk (State.stopFill s f) := by
  unfold State.stopFill
  repeat' (first
    | with_reducible assumption
    | intro _
    | with_reducible apply MemOk.ite
    | (extract_lets +onlyGivenNames u; refine (fun (hu : MemOk u) => ?_) ?_; clear_value u; rotate_left; unfold u; clear u)
    | with_reducible apply MemOk.foldl
    | with_reducible apply State.dropFrame_mem
    | with_reducible apply State.frameToHome_mem
    | split
    | dsimp only
    | ((conv => pattern (State.mk ..)); with_reducible apply MemOk.same; case e => (dsimp only [State.mems]; first | done | with_reducible rfl)))

theorem State.retireFrame_mem {s : State} (f : Nat) (hM : MemOk s) : MemOk (State.retireFrame s f) := by
  unfold State.retireFrame
  repeat' (first
    | with_reducible assumption
    | intro _
    | with_reducible apply MemOk.ite
    | (extract_lets +onlyGivenNames u; refine (fun (hu : MemOk u) => ?_) ?_; clear_value u; rotate_left; unfold u; clear u)
    | with_reducible apply MemOk.foldl
    | with_reducible apply State.setDir_mem
    | with_reducible apply State.queueWriteBack_mem
    | with_reducible apply State.dropFrame_mem
    | with_reducible apply State.stopFill_mem
    | split
    | dsimp only
    | ((conv => pattern (State.mk ..)); with_reducible apply MemOk.same; case e => (dsimp only [State.mems]; first | done | with_reducible rfl)))

theorem State.startRetire_mem {s : State} (quarter : Nat) (hM : MemOk s) : MemOk (State.startRetire s quarter) := by
  unfold State.startRetire
  repeat' (first
    | with_reducible assumption
    | intro _
    | with_reducible apply MemOk.ite
    | (extract_lets +onlyGivenNames u; refine (fun (hu : MemOk u) => ?_) ?_; clear_value u; rotate_left; unfold u; clear u)
    | with_reducible apply MemOk.foldl
    | with_reducible apply State.retireFrame_mem
    | with_reducible apply State.setFld_mem
    | split
    | dsimp only
    | ((conv => pattern (State.mk ..)); with_reducible apply MemOk.same; case e => (dsimp only [State.mems]; first | done | with_reducible rfl)))

theorem State.setRec_mem {s : State} (slot v : Nat) (hM : MemOk s) : MemOk (State.setRec s slot v) := by
  unfold State.setRec
  repeat' (first
    | with_reducible assumption
    | dsimp only
    | ((conv => pattern (State.mk ..)); with_reducible apply MemOk.same; case e => (dsimp only [State.mems]; first | done | with_reducible rfl)))

theorem State.setRing_mem {s : State} (r : Nat) (x : Ring) (hM : MemOk s) : MemOk (State.setRing s r x) := by
  unfold State.setRing
  repeat' (first
    | with_reducible assumption
    | dsimp only
    | ((conv => pattern (State.mk ..)); with_reducible apply MemOk.same; case e => (dsimp only [State.mems]; first | done | with_reducible rfl)))

theorem State.dropRecord_mem {s : State} (r : Nat) (hM : MemOk s) : MemOk (State.dropRecord s r) := by
  unfold State.dropRecord
  repeat' (first
    | with_reducible assumption
    | with_reducible apply MemOk.ite
    | with_reducible apply State.setRing_mem
    | with_reducible apply State.bumpObj_mem)

theorem State.publishDue_mem {s : State} (r subject evidence cls flags code : Nat) (payload : List Byte) (due : Option Nat) (hM : MemOk s) : MemOk (State.publishDue s r subject evidence cls flags code payload due) := by
  unfold State.publishDue
  repeat' (first
    | with_reducible assumption
    | with_reducible apply MemOk.ite
    | with_reducible apply State.logIt_mem
    | with_reducible apply State.setRing_mem
    | with_reducible apply State.urWrite_mem
    | with_reducible apply State.dropRecord_mem
    | (split; all_goals first | (with_reducible have hx := congrArg Prod.snd ‹(_ : _ × State) = (_, _)›; dsimp only at hx; subst hx) | skip)
    | dsimp only
    | ((conv => pattern (State.mk ..)); with_reducible apply MemOk.same; case e => (dsimp only [State.mems]; first | done | with_reducible rfl)))

theorem State.publish_mem {s : State} (r subject evidence cls flags code : Nat) (payload : List Byte) (hM : MemOk s) : MemOk (State.publish s r subject evidence cls flags code payload) := by
  unfold State.publish
  repeat' (first
    | with_reducible assumption
    | with_reducible apply State.publishDue_mem)

theorem State.publishTo_mem {s : State} (h subject evidence cls flags code : Nat) (payload : List Byte) (hM : MemOk s) : MemOk (State.publishTo s h subject evidence cls flags code payload) := by
  unfold State.publishTo
  repeat' (first
    | with_reducible assumption
    | with_reducible apply MemOk.ite
    | with_reducible apply State.dropRecord_mem
    | with_reducible apply State.publish_mem)

theorem State.eventOn_mem {s : State} (subject code arg evidence : Nat) (hM : MemOk s) : MemOk (State.eventOn s subject code arg evidence) := by
  unfold State.eventOn
  repeat' (first
    | with_reducible assumption
    | with_reducible apply MemOk.ite
    | with_reducible apply State.publish_mem
    | dsimp only
    | ((conv => pattern (State.mk ..)); with_reducible apply MemOk.same; case e => (dsimp only [State.mems]; first | done | with_reducible rfl)))

theorem State.event_mem {s : State} (code arg evidence : Nat) (hM : MemOk s) : MemOk (State.event s code arg evidence) := by
  unfold State.event
  repeat' (first
    | with_reducible assumption
    | with_reducible apply State.eventOn_mem)

theorem State.setSlot_mem {s : State} (core h row col : Nat) (v : Word) (hM : MemOk s) : MemOk (State.setSlot s core h row col v) := by
  unfold State.setSlot
  repeat' (first
    | dsimp only
    | (with_reducible refine MemOk.mk ?_ ?_ ?_ ?_ ?_ ?_ <;> dsimp only <;> (repeat' (with_reducible first | exact MemOk.bin (by assumption) | exact MemOk.home (by assumption) | exact MemOk.frame (by assumption) | exact MemOk.plane (by assumption) | exact MemOk.spill (by assumption) | exact MemOk.window (by assumption) | apply SMap.wf_putRun | apply SMap.wf_clear | apply SMap.wf_copy | apply wf_puts | apply wf_put0 | apply wf_put32)) <;> done))

theorem State.zeroPlane_mem {s : State} (core h : Nat) (hM : MemOk s) : MemOk (State.zeroPlane s core h) := by
  unfold State.zeroPlane
  repeat' (first
    | dsimp only
    | (with_reducible refine MemOk.mk ?_ ?_ ?_ ?_ ?_ ?_ <;> dsimp only <;> (repeat' (with_reducible first | exact MemOk.bin (by assumption) | exact MemOk.home (by assumption) | exact MemOk.frame (by assumption) | exact MemOk.plane (by assumption) | exact MemOk.spill (by assumption) | exact MemOk.window (by assumption) | apply SMap.wf_putRun | apply SMap.wf_clear | apply SMap.wf_copy | apply wf_puts | apply wf_put0 | apply wf_put32)) <;> done))

theorem State.planeToSpill_mem {s : State} (core h part slot : Nat) (hM : MemOk s) : MemOk (State.planeToSpill s core h part slot) := by
  unfold State.planeToSpill
  repeat' (first
    | dsimp only
    | (with_reducible refine MemOk.mk ?_ ?_ ?_ ?_ ?_ ?_ <;> dsimp only <;> (repeat' (with_reducible first | exact MemOk.bin (by assumption) | exact MemOk.home (by assumption) | exact MemOk.frame (by assumption) | exact MemOk.plane (by assumption) | exact MemOk.spill (by assumption) | exact MemOk.window (by assumption) | apply SMap.wf_putRun | apply SMap.wf_clear | apply SMap.wf_copy | apply wf_puts | apply wf_put0 | apply wf_put32)) <;> done))

theorem State.spillToPlane_mem {s : State} (part slot core h : Nat) (hM : MemOk s) : MemOk (State.spillToPlane s part slot core h) := by
  unfold State.spillToPlane
  repeat' (first
    | dsimp only
    | (with_reducible refine MemOk.mk ?_ ?_ ?_ ?_ ?_ ?_ <;> dsimp only <;> (repeat' (with_reducible first | exact MemOk.bin (by assumption) | exact MemOk.home (by assumption) | exact MemOk.frame (by assumption) | exact MemOk.plane (by assumption) | exact MemOk.spill (by assumption) | exact MemOk.window (by assumption) | apply SMap.wf_putRun | apply SMap.wf_clear | apply SMap.wf_copy | apply wf_puts | apply wf_put0 | apply wf_put32)) <;> done))

theorem State.zeroSpill_mem {s : State} (part slot : Nat) (hM : MemOk s) : MemOk (State.zeroSpill s part slot) := by
  unfold State.zeroSpill
  repeat' (first
    | dsimp only
    | (with_reducible refine MemOk.mk ?_ ?_ ?_ ?_ ?_ ?_ <;> dsimp only <;> (repeat' (with_reducible first | exact MemOk.bin (by assumption) | exact MemOk.home (by assumption) | exact MemOk.frame (by assumption) | exact MemOk.plane (by assumption) | exact MemOk.spill (by assumption) | exact MemOk.window (by assumption) | apply SMap.wf_putRun | apply SMap.wf_clear | apply SMap.wf_copy | apply wf_puts | apply wf_put0 | apply wf_put32)) <;> done))

theorem State.setLeases_mem {s : State} (ls : List Lease) (hM : MemOk s) : MemOk (State.setLeases s ls) := by
  unfold State.setLeases
  repeat' (first
    | with_reducible assumption
    | dsimp only
    | ((conv => pattern (State.mk ..)); with_reducible apply MemOk.same; case e => (dsimp only [State.mems]; first | done | with_reducible rfl)))

theorem State.updLease_mem {s : State} (l : Lease) (f : Lease → Lease) (hM : MemOk s) : MemOk (State.updLease s l f) := by
  unfold State.updLease
  repeat' (first
    | with_reducible assumption
    | with_reducible apply State.setLeases_mem)

theorem State.dropLease_mem {s : State} (l : Lease) (hM : MemOk s) : MemOk (State.dropLease s l) := by
  unfold State.dropLease
  repeat' (first
    | with_reducible assumption
    | with_reducible apply State.setLeases_mem)

theorem State.stepGen_mem {s : State} (cells : List (Nat × Nat)) (hM : MemOk s) : MemOk (State.stepGen s cells).2 := by
  unfold State.stepGen
  repeat' (first
    | with_reducible assumption
    | dsimp only
    | ((conv => pattern (State.mk ..)); with_reducible apply MemOk.same; case e => (dsimp only [State.mems]; first | done | with_reducible rfl)))

theorem State.grantWork_mem {s : State} (core width part : Nat) (hM : MemOk s) : MemOk (State.grantWork s core width part) := by
  unfold State.grantWork
  repeat' (first
    | with_reducible assumption
    | intro _
    | with_reducible apply MemOk.foldl
    | with_reducible apply State.stepGen_mem
    | with_reducible apply State.setLeases_mem)

theorem State.releaseWork_mem {s : State} (core : Nat) (hM : MemOk s) : MemOk (State.releaseWork s core) := by
  unfold State.releaseWork
  repeat' (first
    | with_reducible assumption
    | with_reducible apply State.setLeases_mem)

theorem State.parkNow_mem {s : State} (l : Lease) (hM : MemOk s) : MemOk (State.parkNow s l) := by
  unfold State.parkNow
  repeat' (first
    | with_reducible assumption
    | intro _
    | with_reducible apply MemOk.ite
    | (extract_lets +onlyGivenNames u; refine (fun (hu : MemOk u) => ?_) ?_; clear_value u; rotate_left; unfold u; clear u)
    | with_reducible apply MemOk.foldl
    | with_reducible apply State.updLease_mem
    | with_reducible apply State.bumpFld_mem
    | with_reducible apply State.planeToSpill_mem
    | split
    | dsimp only
    | ((conv => pattern (State.mk ..)); with_reducible apply MemOk.same; case e => (dsimp only [State.mems]; first | done | with_reducible rfl)))

theorem State.giveWay_mem {s : State} (l : Lease) (hM : MemOk s) : MemOk (State.giveWay s l) := by
  unfold State.giveWay
  repeat' (first
    | with_reducible assumption
    | intro _
    | with_reducible apply MemOk.ite
    | (extract_lets +onlyGivenNames u; refine (fun (hu : MemOk u) => ?_) ?_; clear_value u; rotate_left; unfold u; clear u)
    | with_reducible apply MemOk.foldl
    | with_reducible apply State.updLease_mem
    | with_reducible apply State.parkNow_mem
    | with_reducible apply State.dropLease_mem
    | split
    | dsimp only
    | ((conv => pattern (State.mk ..)); with_reducible apply MemOk.same; case e => (dsimp only [State.mems]; first | done | with_reducible rfl)))

theorem State.grantState_mem {s : State} (core part owner : Nat) (pair pinned : Bool) (hM : MemOk s) :
    ∀ t, s.grantState core part owner pair pinned = some t → MemOk t := by
  unfold State.grantState
  extract_lets fw width members hsOf cand live ok best
  intro t
  split
  · intro h; cases h
  · cases best with
    | none => intro h; cases h
    | some h =>
      dsimp only
      cases s.freeSlots part (width * (hsOf h).length) with
      | none => intro h; cases h
      | some slot =>
        dsimp only
        intro e
        injection e with e
        subst e
        have k0 : MemOk (s.stepGen (members.flatMap (fun c => (hsOf h).map (fun x => (c, x))))).2 := State.stepGen_mem _ hM
        refine State.setLeases_mem _ ?_
        have spill (u : State) (l : List (Nat × Nat × Nat)) (h : MemOk u) : MemOk (l.foldl (fun s x => s.zeroSpill part x.2.2) u) :=
          MemOk.foldl h (fun s x h => State.zeroSpill_mem _ _ h)
        have plane (u : State) (l : List (Nat × Nat)) (h : MemOk u) : MemOk (l.foldl (fun s x => s.zeroPlane x.1 x.2) u) :=
          MemOk.foldl h (fun s x h => State.zeroPlane_mem _ _ h)
        have park (u : State) (l : List Lease) (h : MemOk u) : MemOk (l.foldl State.giveWay u) :=
          MemOk.foldl h (fun s x h => State.giveWay_mem _ h)
        refine MemOk.ite (plane _ _ (spill _ _ ?_)) (spill _ _ ?_)
        all_goals exact MemOk.ite (park _ _ k0) k0

theorem State.releaseLease_mem {s : State} (l : Lease) (hM : MemOk s) : MemOk (State.releaseLease s l) := by
  unfold State.releaseLease
  repeat' (first
    | with_reducible assumption
    | with_reducible apply MemOk.ite
    | with_reducible apply State.updLease_mem
    | with_reducible apply State.dropLease_mem)

theorem State.parkOut_mem {s : State} (l : Lease) (hM : MemOk s) : MemOk (State.parkOut s l) := by
  unfold State.parkOut
  repeat' (first
    | with_reducible assumption
    | intro _
    | with_reducible apply MemOk.ite
    | (extract_lets +onlyGivenNames u; refine (fun (hu : MemOk u) => ?_) ?_; clear_value u; rotate_left; unfold u; clear u)
    | with_reducible apply MemOk.foldl
    | with_reducible apply State.updLease_mem
    | with_reducible apply State.parkNow_mem
    | with_reducible apply State.planeToSpill_mem)

theorem State.startSwap_mem {s : State} (l : Lease) (hM : MemOk s) : MemOk (State.startSwap s l) := by
  unfold State.startSwap
  repeat' (first
    | with_reducible assumption
    | intro _
    | with_reducible apply MemOk.ite
    | (extract_lets +onlyGivenNames u; refine (fun (hu : MemOk u) => ?_) ?_; clear_value u; rotate_left; unfold u; clear u)
    | with_reducible apply MemOk.foldl
    | with_reducible apply State.updLease_mem
    | with_reducible apply State.parkOut_mem)

theorem State.swapIn_mem {s : State} (l : Lease) (core : Nat) (hM : MemOk s) : MemOk (State.swapIn s l core) := by
  unfold State.swapIn
  repeat' (first
    | with_reducible assumption
    | intro _
    | with_reducible apply MemOk.ite
    | with_reducible apply MemOk.foldl
    | with_reducible apply State.dropLease_mem
    | with_reducible apply State.bumpObj_mem
    | with_reducible apply State.bumpFld_mem
    | with_reducible apply State.updLease_mem
    | with_reducible apply State.spillToPlane_mem)

theorem State.loseLease_mem {s : State} (l : Lease) (hM : MemOk s) : MemOk (State.loseLease s l) := by
  unfold State.loseLease
  repeat' (first
    | with_reducible assumption
    | with_reducible apply MemOk.ite
    | with_reducible apply State.dropLease_mem
    | with_reducible apply State.bumpObj_mem
    | with_reducible apply State.setRec_mem)

theorem State.swapOut_mem {s : State} (l : Lease) (core : Nat) (hM : MemOk s) : MemOk (State.swapOut s l core) := by
  unfold State.swapOut
  repeat' (first
    | with_reducible assumption
    | intro _
    | with_reducible apply MemOk.ite
    | with_reducible apply MemOk.foldl
    | with_reducible apply State.dropLease_mem
    | with_reducible apply State.bumpFld_mem
    | with_reducible apply State.updLease_mem)

theorem State.markDirty_mem {s : State} (c h : Nat) (hM : MemOk s) : MemOk (State.markDirty s c h) := by
  unfold State.markDirty
  repeat' (first
    | with_reducible assumption
    | with_reducible apply State.updLease_mem
    | split)

theorem State.lgFetch_mem {s : State} (hM : MemOk s) : MemOk (State.lgFetch s) := by
  unfold State.lgFetch
  repeat' (first
    | with_reducible assumption
    | with_reducible apply State.fresh_mem
    | with_reducible apply State.bumpObj_mem)

theorem State.putEntry_mem {s : State} (seq pidx v : Nat) (obs : List Obs) (hM : MemOk s) : MemOk (State.putEntry s seq pidx v obs).2 := by
  unfold State.putEntry
  repeat' (first
    | with_reducible assumption
    | intro _
    | with_reducible apply MemOk.ite
    | (extract_lets +onlyGivenNames u; refine (fun (hu : MemOk u) => ?_) ?_; clear_value u; rotate_left; unfold u; clear u)
    | with_reducible apply MemOk.foldl
    | with_reducible apply State.urWrite_mem
    | split
    | dsimp only
    | ((conv => pattern (State.mk ..)); with_reducible apply MemOk.same; case e => (dsimp only [State.mems]; first | done | with_reducible rfl)))

theorem State.admitEntries_mem {s : State} (seq : Nat) (pidxs : List Nat) (obs : List Obs) (h : MemOk s) :
    MemOk (s.admitEntries seq pidxs obs).2 := by
  unfold State.admitEntries
  suffices ∀ a : Option UrErr × State, MemOk a.2 → MemOk (pidxs.foldl (fun (a : Option UrErr × State) p => match a.1 with
    | some _ => a
    | none => a.2.urAdmit (ledgerReq (recWorld (a.2.recOf seq) == 1)) (a.2.entryAt seq p) 8 obs) a).2 from this _ h
  induction pidxs with
  | nil => exact fun _ h => h
  | cons p r ih =>
    intro a h
    refine ih _ ?_
    obtain ⟨e, t⟩ := a
    cases e with
    | some e => exact h
    | none => exact State.urAdmit_mem (s := t) _ _ _ _ h

theorem State.writePageEntry_mem {s : State} (seq slot q count : Nat) (obs : List Obs) (hM : MemOk s) : MemOk (State.writePageEntry s seq slot q count obs).2 := by
  unfold State.writePageEntry
  repeat' (first
    | with_reducible assumption
    | with_reducible apply State.putEntry_mem)

theorem State.setPageCount_mem {s : State} (seq slot q count : Nat) (hM : MemOk s) : MemOk (State.setPageCount s seq slot q count).2 := by
  unfold State.setPageCount
  repeat' (first
    | with_reducible assumption
    | with_reducible apply State.logIt_mem
    | with_reducible apply State.setRec_mem
    | with_reducible apply State.writePageEntry_mem
    | (split; all_goals first | (with_reducible have hx := congrArg Prod.snd ‹(_ : _ × State) = (_, _)›; dsimp only at hx; subst hx) | skip))

theorem State.appendPages_mem {s : State} (seq len n : Nat) (pidxs : List Nat) (hM : MemOk s) :
    MemOk (s.appendPages seq len n pidxs).2 := by
  induction pidxs generalizing s with
  | nil => exact hM
  | cons p r ih =>
    unfold State.appendPages
    cases s.pageSlot seq p with
    | none => exact ih hM
    | some slot =>
      dsimp only
      have k := State.setPageCount_mem (s := s) seq slot (pgQ (pageWord (s.recAt slot))) (min (len + n) (256 * p + 256) - 256 * p) hM
      generalize s.setPageCount seq slot (pgQ (pageWord (s.recAt slot))) (min (len + n) (256 * p + 256) - 256 * p) = u at *
      obtain ⟨e, u⟩ := u
      cases e with
      | some e => exact k
      | none => exact ih k

theorem State.kvFinish_mem {s : State} (h append progress : Nat) (ok : Bool) (hM : MemOk s) : MemOk (State.kvFinish s h append progress ok).2 := by
  unfold State.kvFinish
  repeat' (first
    | with_reducible assumption
    | intro _
    | with_reducible apply MemOk.ite
    | (extract_lets +onlyGivenNames u; refine (fun (hu : MemOk u) => ?_) ?_; clear_value u; rotate_left; unfold u; clear u)
    | with_reducible apply MemOk.foldl
    | with_reducible apply State.appendPages_mem
    | with_reducible apply State.logIt_mem
    | with_reducible apply State.setRec_mem
    | with_reducible apply State.admitEntries_mem
    | (split; all_goals first | (with_reducible have hx := congrArg Prod.snd ‹(_ : _ × State) = (_, _)›; dsimp only at hx; subst hx) | (with_reducible have hx := congrArg (fun x => x.2.2) ‹(_ : _ × _ × State) = (_, _, _)›; dsimp only at hx; subst hx) | skip)
    | dsimp only
    | ((conv => pattern (State.mk ..)); with_reducible apply MemOk.same; case e => (dsimp only [State.mems]; first | done | with_reducible rfl)))

theorem State.binCapture_mem {s : State} (b type bank row port : Nat) (hM : MemOk s) : MemOk (State.binCapture s b type bank row port) := by
  unfold State.binCapture
  repeat' (first
    | with_reducible assumption
    | intro _
    | with_reducible apply MemOk.ite
    | (extract_lets +onlyGivenNames u; refine (fun (hu : MemOk u) => ?_) ?_; clear_value u; rotate_left; unfold u; clear u)
    | with_reducible apply MemOk.foldl
    | with_reducible apply State.setFlds_mem
    | split
    | dsimp only
    | ((conv => pattern (State.mk ..)); with_reducible apply MemOk.same; case e => (dsimp only [State.mems]; first | done | with_reducible rfl)))

theorem State.binErrlog_mem {s : State} (b type bank row port : Nat) (hM : MemOk s) : MemOk (State.binErrlog s b type bank row port) := by
  unfold State.binErrlog
  repeat' (first
    | with_reducible assumption
    | intro _
    | with_reducible apply MemOk.ite
    | (extract_lets +onlyGivenNames u; refine (fun (hu : MemOk u) => ?_) ?_; clear_value u; rotate_left; unfold u; clear u)
    | with_reducible apply MemOk.foldl
    | with_reducible apply State.binCapture_mem
    | with_reducible apply State.logIt_mem
    | (split; all_goals first | (with_reducible have hx := congrArg Prod.snd ‹(_ : _ × State) = (_, _)›; dsimp only at hx; subst hx) | (with_reducible have hx := congrArg (fun x => x.2.2) ‹(_ : _ × _ × State) = (_, _, _)›; dsimp only at hx; subst hx) | skip)
    | dsimp only
    | ((conv => pattern (State.mk ..)); with_reducible apply MemOk.same; case e => (dsimp only [State.mems]; first | done | with_reducible rfl)))

theorem State.setPoison_mem {s : State} (b g : Nat) (v : Bool) (hM : MemOk s) : MemOk (State.setPoison s b g v) := by
  unfold State.setPoison
  repeat' (first
    | with_reducible assumption
    | dsimp only
    | ((conv => pattern (State.mk ..)); with_reducible apply MemOk.same; case e => (dsimp only [State.mems]; first | done | with_reducible rfl)))

theorem State.binCorrected_mem {s : State} (b g port : Nat) (hM : MemOk s) : MemOk (State.binCorrected s b g port) := by
  unfold State.binCorrected
  repeat' (first
    | with_reducible assumption
    | with_reducible apply State.bumpFld_mem
    | with_reducible apply State.binErrlog_mem
    | split
    | dsimp only
    | ((conv => pattern (State.mk ..)); with_reducible apply MemOk.same; case e => (dsimp only [State.mems]; first | done | with_reducible rfl)))

theorem State.binUncorrectable_mem {s : State} (b g port : Nat) (hM : MemOk s) : MemOk (State.binUncorrectable s b g port) := by
  unfold State.binUncorrectable
  repeat' (first
    | with_reducible assumption
    | with_reducible apply MemOk.ite
    | with_reducible apply State.bumpFld_mem
    | with_reducible apply State.setPoison_mem
    | with_reducible apply State.binErrlog_mem
    | dsimp only
    | ((conv => pattern (State.mk ..)); with_reducible apply MemOk.same; case e => (dsimp only [State.mems]; first | done | with_reducible rfl)))

theorem State.binSealBad_mem {s : State} (b g port : Nat) (hM : MemOk s) : MemOk (State.binSealBad s b g port) := by
  unfold State.binSealBad
  repeat' (first
    | with_reducible assumption
    | with_reducible apply State.bumpFld_mem
    | with_reducible apply State.setPoison_mem
    | with_reducible apply State.binErrlog_mem)

theorem State.binPoisonHit_mem {s : State} (b g port : Nat) (hM : MemOk s) : MemOk (State.binPoisonHit s b g port) := by
  unfold State.binPoisonHit
  repeat' (first
    | with_reducible assumption
    | with_reducible apply State.binErrlog_mem)

theorem State.binWorldError_mem {s : State} (q : Requester) (write : Bool) (b g port : Nat) (hM : MemOk s) : MemOk (State.binWorldError s q write b g port) := by
  unfold State.binWorldError
  repeat' (first
    | with_reducible assumption
    | with_reducible apply State.bumpFld_mem
    | with_reducible apply State.refuseAccess_mem
    | with_reducible apply State.binErrlog_mem)

theorem State.checkGrain_mem {s : State} (port b g : Nat) (whole : Bool) (obs : List Obs) (h : MemOk s) :
    MemOk (s.checkGrain port b g whole obs).2 := by
  unfold State.checkGrain
  split
  · with_reducible exact State.binPoisonHit_mem _ _ _ h
  · split
    · with_reducible exact State.binUncorrectable_mem _ _ _ h
    · extract_lets s1
      have h1 : MemOk s1 := MemOk.ite (State.binCorrected_mem _ _ _ h) h
      clear_value s1
      split
      · with_reducible exact State.binSealBad_mem _ _ _ h1
      · exact h1

theorem State.checkGrains_mem {s : State} (port b : Nat) (gs : List (Nat × Bool)) (obs : List Obs) (h : MemOk s) :
    MemOk (s.checkGrains port b gs obs).2 := by
  induction gs generalizing s with
  | nil => exact h
  | cons g r ih =>
    obtain ⟨g, w⟩ := g
    have k := State.checkGrain_mem (s := s) port b g w obs h
    unfold State.checkGrains
    generalize s.checkGrain port b g w obs = u at *
    obtain ⟨e, u⟩ := u
    cases e with
    | some e => exact k
    | none => exact ih k

theorem State.binAdmit_mem {s : State} (q : Requester) (write : Bool) (port b : Nat) (gs : List Nat) (hM : MemOk s) : MemOk (State.binAdmit s q write port b gs).2 := by
  unfold State.binAdmit
  repeat' (first
    | with_reducible assumption
    | with_reducible apply State.binWorldError_mem
    | split)

theorem State.binStore_mem {s : State} (b : Nat) (ws : List (Nat × Byte)) (gs : List (Nat × Bool)) (hM : MemOk s) : MemOk (State.binStore s b ws gs) := by
  unfold State.binStore
  repeat' (first
    | dsimp only
    | (with_reducible refine MemOk.mk ?_ ?_ ?_ ?_ ?_ ?_ <;> dsimp only <;> (repeat' (with_reducible first | exact MemOk.bin (by assumption) | exact MemOk.home (by assumption) | exact MemOk.frame (by assumption) | exact MemOk.plane (by assumption) | exact MemOk.spill (by assumption) | exact MemOk.window (by assumption) | apply SMap.wf_putRun | apply SMap.wf_clear | apply SMap.wf_copy | apply wf_puts | apply wf_put0 | apply wf_put32)) <;> done))

theorem State.mergeCheck_mem {s : State} (port b : Nat) (gs : List (Nat × Bool)) (obs : List Obs) (hM : MemOk s) : MemOk (State.mergeCheck s port b gs obs).2 := by
  unfold State.mergeCheck
  repeat' (first
    | with_reducible assumption
    | with_reducible apply State.checkGrains_mem)

theorem State.binWrite_mem {s : State} (port b : Nat) (ws : List (Nat × Byte)) (obs : List Obs) (hM : MemOk s) : MemOk (State.binWrite s port b ws obs).2 := by
  unfold State.binWrite
  repeat' (first
    | with_reducible assumption
    | with_reducible apply State.binStore_mem
    | with_reducible apply State.mergeCheck_mem
    | (split; all_goals first | (with_reducible have hx := congrArg Prod.snd ‹(_ : _ × State) = (_, _)›; dsimp only at hx; subst hx) | skip)
    | dsimp only)

theorem State.binWriteRun_mem {s : State} (port b off : Nat) (bs : List Byte) (obs : List Obs) (hM : MemOk s) : MemOk (State.binWriteRun s port b off bs obs).2 := by
  unfold State.binWriteRun
  repeat' (first
    | with_reducible assumption
    | with_reducible apply State.binStore_mem
    | with_reducible apply State.mergeCheck_mem
    | (split; all_goals first | (with_reducible have hx := congrArg Prod.snd ‹(_ : _ × State) = (_, _)›; dsimp only at hx; subst hx) | skip)
    | dsimp only)

theorem State.binUnitWrite_mem {s : State} (q : Requester) (port b off : Nat) (bs : List Byte) (hM : MemOk s) : MemOk (State.binUnitWrite s q port b off bs).2 := by
  unfold State.binUnitWrite
  repeat' (first
    | with_reducible assumption
    | with_reducible apply State.binWriteRun_mem
    | with_reducible apply State.binAdmit_mem
    | (split; all_goals first | (with_reducible have hx := congrArg Prod.snd ‹(_ : _ × State) = (_, _)›; dsimp only at hx; subst hx) | skip))

theorem State.binUnitRead_mem {s : State} (q : Requester) (port b off n : Nat) (obs : List Obs) (hM : MemOk s) : MemOk (State.binUnitRead s q port b off n obs).2 := by
  unfold State.binUnitRead
  repeat' (first
    | with_reducible assumption
    | with_reducible apply State.checkGrains_mem
    | with_reducible apply State.binAdmit_mem
    | (split; all_goals first | (with_reducible have hx := congrArg Prod.snd ‹(_ : _ × State) = (_, _)›; dsimp only at hx; subst hx) | skip)
    | dsimp only)

theorem State.raiseTally_mem {s : State} (b t n : Nat) (hM : MemOk s) : MemOk (State.raiseTally s b t n) := by
  unfold State.raiseTally
  repeat' (first
    | with_reducible assumption
    | with_reducible apply State.setFld_mem)

theorem State.setSlotMap_mem {s : State} (b : Nat) (m : SlotMap) (hM : MemOk s) : MemOk (State.setSlotMap s b m) := by
  unfold State.setSlotMap
  repeat' (first
    | with_reducible assumption
    | with_reducible apply State.setFld_mem
    | dsimp only
    | ((conv => pattern (State.mk ..)); with_reducible apply MemOk.same; case e => (dsimp only [State.mems]; first | done | with_reducible rfl)))

theorem State.rotaSlotMap_mem {s : State} (b : Nat) (hM : MemOk s) : MemOk (State.rotaSlotMap s b) := by
  unfold State.rotaSlotMap
  repeat' (first
    | with_reducible assumption
    | with_reducible apply MemOk.ite
    | with_reducible apply State.fresh_mem
    | with_reducible apply State.setSlotMap_mem)

theorem State.setCore_mem {s : State} (c : Nat) (x : Core) (hM : MemOk s) : MemOk (State.setCore s c x) := by
  unfold State.setCore
  repeat' (first
    | with_reducible assumption
    | dsimp only
    | ((conv => pattern (State.mk ..)); with_reducible apply MemOk.same; case e => (dsimp only [State.mems]; first | done | with_reducible rfl)))

theorem State.updCore_mem {s : State} (c : Nat) (f : Core → Core) (hM : MemOk s) : MemOk (State.updCore s c f) := by
  unfold State.updCore
  repeat' (first
    | with_reducible assumption
    | with_reducible apply State.setCore_mem)

theorem State.setWslot_mem {s : State} (p i : Nat) (x : WheelSlot) (hM : MemOk s) : MemOk (State.setWslot s p i x) := by
  unfold State.setWslot
  repeat' (first
    | with_reducible assumption
    | dsimp only
    | ((conv => pattern (State.mk ..)); with_reducible apply MemOk.same; case e => (dsimp only [State.mems]; first | done | with_reducible rfl)))

theorem State.setNet_mem {s : State} (k : Nat) (x : GuardRun) (hM : MemOk s) : MemOk (State.setNet s k x) := by
  unfold State.setNet
  repeat' (first
    | with_reducible assumption
    | dsimp only
    | ((conv => pattern (State.mk ..)); with_reducible apply MemOk.same; case e => (dsimp only [State.mems]; first | done | with_reducible rfl)))

theorem State.setSqLen_mem {s : State} (r n : Nat) (hM : MemOk s) : MemOk (State.setSqLen s r n) := by
  unfold State.setSqLen
  repeat' (first
    | with_reducible assumption
    | dsimp only
    | ((conv => pattern (State.mk ..)); with_reducible apply MemOk.same; case e => (dsimp only [State.mems]; first | done | with_reducible rfl)))

theorem State.setCqLen_mem {s : State} (r n : Nat) (hM : MemOk s) : MemOk (State.setCqLen s r n) := by
  unfold State.setCqLen
  repeat' (first
    | with_reducible assumption
    | dsimp only
    | ((conv => pattern (State.mk ..)); with_reducible apply MemOk.same; case e => (dsimp only [State.mems]; first | done | with_reducible rfl)))

theorem State.readTract_mem {s : State} (p idx ringWorld : Nat) (hM : MemOk s) : MemOk (State.readTract s p idx ringWorld).2 := by
  unfold State.readTract
  repeat' (first
    | with_reducible assumption
    | with_reducible apply State.urRead_mem
    | (split; all_goals first | (with_reducible have hx := congrArg Prod.snd ‹(_ : _ × State) = (_, _)›; dsimp only at hx; subst hx) | skip)
    | dsimp only)

theorem State.writeCq_mem {s : State} (r : Nat) (b : List Byte) (hM : MemOk s) : MemOk (State.writeCq s r b) := by
  unfold State.writeCq
  repeat' (first
    | with_reducible assumption
    | with_reducible apply MemOk.ite
    | with_reducible apply State.logIt_mem
    | with_reducible apply State.bumpObj_mem
    | with_reducible apply State.urWrite_mem
    | with_reducible apply State.setCqLen_mem
    | with_reducible apply State.setFld_mem
    | split
    | dsimp only
    | ((conv => pattern (State.mk ..)); with_reducible apply MemOk.same; case e => (dsimp only [State.mems]; first | done | with_reducible rfl)))

theorem State.completeJob_mem {s : State} (j : Job) (e : Ending) (hM : MemOk s) : MemOk (State.completeJob s j e) := by
  unfold State.completeJob
  repeat' (first
    | with_reducible assumption
    | with_reducible apply State.writeCq_mem
    | with_reducible apply State.kvFinish_mem
    | split)

theorem State.endJob_mem {s : State} (c : Nat) (e : Ending) (hM : MemOk s) : MemOk (State.endJob s c e) := by
  unfold State.endJob
  repeat' (first
    | with_reducible assumption
    | intro _
    | with_reducible apply MemOk.ite
    | (extract_lets +onlyGivenNames u; refine (fun (hu : MemOk u) => ?_) ?_; clear_value u; rotate_left; unfold u; clear u)
    | with_reducible apply MemOk.foldl
    | with_reducible apply State.updCore_mem
    | with_reducible apply State.setFld_mem
    | split)

theorem State.freeCores_mem {s : State} (c : Nat) (hM : MemOk s) : MemOk (State.freeCores s c) := by
  unfold State.freeCores
  repeat' (first
    | with_reducible assumption
    | intro _
    | (extract_lets +onlyGivenNames u; refine (fun (hu : MemOk u) => ?_) ?_; clear_value u; rotate_left; unfold u; clear u)
    | with_reducible apply MemOk.foldl
    | with_reducible apply State.unpinPage_mem
    | with_reducible apply State.updCore_mem
    | with_reducible apply State.releaseWork_mem
    | with_reducible apply State.setFld_mem
    | split)

theorem State.setHpFeed_mem {s : State} (n : Nat) (f : Option HpFeed) (hM : MemOk s) : MemOk (State.setHpFeed s n f) := by
  unfold State.setHpFeed
  repeat' (first
    | with_reducible assumption
    | dsimp only
    | ((conv => pattern (State.mk ..)); with_reducible apply MemOk.same; case e => (dsimp only [State.mems]; first | done | with_reducible rfl)))

theorem State.hpEdge_mem {s : State} (n : Nat) (hM : MemOk s) : MemOk (State.hpEdge s n) := by
  unfold State.hpEdge
  repeat' (first
    | with_reducible assumption
    | with_reducible apply State.bumpObj_mem
    | with_reducible apply State.setHpFeed_mem
    | split)

theorem State.hpStop_mem {s : State} (n : Nat) (hM : MemOk s) : MemOk (State.hpStop s n) := by
  unfold State.hpStop
  repeat' (first
    | with_reducible assumption
    | (extract_lets +onlyGivenNames u; refine (fun (hu : MemOk u) => ?_) ?_; clear_value u; rotate_left; unfold u; clear u)
    | with_reducible apply State.hpEdge_mem
    | with_reducible apply State.bumpObj_mem
    | with_reducible apply State.setHpFeed_mem
    | with_reducible apply State.setFld_mem
    | split
    | dsimp only
    | ((conv => pattern (State.mk ..)); with_reducible apply MemOk.same; case e => (dsimp only [State.mems]; first | done | with_reducible rfl)))

theorem State.setOsRun_mem {s : State} (n : Nat) (r : Option OsRun) (hM : MemOk s) : MemOk (State.setOsRun s n r) := by
  unfold State.setOsRun
  repeat' (first
    | with_reducible assumption
    | dsimp only
    | ((conv => pattern (State.mk ..)); with_reducible apply MemOk.same; case e => (dsimp only [State.mems]; first | done | with_reducible rfl)))

theorem State.osOff_mem {s : State} (n result : Nat) (hM : MemOk s) : MemOk (State.osOff s n result) := by
  unfold State.osOff
  repeat' (first
    | with_reducible assumption
    | with_reducible apply State.setOsRun_mem
    | with_reducible apply State.setFlds_mem)

theorem State.audOff_mem {s : State} (result : Nat) (hM : MemOk s) : MemOk (State.audOff s result) := by
  unfold State.audOff
  repeat' (first
    | with_reducible assumption
    | with_reducible apply State.setFlds_mem
    | dsimp only
    | ((conv => pattern (State.mk ..)); with_reducible apply MemOk.same; case e => (dsimp only [State.mems]; first | done | with_reducible rfl)))

theorem State.zeroSpan_mem {s : State} (hM : MemOk s) : MemOk (State.zeroSpan s) := by
  unfold State.zeroSpan
  repeat' (first
    | with_reducible assumption
    | with_reducible apply State.binUnitWrite_mem
    | split
    | dsimp only
    | ((conv => pattern (State.mk ..)); with_reducible apply MemOk.same; case e => (dsimp only [State.mems]; first | done | with_reducible rfl)))

theorem State.watchReject_mem {s : State} (hM : MemOk s) : MemOk (State.watchReject s) := by
  unfold State.watchReject
  repeat' (first
    | with_reducible assumption
    | (extract_lets +onlyGivenNames u; refine (fun (hu : MemOk u) => ?_) ?_; clear_value u; rotate_left; unfold u; clear u)
    | with_reducible apply State.zeroSpan_mem
    | with_reducible apply State.event_mem
    | dsimp only
    | ((conv => pattern (State.mk ..)); with_reducible apply MemOk.same; case e => (dsimp only [State.mems]; first | done | with_reducible rfl)))

theorem State.stopFeed_mem {s : State} (part n : Nat) (hM : MemOk s) : MemOk (State.stopFeed s part n) := by
  unfold State.stopFeed
  repeat' (first
    | with_reducible assumption
    | with_reducible apply MemOk.ite
    | with_reducible apply State.hpStop_mem
    | split)

theorem State.stopCamera_mem {s : State} (cores : List Nat) (n : Nat) (hM : MemOk s) : MemOk (State.stopCamera s cores n) := by
  unfold State.stopCamera
  repeat' (first
    | with_reducible assumption
    | with_reducible apply MemOk.ite
    | with_reducible apply State.osOff_mem)

theorem State.stopAligned_mem {s : State} (cores : List Nat) (hM : MemOk s) : MemOk (State.stopAligned s cores) := by
  unfold State.stopAligned
  repeat' (first
    | with_reducible assumption
    | with_reducible apply MemOk.ite
    | with_reducible apply State.audOff_mem
    | split)

theorem State.stopSpan_mem {s : State} (cores : List Nat) (hM : MemOk s) : MemOk (State.stopSpan s cores) := by
  unfold State.stopSpan
  repeat' (first
    | with_reducible assumption
    | with_reducible apply MemOk.ite
    | with_reducible apply State.watchReject_mem
    | split)

theorem State.stopStreams_mem {s : State} (part : Nat) (cores : List Nat) (hM : MemOk s) : MemOk (State.stopStreams s part cores) := by
  unfold State.stopStreams
  repeat' (first
    | with_reducible assumption
    | intro _
    | (extract_lets +onlyGivenNames u; refine (fun (hu : MemOk u) => ?_) ?_; clear_value u; rotate_left; unfold u; clear u)
    | with_reducible apply MemOk.foldl
    | with_reducible apply State.stopFeed_mem
    | with_reducible apply State.stopSpan_mem
    | with_reducible apply State.stopAligned_mem
    | with_reducible apply State.stopCamera_mem)

theorem State.setPower_mem {s : State} (d : Nat) (on : Bool) (hM : MemOk s) : MemOk (State.setPower s d on) := by
  unfold State.setPower
  repeat' (first
    | with_reducible assumption
    | with_reducible apply MemOk.ite
    | with_reducible apply State.setFld_mem)

theorem State.gatedError_mem {s : State} (hM : MemOk s) : MemOk (State.gatedError s) := by
  unfold State.gatedError
  repeat' (first
    | with_reducible assumption
    | with_reducible apply State.send_mem
    | with_reducible apply State.bumpObj_mem)

theorem State.requestStart_mem {s : State} (d : Nat) (hM : MemOk s) : MemOk (State.requestStart s d) := by
  unfold State.requestStart
  repeat' (first
    | with_reducible assumption
    | with_reducible apply MemOk.ite
    | split
    | dsimp only
    | ((conv => pattern (State.mk ..)); with_reducible apply MemOk.same; case e => (dsimp only [State.mems]; first | done | with_reducible rfl)))

theorem State.pwrSync_mem {s : State} (hM : MemOk s) : MemOk (State.pwrSync s) := by
  unfold State.pwrSync
  repeat' (first
    | with_reducible assumption
    | intro _
    | with_reducible apply MemOk.ite
    | with_reducible apply MemOk.foldl
    | with_reducible apply State.requestStart_mem
    | dsimp only
    | ((conv => pattern (State.mk ..)); with_reducible apply MemOk.same; case e => (dsimp only [State.mems]; first | done | with_reducible rfl)))

theorem State.regFull_mem {s : State} (hM : MemOk s) : MemOk (State.regFull s) := by
  unfold State.regFull
  repeat' (first
    | with_reducible assumption
    | with_reducible apply MemOk.ite
    | (extract_lets +onlyGivenNames u; refine (fun (hu : MemOk u) => ?_) ?_; clear_value u; rotate_left; unfold u; clear u)
    | with_reducible apply State.setFld_mem
    | dsimp only
    | ((conv => pattern (State.mk ..)); with_reducible apply MemOk.same; case e => (dsimp only [State.mems]; first | done | with_reducible rfl)))

theorem State.requestAll_mem {s : State} (hM : MemOk s) : MemOk (State.requestAll s) := by
  unfold State.requestAll
  repeat' (first
    | with_reducible assumption
    | intro _
    | with_reducible apply MemOk.foldl
    | with_reducible apply State.requestStart_mem)

theorem State.startPower_mem {s : State} (hM : MemOk s) : MemOk (State.startPower s) := by
  unfold State.startPower
  repeat' (first
    | with_reducible assumption
    | with_reducible apply MemOk.ite
    | with_reducible apply State.requestAll_mem
    | with_reducible apply State.regFull_mem
    | dsimp only
    | ((conv => pattern (State.mk ..)); with_reducible apply MemOk.same; case e => (dsimp only [State.mems]; first | done | with_reducible rfl)))

theorem State.buttonsUp_mem {s : State} (hM : MemOk s) : MemOk (State.buttonsUp s) := by
  unfold State.buttonsUp
  repeat' (first
    | with_reducible assumption
    | with_reducible apply MemOk.ite
    | with_reducible apply State.startPower_mem
    | dsimp only
    | ((conv => pattern (State.mk ..)); with_reducible apply MemOk.same; case e => (dsimp only [State.mems]; first | done | with_reducible rfl)))

theorem State.startResume_mem {s : State} (replayed : Bool) (hM : MemOk s) : MemOk (State.startResume s replayed) := by
  unfold State.startResume
  repeat' (first
    | with_reducible assumption
    | with_reducible apply MemOk.ite
    | with_reducible apply State.send_mem
    | with_reducible apply State.setObj_mem
    | with_reducible apply State.setFlds_mem
    | with_reducible apply State.pwrSync_mem
    | with_reducible apply State.regFull_mem
    | split)

theorem State.wake_mem {s : State} (code at_ arg : Nat) (hM : MemOk s) : MemOk (State.wake s code at_ arg) := by
  unfold State.wake
  repeat' (first
    | with_reducible assumption
    | with_reducible apply MemOk.ite
    | with_reducible apply State.startResume_mem
    | with_reducible apply State.setFld_mem
    | dsimp only
    | ((conv => pattern (State.mk ..)); with_reducible apply MemOk.same; case e => (dsimp only [State.mems]; first | done | with_reducible rfl)))

theorem State.cancelWake_mem {s : State} (code : Nat) (hM : MemOk s) : MemOk (State.cancelWake s code) := by
  unfold State.cancelWake
  repeat' (first
    | with_reducible assumption
    | with_reducible apply State.setFld_mem
    | dsimp only
    | ((conv => pattern (State.mk ..)); with_reducible apply MemOk.same; case e => (dsimp only [State.mems]; first | done | with_reducible rfl)))

theorem State.doorEvent_mem {s : State} (code arg at_ : Nat) (hM : MemOk s) : MemOk (State.doorEvent s code arg at_) := by
  unfold State.doorEvent
  repeat' (first
    | with_reducible assumption
    | with_reducible apply MemOk.ite
    | with_reducible apply State.event_mem
    | dsimp only
    | ((conv => pattern (State.mk ..)); with_reducible apply MemOk.same; case e => (dsimp only [State.mems]; first | done | with_reducible rfl)))

theorem State.watchEvent_mem {s : State} (code arg at_ : Nat) (hM : MemOk s) : MemOk (State.watchEvent s code arg at_) := by
  unfold State.watchEvent
  repeat' (first
    | with_reducible assumption
    | with_reducible apply MemOk.ite
    | with_reducible apply State.event_mem
    | dsimp only
    | ((conv => pattern (State.mk ..)); with_reducible apply MemOk.same; case e => (dsimp only [State.mems]; first | done | with_reducible rfl)))

theorem State.markSuspect_mem {s : State} (k i : Nat) (hM : MemOk s) : MemOk (State.markSuspect s k i) := by
  unfold State.markSuspect
  repeat' (first
    | with_reducible assumption
    | (extract_lets +onlyGivenNames u; refine (fun (hu : MemOk u) => ?_) ?_; clear_value u; rotate_left; unfold u; clear u)
    | with_reducible apply State.logIt_mem
    | with_reducible apply State.setFld_mem)

theorem State.countOutcome_mem {s : State} (k : Nat) (disagrees : Bool) (hM : MemOk s) : MemOk (State.countOutcome s k disagrees) := by
  unfold State.countOutcome
  repeat' (first
    | with_reducible assumption
    | with_reducible apply MemOk.ite
    | with_reducible apply State.markSuspect_mem
    | split
    | dsimp only
    | ((conv => pattern (State.mk ..)); with_reducible apply MemOk.same; case e => (dsimp only [State.mems]; first | done | with_reducible rfl)))

theorem State.recordOf_mem {s : State} (t : Taken) (d : JobDesc) (e : Ending) (hM : MemOk s) : MemOk (State.recordOf s t d e) := by
  unfold State.recordOf
  repeat' (first
    | with_reducible assumption
    | with_reducible apply State.writeCq_mem)

theorem State.failFrame_mem {s : State} (k : Nat) (hM : MemOk s) : MemOk (State.failFrame s k) := by
  unfold State.failFrame
  repeat' (first
    | with_reducible assumption
    | with_reducible apply MemOk.ite
    | with_reducible apply State.countOutcome_mem
    | with_reducible apply State.setNet_mem
    | with_reducible apply State.completeJob_mem
    | split
    | dsimp only)

theorem State.endCopy_mem {s : State} (k copy : Nat) (j : Job) (e : Ending) (hM : MemOk s) : MemOk (State.endCopy s k copy j e) := by
  unfold State.endCopy
  repeat' (first
    | with_reducible assumption
    | with_reducible apply MemOk.ite
    | with_reducible apply State.failFrame_mem
    | with_reducible apply State.rotaSlotMap_mem
    | with_reducible apply State.setNet_mem
    | with_reducible apply State.endJob_mem)

theorem State.dropSwitch_mem {s : State} (id : Nat × Nat × Nat) (hM : MemOk s) : MemOk (State.dropSwitch s id) := by
  unfold State.dropSwitch
  repeat' (first
    | with_reducible assumption
    | intro _
    | with_reducible apply MemOk.ite
    | with_reducible apply MemOk.foldl
    | with_reducible apply State.updCore_mem)

theorem State.cancelWindows_mem {s : State} (id : Nat × Nat × Nat) (hM : MemOk s) : MemOk (State.cancelWindows s id) := by
  unfold State.cancelWindows
  repeat' (first
    | with_reducible assumption
    | dsimp only
    | ((conv => pattern (State.mk ..)); with_reducible apply MemOk.same; case e => (dsimp only [State.mems]; first | done | with_reducible rfl)))

theorem State.withdrawOne_mem {s : State} (id : Nat × Nat × Nat) (e : Ending) (hM : MemOk s) : MemOk (State.withdrawOne s id e).2 := by
  unfold State.withdrawOne
  repeat' (first
    | with_reducible assumption
    | intro _
    | with_reducible apply MemOk.foldl
    | with_reducible apply State.dropSwitch_mem
    | with_reducible apply State.recordOf_mem
    | with_reducible apply State.endCopy_mem
    | with_reducible apply State.unpinPage_mem
    | with_reducible apply State.setNet_mem
    | with_reducible apply State.endJob_mem
    | with_reducible apply State.completeJob_mem
    | with_reducible apply State.setWslot_mem
    | split
    | dsimp only)

theorem State.withdraw_mem {s : State} (ring index : Nat) (e : Ending) (hM : MemOk s) : MemOk (State.withdraw s ring index e).2 := by
  unfold State.withdraw
  repeat' (first
    | with_reducible assumption
    | intro _
    | with_reducible apply MemOk.ite
    | (extract_lets +onlyGivenNames u; refine (fun (hu : MemOk u) => ?_) ?_; clear_value u; rotate_left; unfold u; clear u)
    | with_reducible apply MemOk.foldl
    | with_reducible apply State.withdrawOne_mem
    | with_reducible apply State.cancelWindows_mem
    | with_reducible apply State.setNet_mem
    | with_reducible apply State.recordOf_mem
    | with_reducible apply State.completeJob_mem
    | (split; all_goals first | (with_reducible have hx := congrArg Prod.snd ‹(_ : _ × State) = (_, _)›; dsimp only at hx; subst hx) | (with_reducible have hx := congrArg (fun x => x.2.2) ‹(_ : _ × _ × State) = (_, _, _)›; dsimp only at hx; subst hx) | skip)
    | dsimp only
    | ((conv => pattern (State.mk ..)); with_reducible apply MemOk.same; case e => (dsimp only [State.mems]; first | done | with_reducible rfl)))

theorem State.setWindows_mem {s : State} (w : Nat) (l : List Window) (hM : MemOk s) : MemOk (State.setWindows s w l) := by
  unfold State.setWindows
  repeat' (first
    | with_reducible assumption
    | dsimp only
    | ((conv => pattern (State.mk ..)); with_reducible apply MemOk.same; case e => (dsimp only [State.mems]; first | done | with_reducible rfl)))

theorem State.wwFault_mem {s : State} (w : Nat) (x : Window) (k : WwFault) (injected : Bool) (hM : MemOk s) : MemOk (State.wwFault s w x k injected) := by
  unfold State.wwFault
  repeat' (first
    | with_reducible assumption
    | with_reducible apply MemOk.ite
    | with_reducible apply State.withdrawOne_mem
    | with_reducible apply State.logIt_mem
    | with_reducible apply State.cancelWindows_mem
    | with_reducible apply State.bumpObj_mem
    | with_reducible apply State.updCore_mem
    | with_reducible apply State.event_mem
    | with_reducible apply State.setFld_mem
    | split
    | dsimp only
    | ((conv => pattern (State.mk ..)); with_reducible apply MemOk.same; case e => (dsimp only [State.mems]; first | done | with_reducible rfl)))

theorem State.wwArm_mem {s : State} (w : Nat) (job : Option (Nat × Nat × Nat)) (hM : MemOk s) : MemOk (State.wwArm s w job) := by
  unfold State.wwArm
  repeat' (first
    | with_reducible assumption
    | intro _
    | with_reducible apply MemOk.ite
    | with_reducible apply MemOk.foldl
    | with_reducible apply State.wwFault_mem
    | with_reducible apply State.setWindows_mem
    | dsimp only
    | ((conv => pattern (State.mk ..)); with_reducible apply MemOk.same; case e => (dsimp only [State.mems]; first | done | with_reducible rfl)))

theorem State.wwKickWindow_mem {s : State} (w : Nat) (x : Window) (hM : MemOk s) : MemOk (State.wwKickWindow s w x) := by
  unfold State.wwKickWindow
  repeat' (first
    | with_reducible assumption
    | with_reducible apply MemOk.ite
    | with_reducible apply State.wwFault_mem
    | with_reducible apply State.setWindows_mem
    | dsimp only
    | ((conv => pattern (State.mk ..)); with_reducible apply MemOk.same; case e => (dsimp only [State.mems]; first | done | with_reducible rfl)))

theorem State.wwKickJob_mem {s : State} (id : Nat × Nat × Nat) (hM : MemOk s) : MemOk (State.wwKickJob s id) := by
  unfold State.wwKickJob
  repeat' (first
    | with_reducible assumption
    | intro _
    | with_reducible apply MemOk.ite
    | with_reducible apply MemOk.foldl
    | with_reducible apply State.wwKickWindow_mem)

theorem State.wwRelease_mem {s : State} (arm src : Nat) (id : Nat × Nat × Nat) (hM : MemOk s) : MemOk (State.wwRelease s arm src id) := by
  unfold State.wwRelease
  repeat' (first
    | with_reducible assumption
    | intro _
    | with_reducible apply MemOk.ite
    | with_reducible apply MemOk.foldl
    | with_reducible apply State.wwArm_mem)

theorem State.finishJob_mem {s : State} (c : Nat) (hM : MemOk s) : MemOk (State.finishJob s c) := by
  unfold State.finishJob
  repeat' (first
    | with_reducible assumption
    | with_reducible apply MemOk.ite
    | (extract_lets +onlyGivenNames u; refine (fun (hu : MemOk u) => ?_) ?_; clear_value u; rotate_left; unfold u; clear u)
    | with_reducible apply State.cancelWindows_mem
    | with_reducible apply State.endCopy_mem
    | with_reducible apply State.setWslot_mem
    | with_reducible apply State.wwKickJob_mem
    | with_reducible apply State.completeJob_mem
    | with_reducible apply State.freeCores_mem
    | split
    | dsimp only)

theorem State.admitJob_mem {s : State} (t : Taken) (c p : Nat) (slot : Option Nat) (net : Option (Nat × Nat)) (cls slotCore : Nat) (hM : MemOk s) : MemOk (State.admitJob s t c p slot net cls slotCore).2 := by
  unfold State.admitJob
  repeat' (first
    | with_reducible assumption
    | intro _
    | with_reducible apply MemOk.ite
    | (extract_lets +onlyGivenNames u; refine (fun (hu : MemOk u) => ?_) ?_; clear_value u; rotate_left; unfold u; clear u)
    | with_reducible apply MemOk.foldl
    | with_reducible apply State.readTract_mem
    | with_reducible apply State.bumpObj_mem
    | with_reducible apply State.urRead_mem
    | with_reducible apply State.lgFetch_mem
    | with_reducible apply State.refused_mem
    | (split; all_goals first | (with_reducible have hx := congrArg Prod.snd ‹(_ : _ × State) = (_, _)›; dsimp only at hx; subst hx) | (with_reducible have hx := congrArg (fun x => x.2.2) ‹(_ : _ × _ × State) = (_, _, _)›; dsimp only at hx; subst hx) | skip)
    | dsimp only
    | ((conv => pattern (State.mk ..)); with_reducible apply MemOk.same; case e => (dsimp only [State.mems]; first | done | with_reducible rfl)))

theorem State.takeHead_mem {s : State} (r release : Nat) (hM : MemOk s) : MemOk (State.takeHead s r release).2 := by
  unfold State.takeHead
  repeat' (first
    | with_reducible assumption
    | with_reducible apply State.setSqLen_mem
    | with_reducible apply State.setFld_mem)

theorem State.releaseSlot_mem {s : State} (p i release : Nat) (hM : MemOk s) : MemOk (State.releaseSlot s p i release) := by
  unfold State.releaseSlot
  repeat' (first
    | with_reducible assumption
    | with_reducible apply State.takeHead_mem
    | with_reducible apply State.wwRelease_mem
    | with_reducible apply State.setWslot_mem)

theorem State.releaseDue_mem {s : State} (p i : Nat) (hM : MemOk s) : MemOk (State.releaseDue s p i) := by
  unfold State.releaseDue
  repeat' (first
    | with_reducible assumption
    | intro _
    | with_reducible apply MemOk.ite
    | (extract_lets +onlyGivenNames u; refine (fun (hu : MemOk u) => ?_) ?_; clear_value u; rotate_left; unfold u; clear u)
    | with_reducible apply MemOk.foldl
    | with_reducible apply State.takeHead_mem
    | with_reducible apply State.wwRelease_mem
    | with_reducible apply State.setWslot_mem
    | split
    | dsimp only
    | ((conv => pattern (State.mk ..)); with_reducible apply MemOk.same; case e => (dsimp only [State.mems]; first | done | with_reducible rfl)))

theorem State.serveSlot_mem {s : State} (p i : Nat) (hM : MemOk s) : MemOk (State.serveSlot s p i) := by
  unfold State.serveSlot
  repeat' (first
    | with_reducible assumption
    | intro _
    | with_reducible apply MemOk.ite
    | (extract_lets +onlyGivenNames u; refine (fun (hu : MemOk u) => ?_) ?_; clear_value u; rotate_left; unfold u; clear u)
    | with_reducible apply MemOk.foldl
    | with_reducible apply State.releaseSlot_mem
    | with_reducible apply State.setWslot_mem
    | (split; all_goals first | (with_reducible have hx := congrArg Prod.snd ‹(_ : _ × State) = (_, _)›; dsimp only at hx; subst hx) | (with_reducible have hx := congrArg (fun x => x.2.2) ‹(_ : _ × _ × State) = (_, _, _)›; dsimp only at hx; subst hx) | skip)
    | dsimp only
    | ((conv => pattern (State.mk ..)); with_reducible apply MemOk.same; case e => (dsimp only [State.mems]; first | done | with_reducible rfl)))

theorem State.servePart_mem {s : State} (p : Nat) (hM : MemOk s) : MemOk (State.servePart s p) := by
  unfold State.servePart
  repeat' (first
    | with_reducible assumption
    | intro _
    | with_reducible apply MemOk.foldl
    | with_reducible apply State.serveSlot_mem)

theorem State.rotaBinWrite_mem {s : State} (p c off : Nat) (bs : List Byte) (hM : MemOk s) : MemOk (State.rotaBinWrite s p c off bs) := by
  unfold State.rotaBinWrite
  repeat' (first
    | with_reducible assumption
    | intro _
    | with_reducible apply MemOk.ite
    | (extract_lets +onlyGivenNames u; refine (fun (hu : MemOk u) => ?_) ?_; clear_value u; rotate_left; unfold u; clear u)
    | with_reducible apply MemOk.foldl
    | with_reducible apply State.binWriteRun_mem
    | with_reducible apply State.binAdmit_mem
    | (split; all_goals first | (with_reducible have hx := congrArg Prod.snd ‹(_ : _ × State) = (_, _)›; dsimp only at hx; subst hx) | (with_reducible have hx := congrArg (fun x => x.2.2) ‹(_ : _ × _ × State) = (_, _, _)›; dsimp only at hx; subst hx) | skip)
    | dsimp only
    | ((conv => pattern (State.mk ..)); with_reducible apply MemOk.same; case e => (dsimp only [State.mems]; first | done | with_reducible rfl)))

theorem State.enableIssue_mem {s : State} (c optbase : Nat) (hM : MemOk s) : MemOk (State.enableIssue s c optbase) := by
  unfold State.enableIssue
  repeat' (first
    | with_reducible assumption
    | intro _
    | with_reducible apply MemOk.foldl
    | with_reducible apply State.setFld_mem)

theorem State.pinList_mem {s : State} (p c : Nat) (t : Tract) (deadline : Option Nat) (hM : MemOk s) : MemOk (s.pinList p c t deadline).2 := by
  unfold State.pinList
  have k := State.urRead_mem (s := s) (rotaReq (s.partSecure p)) (t.pinpage * 4096) (8 * min t.pincount 256) [] hM
  generalize s.urRead (rotaReq (s.partSecure p)) (t.pinpage * 4096) (8 * min t.pincount 256) [] = u at *
  obtain ⟨e, u⟩ := u
  cases e with
  | error e => exact k
  | ok b =>
    dsimp only
    generalize (List.range (min t.pincount 256)).flatMap _ = pages
    suffices ∀ a : List Nat × State, MemOk a.2 → MemOk (pages.foldl (fun ps pg =>
        let s := ps.2
        if s.urPages ≤ pg ∨ !s.quarterFills (quarterOf pg) then (ps.1, s.bumpObj .pinShort (p + 1) 1) else
        match s.pinPage pg p c deadline with
        | (true, s) => (ps.1 ++ [pg], s)
        | (false, s) => (ps.1, s.bumpObj .pinShort (p + 1) 1)) a).2 from this ([], u) k
    induction pages with
    | nil => exact fun _ h => h
    | cons g r ih =>
      intro a h
      refine ih _ ?_
      dsimp only
      by_cases hc : a.2.urPages ≤ g ∨ (!a.2.quarterFills (quarterOf g)) = true
      · rw [if_pos hc]; exact State.bumpObj_mem _ _ _ h
      · rw [if_neg hc]
        have k := State.pinPage_mem (s := a.2) g p c deadline h
        generalize a.2.pinPage g p c deadline = v at *
        obtain ⟨e, v⟩ := v
        cases e with
        | true => exact k
        | false => exact State.bumpObj_mem _ _ _ k

theorem State.startJob_mem {s : State} (j : Job) (hM : MemOk s) : MemOk (State.startJob s j) := by
  unfold State.startJob
  repeat' (first
    | with_reducible assumption
    | intro _
    | with_reducible apply MemOk.ite
    | (extract_lets +onlyGivenNames u; refine (fun (hu : MemOk u) => ?_) ?_; clear_value u; rotate_left; unfold u; clear u)
    | with_reducible apply MemOk.foldl
    | with_reducible apply State.fresh_mem
    | with_reducible apply State.updCore_mem
    | with_reducible apply State.setRec_mem
    | with_reducible apply State.bumpObj_mem
    | with_reducible apply State.rotaBinWrite_mem
    | with_reducible apply State.enableIssue_mem
    | with_reducible apply State.pinList_mem
    | with_reducible apply State.bumpFld_mem
    | with_reducible apply State.grantWork_mem
    | (split; all_goals first | (with_reducible have hx := congrArg Prod.snd ‹(_ : _ × State) = (_, _)›; dsimp only at hx; subst hx) | (with_reducible have hx := congrArg (fun x => x.2.2) ‹(_ : _ × _ × State) = (_, _, _)›; dsimp only at hx; subst hx) | skip)
    | dsimp only
    | ((conv => pattern (State.mk ..)); with_reducible apply MemOk.same; case e => (dsimp only [State.mems]; first | done | with_reducible rfl)))

theorem State.setTest_mem {s : State} (c : Nat) (x : TestProg) (hM : MemOk s) : MemOk (State.setTest s c x) := by
  unfold State.setTest
  repeat' (first
    | with_reducible assumption
    | dsimp only
    | ((conv => pattern (State.mk ..)); with_reducible apply MemOk.same; case e => (dsimp only [State.mems]; first | done | with_reducible rfl)))

theorem State.deferTest_mem {s : State} (p : Nat) (hM : MemOk s) : MemOk (State.deferTest s p) := by
  unfold State.deferTest
  repeat' (first
    | with_reducible assumption
    | with_reducible apply State.bumpFld_mem
    | with_reducible apply State.bumpObj_mem)

theorem State.startTest_mem {s : State} (p c : Nat) (hM : MemOk s) : MemOk (State.startTest s p c) := by
  unfold State.startTest
  repeat' (first
    | with_reducible assumption
    | intro _
    | with_reducible apply MemOk.ite
    | with_reducible apply MemOk.foldl
    | with_reducible apply State.zeroPlane_mem
    | with_reducible apply State.updCore_mem
    | with_reducible apply State.parkNow_mem
    | split
    | dsimp only
    | ((conv => pattern (State.mk ..)); with_reducible apply MemOk.same; case e => (dsimp only [State.mems]; first | done | with_reducible rfl)))

theorem State.abortTest_mem {s : State} (c : Nat) (hM : MemOk s) : MemOk (State.abortTest s c) := by
  unfold State.abortTest
  repeat' (first
    | with_reducible assumption
    | intro _
    | with_reducible apply MemOk.ite
    | with_reducible apply MemOk.foldl
    | with_reducible apply State.bumpFld_mem
    | with_reducible apply State.updCore_mem)

theorem State.startFallback_mem {s : State} (j : Job) (hM : MemOk s) : MemOk (State.startFallback s j) := by
  unfold State.startFallback
  repeat' (first
    | with_reducible assumption
    | intro _
    | with_reducible apply MemOk.ite
    | (extract_lets +onlyGivenNames u; refine (fun (hu : MemOk u) => ?_) ?_; clear_value u; rotate_left; unfold u; clear u)
    | with_reducible apply MemOk.foldl
    | with_reducible apply State.enableIssue_mem
    | with_reducible apply State.pinList_mem
    | with_reducible apply State.updCore_mem
    | with_reducible apply State.rotaBinWrite_mem
    | (split; all_goals first | (with_reducible have hx := congrArg Prod.snd ‹(_ : _ × State) = (_, _)›; dsimp only at hx; subst hx) | (with_reducible have hx := congrArg (fun x => x.2.2) ‹(_ : _ × _ × State) = (_, _, _)›; dsimp only at hx; subst hx) | skip)
    | dsimp only
    | ((conv => pattern (State.mk ..)); with_reducible apply MemOk.same; case e => (dsimp only [State.mems]; first | done | with_reducible rfl)))

theorem State.armFrame_mem {s : State} (k : Nat) (t : Taken) (hM : MemOk s) : MemOk (State.armFrame s k t) := by
  unfold State.armFrame
  repeat' (first
    | with_reducible assumption
    | intro _
    | with_reducible apply MemOk.ite
    | (extract_lets +onlyGivenNames u; refine (fun (hu : MemOk u) => ?_) ?_; clear_value u; rotate_left; unfold u; clear u)
    | with_reducible apply MemOk.foldl
    | with_reducible apply State.wwRelease_mem
    | split
    | dsimp only
    | ((conv => pattern (State.mk ..)); with_reducible apply MemOk.same; case e => (dsimp only [State.mems]; first | done | with_reducible rfl)))

theorem State.beginFrame_mem {s : State} (k : Nat) (t : Taken) (hM : MemOk s) : MemOk (State.beginFrame s k t) := by
  unfold State.beginFrame
  repeat' (first
    | with_reducible assumption
    | intro _
    | with_reducible apply MemOk.ite
    | (extract_lets +onlyGivenNames u; refine (fun (hu : MemOk u) => ?_) ?_; clear_value u; rotate_left; unfold u; clear u)
    | with_reducible apply MemOk.foldl
    | with_reducible apply State.cancelWindows_mem
    | with_reducible apply State.setNet_mem
    | with_reducible apply State.recordOf_mem
    | with_reducible apply State.setFld_mem
    | split
    | dsimp only
    | ((conv => pattern (State.mk ..)); with_reducible apply MemOk.same; case e => (dsimp only [State.mems]; first | done | with_reducible rfl)))

theorem State.releaseNet_mem {s : State} (k release : Nat) (hM : MemOk s) : MemOk (State.releaseNet s k release) := by
  unfold State.releaseNet
  repeat' (first
    | with_reducible assumption
    | with_reducible apply State.takeHead_mem
    | with_reducible apply State.armFrame_mem
    | with_reducible apply State.beginFrame_mem
    | split
    | dsimp only
    | ((conv => pattern (State.mk ..)); with_reducible apply MemOk.same; case e => (dsimp only [State.mems]; first | done | with_reducible rfl)))

theorem State.netDueNow_mem {s : State} (k : Nat) (hM : MemOk s) : MemOk (State.netDueNow s k) := by
  unfold State.netDueNow
  repeat' (first
    | with_reducible assumption
    | intro _
    | with_reducible apply MemOk.ite
    | (extract_lets +onlyGivenNames u; refine (fun (hu : MemOk u) => ?_) ?_; clear_value u; rotate_left; unfold u; clear u)
    | with_reducible apply MemOk.foldl
    | with_reducible apply State.takeHead_mem
    | with_reducible apply State.setNet_mem
    | with_reducible apply State.armFrame_mem
    | split
    | dsimp only
    | ((conv => pattern (State.mk ..)); with_reducible apply MemOk.same; case e => (dsimp only [State.mems]; first | done | with_reducible rfl)))

theorem State.serveNet_mem {s : State} (fuel k : Nat) (hM : MemOk s) : MemOk (s.serveNet fuel k) := by
  induction fuel generalizing s with
  | zero => exact hM
  | succ n ih =>
    unfold State.serveNet
    refine MemOk.ite hM ?_
    dsimp only
    split
    · exact ih (State.beginFrame_mem _ _ (State.setNet_mem _ _ hM))
    · exact MemOk.ite (ih (State.releaseNet_mem _ _ hM)) hM

theorem State.dispatchSlot_mem {s : State} (p i c : Nat) (hM : MemOk s) : MemOk (State.dispatchSlot s p i c).2 := by
  unfold State.dispatchSlot
  repeat' (first
    | with_reducible assumption
    | with_reducible apply State.cancelWindows_mem
    | with_reducible apply State.startJob_mem
    | with_reducible apply State.grantWork_mem
    | with_reducible apply State.updCore_mem
    | with_reducible apply State.admitJob_mem
    | with_reducible apply State.recordOf_mem
    | with_reducible apply State.setWslot_mem
    | with_reducible apply State.startFallback_mem
    | (split; all_goals first | (with_reducible have hx := congrArg Prod.snd ‹(_ : _ × State) = (_, _)›; dsimp only at hx; subst hx) | skip)
    | dsimp only
    | ((conv => pattern (State.mk ..)); with_reducible apply MemOk.same; case e => (dsimp only [State.mems]; first | done | with_reducible rfl)))

theorem State.dispatchCopy_mem {s : State} (p c k copy : Nat) (hM : MemOk s) : MemOk (State.dispatchCopy s p c k copy) := by
  unfold State.dispatchCopy
  repeat' (first
    | with_reducible assumption
    | with_reducible apply State.startJob_mem
    | with_reducible apply State.rotaSlotMap_mem
    | with_reducible apply State.admitJob_mem
    | with_reducible apply State.setNet_mem
    | with_reducible apply State.endCopy_mem
    | (split; all_goals first | (with_reducible have hx := congrArg Prod.snd ‹(_ : _ × State) = (_, _)›; dsimp only at hx; subst hx) | skip)
    | dsimp only)

theorem State.pickOnce_mem {s : State} (p c : Nat) (skip : List Nat) (hM : MemOk s) : MemOk (s.pickOnce p c skip).s := by
  unfold State.pickOnce
  extract_lets s1 s2
  have h1 : MemOk s1 := MemOk.ite (State.abortTest_mem _ hM) hM
  clear_value s1
  by_cases hc : (!s1.coreFree c) = true
  · rw [if_pos hc]; exact h1
  rw [if_neg hc]
  have h2 : MemOk s2 := State.servePart_mem _ h1
  clear_value s2
  cases s2.pick p c skip none with
  | none => exact h2
  | some x =>
    cases x with
    | test =>
      dsimp only
      split
      · exact State.deferTest_mem _ h2
      · exact State.startTest_mem _ _ h2
    | copy k x =>
      dsimp only
      have h3 := State.dispatchCopy_mem (s := s2) p c k x h2
      split
      · exact h3
      · exact State.serveNet_mem _ _ h3
    | slot i => exact State.dispatchSlot_mem _ _ _ h2

theorem State.decideLoop_mem {s : State} (fuel p c : Nat) (skip : List Nat) (hM : MemOk s) : MemOk (s.decideLoop fuel p c skip) := by
  unfold State.decideLoop
  generalize List.range fuel = l
  suffices ∀ a : Picking, MemOk a.s → MemOk (l.foldl (fun a _ => if a.more then a.s.pickOnce p c a.skip else a) a).s from this _ hM
  induction l with
  | nil => exact fun _ h => h
  | cons x r ih =>
    intro a h
    refine ih _ ?_
    dsimp only
    split
    · exact State.pickOnce_mem _ _ _ h
    · exact h

theorem State.decideCore_mem {s : State} (c : Nat) (hM : MemOk s) : MemOk (State.decideCore s c) := by
  unfold State.decideCore
  repeat' (first
    | with_reducible assumption
    | with_reducible apply MemOk.ite
    | with_reducible apply State.decideLoop_mem
    | split)

theorem State.decideAll_mem {s : State} (hM : MemOk s) : MemOk (State.decideAll s) := by
  unfold State.decideAll
  repeat' (first
    | with_reducible assumption
    | intro _
    | with_reducible apply MemOk.foldl
    | with_reducible apply State.decideCore_mem)

theorem State.serveNets_mem {s : State} (hM : MemOk s) : MemOk (State.serveNets s) := by
  unfold State.serveNets
  repeat' (first
    | with_reducible assumption
    | intro _
    | with_reducible apply MemOk.foldl
    | with_reducible apply State.serveNet_mem)

theorem State.leaveIdle_mem {s : State} (hM : MemOk s) : MemOk (State.leaveIdle s) := by
  unfold State.leaveIdle
  repeat' (first
    | with_reducible assumption
    | with_reducible apply MemOk.ite
    | with_reducible apply State.setFld_mem)

theorem State.decideNext_mem {s : State} (hM : MemOk s) : MemOk (State.decideNext s) := by
  unfold State.decideNext
  repeat' (first
    | with_reducible assumption
    | with_reducible apply State.leaveIdle_mem
    | with_reducible apply State.decideAll_mem
    | with_reducible apply State.serveNets_mem)

theorem State.finishAll_mem {s : State} (hM : MemOk s) : MemOk (State.finishAll s) := by
  unfold State.finishAll
  repeat' (first
    | with_reducible assumption
    | intro _
    | with_reducible apply MemOk.ite
    | with_reducible apply MemOk.foldl
    | with_reducible apply State.decideCore_mem
    | with_reducible apply State.decideNext_mem
    | with_reducible apply State.finishJob_mem)

/-- The memories are in order exactly when `State.memWf` says so. -/
theorem MemOk.iff (s : State) : MemOk s ↔ s.memWf = true := by
  simp only [State.memWf, Bool.and_eq_true]
  exact ⟨fun h => ⟨⟨⟨⟨⟨h.bin, h.home⟩, h.frame⟩, h.plane⟩, h.spill⟩, h.window⟩,
    fun h => ⟨h.1.1.1.1.1, h.1.1.1.1.2, h.1.1.1.2, h.1.1.2, h.1.2, h.2⟩⟩

end Sys2Proof.Machine
end

