-- ==== Sys2Proof/Laws/MemoryCores.lean ====
section
/-!
SUPPORT. The operations of the tensor cores keep the memories in their canonical form.
-/
namespace Sys2Proof.Machine
set_option linter.all false

theorem State.countOut_mem {s : State} (part : Nat) (o : Out) (hM : MemOk s) : MemOk (State.countOut s part o) := by
  unfold State.countOut
  repeat' (first
    | with_reducible assumption
    | with_reducible apply State.bumpObj_mem)

theorem State.tcRead_mem {s : State} (c port b : Nat) (runs : List (Nat × Nat)) (obs : List Obs) (hM : MemOk s) : MemOk (State.tcRead s c port b runs obs).2 := by
  unfold State.tcRead
  repeat' (first
    | with_reducible assumption
    | with_reducible apply State.checkGrains_mem
    | with_reducible apply State.binAdmit_mem
    | (split; all_goals first | (with_reducible have hx := congrArg Prod.snd ‹(_ : _ × State) = (_, _)›; dsimp only at hx; subst hx) | skip)
    | dsimp only)

theorem State.tcReads_mem {s : State} (obs : List Obs) (l : List (Nat × Nat × Nat × List (Nat × Nat))) (hM : MemOk s) :
    MemOk (s.tcReads obs l).2 := by
  induction l generalizing s with
  | nil => exact hM
  | cons x r ih =>
    obtain ⟨c, port, b, runs⟩ := x
    unfold State.tcReads
    have k := State.tcRead_mem (s := s) c port b runs obs hM
    generalize s.tcRead c port b runs obs = u at *
    obtain ⟨e, u⟩ := u
    cases e with
    | some e => exact k
    | none => exact ih k

theorem State.tcCheckWrite_mem {s : State} (c port b : Nat) (o : Out) (obs : List Obs) (hM : MemOk s) : MemOk (State.tcCheckWrite s c port b o obs).2 := by
  unfold State.tcCheckWrite
  repeat' (first
    | with_reducible assumption
    | intro _
    | with_reducible apply MemOk.ite
    | (extract_lets +onlyGivenNames u; refine (fun (hu : MemOk u) => ?_) ?_; clear_value u; rotate_left; unfold u; clear u)
    | with_reducible apply MemOk.foldl
    | with_reducible apply State.binAdmit_mem
    | with_reducible apply State.mergeCheck_mem
    | (split; all_goals first | (with_reducible have hx := congrArg Prod.snd ‹(_ : _ × State) = (_, _)›; dsimp only at hx; subst hx) | (with_reducible have hx := congrArg (fun x => x.2.2) ‹(_ : _ × _ × State) = (_, _, _)›; dsimp only at hx; subst hx) | skip)
    | dsimp only
    | ((conv => pattern (State.mk ..)); with_reducible apply MemOk.same; case e => (dsimp only [State.mems]; first | done | with_reducible rfl)))

theorem State.tcCheckWrites_mem {s : State} (obs : List Obs) (l : List (Nat × Nat × Nat × Out)) (hM : MemOk s) :
    MemOk (s.tcCheckWrites obs l).2 := by
  induction l generalizing s with
  | nil => exact hM
  | cons x r ih =>
    obtain ⟨c, port, b, o⟩ := x
    unfold State.tcCheckWrites
    have k := State.tcCheckWrite_mem (s := s) c port b o obs hM
    generalize s.tcCheckWrite c port b o obs = u at *
    obtain ⟨e, u⟩ := u
    cases e with
    | some e => exact k
    | none => exact ih k

theorem State.tcStore_mem {s : State} (c b : Nat) (o : Out) (hM : MemOk s) : MemOk (State.tcStore s c b o) := by
  unfold State.tcStore
  repeat' (first
    | with_reducible assumption
    | intro _
    | with_reducible apply MemOk.ite
    | (extract_lets +onlyGivenNames u; refine (fun (hu : MemOk u) => ?_) ?_; clear_value u; rotate_left; unfold u; clear u)
    | with_reducible apply MemOk.foldl
    | with_reducible apply State.countOut_mem
    | with_reducible apply State.binStore_mem
    | split
    | dsimp only
    | ((conv => pattern (State.mk ..)); with_reducible apply MemOk.same; case e => (dsimp only [State.mems]; first | done | with_reducible rfl)))

theorem State.tcCommits_mem {s : State} (obs : List Obs) (l : List (Nat × Nat × Nat × Out)) (hM : MemOk s) :
    MemOk (s.tcCommits obs l).2 := by
  unfold State.tcCommits
  have k := State.tcCheckWrites_mem obs l hM
  generalize s.tcCheckWrites obs l = u at *
  obtain ⟨e, u⟩ := u
  cases e with
  | some e => exact k
  | none => exact MemOk.foldl k (fun s x h => State.tcStore_mem _ _ _ h)

theorem State.runMembers_mem {s : State} (lead width : Nat) (obs : List Obs) (reads : Nat → List (Nat × Nat × Nat × List (Nat × Nat)))
    (out : State → Nat → Option (Nat × Nat × Nat × Out)) (hM : MemOk s) : MemOk (s.runMembers lead width obs reads out).2 := by
  unfold State.runMembers
  extract_lets ms
  have k := State.tcReads_mem obs (ms.flatMap reads) hM
  generalize s.tcReads obs (ms.flatMap reads) = u at *
  obtain ⟨e, u⟩ := u
  cases e with
  | some e => exact k
  | none => exact State.tcCommits_mem _ _ k

theorem State.setSlots_mem {s : State} (c h : Nat) (vs : List (Nat × Nat × Word)) (hM : MemOk s) : MemOk (State.setSlots s c h vs) := by
  unfold State.setSlots
  repeat' (first
    | with_reducible assumption
    | intro _
    | with_reducible apply MemOk.foldl
    | with_reducible apply State.setSlot_mem
    | with_reducible apply State.markDirty_mem)

theorem State.freePlane_mem {s : State} (c h rows : Nat) (hM : MemOk s) : MemOk (State.freePlane s c h rows) := by
  unfold State.freePlane
  repeat' (first
    | with_reducible assumption
    | with_reducible apply State.setSlots_mem
    | ((conv => pattern (State.mk ..)); with_reducible apply MemOk.same; case e => (dsimp only [State.mems]; first | done | with_reducible rfl)))

theorem State.countProducts_mem {s : State} (c n : Nat) (hM : MemOk s) : MemOk (State.countProducts s c n) := by
  unfold State.countProducts
  repeat' (first
    | with_reducible assumption
    | with_reducible apply State.setFld_mem
    | dsimp only
    | ((conv => pattern (State.mk ..)); with_reducible apply MemOk.same; case e => (dsimp only [State.mems]; first | done | with_reducible rfl)))

theorem State.vecRun_mem {s : State} (op : TcOp) (lead width : Nat) (cmd : TcCmd) (obs : List Obs) (hM : MemOk s) : MemOk (State.vecRun s op lead width cmd obs).2 := by
  unfold State.vecRun
  repeat' (first
    | with_reducible assumption
    | with_reducible apply State.runMembers_mem)

theorem State.scaleRun_mem {s : State} (op : TcOp) (lead width : Nat) (cmd : TcCmd) (obs : List Obs) (hM : MemOk s) : MemOk (State.scaleRun s op lead width cmd obs).2 := by
  unfold State.scaleRun
  repeat' (first
    | with_reducible assumption
    | intro _
    | with_reducible apply MemOk.foldl
    | with_reducible apply State.bumpObj_mem
    | with_reducible apply State.runMembers_mem
    | (split; all_goals first | (with_reducible have hx := congrArg Prod.snd ‹(_ : _ × State) = (_, _)›; dsimp only at hx; subst hx) | skip)
    | dsimp only)

theorem State.urReadRuns_mem {s : State} (q : Requester) (obs : List Obs) (l : List (Nat × Nat)) (hM : MemOk s) :
    MemOk (s.urReadRuns q obs l).2 := by
  induction l generalizing s with
  | nil => exact hM
  | cons r rs ih =>
    unfold State.urReadRuns
    have k := State.urRead_mem (s := s) q r.1 r.2 obs hM
    generalize s.urRead q r.1 r.2 obs = u at *
    obtain ⟨e, u⟩ := u
    cases e with
    | error x => exact k
    | ok b =>
      have k2 := ih k
      dsimp only
      generalize u.urReadRuns q obs rs = v at *
      obtain ⟨e, v⟩ := v
      cases e <;> exact k2

theorem State.fetchBlock_mem {s : State} (q : Requester) (l : PageList) (d e j : Nat) (obs : List Obs) (hM : MemOk s) : MemOk (State.fetchBlock s q l d e j obs).2 := by
  unfold State.fetchBlock
  repeat' (first
    | with_reducible assumption
    | intro _
    | with_reducible apply MemOk.ite
    | (extract_lets +onlyGivenNames u; refine (fun (hu : MemOk u) => ?_) ?_; clear_value u; rotate_left; unfold u; clear u)
    | with_reducible apply MemOk.foldl
    | with_reducible apply State.urReadRuns_mem
    | (split; all_goals first | (with_reducible have hx := congrArg Prod.snd ‹(_ : _ × State) = (_, _)›; dsimp only at hx; subst hx) | (with_reducible have hx := congrArg (fun x => x.2.2) ‹(_ : _ × _ × State) = (_, _, _)›; dsimp only at hx; subst hx) | skip)
    | dsimp only
    | ((conv => pattern (State.mk ..)); with_reducible apply MemOk.same; case e => (dsimp only [State.mems]; first | done | with_reducible rfl)))

theorem State.markPage_mem {s : State} (e : Nat) (hM : MemOk s) : MemOk (State.markPage s e) := by
  unfold State.markPage
  repeat' (first
    | with_reducible assumption
    | intro _
    | with_reducible apply MemOk.ite
    | (extract_lets +onlyGivenNames u; refine (fun (hu : MemOk u) => ?_) ?_; clear_value u; rotate_left; unfold u; clear u)
    | with_reducible apply MemOk.foldl
    | with_reducible apply State.logIt_mem
    | with_reducible apply State.setPageCount_mem
    | with_reducible apply State.setRec_mem
    | (split; all_goals first | (with_reducible have hx := congrArg Prod.snd ‹(_ : _ × State) = (_, _)›; dsimp only at hx; subst hx) | (with_reducible have hx := congrArg (fun x => x.2.2) ‹(_ : _ × _ × State) = (_, _, _)›; dsimp only at hx; subst hx) | skip)
    | dsimp only
    | ((conv => pattern (State.mk ..)); with_reducible apply MemOk.same; case e => (dsimp only [State.mems]; first | done | with_reducible rfl)))

theorem walkEntry_mem {α : Type} (q : Requester) (c opb : Nat) (p : AttnPar) (l : PageList) (lastRow : Nat) (obs : List Obs)
    (f : α → KvBlock → Nat → α) {w : Walk α} (k e : Nat) (hM : MemOk w.s) : MemOk (walkEntry q c opb p l lastRow obs f w k e).s := by
  unfold walkEntry
  by_cases h0 : w.fail.isSome = true ∨ pgCount e = 0
  · rw [if_pos h0]; exact hM
  rw [if_neg h0]
  cases w.s.entryFault l p.d opb e with
  | some x => exact hM
  | none =>
    dsimp only
    generalize (tileBlocks p lastRow e).1 = bl
    suffices ∀ z : Walk α, MemOk z.s → MemOk (bl.foldl (fun w j =>
      if w.fail.isSome then w else
      match w.s.fetchBlock q l p.d e j obs with
      | (.error x, s) =>
        { w with s := (match x with | .data _ _ => s.markPage e | _ => s), fail := some ⟨c, x.code, 0, false⟩ }
      | (.ok b, s) => { w with s := s, acc := f w.acc b k, staged := w.staged ++ [b.k ++ b.v ++ b.ks ++ b.vs] }) z).s from this _ hM
    induction bl with
    | nil => exact fun _ h => h
    | cons j r ih =>
      intro z h
      refine ih _ ?_
      dsimp only
      by_cases hc : z.fail.isSome = true
      · rw [if_pos hc]; exact h
      rw [if_neg hc]
      have k := State.fetchBlock_mem (s := z.s) q l p.d e j obs h
      generalize z.s.fetchBlock q l p.d e j obs = u at *
      obtain ⟨v, u⟩ := u
      cases v with
      | ok b => exact k
      | error x => cases x <;> first | exact k | exact State.markPage_mem _ k

theorem walkList_mem {α : Type} (q : Requester) (c opb first step : Nat) (p : AttnPar) (l : PageList) (lastRow : Nat) (obs : List Obs)
    (f : α → KvBlock → Nat → α) {w : Walk α} (hM : MemOk w.s) : MemOk (walkList q c opb first step p l lastRow obs f w).s := by
  unfold walkList
  generalize (List.range l.count).filter _ = ks
  induction ks generalizing w with
  | nil => exact hM
  | cons k r ih => exact ih (walkEntry_mem q c opb p l lastRow obs f k _ hM)

theorem Walk.foldl_mem {α β : Type} {F : Walk α → β → Walk α} {xs : List β} {w : Walk α} (h : MemOk w.s)
    (hF : ∀ w x, MemOk w.s → MemOk (F w x).s) : MemOk (xs.foldl F w).s := by
  induction xs generalizing w with
  | nil => exact h
  | cons a r ih => exact ih (hF w a h)

theorem State.foldl_mem {α : Type} {s : State} {F : State → α → State} {xs : List α} (h : MemOk s)
    (hF : ∀ s x, MemOk s → MemOk (F s x)) : MemOk (xs.foldl F s) := MemOk.foldl h hF

theorem State.admitStaged_mem {s : State} (c : Nat) (blocks : List (List Byte)) (hM : MemOk s) : MemOk (State.admitStaged s c blocks).2 := by
  unfold State.admitStaged
  repeat' (first
    | with_reducible assumption
    | intro _
    | with_reducible apply MemOk.ite
    | (extract_lets +onlyGivenNames u; refine (fun (hu : MemOk u) => ?_) ?_; clear_value u; rotate_left; unfold u; clear u)
    | with_reducible apply MemOk.foldl
    | with_reducible apply State.binAdmit_mem
    | (split; all_goals first | (with_reducible have hx := congrArg Prod.snd ‹(_ : _ × State) = (_, _)›; dsimp only at hx; subst hx) | (with_reducible have hx := congrArg (fun x => x.2.2) ‹(_ : _ × _ × State) = (_, _, _)›; dsimp only at hx; subst hx) | skip)
    | dsimp only
    | ((conv => pattern (State.mk ..)); with_reducible apply MemOk.same; case e => (dsimp only [State.mems]; first | done | with_reducible rfl)))

theorem State.leaveStaged_mem {s : State} (c : Nat) (blocks : List (List Byte)) (hM : MemOk s) : MemOk (State.leaveStaged s c blocks) := by
  unfold State.leaveStaged
  repeat' (first
    | with_reducible assumption
    | intro _
    | with_reducible apply MemOk.ite
    | with_reducible apply MemOk.foldl
    | with_reducible apply State.fresh_mem
    | with_reducible apply State.binStore_mem
    | split
    | dsimp only)

theorem State.stageAll_mem {s : State} (l : List (Nat × List (List Byte))) (hM : MemOk s) : MemOk (s.stageAll l).2 := by
  induction l generalizing s with
  | nil => exact hM
  | cons x r ih =>
    obtain ⟨c, bs⟩ := x
    unfold State.stageAll
    have k := State.admitStaged_mem (s := s) c bs hM
    generalize s.admitStaged c bs = u at *
    obtain ⟨e, u⟩ := u
    cases e with
    | some e => exact k
    | none =>
      have k2 := ih k
      dsimp only
      generalize u.stageAll r = v at *
      obtain ⟨e, v⟩ := v
      cases e with
      | some e => exact k2
      | none => exact State.leaveStaged_mem _ _ k2

theorem State.countRows_mem {s : State} (part : Nat) (rs : List AttnRow) (hM : MemOk s) : MemOk (State.countRows s part rs) := by
  unfold State.countRows
  repeat' (first
    | with_reducible assumption
    | intro _
    | with_reducible apply MemOk.ite
    | (extract_lets +onlyGivenNames u; refine (fun (hu : MemOk u) => ?_) ?_; clear_value u; rotate_left; unfold u; clear u)
    | with_reducible apply MemOk.foldl
    | with_reducible apply State.bumpObj_mem
    | split
    | dsimp only
    | ((conv => pattern (State.mk ..)); with_reducible apply MemOk.same; case e => (dsimp only [State.mems]; first | done | with_reducible rfl)))

theorem State.attnRun_mem {s : State} (lead width : Nat) (cmd : TcCmd) (obs : List Obs) (hM : MemOk s) :
    MemOk (s.attnRun lead width cmd obs).2 := by
  unfold State.attnRun
  extract_lets ms
  have k := State.tcReads_mem obs (ms.flatMap (s.attnReads lead width cmd)) hM
  generalize s.tcReads obs (ms.flatMap (s.attnReads lead width cmd)) = u at *
  obtain ⟨e, u⟩ := u
  generalize s.operand lead cmd.opa false = o
  cases o with
  | error x => exact k
  | ok da =>
    cases e with
    | some e => exact k
    | none =>
      obtain ⟨da, fa⟩ := da
      dsimp only
      generalize hw : List.foldl _ (⟨u, none, (Out.empty, Out.empty, []), [], 0⟩ : Walk (Out × Out × List (Nat × List (List Byte)))) _ = w
      have hws : MemOk w.s := by
        rw [← hw]
        refine Walk.foldl_mem k ?_
        intro w t h
        try dsimp only
        by_cases hf : w.fail.isSome = true
        · rw [if_pos hf]; exact h
        · rw [if_neg hf]
          refine State.countRows_mem _ _ (Walk.foldl_mem (w := ⟨w.s, _, _, _, _⟩) h ?_)
          intro x c hx
          cases x.s.pageList c cmd.opb with
          | error e => exact hx
          | ok l => exact walkList_mem _ _ _ _ _ _ _ _ _ _ (w := ⟨x.s, _, _, _, _⟩) hx
      clear hw
      have h1 := State.bumpObj_mem .attnSkipped ((u.partOf lead).getD 0 + 1) w.skipped hws
      generalize w.s.bumpObj .attnSkipped ((u.partOf lead).getD 0 + 1) w.skipped = s1 at *
      cases w.fail with
      | some e => exact h1
      | none =>
        dsimp only
        generalize List.map _ ms = sl
        have k3 := State.stageAll_mem sl h1
        generalize s1.stageAll sl = v at *
        obtain ⟨e, v⟩ := v
        cases e with
        | some e => exact k3
        | none =>
          refine State.tcCommits_mem _ _ (MemOk.foldl k3 ?_)
          intro s c h; exact MemOk.foldl h (fun s x h => State.freePlane_mem _ _ _ h)

theorem State.attnBackRun_mem {s : State} (c : Nat) (cmd : TcCmd) (obs : List Obs) (hM : MemOk s) :
    MemOk (s.attnBackRun c cmd obs).2 := by
  unfold State.attnBackRun
  have k := State.tcReads_mem obs (s.attnBackReads cmd c) hM
  generalize s.tcReads obs (s.attnBackReads cmd c) = u at *
  obtain ⟨e, u⟩ := u
  generalize s.operand c cmd.opa false = o
  generalize s.pageList c cmd.opb = pl
  cases o with
  | error x => exact k
  | ok da =>
    cases pl with
    | error x => exact k
    | ok l =>
      cases e with
      | some e => exact k
      | none =>
        obtain ⟨da, fa⟩ := da
        dsimp only
        generalize hw : List.foldl _ (⟨u, none, ([], ⟨[], [], []⟩), [], 0⟩ : Walk (List (List Word) × Back)) _ = w
        have hws : MemOk w.s := by
          rw [← hw]
          refine Walk.foldl_mem k ?_
          intro w t h
          try dsimp only
          by_cases hf : w.fail.isSome = true
          · rw [if_pos hf]; exact h
          · rw [if_neg hf]
            exact walkList_mem _ _ _ _ _ _ _ _ _ _ (w := ⟨w.s, _, _, _, _⟩) h
        clear hw
        have h1 := State.bumpObj_mem .attnSkipped ((w.s.partOf c).getD 0 + 1) w.skipped hws
        generalize w.s.bumpObj .attnSkipped ((w.s.partOf c).getD 0 + 1) w.skipped = s1 at *
        cases w.fail with
        | some e => exact h1
        | none =>
          dsimp only
          have k3 := State.stageAll_mem [(c, w.staged)] h1
          generalize s1.stageAll [(c, w.staged)] = v at *
          obtain ⟨e, v⟩ := v
          cases e with
          | some e => exact k3
          | none => exact State.tcCommits_mem _ _ (MemOk.foldl k3 (fun s x h => State.freePlane_mem _ _ _ h))

theorem State.setKeySlot_mem {s : State} (n : Nat) (k : KeySlot) (hM : MemOk s) : MemOk (State.setKeySlot s n k) := by
  unfold State.setKeySlot
  repeat' (first
    | with_reducible assumption
    | dsimp only
    | ((conv => pattern (State.mk ..)); with_reducible apply MemOk.same; case e => (dsimp only [State.mems]; first | done | with_reducible rfl)))

theorem State.zeroSlots_mem {s : State} (p : Nat → KeySlot → Bool) (hM : MemOk s) : MemOk (State.zeroSlots s p) := by
  unfold State.zeroSlots
  repeat' (first
    | with_reducible assumption
    | dsimp only
    | ((conv => pattern (State.mk ..)); with_reducible apply MemOk.same; case e => (dsimp only [State.mems]; first | done | with_reducible rfl)))

theorem State.setHlPort_mem {s : State} (p : Nat) (x : HlPort) (hM : MemOk s) : MemOk (State.setHlPort s p x) := by
  unfold State.setHlPort
  repeat' (first
    | with_reducible assumption
    | dsimp only
    | ((conv => pattern (State.mk ..)); with_reducible apply MemOk.same; case e => (dsimp only [State.mems]; first | done | with_reducible rfl)))

theorem State.sendPacket_mem {s : State} (p : Nat) (x : HlPacket) (hM : MemOk s) : MemOk (State.sendPacket s p x) := by
  unfold State.sendPacket
  repeat' (first
    | with_reducible assumption
    | with_reducible apply State.send_mem
    | with_reducible apply State.setHlPort_mem)

theorem State.setTransfers_mem {s : State} (l : List Transfer) (hM : MemOk s) : MemOk (State.setTransfers s l) := by
  unfold State.setTransfers
  repeat' (first
    | with_reducible assumption
    | dsimp only
    | ((conv => pattern (State.mk ..)); with_reducible apply MemOk.same; case e => (dsimp only [State.mems]; first | done | with_reducible rfl)))

theorem State.updTransfer_mem {s : State} (xfer : Nat) (f : Transfer → Transfer) (hM : MemOk s) : MemOk (State.updTransfer s xfer f) := by
  unfold State.updTransfer
  repeat' (first
    | with_reducible assumption
    | with_reducible apply State.setTransfers_mem)

theorem State.sendGrain_mem {s : State} (t : Transfer) (g p resends : Nat) (hM : MemOk s) : MemOk (State.sendGrain s t g p resends) := by
  unfold State.sendGrain
  repeat' (first
    | with_reducible assumption
    | with_reducible apply State.setKeySlot_mem
    | with_reducible apply State.sendPacket_mem
    | with_reducible apply State.updTransfer_mem)

theorem State.pumpTransfer_mem (fuel : Nat) {s : State} (xfer : Nat) (hM : MemOk s) : MemOk (State.pumpTransfer fuel s xfer) := by
  induction fuel generalizing s with
  | zero => exact hM
  | succ n ih =>
    unfold State.pumpTransfer
    cases s.hedge.transfers.find? (fun t => decide (t.xfer = xfer)) with
    | none => exact hM
    | some t =>
      dsimp only
      cases s.route t.dst with
      | none => exact hM
      | some p =>
        dsimp only
        split
        · exact ih (State.sendGrain_mem _ _ _ _ (State.updTransfer_mem _ _ hM))
        · exact hM

theorem State.pumpAll_mem {s : State} (hM : MemOk s) : MemOk (State.pumpAll s) := by
  unfold State.pumpAll
  repeat' (first
    | with_reducible assumption
    | intro _
    | with_reducible apply MemOk.foldl
    | with_reducible apply State.pumpTransfer_mem)

theorem State.countGrains_mem {s : State} (b tally n : Nat) (hM : MemOk s) : MemOk (State.countGrains s b tally n) := by
  unfold State.countGrains
  repeat' (first
    | with_reducible assumption
    | with_reducible apply State.raiseTally_mem)

theorem State.dmaFetch_mem {s : State} (op : TcOp) (c : Nat) (cmd : TcCmd) (obs : List Obs) (hM : MemOk s) : MemOk (State.dmaFetch s op c cmd obs).2 := by
  unfold State.dmaFetch
  repeat' (first
    | with_reducible assumption
    | intro _
    | with_reducible apply MemOk.ite
    | (extract_lets +onlyGivenNames u; refine (fun (hu : MemOk u) => ?_) ?_; clear_value u; rotate_left; unfold u; clear u)
    | with_reducible apply MemOk.foldl
    | with_reducible apply State.urRead_mem
    | with_reducible apply State.tcRead_mem
    | (split; all_goals first | (with_reducible have hx := congrArg Prod.snd ‹(_ : _ × State) = (_, _)›; dsimp only at hx; subst hx) | (with_reducible have hx := congrArg (fun x => x.2.2) ‹(_ : _ × _ × State) = (_, _, _)›; dsimp only at hx; subst hx) | skip)
    | dsimp only
    | ((conv => pattern (State.mk ..)); with_reducible apply MemOk.same; case e => (dsimp only [State.mems]; first | done | with_reducible rfl)))

theorem State.dmaFetchAll_mem {s : State} (op : TcOp) (cmd : TcCmd) (obs : List Obs) (l : List Nat) (hM : MemOk s) :
    MemOk (s.dmaFetchAll op cmd obs l).2 := by
  induction l generalizing s with
  | nil => exact hM
  | cons c r ih =>
    unfold State.dmaFetchAll
    have k := State.dmaFetch_mem (s := s) op c cmd obs hM
    generalize s.dmaFetch op c cmd obs = u at *
    obtain ⟨e, u⟩ := u
    cases e with
    | error e => exact k
    | ok m =>
      have k2 := ih k
      dsimp only
      generalize u.dmaFetchAll op cmd obs r = v at *
      obtain ⟨e, v⟩ := v
      cases e <;> exact k2

theorem State.dmaAdmit_mem {s : State} (m : DmaMove) (obs : List Obs) (hM : MemOk s) : MemOk (State.dmaAdmit s m obs).2 := by
  unfold State.dmaAdmit
  repeat' (first
    | with_reducible assumption
    | intro _
    | with_reducible apply MemOk.ite
    | (extract_lets +onlyGivenNames u; refine (fun (hu : MemOk u) => ?_) ?_; clear_value u; rotate_left; unfold u; clear u)
    | with_reducible apply MemOk.foldl
    | with_reducible apply State.urAdmit_mem
    | with_reducible apply State.binAdmit_mem
    | (split; all_goals first | (with_reducible have hx := congrArg Prod.snd ‹(_ : _ × State) = (_, _)›; dsimp only at hx; subst hx) | (with_reducible have hx := congrArg (fun x => x.2.2) ‹(_ : _ × _ × State) = (_, _, _)›; dsimp only at hx; subst hx) | skip)
    | dsimp only
    | ((conv => pattern (State.mk ..)); with_reducible apply MemOk.same; case e => (dsimp only [State.mems]; first | done | with_reducible rfl)))

theorem State.dmaAdmitAll_mem {s : State} (obs : List Obs) (l : List DmaMove) (hM : MemOk s) : MemOk (s.dmaAdmitAll obs l).2 := by
  induction l generalizing s with
  | nil => exact hM
  | cons m r ih =>
    unfold State.dmaAdmitAll
    have k := State.dmaAdmit_mem (s := s) m obs hM
    generalize s.dmaAdmit m obs = u at *
    obtain ⟨e, u⟩ := u
    cases e with
    | some e => exact k
    | none => exact ih k

theorem State.dmaStore_mem {s : State} (m : DmaMove) (hM : MemOk s) : MemOk (State.dmaStore s m) := by
  unfold State.dmaStore
  repeat' (first
    | with_reducible assumption
    | intro _
    | with_reducible apply MemOk.ite
    | (extract_lets +onlyGivenNames u; refine (fun (hu : MemOk u) => ?_) ?_; clear_value u; rotate_left; unfold u; clear u)
    | with_reducible apply MemOk.foldl
    | with_reducible apply State.countGrains_mem
    | with_reducible apply State.binStore_mem
    | with_reducible apply State.urStore_mem
    | split
    | dsimp only
    | ((conv => pattern (State.mk ..)); with_reducible apply MemOk.same; case e => (dsimp only [State.mems]; first | done | with_reducible rfl)))

theorem State.dmaRunAll_mem {s : State} (op : TcOp) (cmd : TcCmd) (obs : List Obs) (ms : List Nat) (hM : MemOk s) :
    MemOk (s.dmaRunAll op cmd obs ms).2 := by
  unfold State.dmaRunAll
  have k := State.dmaFetchAll_mem op cmd obs ms hM
  generalize s.dmaFetchAll op cmd obs ms = u at *
  obtain ⟨e, u⟩ := u
  cases e with
  | error e => exact k
  | ok l =>
    have k2 := State.dmaAdmitAll_mem obs l k
    dsimp only
    generalize u.dmaAdmitAll obs l = v at *
    obtain ⟨e, v⟩ := v
    cases e with
    | some e => exact k2
    | none => exact MemOk.foldl k2 (fun s x h => State.dmaStore_mem _ h)

theorem State.gateIssue_mem {s : State} (c : Nat) (cmd : TcCmd) (obs : List Obs) (hM : MemOk s) : MemOk (State.gateIssue s c cmd obs).2 := by
  unfold State.gateIssue
  repeat' (first
    | with_reducible assumption
    | with_reducible apply State.pumpTransfer_mem
    | with_reducible apply State.tcRead_mem
    | with_reducible apply State.refuseAccess_mem
    | (split; all_goals first | (with_reducible have hx := congrArg Prod.snd ‹(_ : _ × State) = (_, _)›; dsimp only at hx; subst hx) | skip)
    | dsimp only
    | ((conv => pattern (State.mk ..)); with_reducible apply MemOk.same; case e => (dsimp only [State.mems]; first | done | with_reducible rfl)))

theorem State.spillRun_mem {s : State} (op : TcOp) (c i : Nat) (cmd : TcCmd) (hM : MemOk s) : MemOk (State.spillRun s op c i cmd) := by
  unfold State.spillRun
  repeat' (first
    | with_reducible assumption
    | with_reducible apply State.markDirty_mem
    | with_reducible apply State.planeToSpill_mem
    | with_reducible apply State.spillToPlane_mem
    | split
    | dsimp only)

theorem State.spillRunAll_mem {s : State} (op : TcOp) (cmd : TcCmd) (obs : List Obs) (l : List (Nat × Nat)) (hM : MemOk s) :
    MemOk (s.spillRunAll op cmd obs l).2 := by
  unfold State.spillRunAll
  split
  · exact hM
  · exact MemOk.foldl hM (fun s x h => State.spillRun_mem _ _ _ _ h)

theorem State.carryState_mem {s : State} (c : Nat) (cmd : TcCmd) (vs : List (Nat × Nat × Dw)) (hM : MemOk s) : MemOk (State.carryState s c cmd vs) := by
  unfold State.carryState
  repeat' (first
    | with_reducible assumption
    | with_reducible apply MemOk.ite
    | with_reducible apply State.setSlots_mem)

theorem State.countQuant_mem {s : State} (part : Nat) (rs : List E4Row) (hM : MemOk s) : MemOk (State.countQuant s part rs) := by
  unfold State.countQuant
  repeat' (first
    | with_reducible assumption
    | intro _
    | with_reducible apply MemOk.ite
    | (extract_lets +onlyGivenNames u; refine (fun (hu : MemOk u) => ?_) ?_; clear_value u; rotate_left; unfold u; clear u)
    | with_reducible apply MemOk.foldl
    | with_reducible apply State.bumpObj_mem
    | split
    | dsimp only
    | ((conv => pattern (State.mk ..)); with_reducible apply MemOk.same; case e => (dsimp only [State.mems]; first | done | with_reducible rfl)))

theorem State.countScan_mem {s : State} (lead : Nat) (cmd : TcCmd) (sts : List (List (Nat × Nat × Dw))) (hM : MemOk s) : MemOk (State.countScan s lead cmd sts) := by
  unfold State.countScan
  repeat' (first
    | with_reducible assumption
    | with_reducible apply State.bumpObj_mem)

theorem State.scanRun_mem {s : State} (op : TcOp) (lead width : Nat) (cmd : TcCmd) (obs : List Obs) (hM : MemOk s) :
    MemOk (s.scanRun op lead width cmd obs).2 := by
  unfold State.scanRun
  extract_lets ms
  have k := State.tcReads_mem obs (ms.flatMap (s.scanReads op lead cmd)) hM
  generalize s.tcReads obs (ms.flatMap (s.scanReads op lead cmd)) = u at *
  obtain ⟨e, u⟩ := u
  cases e with
  | some e => exact k
  | none =>
    dsimp only
    generalize ms.map (u.scanForm op lead cmd) = fs
    have k2 := State.tcCommits_mem obs (fs.flatMap (·.outs)) k
    generalize u.tcCommits obs (fs.flatMap (·.outs)) = v at *
    obtain ⟨e, v⟩ := v
    cases e with
    | some e => exact k2
    | none =>
      refine State.countScan_mem _ _ _ (State.countQuant_mem _ _ (MemOk.foldl k2 ?_))
      intro s f h
      have h1 := State.carryState_mem f.core cmd f.st h
      try dsimp only
      split
      · exact State.setSlots_mem _ _ _ (State.zeroPlane_mem _ _ h1)
      · exact h1

theorem gemmStep_mem (w : View) (g : Gemm) (cmd : TcCmd) (da : TDesc) (fa : Fmt) {x : GemmRun} (t : Nat) (hM : MemOk x.s) :
    MemOk (gemmStep w g cmd da fa x t).s := by
  unfold gemmStep
  extract_lets side tn tm h first rows colsOf tiles s1
  have h1 : MemOk s1 := by
    refine MemOk.foldl hM ?_
    intro s e h
    refine State.setSlots_mem _ _ _ ?_
    try dsimp only
    split
    · exact h
    · exact State.zeroPlane_mem _ _ h
  clear_value s1
  split
  · exact h1
  · split <;> exact h1

theorem State.tilesRun_mem {s : State} (g : Gemm) (cmd : TcCmd) (flat : Bool) (view : TDesc → Fmt → View)
    (reads : List (Nat × Nat × Nat × List (Nat × Nat))) (obs : List Obs) (hM : MemOk s) : MemOk (s.tilesRun g cmd flat view reads obs).2 := by
  unfold State.tilesRun
  extract_lets lead width
  cases s.operand lead cmd.opa flat with
  | error e => exact hM
  | ok da =>
    obtain ⟨da, fa⟩ := da
    dsimp only
    have k := State.tcReads_mem obs reads hM
    generalize s.tcReads obs reads = u at *
    obtain ⟨e, u⟩ := u
    cases e with
    | some e => exact k
    | none =>
      dsimp only
      have hx : MemOk ((List.range (g.tiles (tileSide fa))).foldl (gemmStep (view da fa) g cmd da fa) ⟨u, List.replicate width Out.empty⟩).s := by
        suffices ∀ (l : List Nat) (x : GemmRun), MemOk x.s → MemOk (l.foldl (gemmStep (view da fa) g cmd da fa) x).s from this _ _ k
        intro l
        induction l with
        | nil => exact fun _ h => h
        | cons a r ih => exact fun x h => ih _ (gemmStep_mem _ _ _ _ _ _ h)
      generalize (List.range (g.tiles (tileSide fa))).foldl (gemmStep (view da fa) g cmd da fa) ⟨u, List.replicate width Out.empty⟩ = x at *
      generalize List.filterMap _ x.outs.zipIdx = outs
      have k2 := State.tcCommits_mem obs outs k
      generalize u.tcCommits obs outs = v at *
      obtain ⟨e, v⟩ := v
      cases e with
      | some e => exact k2
      | none =>
        refine MemOk.foldl ⟨k2.bin, k2.home, k2.frame, hx.plane, hx.spill, k2.window⟩ ?_
        intro s i h
        exact State.countProducts_mem _ _ h

theorem State.gemmRun_mem {s : State} (sub lead width : Nat) (cmd : TcCmd) (obs : List Obs) (hM : MemOk s) : MemOk (State.gemmRun s sub lead width cmd obs).2 := by
  unfold State.gemmRun
  repeat' (first
    | with_reducible assumption
    | with_reducible apply State.tilesRun_mem)

theorem State.convRun_mem {s : State} (lead width : Nat) (cmd : TcCmd) (obs : List Obs) (hM : MemOk s) : MemOk (State.convRun s lead width cmd obs).2 := by
  unfold State.convRun
  repeat' (first
    | with_reducible assumption
    | with_reducible apply State.tilesRun_mem
    | split)

theorem State.diagTile_mem {s : State} (r : WinRec) (cmd : TcCmd) (lead width i : Nat) (da : TDesc) (fa : Fmt) (db : TDesc) (fb : Fmt)
    (dc : TDesc) (fc : Fmt) {x : State × Out} (e : DiagTile × Nat) (hM : MemOk x.1) :
    MemOk (s.diagTile r cmd lead width i da fa db fb dc fc x e).1 := by
  unfold State.diagTile
  exact State.setSlots_mem _ _ _ (State.zeroPlane_mem _ _ hM)

theorem State.diagRun_mem {s : State} (lead width : Nat) (cmd : TcCmd) (obs : List Obs) (hM : MemOk s) :
    MemOk (s.diagRun lead width cmd obs).2 := by
  unfold State.diagRun
  generalize s.winRec lead (winIndex cmd) = o
  generalize s.operand lead cmd.opa false = p
  cases o with
  | error e => exact hM
  | ok r =>
    cases p with
    | error e => exact hM
    | ok da =>
      obtain ⟨da, fa⟩ := da
      dsimp only
      have k := State.tcReads_mem obs ((List.range width).flatMap (s.convReads true r lead width cmd)) hM
      generalize s.tcReads obs ((List.range width).flatMap (s.convReads true r lead width cmd)) = u at *
      obtain ⟨e, u⟩ := u
      cases e with
      | some e => exact k
      | none =>
        dsimp only
        generalize hx : List.foldl _ ((u, []) : State × List (Nat × Nat × Nat × Out)) (List.range width) = x
        have hxs : MemOk x.1 := by
          rw [← hx]
          generalize List.range width = l
          suffices ∀ y : State × List (Nat × Nat × Nat × Out), MemOk y.1 → MemOk (l.foldl (fun (x : State × List (Nat × Nat × Nat × Out)) i =>
              match u.operand (lead + i) cmd.opb false, u.operand (lead + i) cmd.opc false with
              | .ok (db, fb), .ok (dc, fc) =>
                let y := ((diagTiles r da.d3 width i).zipIdx).foldl (u.diagTile r cmd lead width i da fa db fb dc fc) (x.1, Out.empty)
                (y.1, x.2 ++ [(lead + i, 0, dc.bin (lead + i), y.2)])
              | _, _ => x) y).1 from this _ k
          induction l with
          | nil => exact fun _ h => h
          | cons i r' ih =>
            intro y h
            refine ih _ ?_
            dsimp only
            generalize u.operand (lead + i) cmd.opb false = ob
            generalize u.operand (lead + i) cmd.opc false = oc
            cases ob with
            | error e => exact h
            | ok db =>
              cases oc with
              | error e => exact h
              | ok dc =>
                obtain ⟨db, fb⟩ := db
                obtain ⟨dc, fc⟩ := dc
                dsimp only
                generalize (diagTiles r da.d3 width i).zipIdx = l2
                suffices ∀ z : State × Out, MemOk z.1 → MemOk (l2.foldl (u.diagTile r cmd lead width i da fa db fb dc fc) z).1 from this (y.1, Out.empty) h
                induction l2 with
                | nil => exact fun _ h => h
                | cons a b ih2 => exact fun z h => ih2 _ (State.diagTile_mem _ _ _ _ _ _ _ _ _ _ _ _ h)
        clear hx
        have k2 := State.tcCommits_mem obs x.2 k
        generalize u.tcCommits obs x.2 = v at *
        obtain ⟨e, v⟩ := v
        cases e with
        | some e => exact k2
        | none =>
          refine MemOk.foldl ⟨k2.bin, k2.home, k2.frame, hxs.plane, hxs.spill, k2.window⟩ ?_
          intro s i h
          exact State.countProducts_mem _ _ h

theorem State.poolRun_mem {s : State} (op : TcOp) (lead width : Nat) (cmd : TcCmd) (obs : List Obs) (hM : MemOk s) : MemOk (State.poolRun s op lead width cmd obs).2 := by
  unfold State.poolRun
  repeat' (first
    | with_reducible assumption
    | with_reducible apply State.runMembers_mem)

theorem State.demandSwap_mem {s : State} (l : Lease) (hM : MemOk s) : MemOk (State.demandSwap s l) := by
  unfold State.demandSwap
  repeat' (first
    | with_reducible assumption
    | intro _
    | with_reducible apply MemOk.ite
    | (extract_lets +onlyGivenNames u; refine (fun (hu : MemOk u) => ?_) ?_; clear_value u; rotate_left; unfold u; clear u)
    | with_reducible apply MemOk.foldl
    | with_reducible apply State.startSwap_mem
    | split
    | dsimp only
    | ((conv => pattern (State.mk ..)); with_reducible apply MemOk.same; case e => (dsimp only [State.mems]; first | done | with_reducible rfl)))

theorem State.recordFault_mem {s : State} (c code tag member mcode wher : Nat) (hM : MemOk s) : MemOk (State.recordFault s c code tag member mcode wher) := by
  unfold State.recordFault
  repeat' (first
    | with_reducible assumption
    | with_reducible apply MemOk.ite
    | with_reducible apply State.setFlds_mem)

theorem State.tcFault_mem {s : State} (c i : Nat) (fur misuse : Bool) (tag code wher : Nat) (own : Bool) (hM : MemOk s) : MemOk (State.tcFault s c i fur misuse tag code wher own) := by
  unfold State.tcFault
  repeat' (first
    | with_reducible assumption
    | with_reducible apply MemOk.ite
    | with_reducible apply State.logIt_mem
    | with_reducible apply State.recordFault_mem
    | with_reducible apply State.endJob_mem)

theorem State.switchFallback_mem {s : State} (c : Nat) (hM : MemOk s) : MemOk (State.switchFallback s c).2 := by
  unfold State.switchFallback
  repeat' (first
    | with_reducible assumption
    | (extract_lets +onlyGivenNames u; refine (fun (hu : MemOk u) => ?_) ?_; clear_value u; rotate_left; unfold u; clear u)
    | with_reducible apply State.bumpObj_mem
    | with_reducible apply State.bumpFld_mem
    | with_reducible apply State.updCore_mem
    | with_reducible apply State.setNet_mem
    | split)

theorem State.noteDelivered_mem {s : State} (part n : Nat) (hM : MemOk s) : MemOk (State.noteDelivered s part n) := by
  unfold State.noteDelivered
  repeat' (first
    | with_reducible assumption
    | intro _
    | with_reducible apply MemOk.ite
    | (extract_lets +onlyGivenNames u; refine (fun (hu : MemOk u) => ?_) ?_; clear_value u; rotate_left; unfold u; clear u)
    | with_reducible apply MemOk.foldl
    | split
    | dsimp only
    | ((conv => pattern (State.mk ..)); with_reducible apply MemOk.same; case e => (dsimp only [State.mems]; first | done | with_reducible rfl)))

theorem State.suspendJob_mem {s : State} (c index : Nat) (j : Job) (hM : MemOk s) : MemOk (State.suspendJob s c index j) := by
  unfold State.suspendJob
  repeat' (first
    | with_reducible assumption
    | intro _
    | with_reducible apply MemOk.foldl
    | with_reducible apply State.setWslot_mem
    | with_reducible apply State.bumpObj_mem
    | with_reducible apply State.bumpFld_mem
    | with_reducible apply State.updCore_mem
    | with_reducible apply State.releaseWork_mem
    | with_reducible apply State.setFld_mem
    | split)

theorem State.takeStile_mem {s : State} (c : Nat) (cmd : TcCmd) (hM : MemOk s) : MemOk (State.takeStile s c cmd) := by
  unfold State.takeStile
  repeat' (first
    | with_reducible assumption
    | with_reducible apply MemOk.ite
    | (extract_lets +onlyGivenNames u; refine (fun (hu : MemOk u) => ?_) ?_; clear_value u; rotate_left; unfold u; clear u)
    | with_reducible apply State.updCore_mem
    | with_reducible apply State.bumpObj_mem
    | with_reducible apply State.suspendJob_mem
    | with_reducible apply State.servePart_mem
    | with_reducible apply State.wwArm_mem
    | with_reducible apply State.endJob_mem
    | with_reducible apply State.wwKickJob_mem
    | with_reducible apply State.deferTest_mem
    | with_reducible apply State.setObj_mem
    | with_reducible apply State.bumpFld_mem
    | split)

theorem State.runOp_mem {s : State} (op : TcOp) (lead width : Nat) (cmd : TcCmd) (obs : List Obs) (hM : MemOk s) :
    MemOk (s.runOp op lead width cmd obs).2 := by
  unfold State.runOp
  cases op <;> dsimp only <;> first
    | with_reducible exact hM
    | with_reducible exact State.vecRun_mem _ _ _ _ _ hM
    | with_reducible exact State.gemmRun_mem _ _ _ _ _ hM
    | with_reducible exact State.convRun_mem _ _ _ _ hM
    | with_reducible exact State.diagRun_mem _ _ _ _ hM
    | with_reducible exact State.attnRun_mem _ _ _ _ hM
    | with_reducible exact State.attnBackRun_mem _ _ _ hM
    | with_reducible exact State.scanRun_mem _ _ _ _ _ hM
    | with_reducible exact State.poolRun_mem _ _ _ _ _ hM
    | with_reducible exact State.dmaRunAll_mem _ _ _ _ hM
    | with_reducible exact State.scaleRun_mem _ _ _ _ _ hM
    | with_reducible exact State.spillRunAll_mem _ _ _ _ hM

theorem State.within_mem {s t : State} (hM : MemOk s) (k : MemOk t) : MemOk (s.within t) :=
  ⟨k.bin, k.home, k.frame, k.plane, k.spill, hM.window⟩

theorem State.runWithin_mem {s : State} (op : TcOp) (lead width : Nat) (cmd : TcCmd) (obs : List Obs) (hM : MemOk s) :
    MemOk (s.runWithin op lead width cmd obs).2 := State.within_mem hM (State.runOp_mem op lead width cmd obs hM)

theorem State.enterFlight_mem {s : State} (op : TcOp) (lead : Nat) (cmd : TcCmd) (us : List Uses) (hM : MemOk s) : MemOk (State.enterFlight s op lead cmd us) := by
  unfold State.enterFlight
  repeat' (first
    | with_reducible assumption
    | intro _
    | with_reducible apply MemOk.foldl
    | with_reducible apply State.updCore_mem)

theorem State.noteIssue_mem {s : State} (op : TcOp) (lead width : Nat) (cmd : TcCmd) (hM : MemOk s) : MemOk (State.noteIssue s op lead width cmd) := by
  unfold State.noteIssue
  repeat' (first
    | with_reducible assumption
    | intro _
    | with_reducible apply MemOk.ite
    | with_reducible apply MemOk.foldl
    | with_reducible apply State.send_mem
    | with_reducible apply State.setFld_mem)

theorem State.issueTally_mem {s : State} (c width : Nat) (cmd : TcCmd) (hM : MemOk s) : MemOk (State.issueTally s c width cmd).2 := by
  unfold State.issueTally
  repeat' (first
    | with_reducible assumption
    | intro _
    | with_reducible apply MemOk.ite
    | (extract_lets +onlyGivenNames u; refine (fun (hu : MemOk u) => ?_) ?_; clear_value u; rotate_left; unfold u; clear u)
    | with_reducible apply MemOk.foldl
    | with_reducible apply State.noteIssue_mem
    | with_reducible apply State.updCore_mem
    | with_reducible apply State.setFld_mem
    | split
    | dsimp only
    | ((conv => pattern (State.mk ..)); with_reducible apply MemOk.same; case e => (dsimp only [State.mems]; first | done | with_reducible rfl)))

theorem State.issueData_mem {s : State} (c width : Nat) (i : Issue) (us : List Uses) (hM : MemOk s) : MemOk (State.issueData s c width i us).2 := by
  unfold State.issueData
  repeat' (first
    | with_reducible assumption
    | intro _
    | with_reducible apply MemOk.ite
    | (extract_lets +onlyGivenNames u; refine (fun (hu : MemOk u) => ?_) ?_; clear_value u; rotate_left; unfold u; clear u)
    | with_reducible apply MemOk.foldl
    | with_reducible apply State.runWithin_mem
    | with_reducible apply State.gateIssue_mem
    | with_reducible apply State.switchFallback_mem
    | with_reducible apply State.enterFlight_mem
    | with_reducible apply State.noteIssue_mem
    | with_reducible apply State.updCore_mem
    | with_reducible apply State.tcFault_mem
    | with_reducible apply State.endJob_mem
    | (split; all_goals first | (with_reducible have hx := congrArg Prod.snd ‹(_ : _ × State) = (_, _)›; dsimp only at hx; subst hx) | (with_reducible have hx := congrArg (fun x => x.2.2) ‹(_ : _ × _ × State) = (_, _, _)›; dsimp only at hx; subst hx) | skip)
    | dsimp only
    | ((conv => pattern (State.mk ..)); with_reducible apply MemOk.same; case e => (dsimp only [State.mems]; first | done | with_reducible rfl)))

theorem State.tryIssue_mem {s : State} (c : Nat) (i : Issue) (hM : MemOk s) : MemOk (State.tryIssue s c i).2 := by
  unfold State.tryIssue
  repeat' (first
    | with_reducible assumption
    | intro _
    | with_reducible apply MemOk.ite
    | (extract_lets +onlyGivenNames u; refine (fun (hu : MemOk u) => ?_) ?_; clear_value u; rotate_left; unfold u; clear u)
    | with_reducible apply MemOk.foldl
    | with_reducible apply State.noteIssue_mem
    | with_reducible apply State.updCore_mem
    | with_reducible apply State.tcFault_mem
    | with_reducible apply State.demandSwap_mem
    | with_reducible apply State.tcReads_mem
    | with_reducible apply State.issueTally_mem
    | with_reducible apply State.issueData_mem
    | with_reducible apply State.takeStile_mem
    | with_reducible apply State.bumpFld_mem
    | (split; all_goals first | (with_reducible have hx := congrArg Prod.snd ‹(_ : _ × State) = (_, _)›; dsimp only at hx; subst hx) | (with_reducible have hx := congrArg (fun x => x.2.2) ‹(_ : _ × _ × State) = (_, _, _)›; dsimp only at hx; subst hx) | skip)
    | dsimp only
    | ((conv => pattern (State.mk ..)); with_reducible apply MemOk.same; case e => (dsimp only [State.mems]; first | done | with_reducible rfl)))

theorem State.drainQueue_mem (fuel : Nat) {s : State} (c : Nat) (hM : MemOk s) : MemOk (State.drainQueue fuel s c) := by
  induction fuel generalizing s with
  | zero => exact hM
  | succ n ih =>
    unfold State.drainQueue
    cases hq : (s.core c).queue with
    | nil => exact hM
    | cons i rest =>
      dsimp only
      have k := State.tryIssue_mem (s := s) c i hM
      generalize s.tryIssue c i = u at *
      obtain ⟨e, u⟩ := u
      cases e with
      | false => exact k
      | true => exact ih (State.updCore_mem _ _ k)

theorem State.sweep_mem (fuel : Nat) {s : State} (hM : MemOk s) : MemOk (State.sweep fuel s) := by
  induction fuel generalizing s with
  | zero => exact hM
  | succ n ih =>
    unfold State.sweep
    extract_lets t
    have h1 : MemOk t := MemOk.foldl hM (fun s c h => State.drainQueue_mem _ _ h)
    clear_value t
    split
    · exact ih h1
    · exact h1

theorem State.settle_mem {s : State} (hM : MemOk s) : MemOk (State.settle s) := by
  unfold State.settle
  repeat' (first
    | with_reducible assumption
    | with_reducible apply State.finishAll_mem
    | with_reducible apply State.sweep_mem)

theorem State.tractCommand_mem {s : State} (core : Nat) (i : Issue) (hM : MemOk s) : MemOk (State.tractCommand s core i) := by
  unfold State.tractCommand
  repeat' (first
    | with_reducible assumption
    | with_reducible apply MemOk.ite
    | with_reducible apply State.settle_mem
    | with_reducible apply State.updCore_mem
    | split)

theorem State.delivers_mem {s : State} (m tag : Nat) (fur : Bool) (hM : MemOk s) : MemOk (State.delivers s m tag fur) := by
  unfold State.delivers
  repeat' (first
    | with_reducible assumption
    | intro _
    | with_reducible apply MemOk.ite
    | (extract_lets +onlyGivenNames u; refine (fun (hu : MemOk u) => ?_) ?_; clear_value u; rotate_left; unfold u; clear u)
    | with_reducible apply MemOk.foldl
    | with_reducible apply State.noteDelivered_mem
    | split
    | dsimp only
    | ((conv => pattern (State.mk ..)); with_reducible apply MemOk.same; case e => (dsimp only [State.mems]; first | done | with_reducible rfl)))

theorem State.freeCommand_mem {s : State} (c tag : Nat) (hM : MemOk s) : MemOk (State.freeCommand s c tag) := by
  unfold State.freeCommand
  repeat' (first
    | with_reducible assumption
    | intro _
    | with_reducible apply MemOk.ite
    | (extract_lets +onlyGivenNames u; refine (fun (hu : MemOk u) => ?_) ?_; clear_value u; rotate_left; unfold u; clear u)
    | with_reducible apply MemOk.foldl
    | with_reducible apply State.delivers_mem
    | with_reducible apply State.updCore_mem
    | (split; all_goals first | (with_reducible have hx := congrArg Prod.snd ‹(_ : _ × State) = (_, _)›; dsimp only at hx; subst hx) | (with_reducible have hx := congrArg (fun x => x.2.2) ‹(_ : _ × _ × State) = (_, _, _)›; dsimp only at hx; subst hx) | skip)
    | dsimp only
    | ((conv => pattern (State.mk ..)); with_reducible apply MemOk.same; case e => (dsimp only [State.mems]; first | done | with_reducible rfl)))

theorem State.endTract_mem {s : State} (c : Nat) (hM : MemOk s) : MemOk (State.endTract s c) := by
  unfold State.endTract
  repeat' (first
    | with_reducible assumption
    | with_reducible apply MemOk.ite
    | with_reducible apply State.endJob_mem)

theorem execCommandComplete_mem (core tag : Nat) (last : Bool) (at_ : Nat) {s : State} (hM : MemOk s) : MemNext (execCommandComplete core tag last at_ s) := by
  unfold execCommandComplete
  refine MemNext.command ?_
  repeat' (first
    | with_reducible assumption
    | with_reducible apply MemNext.next
    | with_reducible apply MemOk.ite
    | with_reducible apply State.settle_mem
    | with_reducible apply State.freeCommand_mem
    | with_reducible apply State.reach_mem
    | with_reducible apply State.endTract_mem)

theorem execWaitTallyTimeout_mem (core : Nat) {s : State} (hM : MemOk s) : MemNext (execWaitTallyTimeout core s) := by
  unfold execWaitTallyTimeout
  refine MemNext.command ?_
  repeat' (first
    | with_reducible assumption
    | with_reducible apply MemNext.next
    | with_reducible apply State.settle_mem
    | with_reducible apply State.reach_mem
    | with_reducible apply State.endJob_mem
    | split)

theorem execHearthSwapInComplete_mem (core hearth : Nat) (failed : Bool) (at_ : Nat) {s : State} (hM : MemOk s) : MemNext (execHearthSwapInComplete core hearth failed at_ s) := by
  unfold execHearthSwapInComplete
  refine MemNext.command ?_
  repeat' (first
    | with_reducible assumption
    | with_reducible apply MemNext.next
    | with_reducible apply MemNext.ite
    | (extract_lets +onlyGivenNames u; refine (fun (hu : MemOk u) => ?_) ?_; clear_value u; rotate_left; unfold u; clear u)
    | with_reducible apply State.settle_mem
    | with_reducible apply State.loseLease_mem
    | with_reducible apply State.reach_mem
    | with_reducible apply State.swapIn_mem
    | with_reducible apply State.endJob_mem
    | split)

theorem execHearthSwapOutComplete_mem (core hearth : Nat) {s : State} (hM : MemOk s) : MemNext (execHearthSwapOutComplete core hearth s) := by
  unfold execHearthSwapOutComplete
  refine MemNext.command ?_
  repeat' (first
    | with_reducible assumption
    | with_reducible apply MemNext.next
    | with_reducible apply State.settle_mem
    | with_reducible apply State.swapOut_mem
    | split)

theorem State.setSplit_mem {s : State} (core split : Nat) (hM : MemOk s) : MemOk (State.setSplit s core split) := by
  unfold State.setSplit
  repeat' (first
    | with_reducible assumption
    | with_reducible apply MemOk.ite
    | with_reducible apply State.setFld_mem)

theorem execHearthCfgWrite_mem (core split : Nat) (secure : Bool) {s : State} (hM : MemOk s) : MemNext (execHearthCfgWrite core split secure s) := by
  unfold execHearthCfgWrite
  refine MemNext.command ?_
  repeat' (first
    | with_reducible assumption
    | with_reducible apply MemNext.next
    | with_reducible apply MemOk.ite
    | with_reducible apply State.worldError_mem
    | with_reducible apply State.setSplit_mem)

theorem execTcCtrlHalt_mem (core : Nat) (halt secure : Bool) {s : State} (hM : MemOk s) : MemNext (execTcCtrlHalt core halt secure s) := by
  unfold execTcCtrlHalt
  refine MemNext.command ?_
  repeat' (first
    | with_reducible assumption
    | with_reducible apply MemNext.next
    | with_reducible apply MemOk.ite
    | with_reducible apply State.settle_mem
    | with_reducible apply State.worldError_mem
    | with_reducible apply State.setFld_mem)

theorem State.switchSuspended_mem {s : State} (p i : Nat) (hM : MemOk s) : MemOk (State.switchSuspended s p i) := by
  unfold State.switchSuspended
  repeat' (first
    | with_reducible assumption
    | with_reducible apply MemOk.ite
    | with_reducible apply State.bumpObj_mem
    | with_reducible apply State.bumpFld_mem
    | with_reducible apply State.setWslot_mem
    | split
    | dsimp only)

theorem execDeadlineExpiry_mem (core slot : Nat) (at_ : Nat) {s : State} (hM : MemOk s) : MemNext (execDeadlineExpiry core slot at_ s) := by
  unfold execDeadlineExpiry
  refine MemNext.command ?_
  repeat' (first
    | with_reducible assumption
    | with_reducible apply MemNext.next
    | with_reducible apply MemNext.ite
    | with_reducible apply MemOk.ite
    | with_reducible apply State.settle_mem
    | with_reducible apply State.switchFallback_mem
    | with_reducible apply State.reach_mem
    | with_reducible apply State.switchSuspended_mem
    | split)

theorem execFallbackStart_mem (core : Nat) {s : State} (hM : MemOk s) : MemNext (execFallbackStart core s) := by
  unfold execFallbackStart
  refine MemNext.command ?_
  repeat' (first
    | with_reducible assumption
    | with_reducible apply MemNext.next
    | with_reducible apply MemNext.ite
    | with_reducible apply State.startFallback_mem
    | split)

theorem State.noteSwitch_mem {s : State} (c part : Nat) (hM : MemOk s) : MemOk (State.noteSwitch s c part) := by
  unfold State.noteSwitch
  repeat' (first
    | with_reducible assumption
    | with_reducible apply State.setObj_mem)

theorem execPreEmptionSaveComplete_mem (core : Nat) (at_ : Nat) {s : State} (hM : MemOk s) : MemNext (execPreEmptionSaveComplete core at_ s) := by
  unfold execPreEmptionSaveComplete
  refine MemNext.command ?_
  repeat' (first
    | with_reducible assumption
    | with_reducible apply MemNext.next
    | with_reducible apply MemNext.ite
    | with_reducible apply MemOk.ite
    | with_reducible apply State.settle_mem
    | with_reducible apply State.reach_mem
    | with_reducible apply State.updCore_mem
    | with_reducible apply State.decideCore_mem
    | with_reducible apply State.noteSwitch_mem)

theorem State.restorePlane_mem {s : State} (a : SaveArea) (core h : Nat) (hM : MemOk s) : MemOk (s.restorePlane a core h) := by
  refine ⟨hM.bin, hM.home, hM.frame, ?_, hM.spill, hM.window⟩
  have puts (l m : SMap Word) (hm : SMap.wf (fun _ => 0) m = true) :
      SMap.wf (fun _ => 0) (l.foldl (fun m e => SMap.put m e.1 e.2 0#32) m) = true := by
    induction l generalizing m with
    | nil => exact hm
    | cons e r ih => exact ih _ (wf_put32 hm)
  exact puts _ _ (SMap.wf_clear hM.plane)

theorem State.restoreJob_mem {s : State} (j : Job) (a : SaveArea) (hM : MemOk s) : MemOk (State.restoreJob s j a) := by
  unfold State.restoreJob
  repeat' (first
    | with_reducible assumption
    | intro _
    | (extract_lets +onlyGivenNames u; refine (fun (hu : MemOk u) => ?_) ?_; clear_value u; rotate_left; unfold u; clear u)
    | with_reducible apply MemOk.foldl
    | with_reducible apply State.enableIssue_mem
    | with_reducible apply State.restorePlane_mem
    | with_reducible apply State.grantWork_mem
    | with_reducible apply State.updCore_mem
    | with_reducible apply State.binStore_mem)

theorem execSwitchRestoreComplete_mem (core : Nat) (failed : Bool) (at_ : Nat) {s : State} (hM : MemOk s) : MemNext (execSwitchRestoreComplete core failed at_ s) := by
  unfold execSwitchRestoreComplete
  refine MemNext.command ?_
  repeat' (first
    | with_reducible assumption
    | intro _
    | with_reducible apply MemNext.next
    | with_reducible apply MemNext.ite
    | (extract_lets +onlyGivenNames u; refine (fun (hu : MemOk u) => ?_) ?_; clear_value u; rotate_left; unfold u; clear u)
    | with_reducible apply MemOk.foldl
    | with_reducible apply State.updCore_mem
    | with_reducible apply State.restoreJob_mem
    | with_reducible apply State.reach_mem
    | with_reducible apply State.noteSwitch_mem
    | with_reducible apply State.unpinPage_mem
    | with_reducible apply State.completeJob_mem
    | with_reducible apply State.settle_mem
    | with_reducible apply State.decideCore_mem
    | with_reducible apply State.setWslot_mem
    | split
    | dsimp only)

end Sys2Proof.Machine
end

