-- ==== Sys2Proof/Laws/MemoryUnits.lean ====
section
/-!
SUPPORT. The commands of the memories, the streams, the person-facing inputs, safety and security keep the memories in their canonical form.
-/
namespace Sys2Proof.Machine
set_option linter.all false

theorem State.countWhole_mem {s : State} (b off n : Nat) (tally : Option Nat) (hM : MemOk s) : MemOk (State.countWhole s b off n tally) := by
  unfold State.countWhole
  repeat' (first
    | with_reducible assumption
    | with_reducible apply State.raiseTally_mem
    | split)

theorem execBinPortAccess_mem (bin port init : Nat) (secure write : Bool) (off len : Nat) (data : List Byte) (tally : Option Nat) (obs : List Obs) {s : State} (hM : MemOk s) : MemNext (execBinPortAccess bin port init secure write off len data tally obs s) := by
  unfold execBinPortAccess
  refine MemNext.command ?_
  repeat' (first
    | with_reducible assumption
    | with_reducible apply MemNext.next
    | with_reducible apply MemNext.ite
    | with_reducible apply State.answer_mem
    | with_reducible apply State.countWhole_mem
    | with_reducible apply State.settle_mem
    | with_reducible apply State.checkGrains_mem
    | with_reducible apply State.binWriteRun_mem
    | with_reducible apply State.binAdmit_mem
    | (split; all_goals first | (with_reducible have hx := congrArg Prod.snd ‹(_ : _ × State) = (_, _)›; dsimp only at hx; subst hx) | skip)
    | dsimp only)

theorem execCorrectedWordWriteBack_mem (bin : Nat) {s : State} (hM : MemOk s) : MemNext (execCorrectedWordWriteBack bin s) := by
  unfold execCorrectedWordWriteBack
  refine MemNext.command ?_
  repeat' (first
    | with_reducible assumption
    | with_reducible apply MemNext.next
    | split
    | dsimp only
    | ((conv => pattern (State.mk ..)); with_reducible apply MemOk.same; case e => (dsimp only [State.mems]; first | done | with_reducible rfl)))

theorem State.startZeroing_mem {s : State} (b : Nat) (hM : MemOk s) : MemOk (State.startZeroing s b) := by
  unfold State.startZeroing
  repeat' (first
    | with_reducible assumption
    | with_reducible apply State.setFlds_mem)

theorem execBinInit_mem (bin : Nat) (secure : Bool) {s : State} (hM : MemOk s) : MemNext (execBinInit bin secure s) := by
  unfold execBinInit
  refine MemNext.command ?_
  repeat' (first
    | with_reducible assumption
    | with_reducible apply MemNext.next
    | with_reducible apply MemNext.ite
    | with_reducible apply State.startZeroing_mem
    | with_reducible apply State.worldError_mem)

theorem State.zeroBin_mem {s : State} (b : Nat) (hM : MemOk s) : MemOk (State.zeroBin s b) := by
  unfold State.zeroBin
  repeat' (first
    | dsimp only
    | (with_reducible refine MemOk.mk ?_ ?_ ?_ ?_ ?_ ?_ <;> dsimp only <;> (repeat' (with_reducible first | exact MemOk.bin (by assumption) | exact MemOk.home (by assumption) | exact MemOk.frame (by assumption) | exact MemOk.plane (by assumption) | exact MemOk.spill (by assumption) | exact MemOk.window (by assumption) | apply SMap.wf_putRun | apply SMap.wf_clear | apply SMap.wf_copy | apply wf_puts | apply wf_put0 | apply wf_put32)) <;> done))

theorem execBinZeroingComplete_mem (bin : Nat) {s : State} (hM : MemOk s) : MemNext (execBinZeroingComplete bin s) := by
  unfold execBinZeroingComplete
  refine MemNext.command ?_
  repeat' (first
    | with_reducible assumption
    | with_reducible apply MemNext.next
    | with_reducible apply MemNext.ite
    | with_reducible apply State.settle_mem
    | with_reducible apply State.zeroBin_mem
    | with_reducible apply State.setFlds_mem
    | with_reducible apply State.decideCore_mem
    | with_reducible apply State.setFld_mem)

theorem execPatrolScrub_mem (bin : Nat) (obs : List Obs) {s : State} (hM : MemOk s) : MemNext (execPatrolScrub bin obs s) := by
  unfold execPatrolScrub
  refine MemNext.command ?_
  repeat' (first
    | with_reducible assumption
    | intro _
    | with_reducible apply MemNext.next
    | with_reducible apply MemNext.ite
    | with_reducible apply MemOk.ite
    | with_reducible apply MemOk.foldl
    | with_reducible apply State.checkGrain_mem
    | dsimp only
    | ((conv => pattern (State.mk ..)); with_reducible apply MemOk.same; case e => (dsimp only [State.mems]; first | done | with_reducible rfl)))

theorem execSlotMapWrite_mem (bin word value : Nat) (secure : Bool) {s : State} (hM : MemOk s) : MemNext (execSlotMapWrite bin word value secure s) := by
  unfold execSlotMapWrite
  refine MemNext.command ?_
  repeat' (first
    | with_reducible assumption
    | with_reducible apply MemNext.next
    | with_reducible apply MemNext.ite
    | with_reducible apply MemOk.ite
    | with_reducible apply State.bumpFld_mem
    | with_reducible apply State.worldError_mem
    | with_reducible apply State.setSlotMap_mem)

theorem State.repairRow_mem {s : State} (b bank row : Nat) (field : Bool) (hM : MemOk s) : MemOk (State.repairRow s b bank row field).2.2 := by
  unfold State.repairRow
  repeat' (first
    | with_reducible assumption
    | with_reducible apply State.event_mem
    | with_reducible apply State.setFld_mem
    | split
    | dsimp only
    | ((conv => pattern (State.mk ..)); with_reducible apply MemOk.same; case e => (dsimp only [State.mems]; first | done | with_reducible rfl)))

theorem State.repairVia_mem {s : State} (bin bank row : Nat) (hM : MemOk s) : MemOk (State.repairVia s bin bank row).2 := by
  unfold State.repairVia
  repeat' (first
    | with_reducible assumption
    | intro _
    | with_reducible apply MemOk.ite
    | (extract_lets +onlyGivenNames u; refine (fun (hu : MemOk u) => ?_) ?_; clear_value u; rotate_left; unfold u; clear u)
    | with_reducible apply MemOk.foldl
    | with_reducible apply State.repairRow_mem
    | with_reducible apply State.setFld_mem
    | split
    | dsimp only
    | ((conv => pattern (State.mk ..)); with_reducible apply MemOk.same; case e => (dsimp only [State.mems]; first | done | with_reducible rfl)))

theorem execBinRepair_mem (bin bank row : Nat) (secure : Bool) {s : State} (hM : MemOk s) : MemNext (execBinRepair bin bank row secure s) := by
  unfold execBinRepair
  refine MemNext.command ?_
  repeat' (first
    | with_reducible assumption
    | with_reducible apply MemNext.next
    | with_reducible apply MemNext.ite
    | with_reducible apply State.repairVia_mem
    | with_reducible apply State.worldError_mem
    | with_reducible apply State.setFld_mem)

theorem State.repairSettled_mem {s : State} (b bank row : Nat) (hM : MemOk s) : MemOk (State.repairSettled s b bank row) := by
  unfold State.repairSettled
  repeat' (first
    | with_reducible assumption
    | intro _
    | with_reducible apply MemOk.ite
    | (extract_lets +onlyGivenNames u; refine (fun (hu : MemOk u) => ?_) ?_; clear_value u; rotate_left; unfold u; clear u)
    | with_reducible apply MemOk.foldl
    | split
    | dsimp only
    | ((conv => pattern (State.mk ..)); with_reducible apply MemOk.same; case e => (dsimp only [State.mems]; first | done | with_reducible rfl)))

theorem execFieldRowRepair_mem (bin bank row : Nat) {s : State} (hM : MemOk s) : MemNext (execFieldRowRepair bin bank row s) := by
  unfold execFieldRowRepair
  refine MemNext.command ?_
  repeat' (first
    | with_reducible assumption
    | intro _
    | with_reducible apply MemNext.next
    | with_reducible apply MemNext.ite
    | with_reducible apply MemOk.ite
    | (extract_lets +onlyGivenNames u; refine (fun (hu : MemOk u) => ?_) ?_; clear_value u; rotate_left; unfold u; clear u)
    | with_reducible apply MemOk.foldl
    | with_reducible apply State.logIt_mem
    | with_reducible apply State.repairSettled_mem
    | with_reducible apply State.repairVia_mem
    | (split; all_goals first | (with_reducible have hx := congrArg Prod.snd ‹(_ : _ × State) = (_, _)›; dsimp only at hx; subst hx) | (with_reducible have hx := congrArg (fun x => x.2.2) ‹(_ : _ × _ × State) = (_, _, _)›; dsimp only at hx; subst hx) | skip)
    | dsimp only
    | ((conv => pattern (State.mk ..)); with_reducible apply MemOk.same; case e => (dsimp only [State.mems]; first | done | with_reducible rfl)))

theorem execGateOpen_mem (bin gate : Nat) (secure : Bool) {s : State} (hM : MemOk s) : MemNext (execGateOpen bin gate secure s) := by
  unfold execGateOpen
  refine MemNext.command ?_
  repeat' (first
    | with_reducible assumption
    | with_reducible apply MemNext.next
    | with_reducible apply MemNext.ite
    | with_reducible apply State.setFlds_mem
    | with_reducible apply State.worldError_mem
    | with_reducible apply State.setFld_mem)

theorem execGateClose_mem (bin gate : Nat) (secure : Bool) {s : State} (hM : MemOk s) : MemNext (execGateClose bin gate secure s) := by
  unfold execGateClose
  refine MemNext.command ?_
  repeat' (first
    | with_reducible assumption
    | with_reducible apply MemNext.next
    | with_reducible apply MemNext.ite
    | with_reducible apply State.setFlds_mem
    | with_reducible apply State.worldError_mem)

theorem State.rejectGate_mem {s : State} (b gate code : Nat) (hM : MemOk s) : MemOk (State.rejectGate s b gate code).2 := by
  unfold State.rejectGate
  repeat' (first
    | with_reducible assumption
    | with_reducible apply State.bumpFld_mem)

theorem State.gateArrival_mem {s : State} (b gate off tally sender : Nat) (data : List Byte) (sealWord : Word) (hM : MemOk s) : MemOk (State.gateArrival s b gate off tally sender data sealWord).2 := by
  unfold State.gateArrival
  repeat' (first
    | with_reducible assumption
    | with_reducible apply State.binAdmit_mem
    | with_reducible apply State.setPoison_mem
    | with_reducible apply State.rejectGate_mem
    | with_reducible apply State.binStore_mem
    | with_reducible apply State.raiseTally_mem
    | (split; all_goals first | (with_reducible have hx := congrArg Prod.snd ‹(_ : _ × State) = (_, _)›; dsimp only at hx; subst hx) | skip)
    | dsimp only)

theorem execGateArrival_mem (bin gate off tally sender : Nat) (data : List Byte) (sealWord : Word) {s : State} (hM : MemOk s) : MemNext (execGateArrival bin gate off tally sender data sealWord s) := by
  unfold execGateArrival
  refine MemNext.command ?_
  repeat' (first
    | with_reducible assumption
    | with_reducible apply MemNext.next
    | with_reducible apply State.settle_mem
    | with_reducible apply State.send_mem
    | with_reducible apply State.gateArrival_mem)

theorem execTallyWrite_mem (bin tally value : Nat) (secure : Bool) {s : State} (hM : MemOk s) : MemNext (execTallyWrite bin tally value secure s) := by
  unfold execTallyWrite
  refine MemNext.command ?_
  repeat' (first
    | with_reducible assumption
    | with_reducible apply MemNext.next
    | with_reducible apply MemNext.ite
    | with_reducible apply State.settle_mem
    | with_reducible apply State.worldError_mem
    | with_reducible apply State.setFld_mem)

theorem execUnifiedRangeAccess_mem (init : Nat) (secure write : Bool) (off len : Nat) (data : List Byte) (obs : List Obs) {s : State} (hM : MemOk s) : MemNext (execUnifiedRangeAccess init secure write off len data obs s) := by
  unfold execUnifiedRangeAccess
  refine MemNext.command ?_
  repeat' (first
    | with_reducible assumption
    | with_reducible apply MemNext.next
    | with_reducible apply MemNext.ite
    | with_reducible apply State.logIt_mem
    | with_reducible apply State.answer_mem
    | with_reducible apply State.urRead_mem
    | with_reducible apply State.urWrite_mem
    | (split; all_goals first | (with_reducible have hx := congrArg Prod.snd ‹(_ : _ × State) = (_, _)›; dsimp only at hx; subst hx) | skip))

theorem execGranaryFillComplete_mem (quarter : Nat) (cause : Option Nat) {s : State} (hM : MemOk s) : MemNext (execGranaryFillComplete quarter cause s) := by
  unfold execGranaryFillComplete
  refine MemNext.command ?_
  repeat' (first
    | with_reducible assumption
    | intro _
    | with_reducible apply MemNext.next
    | with_reducible apply MemNext.ite
    | with_reducible apply MemOk.ite
    | (extract_lets +onlyGivenNames u; refine (fun (hu : MemOk u) => ?_) ?_; clear_value u; rotate_left; unfold u; clear u)
    | with_reducible apply MemOk.foldl
    | with_reducible apply State.settle_mem
    | with_reducible apply State.endFill_mem
    | with_reducible apply State.quarantine_mem
    | (split; all_goals first | (with_reducible have hx := congrArg Prod.snd ‹(_ : _ × State) = (_, _)›; dsimp only at hx; subst hx) | (with_reducible have hx := congrArg (fun x => x.2.2) ‹(_ : _ × _ × State) = (_, _, _)›; dsimp only at hx; subst hx) | skip)
    | dsimp only
    | ((conv => pattern (State.mk ..)); with_reducible apply MemOk.same; case e => (dsimp only [State.mems]; first | done | with_reducible rfl)))

theorem State.spoilHome_mem {s : State} (p : Nat) (hM : MemOk s) : MemOk (State.spoilHome s p) := by
  unfold State.spoilHome
  repeat' (first
    | with_reducible assumption
    | intro _
    | with_reducible apply MemOk.ite
    | (extract_lets +onlyGivenNames u; refine (fun (hu : MemOk u) => ?_) ?_; clear_value u; rotate_left; unfold u; clear u)
    | with_reducible apply MemOk.foldl
    | with_reducible apply State.fresh_mem
    | split
    | dsimp only
    | ((conv => pattern (State.mk ..)); with_reducible apply MemOk.same; case e => (dsimp only [State.mems]; first | done | with_reducible rfl)))

theorem execGranaryWriteBackComplete_mem (quarter : Nat) (failed : Bool) {s : State} (hM : MemOk s) : MemNext (execGranaryWriteBackComplete quarter failed s) := by
  unfold execGranaryWriteBackComplete
  refine MemNext.command ?_
  repeat' (first
    | with_reducible assumption
    | intro _
    | with_reducible apply MemNext.next
    | with_reducible apply MemNext.ite
    | with_reducible apply MemOk.ite
    | (extract_lets +onlyGivenNames u; refine (fun (hu : MemOk u) => ?_) ?_; clear_value u; rotate_left; unfold u; clear u)
    | with_reducible apply MemOk.foldl
    | with_reducible apply State.frameToHome_mem
    | with_reducible apply State.spoilHome_mem
    | with_reducible apply State.quarantine_mem
    | with_reducible apply State.dropFrame_mem
    | with_reducible apply State.bumpFld_mem
    | with_reducible apply State.beginFill_mem
    | (split; all_goals first | (with_reducible have hx := congrArg Prod.snd ‹(_ : _ × State) = (_, _)›; dsimp only at hx; subst hx) | (with_reducible have hx := congrArg (fun x => x.2.2) ‹(_ : _ × _ × State) = (_, _, _)›; dsimp only at hx; subst hx) | skip)
    | dsimp only
    | ((conv => pattern (State.mk ..)); with_reducible apply MemOk.same; case e => (dsimp only [State.mems]; first | done | with_reducible rfl)))

theorem execMigrationDecay_mem (at_ : Nat) {s : State} (hM : MemOk s) : MemNext (execMigrationDecay at_ s) := by
  unfold execMigrationDecay
  refine MemNext.command ?_
  repeat' (first
    | with_reducible assumption
    | with_reducible apply MemNext.next
    | with_reducible apply State.reach_mem
    | dsimp only
    | ((conv => pattern (State.mk ..)); with_reducible apply MemOk.same; case e => (dsimp only [State.mems]; first | done | with_reducible rfl)))

theorem State.pinRun_mem {s : State} (quota : Nat) (l : List Nat) (done : Nat) (hM : MemOk s) : MemOk (s.pinRun quota l done).2.2 := by
  induction l generalizing s done with
  | nil => exact hM
  | cons p r ih =>
    unfold State.pinRun
    by_cases h1 : s.urPages ≤ p
    · rw [if_pos h1]; exact hM
    rw [if_neg h1]
    by_cases h2 : (!s.quarterFills (quarterOf p)) = true
    · rw [if_pos h2]; exact hM
    rw [if_neg h2]
    have k := State.pinPage_mem (s := s) p quota 8 none hM
    generalize s.pinPage p quota 8 none = u at *
    obtain ⟨e, u⟩ := u
    cases e with
    | true => exact ih _ k
    | false => exact k

theorem State.setPin_mem {s : State} (page op quota count : Nat) (hM : MemOk s) : MemOk (State.setPin s page op quota count) := by
  unfold State.setPin
  repeat' (first
    | with_reducible assumption
    | with_reducible apply State.setFlds_mem)

theorem State.pinResult_mem {s : State} (result done : Nat) (hM : MemOk s) : MemOk (State.pinResult s result done) := by
  unfold State.pinResult
  repeat' (first
    | with_reducible assumption
    | with_reducible apply State.setFlds_mem)

theorem execUrPin_mem (page quota count : Nat) (secure : Bool) {s : State} (hM : MemOk s) : MemNext (execUrPin page quota count secure s) := by
  unfold execUrPin
  refine MemNext.command ?_
  refine MemNext.ite (MemNext.next (State.worldError_mem _ _ hM)) (MemNext.ite (MemNext.next hM) ?_)
  have k := State.setPin_mem page 0 quota count hM
  generalize s.setPin page 0 quota count = u at *
  dsimp only
  cases pinPages page quota count with
  | none => exact MemNext.next (State.setPinning_mem _ (State.pinResult_mem _ _ k))
  | some ps => exact MemNext.next (State.setPinning_mem _ (State.pinResult_mem _ _ (State.pinRun_mem _ _ _ k)))

theorem execUrUnpin_mem (page quota count : Nat) (secure : Bool) {s : State} (hM : MemOk s) : MemNext (execUrUnpin page quota count secure s) := by
  unfold execUrUnpin
  refine MemNext.command ?_
  repeat' (first
    | with_reducible assumption
    | intro _
    | with_reducible apply MemNext.next
    | with_reducible apply MemNext.ite
    | with_reducible apply MemOk.ite
    | (extract_lets +onlyGivenNames u; refine (fun (hu : MemOk u) => ?_) ?_; clear_value u; rotate_left; unfold u; clear u)
    | with_reducible apply MemOk.foldl
    | with_reducible apply State.unpinPage_mem
    | with_reducible apply State.setPin_mem
    | with_reducible apply State.worldError_mem
    | with_reducible apply State.pinResult_mem
    | with_reducible apply State.setPinning_mem
    | (split; all_goals first | (with_reducible have hx := congrArg Prod.snd ‹(_ : _ × State) = (_, _)›; dsimp only at hx; subst hx) | (with_reducible have hx := congrArg (fun x => x.2.2) ‹(_ : _ × _ × State) = (_, _, _)›; dsimp only at hx; subst hx) | skip)
    | dsimp only
    | ((conv => pattern (State.mk ..)); with_reducible apply MemOk.same; case e => (dsimp only [State.mems]; first | done | with_reducible rfl)))

theorem State.setQuota_mem {s : State} (quota ways : Nat) (hM : MemOk s) : MemOk (State.setQuota s quota ways) := by
  unfold State.setQuota
  repeat' (first
    | with_reducible assumption
    | with_reducible apply MemOk.ite
    | with_reducible apply State.setFld_mem)

theorem execUrQuotaWrite_mem (quota ways : Nat) (secure : Bool) {s : State} (hM : MemOk s) : MemNext (execUrQuotaWrite quota ways secure s) := by
  unfold execUrQuotaWrite
  refine MemNext.command ?_
  repeat' (first
    | with_reducible assumption
    | with_reducible apply MemNext.next
    | with_reducible apply MemOk.ite
    | with_reducible apply State.setQuota_mem
    | with_reducible apply State.worldError_mem)

theorem execUrPstateWrite_mem (page : Nat) (q sheaf secure : Bool) {s : State} (hM : MemOk s) : MemNext (execUrPstateWrite page q sheaf secure s) := by
  unfold execUrPstateWrite
  refine MemNext.command ?_
  repeat' (first
    | with_reducible assumption
    | with_reducible apply MemNext.next
    | with_reducible apply MemNext.ite
    | with_reducible apply MemOk.ite
    | with_reducible apply State.clearQ_mem
    | with_reducible apply State.setPageState_mem
    | with_reducible apply State.worldError_mem
    | with_reducible apply State.setFld_mem)

theorem State.quarterGone_mem {s : State} (quarter cause : Nat) (hM : MemOk s) : MemOk (State.quarterGone s quarter cause) := by
  unfold State.quarterGone
  repeat' (first
    | with_reducible assumption
    | intro _
    | (extract_lets +onlyGivenNames u; refine (fun (hu : MemOk u) => ?_) ?_; clear_value u; rotate_left; unfold u; clear u)
    | with_reducible apply MemOk.foldl
    | with_reducible apply State.settle_mem
    | with_reducible apply State.dropFrame_mem
    | with_reducible apply State.setFlds_mem
    | with_reducible apply State.event_mem
    | dsimp only
    | ((conv => pattern (State.mk ..)); with_reducible apply MemOk.same; case e => (dsimp only [State.mems]; first | done | with_reducible rfl)))

theorem execQuarterRetireComplete_mem (quarter : Nat) {s : State} (hM : MemOk s) : MemNext (execQuarterRetireComplete quarter s) := by
  unfold execQuarterRetireComplete
  refine MemNext.command ?_
  repeat' (first
    | with_reducible assumption
    | intro _
    | with_reducible apply MemNext.next
    | with_reducible apply MemNext.ite
    | with_reducible apply MemOk.ite
    | with_reducible apply MemOk.foldl
    | with_reducible apply State.quarterGone_mem
    | split
    | dsimp only)

theorem State.loseSpills_mem {s : State} (hM : MemOk s) : MemOk (State.loseSpills s) := by
  unfold State.loseSpills
  repeat' (first
    | with_reducible assumption
    | dsimp only
    | ((conv => pattern (State.mk ..)); with_reducible apply MemOk.same; case e => (dsimp only [State.mems]; first | done | with_reducible rfl)))

theorem execQuarterLoss_mem (quarter : Nat) {s : State} (hM : MemOk s) : MemNext (execQuarterLoss quarter s) := by
  unfold execQuarterLoss
  refine MemNext.command ?_
  repeat' (first
    | with_reducible assumption
    | intro _
    | with_reducible apply MemNext.next
    | with_reducible apply MemNext.ite
    | with_reducible apply MemOk.ite
    | (extract_lets +onlyGivenNames u; refine (fun (hu : MemOk u) => ?_) ?_; clear_value u; rotate_left; unfold u; clear u)
    | with_reducible apply MemOk.foldl
    | with_reducible apply State.quarterGone_mem
    | with_reducible apply State.loseSpills_mem
    | with_reducible apply State.quarantine_mem
    | with_reducible apply State.stopFill_mem
    | (split; all_goals first | (with_reducible have hx := congrArg Prod.snd ‹(_ : _ × State) = (_, _)›; dsimp only at hx; subst hx) | (with_reducible have hx := congrArg (fun x => x.2.2) ‹(_ : _ × _ × State) = (_, _, _)›; dsimp only at hx; subst hx) | skip)
    | dsimp only
    | ((conv => pattern (State.mk ..)); with_reducible apply MemOk.same; case e => (dsimp only [State.mems]; first | done | with_reducible rfl)))

theorem State.svBin_mem {s : State} (b off n : Nat) (obs : List Obs) (hM : MemOk s) : MemOk (State.svBin s b off n obs).2 := by
  unfold State.svBin
  repeat' (first
    | with_reducible assumption
    | with_reducible apply State.binUnitRead_mem
    | (split; all_goals first | (with_reducible have hx := congrArg Prod.snd ‹(_ : _ × State) = (_, _)›; dsimp only at hx; subst hx) | skip)
    | dsimp only
    | ((conv => pattern (State.mk ..)); with_reducible apply MemOk.same; case e => (dsimp only [State.mems]; first | done | with_reducible rfl)))

theorem State.svRunDecode_mem {s : State} (d : List Byte) (obs : List Obs) (hM : MemOk s) : MemOk (State.svRunDecode s d obs).2 := by
  unfold State.svRunDecode
  repeat' (first
    | with_reducible assumption
    | with_reducible apply State.svBin_mem
    | (split; all_goals first | (with_reducible have hx := congrArg Prod.snd ‹(_ : _ × State) = (_, _)›; dsimp only at hx; subst hx) | skip)
    | dsimp only)

theorem State.svRunCrop_mem {s : State} (d : List Byte) (obs : List Obs) (hM : MemOk s) : MemOk (State.svRunCrop s d obs).2 := by
  unfold State.svRunCrop
  repeat' (first
    | with_reducible assumption
    | with_reducible apply State.urRead_mem
    | with_reducible apply State.svBin_mem
    | (split; all_goals first | (with_reducible have hx := congrArg Prod.snd ‹(_ : _ × State) = (_, _)›; dsimp only at hx; subst hx) | skip)
    | dsimp only)

theorem State.svError_mem {s : State} (code slot : Nat) (hM : MemOk s) : MemOk (State.svError s code slot) := by
  unfold State.svError
  repeat' (first
    | with_reducible assumption
    | intro _
    | with_reducible apply MemOk.ite
    | (extract_lets +onlyGivenNames u; refine (fun (hu : MemOk u) => ?_) ?_; clear_value u; rotate_left; unfold u; clear u)
    | with_reducible apply MemOk.foldl
    | with_reducible apply State.logIt_mem
    | with_reducible apply State.bumpFld_mem
    | with_reducible apply State.setFlds_mem
    | (split; all_goals first | (with_reducible have hx := congrArg Prod.snd ‹(_ : _ × State) = (_, _)›; dsimp only at hx; subst hx) | (with_reducible have hx := congrArg (fun x => x.2.2) ‹(_ : _ × _ × State) = (_, _, _)›; dsimp only at hx; subst hx) | skip)
    | dsimp only
    | ((conv => pattern (State.mk ..)); with_reducible apply MemOk.same; case e => (dsimp only [State.mems]; first | done | with_reducible rfl)))

theorem State.svTake_mem {s : State} (crop : Bool) (obs : List Obs) (hM : MemOk s) : MemOk (State.svTake s crop obs) := by
  unfold State.svTake
  repeat' (first
    | with_reducible assumption
    | intro _
    | with_reducible apply MemOk.ite
    | (extract_lets +onlyGivenNames u; refine (fun (hu : MemOk u) => ?_) ?_; clear_value u; rotate_left; unfold u; clear u)
    | with_reducible apply MemOk.foldl
    | with_reducible apply State.bumpObj_mem
    | with_reducible apply State.svRunDecode_mem
    | with_reducible apply State.svBin_mem
    | with_reducible apply State.svRunCrop_mem
    | with_reducible apply State.svError_mem
    | with_reducible apply State.setFld_mem
    | (split; all_goals first | (with_reducible have hx := congrArg Prod.snd ‹(_ : _ × State) = (_, _)›; dsimp only at hx; subst hx) | (with_reducible have hx := congrArg (fun x => x.2.2) ‹(_ : _ × _ × State) = (_, _, _)›; dsimp only at hx; subst hx) | skip)
    | dsimp only
    | ((conv => pattern (State.mk ..)); with_reducible apply MemOk.same; case e => (dsimp only [State.mems]; first | done | with_reducible rfl)))

theorem State.svMove_mem {s : State} (hM : MemOk s) : MemOk (State.svMove s) := by
  unfold State.svMove
  repeat' (first
    | with_reducible assumption
    | with_reducible apply MemOk.ite
    | with_reducible apply State.setFld_mem
    | split
    | dsimp only
    | ((conv => pattern (State.mk ..)); with_reducible apply MemOk.same; case e => (dsimp only [State.mems]; first | done | with_reducible rfl)))

theorem State.svDrop_mem {s : State} (hM : MemOk s) : MemOk (State.svDrop s) := by
  unfold State.svDrop
  repeat' (first
    | with_reducible assumption
    | intro _
    | with_reducible apply MemOk.ite
    | (extract_lets +onlyGivenNames u; refine (fun (hu : MemOk u) => ?_) ?_; clear_value u; rotate_left; unfold u; clear u)
    | with_reducible apply MemOk.foldl
    | with_reducible apply State.svMove_mem
    | split
    | dsimp only
    | ((conv => pattern (State.mk ..)); with_reducible apply MemOk.same; case e => (dsimp only [State.mems]; first | done | with_reducible rfl)))

theorem State.svLease_mem {s : State} (part : Nat) (en : Bool) (hM : MemOk s) : MemOk (State.svLease s part en) := by
  unfold State.svLease
  repeat' (first
    | with_reducible assumption
    | with_reducible apply MemOk.ite
    | with_reducible apply State.svMove_mem
    | with_reducible apply State.setFlds_mem
    | with_reducible apply State.setFld_mem)

theorem State.svFinish_mem {s : State} (c : SvCall) (hM : MemOk s) : MemOk (State.svFinish s c) := by
  unfold State.svFinish
  repeat' (first
    | with_reducible assumption
    | with_reducible apply MemOk.ite
    | with_reducible apply State.bumpObj_mem
    | with_reducible apply State.bumpFld_mem
    | with_reducible apply State.svError_mem
    | with_reducible apply State.binStore_mem
    | with_reducible apply State.binAdmit_mem
    | with_reducible apply State.raiseTally_mem
    | (split; all_goals first | (with_reducible have hx := congrArg Prod.snd ‹(_ : _ × State) = (_, _)›; dsimp only at hx; subst hx) | skip)
    | dsimp only
    | ((conv => pattern (State.mk ..)); with_reducible apply MemOk.same; case e => (dsimp only [State.mems]; first | done | with_reducible rfl)))

theorem execSvLeaseWrite_mem (part : Nat) (en secure : Bool) {s : State} (hM : MemOk s) : MemNext (execSvLeaseWrite part en secure s) := by
  unfold execSvLeaseWrite
  refine MemNext.command ?_
  repeat' (first
    | with_reducible assumption
    | intro _
    | with_reducible apply MemNext.next
    | with_reducible apply MemNext.ite
    | with_reducible apply MemOk.ite
    | (extract_lets +onlyGivenNames u; refine (fun (hu : MemOk u) => ?_) ?_; clear_value u; rotate_left; unfold u; clear u)
    | with_reducible apply MemOk.foldl
    | with_reducible apply State.svLease_mem
    | with_reducible apply State.pwrSync_mem
    | with_reducible apply State.worldError_mem
    | (split; all_goals first | (with_reducible have hx := congrArg Prod.snd ‹(_ : _ × State) = (_, _)›; dsimp only at hx; subst hx) | (with_reducible have hx := congrArg (fun x => x.2.2) ‹(_ : _ × _ × State) = (_, _, _)›; dsimp only at hx; subst hx) | skip)
    | dsimp only
    | ((conv => pattern (State.mk ..)); with_reducible apply MemOk.same; case e => (dsimp only [State.mems]; first | done | with_reducible rfl)))

theorem execSvDoorbell_mem (add : Nat) (secure : Bool) {s : State} (hM : MemOk s) : MemNext (execSvDoorbell add secure s) := by
  unfold execSvDoorbell
  refine MemNext.command ?_
  repeat' (first
    | with_reducible assumption
    | with_reducible apply MemNext.next
    | with_reducible apply MemNext.ite
    | with_reducible apply State.settle_mem
    | with_reducible apply State.worldError_mem
    | with_reducible apply State.raiseTally_mem)

theorem execSieveDecode_mem (obs : List Obs) {s : State} (hM : MemOk s) : MemNext (execSieveDecode obs s) := by
  unfold execSieveDecode
  refine MemNext.command ?_
  repeat' (first
    | with_reducible assumption
    | with_reducible apply MemNext.next
    | with_reducible apply State.svTake_mem)

theorem execSieveCrop_mem (obs : List Obs) {s : State} (hM : MemOk s) : MemNext (execSieveCrop obs s) := by
  unfold execSieveCrop
  refine MemNext.command ?_
  repeat' (first
    | with_reducible assumption
    | with_reducible apply MemNext.next
    | with_reducible apply State.svTake_mem)

theorem execSieveCallComplete_mem {s : State} (hM : MemOk s) : MemNext (execSieveCallComplete s) := by
  unfold execSieveCallComplete
  refine MemNext.command ?_
  repeat' (first
    | with_reducible assumption
    | intro _
    | with_reducible apply MemNext.next
    | with_reducible apply MemNext.ite
    | with_reducible apply MemOk.ite
    | (extract_lets +onlyGivenNames u; refine (fun (hu : MemOk u) => ?_) ?_; clear_value u; rotate_left; unfold u; clear u)
    | with_reducible apply MemOk.foldl
    | with_reducible apply State.settle_mem
    | with_reducible apply State.svMove_mem
    | with_reducible apply State.svFinish_mem
    | with_reducible apply State.pwrSync_mem
    | (split; all_goals first | (with_reducible have hx := congrArg Prod.snd ‹(_ : _ × State) = (_, _)›; dsimp only at hx; subst hx) | (with_reducible have hx := congrArg (fun x => x.2.2) ‹(_ : _ × _ × State) = (_, _, _)›; dsimp only at hx; subst hx) | skip)
    | dsimp only
    | ((conv => pattern (State.mk ..)); with_reducible apply MemOk.same; case e => (dsimp only [State.mems]; first | done | with_reducible rfl)))

theorem State.resetGates_mem {s : State} (b : Nat) (hM : MemOk s) : MemOk (State.resetGates s b) := by
  unfold State.resetGates
  repeat' (first
    | with_reducible assumption
    | ((conv => pattern (State.mk ..)); with_reducible apply MemOk.same; case e => (dsimp only [State.mems]; first | done | with_reducible rfl)))

theorem State.beginReset_mem {s : State} (p : Nat) (goal : PartCfg) (hM : MemOk s) : MemOk (State.beginReset s p goal) := by
  unfold State.beginReset
  repeat' (first
    | with_reducible assumption
    | intro _
    | with_reducible apply MemOk.ite
    | (extract_lets +onlyGivenNames u; refine (fun (hu : MemOk u) => ?_) ?_; clear_value u; rotate_left; unfold u; clear u)
    | with_reducible apply MemOk.foldl
    | with_reducible apply State.withdrawOne_mem
    | with_reducible apply State.updCore_mem
    | with_reducible apply State.bumpObj_mem
    | with_reducible apply State.resetGates_mem
    | with_reducible apply State.setFld_mem
    | with_reducible apply State.zeroSlots_mem
    | with_reducible apply State.withdraw_mem
    | with_reducible apply State.svDrop_mem
    | with_reducible apply State.stopStreams_mem
    | (split; all_goals first | (with_reducible have hx := congrArg Prod.snd ‹(_ : _ × State) = (_, _)›; dsimp only at hx; subst hx) | (with_reducible have hx := congrArg (fun x => x.2.2) ‹(_ : _ × _ × State) = (_, _, _)›; dsimp only at hx; subst hx) | skip)
    | dsimp only
    | ((conv => pattern (State.mk ..)); with_reducible apply MemOk.same; case e => (dsimp only [State.mems]; first | done | with_reducible rfl)))

theorem State.apply_mem {s : State} (hM : MemOk s) : MemOk (State.apply s) := by
  unfold State.apply
  repeat' (first
    | with_reducible assumption
    | intro _
    | with_reducible apply MemOk.ite
    | with_reducible apply MemOk.foldl
    | with_reducible apply State.settle_mem
    | with_reducible apply State.pwrSync_mem
    | with_reducible apply State.beginReset_mem
    | with_reducible apply State.setFld_mem)

theorem execPartApply_mem (secure : Bool) {s : State} (hM : MemOk s) : MemNext (execPartApply secure s) := by
  unfold execPartApply
  refine MemNext.command ?_
  repeat' (first
    | with_reducible assumption
    | with_reducible apply MemNext.next
    | with_reducible apply MemOk.ite
    | with_reducible apply State.apply_mem
    | with_reducible apply State.worldError_mem)

theorem State.releasePart_mem {s : State} (p : Nat) (hM : MemOk s) : MemOk (State.releasePart s p) := by
  unfold State.releasePart
  repeat' (first
    | with_reducible assumption
    | intro _
    | with_reducible apply MemOk.foldl
    | with_reducible apply State.setRec_mem
    | with_reducible apply State.setLeases_mem
    | dsimp only
    | ((conv => pattern (State.mk ..)); with_reducible apply MemOk.same; case e => (dsimp only [State.mems]; first | done | with_reducible rfl)))

theorem State.resumePart_mem {s : State} (p : Nat) (g : PartCfg) (hM : MemOk s) : MemOk (State.resumePart s p g) := by
  unfold State.resumePart
  repeat' (first
    | with_reducible assumption
    | intro _
    | with_reducible apply MemOk.ite
    | with_reducible apply MemOk.foldl
    | with_reducible apply State.startZeroing_mem
    | with_reducible apply State.releasePart_mem
    | with_reducible apply State.setQuota_mem
    | with_reducible apply State.svLease_mem
    | with_reducible apply State.setFlds_mem
    | with_reducible apply State.setFld_mem
    | with_reducible apply State.rotaSlotMap_mem
    | with_reducible apply State.setSplit_mem
    | split
    | dsimp only
    | ((conv => pattern (State.mk ..)); with_reducible apply MemOk.same; case e => (dsimp only [State.mems]; first | done | with_reducible rfl)))

theorem execPartitionApplyResume_mem (part : Nat) {s : State} (hM : MemOk s) : MemNext (execPartitionApplyResume part s) := by
  unfold execPartitionApplyResume
  refine MemNext.command ?_
  repeat' (first
    | with_reducible assumption
    | with_reducible apply MemNext.next
    | with_reducible apply MemNext.ite
    | with_reducible apply State.settle_mem
    | with_reducible apply State.pwrSync_mem
    | with_reducible apply State.resumePart_mem
    | with_reducible apply State.decideNext_mem)

theorem State.wakeForJobs_mem {s : State} (hM : MemOk s) : MemOk (State.wakeForJobs s) := by
  unfold State.wakeForJobs
  repeat' (first
    | with_reducible assumption
    | with_reducible apply State.wake_mem
    | split
    | dsimp only)

theorem execSubmissionDoorbell_mem (ring tail at_ : Nat) (secure : Bool) {s : State} (hM : MemOk s) : MemNext (execSubmissionDoorbell ring tail at_ secure s) := by
  unfold execSubmissionDoorbell
  refine MemNext.command ?_
  repeat' (first
    | with_reducible assumption
    | with_reducible apply MemNext.next
    | with_reducible apply MemNext.ite
    | with_reducible apply State.settle_mem
    | with_reducible apply State.setSqLen_mem
    | with_reducible apply State.reach_mem
    | with_reducible apply State.wakeForJobs_mem
    | with_reducible apply State.decideNext_mem
    | with_reducible apply State.worldError_mem
    | dsimp only
    | ((conv => pattern (State.mk ..)); with_reducible apply MemOk.same; case e => (dsimp only [State.mems]; first | done | with_reducible rfl)))

theorem State.flushHeld_mem {s : State} (fuel r : Nat) (hM : MemOk s) : MemOk (s.flushHeld fuel r) := by
  induction fuel generalizing s with
  | zero => exact hM
  | succ n ih =>
    unfold State.flushHeld
    cases SMap.get s.rota.held r [] with
    | nil => exact hM
    | cons b rest =>
      dsimp only
      split
      · exact hM
      · exact ih (State.writeCq_mem _ _ (hM.same rfl))

theorem State.ackCq_mem {s : State} (ring value : Nat) (hM : MemOk s) : MemOk (State.ackCq s ring value) := by
  unfold State.ackCq
  repeat' (first
    | with_reducible assumption
    | with_reducible apply State.flushHeld_mem
    | with_reducible apply State.setCqLen_mem
    | with_reducible apply State.setFld_mem)

theorem execCqheadWrite_mem (ring value : Nat) (secure : Bool) {s : State} (hM : MemOk s) : MemNext (execCqheadWrite ring value secure s) := by
  unfold execCqheadWrite
  refine MemNext.command ?_
  repeat' (first
    | with_reducible assumption
    | with_reducible apply MemNext.next
    | with_reducible apply MemNext.ite
    | with_reducible apply State.settle_mem
    | with_reducible apply State.ackCq_mem
    | with_reducible apply State.worldError_mem
    | with_reducible apply State.decideNext_mem)

theorem State.missedRelease_mem {s : State} (p : Nat) (hM : MemOk s) : MemOk (State.missedRelease s p) := by
  unfold State.missedRelease
  repeat' (first
    | with_reducible assumption
    | with_reducible apply State.bumpObj_mem)

theorem execPeriodicRelease_mem (part slot at_ : Nat) {s : State} (hM : MemOk s) : MemNext (execPeriodicRelease part slot at_ s) := by
  unfold execPeriodicRelease
  refine MemNext.command ?_
  repeat' (first
    | with_reducible assumption
    | intro _
    | with_reducible apply MemNext.next
    | with_reducible apply MemNext.ite
    | with_reducible apply MemOk.ite
    | (extract_lets +onlyGivenNames u; refine (fun (hu : MemOk u) => ?_) ?_; clear_value u; rotate_left; unfold u; clear u)
    | with_reducible apply MemOk.foldl
    | with_reducible apply State.settle_mem
    | with_reducible apply State.missedRelease_mem
    | with_reducible apply State.releaseSlot_mem
    | with_reducible apply State.releaseDue_mem
    | with_reducible apply State.reach_mem
    | with_reducible apply State.wakeForJobs_mem
    | with_reducible apply State.decideNext_mem
    | (split; all_goals first | (with_reducible have hx := congrArg Prod.snd ‹(_ : _ × State) = (_, _)›; dsimp only at hx; subst hx) | (with_reducible have hx := congrArg (fun x => x.2.2) ‹(_ : _ × _ × State) = (_, _, _)›; dsimp only at hx; subst hx) | skip)
    | dsimp only
    | ((conv => pattern (State.mk ..)); with_reducible apply MemOk.same; case e => (dsimp only [State.mems]; first | done | with_reducible rfl)))

theorem execGuardedRelease_mem (net at_ : Nat) {s : State} (hM : MemOk s) : MemNext (execGuardedRelease net at_ s) := by
  unfold execGuardedRelease
  refine MemNext.command ?_
  repeat' (first
    | with_reducible assumption
    | intro _
    | with_reducible apply MemNext.next
    | with_reducible apply MemNext.ite
    | with_reducible apply MemOk.ite
    | (extract_lets +onlyGivenNames u; refine (fun (hu : MemOk u) => ?_) ?_; clear_value u; rotate_left; unfold u; clear u)
    | with_reducible apply MemOk.foldl
    | with_reducible apply State.settle_mem
    | with_reducible apply State.missedRelease_mem
    | with_reducible apply State.netDueNow_mem
    | with_reducible apply State.releaseNet_mem
    | with_reducible apply State.reach_mem
    | with_reducible apply State.wakeForJobs_mem
    | with_reducible apply State.decideNext_mem
    | (split; all_goals first | (with_reducible have hx := congrArg Prod.snd ‹(_ : _ × State) = (_, _)›; dsimp only at hx; subst hx) | (with_reducible have hx := congrArg (fun x => x.2.2) ‹(_ : _ × _ × State) = (_, _, _)›; dsimp only at hx; subst hx) | skip)
    | dsimp only
    | ((conv => pattern (State.mk ..)); with_reducible apply MemOk.same; case e => (dsimp only [State.mems]; first | done | with_reducible rfl)))

theorem State.abortJob_mem {s : State} (ring index : Nat) (secure : Bool) (hM : MemOk s) : MemOk (State.abortJob s ring index secure).2 := by
  unfold State.abortJob
  repeat' (first
    | with_reducible assumption
    | with_reducible apply State.settle_mem
    | with_reducible apply State.withdraw_mem
    | with_reducible apply State.decideNext_mem
    | (split; all_goals first | (with_reducible have hx := congrArg Prod.snd ‹(_ : _ × State) = (_, _)›; dsimp only at hx; subst hx) | skip))

theorem State.failCore_mem {s : State} (c : Nat) (hM : MemOk s) : MemOk (State.failCore s c) := by
  unfold State.failCore
  repeat' (first
    | with_reducible assumption
    | intro _
    | with_reducible apply MemOk.ite
    | with_reducible apply MemOk.foldl
    | with_reducible apply State.markSuspect_mem
    | with_reducible apply State.event_mem
    | with_reducible apply State.setFld_mem
    | dsimp only
    | ((conv => pattern (State.mk ..)); with_reducible apply MemOk.same; case e => (dsimp only [State.mems]; first | done | with_reducible rfl)))

theorem State.endMarch_mem {s : State} (c : Nat) (rows : List (Nat × Nat)) (hM : MemOk s) : MemOk (State.endMarch s c rows) := by
  unfold State.endMarch
  repeat' (first
    | with_reducible assumption
    | intro _
    | with_reducible apply MemOk.ite
    | (extract_lets +onlyGivenNames u; refine (fun (hu : MemOk u) => ?_) ?_; clear_value u; rotate_left; unfold u; clear u)
    | with_reducible apply MemOk.foldl
    | with_reducible apply State.bumpObj_mem
    | dsimp only
    | ((conv => pattern (State.mk ..)); with_reducible apply MemOk.same; case e => (dsimp only [State.mems]; first | done | with_reducible rfl)))

theorem State.endSegment_mem {s : State} (c i : Nat) (bad : Bool) (hM : MemOk s) : MemOk (State.endSegment s c i bad) := by
  unfold State.endSegment
  repeat' (first
    | with_reducible assumption
    | with_reducible apply MemOk.ite
    | with_reducible apply State.setObj_mem
    | with_reducible apply State.setTest_mem
    | with_reducible apply State.failCore_mem)

theorem execSelftestSegmentEnd_mem (core : Nat) (badRows : List (Nat × Nat × Nat)) (badCores : List Nat) (at_ : Nat) {s : State} (hM : MemOk s) : MemNext (execSelftestSegmentEnd core badRows badCores at_ s) := by
  unfold execSelftestSegmentEnd
  refine MemNext.command ?_
  repeat' (first
    | with_reducible assumption
    | intro _
    | with_reducible apply MemNext.next
    | with_reducible apply MemOk.ite
    | (extract_lets +onlyGivenNames u; refine (fun (hu : MemOk u) => ?_) ?_; clear_value u; rotate_left; unfold u; clear u)
    | with_reducible apply MemOk.foldl
    | with_reducible apply State.settle_mem
    | with_reducible apply State.endSegment_mem
    | with_reducible apply State.bumpFld_mem
    | with_reducible apply State.updCore_mem
    | with_reducible apply State.decideCore_mem
    | with_reducible apply State.reach_mem
    | with_reducible apply State.endMarch_mem
    | split)

theorem State.hpStats_mem {s : State} (page : Nat) (audio secure : Bool) (hM : MemOk s) : MemOk (State.hpStats s page audio secure).2 := by
  unfold State.hpStats
  repeat' (first
    | with_reducible assumption
    | with_reducible apply State.urRead_mem
    | (split; all_goals first | (with_reducible have hx := congrArg Prod.snd ‹(_ : _ × State) = (_, _)›; dsimp only at hx; subst hx) | skip))

theorem State.hpEnable_mem {s : State} (n : Nat) (secure : Bool) (hM : MemOk s) : MemOk (State.hpEnable s n secure).2 := by
  unfold State.hpEnable
  repeat' (first
    | with_reducible assumption
    | intro _
    | with_reducible apply MemOk.ite
    | (extract_lets +onlyGivenNames u; refine (fun (hu : MemOk u) => ?_) ?_; clear_value u; rotate_left; unfold u; clear u)
    | with_reducible apply MemOk.foldl
    | with_reducible apply State.setHpFeed_mem
    | with_reducible apply State.lgFetch_mem
    | with_reducible apply State.hpStats_mem
    | (split; all_goals first | (with_reducible have hx := congrArg Prod.snd ‹(_ : _ × State) = (_, _)›; dsimp only at hx; subst hx) | (with_reducible have hx := congrArg (fun x => x.2.2) ‹(_ : _ × _ × State) = (_, _, _)›; dsimp only at hx; subst hx) | skip)
    | dsimp only
    | ((conv => pattern (State.mk ..)); with_reducible apply MemOk.same; case e => (dsimp only [State.mems]; first | done | with_reducible rfl)))

theorem execHpFeedEnable_mem (feed : Nat) (secure : Bool) {s : State} (hM : MemOk s) : MemNext (execHpFeedEnable feed secure s) := by
  unfold execHpFeedEnable
  refine MemNext.command ?_
  repeat' (first
    | with_reducible assumption
    | with_reducible apply MemNext.next
    | with_reducible apply MemNext.ite
    | with_reducible apply MemOk.ite
    | with_reducible apply State.hpEnable_mem
    | with_reducible apply State.setFlds_mem
    | with_reducible apply State.pwrSync_mem
    | with_reducible apply State.gatedError_mem
    | with_reducible apply State.setFld_mem)

theorem execHpFeedDisable_mem (feed : Nat) (secure : Bool) {s : State} (hM : MemOk s) : MemNext (execHpFeedDisable feed secure s) := by
  unfold execHpFeedDisable
  refine MemNext.command ?_
  repeat' (first
    | with_reducible assumption
    | with_reducible apply MemNext.next
    | with_reducible apply MemNext.ite
    | with_reducible apply MemOk.ite
    | with_reducible apply State.hpStop_mem
    | with_reducible apply State.pwrSync_mem
    | with_reducible apply State.worldError_mem
    | with_reducible apply State.gatedError_mem
    | split)

theorem execHpDoorbell_mem (feed tail : Nat) (secure : Bool) {s : State} (hM : MemOk s) : MemNext (execHpDoorbell feed tail secure s) := by
  unfold execHpDoorbell
  refine MemNext.command ?_
  repeat' (first
    | with_reducible assumption
    | with_reducible apply MemNext.next
    | with_reducible apply MemNext.ite
    | with_reducible apply State.hpEdge_mem
    | with_reducible apply State.bumpObj_mem
    | with_reducible apply State.setHpFeed_mem
    | with_reducible apply State.worldError_mem
    | with_reducible apply State.gatedError_mem
    | split)

theorem execLaneSampleStart_mem (lane at_ : Nat) {s : State} (hM : MemOk s) : MemNext (execLaneSampleStart lane at_ s) := by
  unfold execLaneSampleStart
  refine MemNext.command ?_
  repeat' (first
    | with_reducible assumption
    | with_reducible apply MemNext.next
    | with_reducible apply MemNext.ite
    | with_reducible apply State.hpEdge_mem
    | with_reducible apply State.setHpFeed_mem
    | with_reducible apply State.reach_mem
    | split
    | dsimp only
    | ((conv => pattern (State.mk ..)); with_reducible apply MemOk.same; case e => (dsimp only [State.mems]; first | done | with_reducible rfl)))

theorem State.hpNoise_mem {s : State} (f : HpFeed) (r : List Byte) (obs : List Obs) (hM : MemOk s) : MemOk (State.hpNoise s f r obs).2 := by
  unfold State.hpNoise
  repeat' (first
    | with_reducible assumption
    | with_reducible apply State.urRead_mem
    | (split; all_goals first | (with_reducible have hx := congrArg Prod.snd ‹(_ : _ × State) = (_, _)›; dsimp only at hx; subst hx) | skip))

theorem State.hpDecode_mem {s : State} (f : HpFeed) (fm : Fmt) (r b : List Byte) (obs : List Obs) (hM : MemOk s) : MemOk (State.hpDecode s f fm r b obs).2 := by
  unfold State.hpDecode
  repeat' (first
    | with_reducible assumption
    | intro _
    | with_reducible apply MemOk.ite
    | (extract_lets +onlyGivenNames u; refine (fun (hu : MemOk u) => ?_) ?_; clear_value u; rotate_left; unfold u; clear u)
    | with_reducible apply MemOk.foldl
    | with_reducible apply State.hpNoise_mem
    | (split; all_goals first | (with_reducible have hx := congrArg Prod.snd ‹(_ : _ × State) = (_, _)›; dsimp only at hx; subst hx) | (with_reducible have hx := congrArg (fun x => x.2.2) ‹(_ : _ × _ × State) = (_, _, _)›; dsimp only at hx; subst hx) | skip)
    | dsimp only
    | ((conv => pattern (State.mk ..)); with_reducible apply MemOk.same; case e => (dsimp only [State.mems]; first | done | with_reducible rfl)))

theorem State.hpPrepare_mem {s : State} (f : HpFeed) (sample : Nat) (obs : List Obs) (hM : MemOk s) : MemOk (State.hpPrepare s f sample obs).2 := by
  unfold State.hpPrepare
  repeat' (first
    | with_reducible assumption
    | with_reducible apply State.urRead_mem
    | with_reducible apply State.hpDecode_mem
    | (split; all_goals first | (with_reducible have hx := congrArg Prod.snd ‹(_ : _ × State) = (_, _)›; dsimp only at hx; subst hx) | skip)
    | dsimp only)

theorem State.hpAlarm_mem {s : State} (n : Nat) (hM : MemOk s) : MemOk (State.hpAlarm s n) := by
  unfold State.hpAlarm
  repeat' (first
    | with_reducible assumption
    | with_reducible apply MemOk.ite
    | (extract_lets +onlyGivenNames u; refine (fun (hu : MemOk u) => ?_) ?_; clear_value u; rotate_left; unfold u; clear u)
    | with_reducible apply State.send_mem
    | with_reducible apply State.bumpObj_mem
    | with_reducible apply State.setHpFeed_mem
    | with_reducible apply State.eventOn_mem
    | with_reducible apply State.setFld_mem
    | split)

theorem State.hpPublish_mem {s : State} (fuel n : Nat) (hM : MemOk s) : MemOk (s.hpPublish fuel n) := by
  induction fuel generalizing s with
  | zero => exact hM
  | succ k ih =>
    unfold State.hpPublish
    cases s.hpFeed n with
    | none => exact hM
    | some f =>
      dsimp only
      split
      · exact hM
      · refine ih (State.hpAlarm_mem _ (State.setFld_mem _ _ _ (State.bumpObj_mem _ _ _ (State.bumpObj_mem _ _ _ (State.setHpFeed_mem _ _ ?_)))))
        generalize List.map _ (List.filterMap _ (List.range f.cfg.b)) = causes
        have w := State.binUnitWrite_mem (s := s) f.req 6 f.cfg.bin (f.cfg.buffer f.published * 256) (hpHeader f.cfg f.published causes) hM
        generalize s.binUnitWrite f.req 6 f.cfg.bin (f.cfg.buffer f.published * 256) (hpHeader f.cfg f.published causes) = u at *
        obtain ⟨e, u⟩ := u
        cases e <;> exact State.raiseTally_mem _ _ _ w

theorem State.hpFinish_mem {s : State} (l : HpLane) (f : HpFeed) (slot : Except Nat HpSlot) (hM : MemOk s) : MemOk (State.hpFinish s l f slot) := by
  unfold State.hpFinish
  repeat' (first
    | with_reducible assumption
    | with_reducible apply MemOk.ite
    | with_reducible apply State.hpEdge_mem
    | with_reducible apply State.bumpObj_mem
    | with_reducible apply State.binUnitWrite_mem
    | with_reducible apply State.setFld_mem
    | with_reducible apply State.settle_mem
    | with_reducible apply State.hpPublish_mem
    | with_reducible apply State.bumpFld_mem
    | with_reducible apply State.setHpFeed_mem
    | split
    | dsimp only
    | ((conv => pattern (State.mk ..)); with_reducible apply MemOk.same; case e => (dsimp only [State.mems]; first | done | with_reducible rfl)))

theorem execSampleFinish_mem (lane : Nat) (obs : List Obs) (at_ : Nat) {s : State} (hM : MemOk s) : MemNext (execSampleFinish lane obs at_ s) := by
  unfold execSampleFinish
  refine MemNext.command ?_
  repeat' (first
    | with_reducible assumption
    | with_reducible apply MemNext.next
    | (extract_lets +onlyGivenNames u; refine (fun (hu : MemOk u) => ?_) ?_; clear_value u; rotate_left; unfold u; clear u)
    | with_reducible apply State.hpFinish_mem
    | with_reducible apply State.hpPrepare_mem
    | with_reducible apply State.reach_mem
    | split)

theorem execSampleBudgetExpiry_mem (lane at_ : Nat) {s : State} (hM : MemOk s) : MemNext (execSampleBudgetExpiry lane at_ s) := by
  unfold execSampleBudgetExpiry
  refine MemNext.command ?_
  repeat' (first
    | with_reducible assumption
    | with_reducible apply MemNext.next
    | with_reducible apply MemNext.ite
    | (extract_lets +onlyGivenNames u; refine (fun (hu : MemOk u) => ?_) ?_; clear_value u; rotate_left; unfold u; clear u)
    | with_reducible apply State.hpFinish_mem
    | with_reducible apply State.reach_mem
    | split)

theorem State.hpTakeReleases_mem {s : State} (n : Nat) (f : HpFeed) (hM : MemOk s) : MemOk (State.hpTakeReleases s n f) := by
  unfold State.hpTakeReleases
  repeat' (first
    | with_reducible assumption
    | with_reducible apply MemOk.ite
    | with_reducible apply State.hpEdge_mem
    | with_reducible apply State.bumpObj_mem
    | with_reducible apply State.hpAlarm_mem
    | with_reducible apply State.setHpFeed_mem
    | with_reducible apply State.setFld_mem)

theorem execHpRelease_mem (feed add : Nat) (secure : Bool) {s : State} (hM : MemOk s) : MemNext (execHpRelease feed add secure s) := by
  unfold execHpRelease
  refine MemNext.command ?_
  repeat' (first
    | with_reducible assumption
    | with_reducible apply MemNext.next
    | with_reducible apply MemNext.ite
    | with_reducible apply State.worldError_mem
    | with_reducible apply State.hpTakeReleases_mem
    | with_reducible apply State.raiseTally_mem
    | with_reducible apply State.gatedError_mem
    | split)

theorem State.setSensor_mem {s : State} (k : Nat) (x : CamSensor) (hM : MemOk s) : MemOk (State.setSensor s k x) := by
  unfold State.setSensor
  repeat' (first
    | with_reducible assumption
    | dsimp only
    | ((conv => pattern (State.mk ..)); with_reducible apply MemOk.same; case e => (dsimp only [State.mems]; first | done | with_reducible rfl)))

theorem State.countLink_mem {s : State} (o : Obj) (link : Nat) (hM : MemOk s) : MemOk (State.countLink s o link) := by
  unfold State.countLink
  repeat' (first
    | with_reducible assumption
    | with_reducible apply State.bumpObj_mem)

theorem State.countHeader_mem {s : State} (link hdr : Nat) (hM : MemOk s) : MemOk (State.countHeader s link hdr) := by
  unfold State.countHeader
  repeat' (first
    | with_reducible assumption
    | with_reducible apply MemOk.ite
    | with_reducible apply State.setObj_mem)

theorem State.osWrite_mem {s : State} (n off : Nat) (b : List Byte) (hM : MemOk s) : MemOk (State.osWrite s n off b).2 := by
  unfold State.osWrite
  repeat' (first
    | with_reducible assumption
    | with_reducible apply State.urWrite_mem
    | with_reducible apply State.binUnitWrite_mem
    | split
    | dsimp only)

theorem State.osWriteAll_mem {s : State} (n : Nat) (l : List (Nat × List Byte)) (hM : MemOk s) : MemOk (s.osWriteAll n l).2 := by
  unfold State.osWriteAll
  suffices ∀ a : Bool × State, MemOk a.2 → MemOk (l.foldl (fun (a : Bool × State) e => if a.1 then a else a.2.osWrite n e.1 e.2) a).2 from this _ hM
  induction l with
  | nil => exact fun _ h => h
  | cons e r ih =>
    intro a h
    refine ih _ ?_
    dsimp only
    split
    · exact h
    · exact State.osWrite_mem _ _ _ h

theorem State.osCount_mem {s : State} (n : Nat) (rows : List (List Word)) (hM : MemOk s) : MemOk (State.osCount s n rows) := by
  unfold State.osCount
  repeat' (first
    | with_reducible assumption
    | intro _
    | with_reducible apply MemOk.ite
    | (extract_lets +onlyGivenNames u; refine (fun (hu : MemOk u) => ?_) ?_; clear_value u; rotate_left; unfold u; clear u)
    | with_reducible apply MemOk.foldl
    | with_reducible apply State.bumpObj_mem
    | split
    | dsimp only
    | ((conv => pattern (State.mk ..)); with_reducible apply MemOk.same; case e => (dsimp only [State.mems]; first | done | with_reducible rfl)))

theorem State.osAdvance_mem {s : State} (n : Nat) (f : CamFrame) (final : Bool) (hM : MemOk s) : MemOk (State.osAdvance s n f final) := by
  unfold State.osAdvance
  repeat' (first
    | with_reducible assumption
    | intro _
    | with_reducible apply MemOk.ite
    | (extract_lets +onlyGivenNames u; refine (fun (hu : MemOk u) => ?_) ?_; clear_value u; rotate_left; unfold u; clear u)
    | with_reducible apply MemOk.foldl
    | with_reducible apply State.osWriteAll_mem
    | with_reducible apply State.osOff_mem
    | with_reducible apply State.osCount_mem
    | with_reducible apply State.setOsRun_mem
    | (split; all_goals first | (with_reducible have hx := congrArg Prod.snd ‹(_ : _ × State) = (_, _)›; dsimp only at hx; subst hx) | (with_reducible have hx := congrArg (fun x => x.2.2) ‹(_ : _ × _ × State) = (_, _, _)›; dsimp only at hx; subst hx) | skip)
    | dsimp only
    | ((conv => pattern (State.mk ..)); with_reducible apply MemOk.same; case e => (dsimp only [State.mems]; first | done | with_reducible rfl)))

theorem State.osTake_mem {s : State} (n : Nat) (hM : MemOk s) : MemOk (State.osTake s n) := by
  unfold State.osTake
  repeat' (first
    | with_reducible assumption
    | with_reducible apply MemOk.ite
    | with_reducible apply State.setOsRun_mem
    | with_reducible apply State.setFld_mem
    | split)

theorem State.osEnd_mem {s : State} (n : Nat) (r : OsRun) (status sof eof : Nat) (f : Option CamFrame) (hM : MemOk s) :
    MemOk (s.osEnd n r status sof eof f) := by
  unfold State.osEnd
  extract_lets k ov flags h buf w s1 t1 s2 s3 s4 s5 s6
  have k1 : MemOk w.2 := State.osWrite_mem _ _ _ hM
  have kt : MemOk t1 := State.raiseTally_mem _ _ _ k1
  have h2 : MemOk s2 := MemOk.ite (MemOk.ite (State.raiseTally_mem _ _ _ kt) kt) k1
  clear_value s2
  have h3 : MemOk s3 := State.bumpObj_mem _ _ _ h2
  have h4 : MemOk s4 := MemOk.ite h3 (State.bumpObj_mem _ _ _ h3)
  clear_value s4
  have h5 : MemOk s5 := MemOk.ite h4 (State.publishTo_mem _ _ _ _ _ _ _ h4)
  clear_value s5
  have h6 : MemOk s6 := State.setFld_mem _ _ _ h5
  exact MemOk.ite (State.osOff_mem _ _ k1)
    (MemOk.ite (State.pwrSync_mem (State.osOff_mem _ _ h6)) (State.osTake_mem _ (State.setOsRun_mem _ _ h6)))

theorem State.osComplete_mem {s : State} (n : Nat) (f : CamFrame) (status : Nat) (hM : MemOk s) : MemOk (State.osComplete s n f status) := by
  unfold State.osComplete
  repeat' (first
    | with_reducible assumption
    | with_reducible apply MemOk.ite
    | (extract_lets +onlyGivenNames u; refine (fun (hu : MemOk u) => ?_) ?_; clear_value u; rotate_left; unfold u; clear u)
    | with_reducible apply State.osWriteAll_mem
    | with_reducible apply State.osOff_mem
    | with_reducible apply State.osAdvance_mem
    | with_reducible apply State.osEnd_mem
    | split)

theorem State.camComplete_mem {s : State} (k : Nat) (f : CamFrame) (status : Nat) (hM : MemOk s) : MemOk (State.camComplete s k f status) := by
  unfold State.camComplete
  repeat' (first
    | with_reducible assumption
    | intro _
    | with_reducible apply MemOk.foldl
    | with_reducible apply State.osComplete_mem)

theorem State.osSkip_mem {s : State} (n : Nat) (r : OsRun) (hM : MemOk s) : MemOk (State.osSkip s n r) := by
  unfold State.osSkip
  repeat' (first
    | with_reducible assumption
    | intro _
    | with_reducible apply MemOk.ite
    | (extract_lets +onlyGivenNames u; refine (fun (hu : MemOk u) => ?_) ?_; clear_value u; rotate_left; unfold u; clear u)
    | with_reducible apply MemOk.foldl
    | with_reducible apply State.setOsRun_mem
    | with_reducible apply State.bumpObj_mem
    | split
    | dsimp only
    | ((conv => pattern (State.mk ..)); with_reducible apply MemOk.same; case e => (dsimp only [State.mems]; first | done | with_reducible rfl)))

theorem State.osStart_mem {s : State} (n : Nat) (hM : MemOk s) : MemOk (State.osStart s n) := by
  unfold State.osStart
  repeat' (first
    | with_reducible assumption
    | intro _
    | with_reducible apply MemOk.ite
    | (extract_lets +onlyGivenNames u; refine (fun (hu : MemOk u) => ?_) ?_; clear_value u; rotate_left; unfold u; clear u)
    | with_reducible apply MemOk.foldl
    | with_reducible apply State.setOsRun_mem
    | with_reducible apply State.osSkip_mem
    | split
    | dsimp only
    | ((conv => pattern (State.mk ..)); with_reducible apply MemOk.same; case e => (dsimp only [State.mems]; first | done | with_reducible rfl)))

theorem State.osGap_mem {s : State} (n start : Nat) (hM : MemOk s) : MemOk (State.osGap s n start) := by
  unfold State.osGap
  repeat' (first
    | with_reducible assumption
    | with_reducible apply MemOk.ite
    | with_reducible apply State.osWriteAll_mem
    | with_reducible apply State.osOff_mem
    | with_reducible apply State.osSkip_mem
    | with_reducible apply State.osEnd_mem
    | split
    | dsimp only)

theorem State.truncateFrame_mem {s : State} (k : Nat) (hM : MemOk s) : MemOk (State.truncateFrame s k) := by
  unfold State.truncateFrame
  repeat' (first
    | with_reducible assumption
    | with_reducible apply MemOk.ite
    | with_reducible apply State.setSensor_mem
    | with_reducible apply State.camComplete_mem
    | split
    | dsimp only)

theorem State.loseSensor_mem {s : State} (k : Nat) (hM : MemOk s) : MemOk (State.loseSensor s k) := by
  unfold State.loseSensor
  repeat' (first
    | with_reducible assumption
    | with_reducible apply MemOk.ite
    | (extract_lets +onlyGivenNames u; refine (fun (hu : MemOk u) => ?_) ?_; clear_value u; rotate_left; unfold u; clear u)
    | with_reducible apply State.truncateFrame_mem
    | with_reducible apply State.event_mem
    | with_reducible apply State.setSensor_mem)

theorem State.setFrame_mem {s : State} (k : Nat) (f : CamFrame) (hM : MemOk s) : MemOk (State.setFrame s k f) := by
  unfold State.setFrame
  repeat' (first
    | with_reducible assumption
    | with_reducible apply State.setSensor_mem)

theorem State.dropFrame'_mem {s : State} (k : Nat) (f : CamFrame) (hM : MemOk s) : MemOk (State.dropFrame' s k f) := by
  unfold State.dropFrame'
  repeat' (first
    | with_reducible assumption
    | with_reducible apply State.setFrame_mem
    | with_reducible apply State.camComplete_mem)

theorem State.takeLine_mem {s : State} (k : Nat) (f : CamFrame) (line : List Nat) (hM : MemOk s) : MemOk (State.takeLine s k f line) := by
  unfold State.takeLine
  repeat' (first
    | with_reducible assumption
    | intro _
    | with_reducible apply MemOk.foldl
    | with_reducible apply State.setFrame_mem
    | with_reducible apply State.osAdvance_mem)

theorem State.loseLine_mem {s : State} (link k : Nat) (f : CamFrame) (hM : MemOk s) : MemOk (State.loseLine s link k f) := by
  unfold State.loseLine
  repeat' (first
    | with_reducible assumption
    | with_reducible apply MemOk.ite
    | with_reducible apply State.dropFrame'_mem
    | with_reducible apply State.takeLine_mem
    | with_reducible apply State.setFrame_mem)

theorem State.badShort_mem {s : State} (link vc : Nat) (hM : MemOk s) : MemOk (State.badShort s link vc) := by
  unfold State.badShort
  repeat' (first
    | with_reducible assumption
    | intro _
    | with_reducible apply MemOk.ite
    | (extract_lets +onlyGivenNames u; refine (fun (hu : MemOk u) => ?_) ?_; clear_value u; rotate_left; unfold u; clear u)
    | with_reducible apply MemOk.foldl
    | with_reducible apply State.dropFrame'_mem
    | with_reducible apply State.setFrame_mem
    | split
    | dsimp only
    | ((conv => pattern (State.mk ..)); with_reducible apply MemOk.same; case e => (dsimp only [State.mems]; first | done | with_reducible rfl)))

theorem execCsiFrameStart_mem (link vc number hdr : Nat) (deskewed : Bool) (at_ : Nat) {s : State} (hM : MemOk s) : MemNext (execCsiFrameStart link vc number hdr deskewed at_ s) := by
  unfold execCsiFrameStart
  refine MemNext.command ?_
  repeat' (first
    | with_reducible assumption
    | intro _
    | with_reducible apply MemNext.next
    | with_reducible apply MemNext.ite
    | with_reducible apply MemOk.ite
    | (extract_lets +onlyGivenNames u; refine (fun (hu : MemOk u) => ?_) ?_; clear_value u; rotate_left; unfold u; clear u)
    | with_reducible apply MemOk.foldl
    | with_reducible apply State.osStart_mem
    | with_reducible apply State.osTake_mem
    | with_reducible apply State.truncateFrame_mem
    | with_reducible apply State.event_mem
    | with_reducible apply State.countLink_mem
    | with_reducible apply State.reach_mem
    | with_reducible apply State.setSensor_mem
    | with_reducible apply State.setFld_mem
    | with_reducible apply State.settle_mem
    | with_reducible apply State.countHeader_mem
    | with_reducible apply State.badShort_mem
    | (split; all_goals first | (with_reducible have hx := congrArg Prod.snd ‹(_ : _ × State) = (_, _)›; dsimp only at hx; subst hx) | (with_reducible have hx := congrArg (fun x => x.2.2) ‹(_ : _ × _ × State) = (_, _, _)›; dsimp only at hx; subst hx) | skip)
    | dsimp only
    | ((conv => pattern (State.mk ..)); with_reducible apply MemOk.same; case e => (dsimp only [State.mems]; first | done | with_reducible rfl))
    | (with_reducible refine MemOk.mk ?_ ?_ ?_ ?_ ?_ ?_ <;> dsimp only <;> (repeat' (with_reducible first | exact MemOk.bin (by assumption) | exact MemOk.home (by assumption) | exact MemOk.frame (by assumption) | exact MemOk.plane (by assumption) | exact MemOk.spill (by assumption) | exact MemOk.window (by assumption) | apply SMap.wf_putRun | apply SMap.wf_clear | apply SMap.wf_copy | apply wf_puts | apply wf_put0 | apply wf_put32)) <;> done))

theorem execCsiLongPacket_mem (link vc dt : Nat) (line : List Nat) (hdr : Nat) (crcBad : Bool) (overflow at_ : Nat) {s : State} (hM : MemOk s) : MemNext (execCsiLongPacket link vc dt line hdr crcBad overflow at_ s) := by
  unfold execCsiLongPacket
  refine MemNext.command ?_
  repeat' (first
    | with_reducible assumption
    | with_reducible apply MemNext.next
    | with_reducible apply MemNext.ite
    | with_reducible apply MemOk.ite
    | (extract_lets +onlyGivenNames u; refine (fun (hu : MemOk u) => ?_) ?_; clear_value u; rotate_left; unfold u; clear u)
    | with_reducible apply State.settle_mem
    | with_reducible apply State.countHeader_mem
    | with_reducible apply State.dropFrame'_mem
    | with_reducible apply State.takeLine_mem
    | with_reducible apply State.reach_mem
    | with_reducible apply State.setFrame_mem
    | with_reducible apply State.countLink_mem
    | with_reducible apply State.loseLine_mem
    | with_reducible apply State.setFld_mem
    | split)

theorem State.writeStats_mem {s : State} (k : Nat) (f : CamFrame) (hM : MemOk s) : MemOk (State.writeStats s k f) := by
  unfold State.writeStats
  repeat' (first
    | with_reducible assumption
    | with_reducible apply MemOk.ite
    | with_reducible apply State.urWrite_mem)

theorem execCsiFrameEnd_mem (link vc hdr at_ : Nat) {s : State} (hM : MemOk s) : MemNext (execCsiFrameEnd link vc hdr at_ s) := by
  unfold execCsiFrameEnd
  refine MemNext.command ?_
  repeat' (first
    | with_reducible assumption
    | intro _
    | with_reducible apply MemNext.next
    | with_reducible apply MemNext.ite
    | with_reducible apply MemOk.ite
    | (extract_lets +onlyGivenNames u; refine (fun (hu : MemOk u) => ?_) ?_; clear_value u; rotate_left; unfold u; clear u)
    | with_reducible apply MemOk.foldl
    | with_reducible apply State.settle_mem
    | with_reducible apply State.countHeader_mem
    | with_reducible apply State.camComplete_mem
    | with_reducible apply State.badShort_mem
    | with_reducible apply State.reach_mem
    | with_reducible apply State.writeStats_mem
    | with_reducible apply State.countLink_mem
    | with_reducible apply State.setSensor_mem
    | with_reducible apply State.setFld_mem
    | (split; all_goals first | (with_reducible have hx := congrArg Prod.snd ‹(_ : _ × State) = (_, _)›; dsimp only at hx; subst hx) | (with_reducible have hx := congrArg (fun x => x.2.2) ‹(_ : _ × _ × State) = (_, _, _)›; dsimp only at hx; subst hx) | skip)
    | dsimp only
    | ((conv => pattern (State.mk ..)); with_reducible apply MemOk.same; case e => (dsimp only [State.mems]; first | done | with_reducible rfl))
    | (with_reducible refine MemOk.mk ?_ ?_ ?_ ?_ ?_ ?_ <;> dsimp only <;> (repeat' (with_reducible first | exact MemOk.bin (by assumption) | exact MemOk.home (by assumption) | exact MemOk.frame (by assumption) | exact MemOk.plane (by assumption) | exact MemOk.spill (by assumption) | exact MemOk.window (by assumption) | apply SMap.wf_putRun | apply SMap.wf_clear | apply SMap.wf_copy | apply wf_puts | apply wf_put0 | apply wf_put32)) <;> done))

theorem State.hotplugLoss_mem {s : State} (link : Nat) (hM : MemOk s) : MemOk (State.hotplugLoss s link) := by
  unfold State.hotplugLoss
  repeat' (first
    | with_reducible assumption
    | intro _
    | with_reducible apply MemOk.ite
    | (extract_lets +onlyGivenNames u; refine (fun (hu : MemOk u) => ?_) ?_; clear_value u; rotate_left; unfold u; clear u)
    | with_reducible apply MemOk.foldl
    | with_reducible apply State.settle_mem
    | with_reducible apply State.loseSensor_mem
    | with_reducible apply State.setFld_mem)

theorem execCameraHotplugLoss_mem (link at_ : Nat) {s : State} (hM : MemOk s) : MemNext (execCameraHotplugLoss link at_ s) := by
  unfold execCameraHotplugLoss
  refine MemNext.command ?_
  repeat' (first
    | with_reducible assumption
    | intro _
    | with_reducible apply MemNext.next
    | with_reducible apply MemNext.ite
    | with_reducible apply MemOk.ite
    | (extract_lets +onlyGivenNames u; refine (fun (hu : MemOk u) => ?_) ?_; clear_value u; rotate_left; unfold u; clear u)
    | with_reducible apply MemOk.foldl
    | with_reducible apply State.wake_mem
    | with_reducible apply State.hotplugLoss_mem
    | with_reducible apply State.reach_mem
    | (split; all_goals first | (with_reducible have hx := congrArg Prod.snd ‹(_ : _ × State) = (_, _)›; dsimp only at hx; subst hx) | (with_reducible have hx := congrArg (fun x => x.2.2) ‹(_ : _ × _ × State) = (_, _, _)›; dsimp only at hx; subst hx) | skip)
    | dsimp only
    | ((conv => pattern (State.mk ..)); with_reducible apply MemOk.same; case e => (dsimp only [State.mems]; first | done | with_reducible rfl)))

theorem execCsiLossTimeout_mem (link at_ : Nat) {s : State} (hM : MemOk s) : MemNext (execCsiLossTimeout link at_ s) := by
  unfold execCsiLossTimeout
  refine MemNext.command ?_
  repeat' (first
    | with_reducible assumption
    | intro _
    | with_reducible apply MemNext.next
    | with_reducible apply MemOk.ite
    | with_reducible apply MemOk.foldl
    | with_reducible apply State.settle_mem
    | with_reducible apply State.loseSensor_mem
    | with_reducible apply State.reach_mem
    | with_reducible apply State.setFld_mem)

theorem execFrameStartTimeout_mem (sensor at_ : Nat) {s : State} (hM : MemOk s) : MemNext (execFrameStartTimeout sensor at_ s) := by
  unfold execFrameStartTimeout
  refine MemNext.command ?_
  repeat' (first
    | with_reducible assumption
    | with_reducible apply MemNext.next
    | with_reducible apply MemNext.ite
    | (extract_lets +onlyGivenNames u; refine (fun (hu : MemOk u) => ?_) ?_; clear_value u; rotate_left; unfold u; clear u)
    | with_reducible apply State.settle_mem
    | with_reducible apply State.loseSensor_mem
    | with_reducible apply State.reach_mem
    | split
    | dsimp only)

theorem execGapRecord_mem (sensor at_ : Nat) {s : State} (hM : MemOk s) : MemNext (execGapRecord sensor at_ s) := by
  unfold execGapRecord
  refine MemNext.command ?_
  repeat' (first
    | with_reducible assumption
    | intro _
    | with_reducible apply MemNext.next
    | with_reducible apply MemNext.ite
    | with_reducible apply MemOk.ite
    | (extract_lets +onlyGivenNames u; refine (fun (hu : MemOk u) => ?_) ?_; clear_value u; rotate_left; unfold u; clear u)
    | with_reducible apply MemOk.foldl
    | with_reducible apply State.settle_mem
    | with_reducible apply State.osTake_mem
    | with_reducible apply State.osGap_mem
    | with_reducible apply State.reach_mem
    | with_reducible apply State.setSensor_mem
    | (split; all_goals first | (with_reducible have hx := congrArg Prod.snd ‹(_ : _ × State) = (_, _)›; dsimp only at hx; subst hx) | (with_reducible have hx := congrArg (fun x => x.2.2) ‹(_ : _ × _ × State) = (_, _, _)›; dsimp only at hx; subst hx) | skip)
    | dsimp only
    | ((conv => pattern (State.mk ..)); with_reducible apply MemOk.same; case e => (dsimp only [State.mems]; first | done | with_reducible rfl)))

theorem execOsEnable_mem (stream : Nat) {s : State} (hM : MemOk s) : MemNext (execOsEnable stream s) := by
  unfold execOsEnable
  refine MemNext.command ?_
  repeat' (first
    | with_reducible assumption
    | with_reducible apply MemNext.next
    | with_reducible apply MemNext.ite
    | with_reducible apply MemOk.ite
    | with_reducible apply State.setOsRun_mem
    | with_reducible apply State.setFlds_mem
    | with_reducible apply State.pwrSync_mem
    | with_reducible apply State.gatedError_mem
    | with_reducible apply State.setFld_mem)

theorem execOsDisable_mem (stream : Nat) {s : State} (hM : MemOk s) : MemNext (execOsDisable stream s) := by
  unfold execOsDisable
  refine MemNext.command ?_
  repeat' (first
    | with_reducible assumption
    | with_reducible apply MemNext.next
    | with_reducible apply MemNext.ite
    | with_reducible apply MemOk.ite
    | with_reducible apply State.setOsRun_mem
    | with_reducible apply State.osOff_mem
    | with_reducible apply State.pwrSync_mem
    | with_reducible apply State.gatedError_mem
    | split)

theorem execOsRelease_mem (stream add : Nat) {s : State} (hM : MemOk s) : MemNext (execOsRelease stream add s) := by
  unfold execOsRelease
  refine MemNext.command ?_
  repeat' (first
    | with_reducible assumption
    | with_reducible apply MemNext.next
    | with_reducible apply MemNext.ite
    | with_reducible apply MemOk.ite
    | with_reducible apply State.setOsRun_mem
    | with_reducible apply State.osTake_mem
    | with_reducible apply State.gatedError_mem
    | split)

theorem execCamColourWrite_mem (sensor : Nat) (blob : List Byte) {s : State} (hM : MemOk s) : MemNext (execCamColourWrite sensor blob s) := by
  unfold execCamColourWrite
  refine MemNext.command ?_
  repeat' (first
    | with_reducible assumption
    | with_reducible apply MemNext.next
    | with_reducible apply State.setObjVal_mem
    | with_reducible apply State.bumpVersion_mem)

theorem State.camSuspend_mem {s : State} (hM : MemOk s) : MemOk (State.camSuspend s) := by
  unfold State.camSuspend
  repeat' (first
    | with_reducible assumption
    | intro _
    | with_reducible apply MemOk.foldl
    | with_reducible apply State.setOsRun_mem
    | split)

theorem State.camResume_mem {s : State} (hM : MemOk s) : MemOk (State.camResume s) := by
  unfold State.camResume
  repeat' (first
    | with_reducible assumption
    | intro _
    | with_reducible apply MemOk.ite
    | (extract_lets +onlyGivenNames u; refine (fun (hu : MemOk u) => ?_) ?_; clear_value u; rotate_left; unfold u; clear u)
    | with_reducible apply MemOk.foldl
    | with_reducible apply State.setOsRun_mem
    | with_reducible apply State.setSensor_mem
    | split)

theorem State.camStopAll_mem {s : State} (result : Nat) (hM : MemOk s) : MemOk (State.camStopAll s result) := by
  unfold State.camStopAll
  repeat' (first
    | with_reducible assumption
    | intro _
    | with_reducible apply MemOk.ite
    | with_reducible apply MemOk.foldl
    | with_reducible apply State.osOff_mem)

theorem State.setWatch_mem {s : State} (w : WatchGroup) (hM : MemOk s) : MemOk (State.setWatch s w) := by
  unfold State.setWatch
  repeat' (first
    | with_reducible assumption
    | ((conv => pattern (State.mk ..)); with_reducible apply MemOk.same; case e => (dsimp only [State.mems]; first | done | with_reducible rfl)))

theorem State.audTake_mem {s : State} (hM : MemOk s) : MemOk (State.audTake s) := by
  unfold State.audTake
  repeat' (first
    | with_reducible assumption
    | with_reducible apply State.setFld_mem
    | split
    | dsimp only
    | ((conv => pattern (State.mk ..)); with_reducible apply MemOk.same; case e => (dsimp only [State.mems]; first | done | with_reducible rfl)))

theorem execAudioBlock_mem (mics refs : List (List Int)) (lost : Bool) (stamp at_ : Nat) {s : State} (hM : MemOk s) : MemNext (execAudioBlock mics refs lost stamp at_ s) := by
  unfold execAudioBlock
  refine MemNext.command ?_
  repeat' (first
    | with_reducible assumption
    | with_reducible apply MemNext.next
    | with_reducible apply MemNext.ite
    | (extract_lets +onlyGivenNames u; refine (fun (hu : MemOk u) => ?_) ?_; clear_value u; rotate_left; unfold u; clear u)
    | with_reducible apply State.raiseTally_mem
    | with_reducible apply State.bumpObj_mem
    | with_reducible apply State.reach_mem
    | with_reducible apply State.audOff_mem
    | with_reducible apply State.binUnitWrite_mem
    | with_reducible apply State.setFld_mem
    | with_reducible apply State.settle_mem
    | with_reducible apply State.audTake_mem
    | split
    | ((conv => pattern (State.mk ..)); with_reducible apply MemOk.same; case e => (dsimp only [State.mems]; first | done | with_reducible rfl)))

theorem execAudStreamEnable_mem (en : Bool) {s : State} (hM : MemOk s) : MemNext (execAudStreamEnable en s) := by
  unfold execAudStreamEnable
  refine MemNext.command ?_
  repeat' (first
    | with_reducible assumption
    | with_reducible apply MemNext.next
    | with_reducible apply MemNext.ite
    | with_reducible apply MemOk.ite
    | with_reducible apply State.audOff_mem
    | with_reducible apply State.gatedError_mem
    | with_reducible apply State.setFld_mem
    | ((conv => pattern (State.mk ..)); with_reducible apply MemOk.same; case e => (dsimp only [State.mems]; first | done | with_reducible rfl)))

theorem execAudioRelease_mem {s : State} (hM : MemOk s) : MemNext (execAudioRelease s) := by
  unfold execAudioRelease
  refine MemNext.command ?_
  repeat' (first
    | with_reducible assumption
    | with_reducible apply MemNext.next
    | with_reducible apply State.audTake_mem)

theorem State.firstStage_mem {s : State} (hM : MemOk s) : MemOk (State.firstStage s) := by
  unfold State.firstStage
  repeat' (first
    | with_reducible assumption
    | with_reducible apply MemOk.ite
    | (extract_lets +onlyGivenNames u; refine (fun (hu : MemOk u) => ?_) ?_; clear_value u; rotate_left; unfold u; clear u)
    | with_reducible apply State.bumpObj_mem
    | with_reducible apply State.wake_mem
    | with_reducible apply State.setWatch_mem
    | split)

theorem execVadFrame_mem (samples : List Int) (vad score at_ : Nat) {s : State} (hM : MemOk s) : MemNext (execVadFrame samples vad score at_ s) := by
  unfold execVadFrame
  refine MemNext.command ?_
  repeat' (first
    | with_reducible assumption
    | with_reducible apply MemNext.next
    | with_reducible apply MemNext.ite
    | with_reducible apply State.firstStage_mem
    | with_reducible apply State.setWatch_mem
    | with_reducible apply State.reach_mem)

theorem State.spanFail_mem {s : State} (hM : MemOk s) : MemOk (State.spanFail s) := by
  unfold State.spanFail
  repeat' (first
    | with_reducible assumption
    | (extract_lets +onlyGivenNames u; refine (fun (hu : MemOk u) => ?_) ?_; clear_value u; rotate_left; unfold u; clear u)
    | with_reducible apply State.zeroSpan_mem
    | with_reducible apply State.setWatch_mem)

theorem execSpanPush_mem (at_ : Nat) {s : State} (hM : MemOk s) : MemNext (execSpanPush at_ s) := by
  unfold execSpanPush
  refine MemNext.command ?_
  repeat' (first
    | with_reducible assumption
    | with_reducible apply MemNext.next
    | with_reducible apply MemNext.ite
    | with_reducible apply State.binAdmit_mem
    | with_reducible apply State.spanFail_mem
    | with_reducible apply State.reach_mem
    | with_reducible apply State.setWatch_mem
    | split
    | dsimp only)

theorem execSpanPushComplete_mem (at_ : Nat) {s : State} (hM : MemOk s) : MemNext (execSpanPushComplete at_ s) := by
  unfold execSpanPushComplete
  refine MemNext.command ?_
  repeat' (first
    | with_reducible assumption
    | with_reducible apply MemNext.next
    | with_reducible apply MemNext.ite
    | (extract_lets +onlyGivenNames u; refine (fun (hu : MemOk u) => ?_) ?_; clear_value u; rotate_left; unfold u; clear u)
    | with_reducible apply State.settle_mem
    | with_reducible apply State.spanFail_mem
    | with_reducible apply State.setWatch_mem
    | with_reducible apply State.binUnitWrite_mem
    | with_reducible apply State.reach_mem
    | with_reducible apply State.raiseTally_mem
    | split
    | dsimp only)

theorem execWatchVerdictAccept_mem (at_ : Nat) {s : State} (hM : MemOk s) : MemNext (execWatchVerdictAccept at_ s) := by
  unfold execWatchVerdictAccept
  refine MemNext.command ?_
  repeat' (first
    | with_reducible assumption
    | intro _
    | with_reducible apply MemNext.next
    | with_reducible apply MemNext.ite
    | with_reducible apply MemOk.ite
    | (extract_lets +onlyGivenNames u; refine (fun (hu : MemOk u) => ?_) ?_; clear_value u; rotate_left; unfold u; clear u)
    | with_reducible apply MemOk.foldl
    | with_reducible apply State.bumpObj_mem
    | with_reducible apply State.openAt_mem
    | with_reducible apply State.setWatch_mem
    | with_reducible apply State.event_mem
    | with_reducible apply State.reach_mem
    | (split; all_goals first | (with_reducible have hx := congrArg Prod.snd ‹(_ : _ × State) = (_, _)›; dsimp only at hx; subst hx) | (with_reducible have hx := congrArg (fun x => x.2.2) ‹(_ : _ × _ × State) = (_, _, _)›; dsimp only at hx; subst hx) | skip)
    | dsimp only
    | ((conv => pattern (State.mk ..)); with_reducible apply MemOk.same; case e => (dsimp only [State.mems]; first | done | with_reducible rfl)))

theorem execWatchVerdictReject_mem {s : State} (hM : MemOk s) : MemNext (execWatchVerdictReject s) := by
  unfold execWatchVerdictReject
  refine MemNext.command ?_
  repeat' (first
    | with_reducible assumption
    | with_reducible apply MemNext.next
    | with_reducible apply MemOk.ite
    | with_reducible apply State.watchReject_mem)

theorem execVerifyTimeout_mem (at_ : Nat) {s : State} (hM : MemOk s) : MemNext (execVerifyTimeout at_ s) := by
  unfold execVerifyTimeout
  refine MemNext.command ?_
  repeat' (first
    | with_reducible assumption
    | with_reducible apply MemNext.next
    | with_reducible apply MemOk.ite
    | (extract_lets +onlyGivenNames u; refine (fun (hu : MemOk u) => ?_) ?_; clear_value u; rotate_left; unfold u; clear u)
    | with_reducible apply State.reach_mem
    | with_reducible apply State.watchReject_mem
    | split)

theorem execLockOpenExpiry_mem (at_ : Nat) {s : State} (hM : MemOk s) : MemNext (execLockOpenExpiry at_ s) := by
  unfold execLockOpenExpiry
  refine MemNext.command ?_
  repeat' (first
    | with_reducible assumption
    | intro _
    | with_reducible apply MemNext.next
    | with_reducible apply MemNext.ite
    | with_reducible apply MemOk.ite
    | (extract_lets +onlyGivenNames u; refine (fun (hu : MemOk u) => ?_) ?_; clear_value u; rotate_left; unfold u; clear u)
    | with_reducible apply MemOk.foldl
    | with_reducible apply State.reach_mem
    | with_reducible apply State.setWatch_mem
    | with_reducible apply State.openAt_mem
    | (split; all_goals first | (with_reducible have hx := congrArg Prod.snd ‹(_ : _ × State) = (_, _)›; dsimp only at hx; subst hx) | (with_reducible have hx := congrArg (fun x => x.2.2) ‹(_ : _ × _ × State) = (_, _, _)›; dsimp only at hx; subst hx) | skip)
    | dsimp only
    | ((conv => pattern (State.mk ..)); with_reducible apply MemOk.same; case e => (dsimp only [State.mems]; first | done | with_reducible rfl)))

theorem execErasingComplete_mem {s : State} (hM : MemOk s) : MemNext (execErasingComplete s) := by
  unfold execErasingComplete
  refine MemNext.command ?_
  repeat' (first
    | with_reducible assumption
    | with_reducible apply MemNext.next
    | with_reducible apply MemOk.ite
    | with_reducible apply State.setWatch_mem)

theorem State.watchPull_mem {s : State} (bin base count tally : Nat) (start : Int) (hM : MemOk s) : MemOk (State.watchPull s bin base count tally start).2 := by
  unfold State.watchPull
  repeat' (first
    | with_reducible assumption
    | with_reducible apply State.settle_mem
    | with_reducible apply State.binUnitWrite_mem
    | with_reducible apply State.raiseTally_mem
    | split
    | dsimp only)

theorem execWatchPull_mem (bin base count tally start : Nat) {s : State} (hM : MemOk s) : MemNext (execWatchPull bin base count tally start s) := by
  unfold execWatchPull
  refine MemNext.command ?_
  repeat' (first
    | with_reducible assumption
    | with_reducible apply MemNext.next
    | with_reducible apply State.setFlds_mem
    | with_reducible apply State.watchPull_mem
    | with_reducible apply State.setFld_mem)

theorem execWatchSpanWrite_mem (value : Nat) (secure : Bool) {s : State} (hM : MemOk s) : MemNext (execWatchSpanWrite value secure s) := by
  unfold execWatchSpanWrite
  refine MemNext.command ?_
  repeat' (first
    | with_reducible assumption
    | with_reducible apply MemNext.next
    | with_reducible apply MemNext.ite
    | with_reducible apply State.setFlds_mem
    | with_reducible apply State.worldError_mem)

theorem execMuteAssert_mem (at_ : Nat) {s : State} (hM : MemOk s) : MemNext (execMuteAssert at_ s) := by
  unfold execMuteAssert
  refine MemNext.command ?_
  repeat' (first
    | with_reducible assumption
    | with_reducible apply MemNext.next
    | with_reducible apply MemNext.ite
    | with_reducible apply State.zeroSpan_mem
    | with_reducible apply State.doorEvent_mem
    | with_reducible apply State.setWatch_mem
    | with_reducible apply State.setFlds_mem
    | with_reducible apply State.reach_mem
    | with_reducible apply State.cancelWake_mem)

theorem execMuteRelease_mem (at_ : Nat) {s : State} (hM : MemOk s) : MemNext (execMuteRelease at_ s) := by
  unfold execMuteRelease
  refine MemNext.command ?_
  repeat' (first
    | with_reducible assumption
    | with_reducible apply MemNext.next
    | with_reducible apply MemNext.ite
    | with_reducible apply State.doorEvent_mem
    | with_reducible apply State.setWatch_mem
    | with_reducible apply State.setFlds_mem
    | with_reducible apply State.reach_mem)

theorem State.moveMic_mem {s : State} (m : Option Nat) (at_ : Nat) (hM : MemOk s) : MemOk (State.moveMic s m at_) := by
  unfold State.moveMic
  repeat' (first
    | with_reducible assumption
    | with_reducible apply State.bumpObj_mem
    | with_reducible apply State.setWatch_mem
    | with_reducible apply State.watchEvent_mem
    | with_reducible apply State.setFld_mem
    | split)

theorem State.micLost_mem {s : State} (at_ : Nat) (hM : MemOk s) : MemOk (State.micLost s at_) := by
  unfold State.micLost
  repeat' (first
    | with_reducible assumption
    | with_reducible apply MemOk.ite
    | with_reducible apply State.moveMic_mem
    | with_reducible apply State.wake_mem
    | split)

theorem execListenMicLost_mem (at_ : Nat) {s : State} (hM : MemOk s) : MemNext (execListenMicLost at_ s) := by
  unfold execListenMicLost
  refine MemNext.command ?_
  repeat' (first
    | with_reducible assumption
    | with_reducible apply MemNext.next
    | with_reducible apply MemOk.ite
    | with_reducible apply State.reach_mem
    | with_reducible apply State.micLost_mem)

theorem State.micBack_mem {s : State} (at_ : Nat) (hM : MemOk s) : MemOk (State.micBack s at_) := by
  unfold State.micBack
  repeat' (first
    | with_reducible assumption
    | with_reducible apply MemOk.ite
    | with_reducible apply State.moveMic_mem
    | split)

theorem State.watchReset_mem {s : State} (hM : MemOk s) : MemOk (State.watchReset s) := by
  unfold State.watchReset
  repeat' (first
    | with_reducible assumption
    | with_reducible apply State.setWatch_mem)

theorem State.audSuspend_mem {s : State} (hM : MemOk s) : MemOk (State.audSuspend s) := by
  unfold State.audSuspend
  repeat' (first
    | with_reducible assumption
    | ((conv => pattern (State.mk ..)); with_reducible apply MemOk.same; case e => (dsimp only [State.mems]; first | done | with_reducible rfl)))

theorem State.audResume_mem {s : State} (hM : MemOk s) : MemOk (State.audResume s) := by
  unfold State.audResume
  repeat' (first
    | with_reducible assumption
    | ((conv => pattern (State.mk ..)); with_reducible apply MemOk.same; case e => (dsimp only [State.mems]; first | done | with_reducible rfl)))

theorem State.setDoor_mem {s : State} (d : DoorGroup) (hM : MemOk s) : MemOk (State.setDoor s d) := by
  unfold State.setDoor
  repeat' (first
    | with_reducible assumption
    | ((conv => pattern (State.mk ..)); with_reducible apply MemOk.same; case e => (dsimp only [State.mems]; first | done | with_reducible rfl)))

theorem State.setDoorBit_mem {s : State} (f : Fld) (i : Nat) (on : Bool) (hM : MemOk s) : MemOk (State.setDoorBit s f i on) := by
  unfold State.setDoorBit
  repeat' (first
    | with_reducible assumption
    | with_reducible apply State.setFld_mem)

theorem execButtonChange_mem (button : Nat) (pressed : Bool) (edge at_ : Nat) {s : State} (hM : MemOk s) : MemNext (execButtonChange button pressed edge at_ s) := by
  unfold execButtonChange
  refine MemNext.command ?_
  repeat' (first
    | with_reducible assumption
    | with_reducible apply MemNext.next
    | with_reducible apply MemNext.ite
    | with_reducible apply MemOk.ite
    | with_reducible apply State.doorEvent_mem
    | with_reducible apply State.wake_mem
    | with_reducible apply State.buttonsUp_mem
    | with_reducible apply State.setDoorBit_mem
    | with_reducible apply State.reach_mem
    | with_reducible apply State.setDoor_mem)

theorem execButtonLong_mem (button at_ : Nat) {s : State} (hM : MemOk s) : MemNext (execButtonLong button at_ s) := by
  unfold execButtonLong
  refine MemNext.command ?_
  repeat' (first
    | with_reducible assumption
    | with_reducible apply MemNext.next
    | with_reducible apply MemNext.ite
    | with_reducible apply State.doorEvent_mem
    | with_reducible apply State.reach_mem
    | with_reducible apply State.setDoor_mem)

theorem State.touchScan_mem {s : State} (c meas : Nat) (hM : MemOk s) : MemOk (State.touchScan s c meas) := by
  unfold State.touchScan
  repeat' (first
    | with_reducible assumption
    | with_reducible apply MemOk.ite
    | with_reducible apply State.doorEvent_mem
    | with_reducible apply State.wake_mem
    | with_reducible apply State.setFld_mem
    | with_reducible apply State.setDoorBit_mem
    | with_reducible apply State.setDoor_mem)

theorem execTouchScan_mem (meas : List Nat) (at_ : Nat) {s : State} (hM : MemOk s) : MemNext (execTouchScan meas at_ s) := by
  unfold execTouchScan
  refine MemNext.command ?_
  repeat' (first
    | with_reducible assumption
    | intro _
    | with_reducible apply MemNext.next
    | with_reducible apply MemOk.foldl
    | with_reducible apply State.reach_mem
    | with_reducible apply State.touchScan_mem)

theorem execHpdChange_mem (input : Nat) (present : Bool) (edge at_ : Nat) {s : State} (hM : MemOk s) : MemNext (execHpdChange input present edge at_ s) := by
  unfold execHpdChange
  refine MemNext.command ?_
  repeat' (first
    | with_reducible assumption
    | with_reducible apply MemNext.next
    | with_reducible apply MemNext.ite
    | with_reducible apply MemOk.ite
    | with_reducible apply State.micLost_mem
    | with_reducible apply State.doorEvent_mem
    | with_reducible apply State.hotplugLoss_mem
    | with_reducible apply State.wake_mem
    | with_reducible apply State.setDoorBit_mem
    | with_reducible apply State.reach_mem
    | with_reducible apply State.micBack_mem
    | with_reducible apply State.setFld_mem)

theorem execShutterChange_mem (link : Nat) (closed : Bool) (edge at_ : Nat) {s : State} (hM : MemOk s) : MemNext (execShutterChange link closed edge at_ s) := by
  unfold execShutterChange
  refine MemNext.command ?_
  repeat' (first
    | with_reducible assumption
    | with_reducible apply MemNext.next
    | with_reducible apply MemNext.ite
    | with_reducible apply State.doorEvent_mem
    | with_reducible apply State.reach_mem
    | with_reducible apply State.setDoorBit_mem)

theorem execDoorLedWrite_mem (led value at_ : Nat) {s : State} (hM : MemOk s) : MemNext (execDoorLedWrite led value at_ s) := by
  unfold execDoorLedWrite
  refine MemNext.command ?_
  repeat' (first
    | with_reducible assumption
    | with_reducible apply MemNext.next
    | with_reducible apply MemNext.ite
    | with_reducible apply State.reach_mem
    | with_reducible apply State.setFlds_mem
    | with_reducible apply State.setDoor_mem
    | with_reducible apply State.gatedError_mem)

theorem execComparatorStart_mem (net : Nat) {s : State} (hM : MemOk s) : MemNext (execComparatorStart net s) := by
  unfold execComparatorStart
  refine MemNext.command ?_
  repeat' (first
    | with_reducible assumption
    | with_reducible apply MemNext.next
    | with_reducible apply MemOk.ite
    | with_reducible apply State.setNet_mem)

theorem State.cmpRead_mem {s : State} (b base count : Nat) (obs : List Obs) (hM : MemOk s) : MemOk (State.cmpRead s b base count obs).2 := by
  unfold State.cmpRead
  repeat' (first
    | with_reducible assumption
    | with_reducible apply State.binUnitRead_mem
    | (split; all_goals first | (with_reducible have hx := congrArg Prod.snd ‹(_ : _ × State) = (_, _)›; dsimp only at hx; subst hx) | skip)
    | dsimp only
    | ((conv => pattern (State.mk ..)); with_reducible apply MemOk.same; case e => (dsimp only [State.mems]; first | done | with_reducible rfl)))

theorem State.endFrame_mem {s : State} (k : Nat) (n : GuardRun) (e : Ending) (hM : MemOk s) : MemOk (State.endFrame s k n e) := by
  unfold State.endFrame
  repeat' (first
    | with_reducible assumption
    | with_reducible apply State.completeJob_mem
    | with_reducible apply State.setNet_mem
    | split)

theorem execComparatorComplete_mem (net : Nat) (obs : List Obs) (at_ : Nat) {s : State} (hM : MemOk s) : MemNext (execComparatorComplete net obs at_ s) := by
  unfold execComparatorComplete
  refine MemNext.command ?_
  repeat' (first
    | with_reducible assumption
    | with_reducible apply MemNext.next
    | with_reducible apply MemNext.ite
    | with_reducible apply State.countOutcome_mem
    | with_reducible apply State.raiseTally_mem
    | with_reducible apply State.logIt_mem
    | with_reducible apply State.bumpObj_mem
    | with_reducible apply State.reach_mem
    | with_reducible apply State.endFrame_mem
    | with_reducible apply State.decideNext_mem
    | with_reducible apply State.cmpRead_mem
    | with_reducible apply State.settle_mem
    | split
    | dsimp only
    | ((conv => pattern (State.mk ..)); with_reducible apply MemOk.same; case e => (dsimp only [State.mems]; first | done | with_reducible rfl)))

theorem State.wwForeign_mem {s : State} (ww : Nat) (hM : MemOk s) : MemOk (State.wwForeign s ww) := by
  unfold State.wwForeign
  repeat' (first
    | with_reducible assumption
    | with_reducible apply State.bumpObj_mem)

theorem execWwKickArm_mem (ww at_ : Nat) {s : State} (hM : MemOk s) : MemNext (execWwKickArm ww at_ s) := by
  unfold execWwKickArm
  refine MemNext.command ?_
  repeat' (first
    | with_reducible assumption
    | with_reducible apply MemNext.next
    | with_reducible apply MemOk.ite
    | with_reducible apply State.wwArm_mem
    | with_reducible apply State.reach_mem
    | with_reducible apply State.wwForeign_mem)

theorem execWwKick_mem (ww at_ : Nat) {s : State} (hM : MemOk s) : MemNext (execWwKick ww at_ s) := by
  unfold execWwKick
  refine MemNext.command ?_
  repeat' (first
    | with_reducible assumption
    | intro _
    | with_reducible apply MemNext.next
    | with_reducible apply MemNext.ite
    | with_reducible apply MemOk.ite
    | (extract_lets +onlyGivenNames u; refine (fun (hu : MemOk u) => ?_) ?_; clear_value u; rotate_left; unfold u; clear u)
    | with_reducible apply MemOk.foldl
    | with_reducible apply State.wwKickWindow_mem
    | with_reducible apply State.reach_mem
    | with_reducible apply State.wwArm_mem
    | with_reducible apply State.wwForeign_mem
    | (split; all_goals first | (with_reducible have hx := congrArg Prod.snd ‹(_ : _ × State) = (_, _)›; dsimp only at hx; subst hx) | (with_reducible have hx := congrArg (fun x => x.2.2) ‹(_ : _ × _ × State) = (_, _, _)›; dsimp only at hx; subst hx) | skip)
    | dsimp only
    | ((conv => pattern (State.mk ..)); with_reducible apply MemOk.same; case e => (dsimp only [State.mems]; first | done | with_reducible rfl)))

theorem execWatchdogLimitExpiry_mem (ww at_ : Nat) {s : State} (hM : MemOk s) : MemNext (execWatchdogLimitExpiry ww at_ s) := by
  unfold execWatchdogLimitExpiry
  refine MemNext.command ?_
  repeat' (first
    | with_reducible assumption
    | intro _
    | with_reducible apply MemNext.next
    | with_reducible apply MemOk.foldl
    | with_reducible apply State.settle_mem
    | with_reducible apply State.wwFault_mem
    | with_reducible apply State.reach_mem
    | with_reducible apply State.setWindows_mem)

theorem execSafeFaultClear_mem (mask : Nat) (secure : Bool) {s : State} (hM : MemOk s) : MemNext (execSafeFaultClear mask secure s) := by
  unfold execSafeFaultClear
  refine MemNext.command ?_
  repeat' (first
    | with_reducible assumption
    | intro _
    | with_reducible apply MemNext.next
    | with_reducible apply MemNext.ite
    | with_reducible apply MemOk.ite
    | with_reducible apply MemOk.foldl
    | with_reducible apply State.worldError_mem
    | with_reducible apply State.setFld_mem)

theorem execSafeInjectCompare_mem (net : Nat) (secure : Bool) {s : State} (hM : MemOk s) : MemNext (execSafeInjectCompare net secure s) := by
  unfold execSafeInjectCompare
  refine MemNext.command ?_
  repeat' (first
    | with_reducible assumption
    | with_reducible apply MemNext.next
    | with_reducible apply MemOk.ite
    | with_reducible apply State.worldError_mem
    | dsimp only
    | ((conv => pattern (State.mk ..)); with_reducible apply MemOk.same; case e => (dsimp only [State.mems]; first | done | with_reducible rfl)))

theorem execSafeInjectWatchdog_mem (ww : Nat) (secure : Bool) {s : State} (hM : MemOk s) : MemNext (execSafeInjectWatchdog ww secure s) := by
  unfold execSafeInjectWatchdog
  refine MemNext.command ?_
  repeat' (first
    | with_reducible assumption
    | with_reducible apply MemNext.next
    | with_reducible apply MemOk.ite
    | with_reducible apply State.worldError_mem
    | dsimp only
    | ((conv => pattern (State.mk ..)); with_reducible apply MemOk.same; case e => (dsimp only [State.mems]; first | done | with_reducible rfl)))

theorem State.setSec_mem {s : State} (x : SecGroup) (hM : MemOk s) : MemOk (State.setSec s x) := by
  unfold State.setSec
  repeat' (first
    | with_reducible assumption
    | ((conv => pattern (State.mk ..)); with_reducible apply MemOk.same; case e => (dsimp only [State.mems]; first | done | with_reducible rfl)))

theorem State.setRegion_mem {s : State} (n : Nat) (r : Region) (hM : MemOk s) : MemOk (State.setRegion s n r) := by
  unfold State.setRegion
  repeat' (first
    | with_reducible assumption
    | with_reducible apply State.setSec_mem)

theorem State.zeroUnits_mem {s : State} (space : Nat) (us : List Nat) (hM : MemOk s) : MemOk (State.zeroUnits s space us) := by
  unfold State.zeroUnits
  repeat' (first
    | with_reducible assumption
    | intro _
    | with_reducible apply MemOk.ite
    | with_reducible apply MemOk.foldl
    | with_reducible apply State.urPutWhole_mem
    | with_reducible apply State.binUnitWrite_mem)

theorem State.applyRegion_mem {s : State} (n : Nat) (r : Region) (hM : MemOk s) : MemOk (State.applyRegion s n r) := by
  unfold State.applyRegion
  repeat' (first
    | with_reducible assumption
    | with_reducible apply State.setRegion_mem
    | with_reducible apply State.setFlds_mem)

theorem execBoundaryRegionWrite_mem (n word : Nat) (secure : Bool) {s : State} (hM : MemOk s) : MemNext (execBoundaryRegionWrite n word secure s) := by
  unfold execBoundaryRegionWrite
  refine MemNext.command ?_
  repeat' (first
    | with_reducible assumption
    | with_reducible apply MemNext.next
    | with_reducible apply MemNext.ite
    | with_reducible apply State.applyRegion_mem
    | with_reducible apply State.setSec_mem
    | with_reducible apply State.worldError_mem
    | with_reducible apply State.setFld_mem)

theorem execRegionZeroingComplete_mem (n : Nat) {s : State} (hM : MemOk s) : MemNext (execRegionZeroingComplete n s) := by
  unfold execRegionZeroingComplete
  refine MemNext.command ?_
  repeat' (first
    | with_reducible assumption
    | intro _
    | with_reducible apply MemNext.next
    | with_reducible apply MemOk.foldl
    | with_reducible apply State.applyRegion_mem
    | with_reducible apply State.zeroUnits_mem
    | with_reducible apply State.setSec_mem
    | split)

theorem execSecWmapWrite_mem (value : Nat) (secure : Bool) {s : State} (hM : MemOk s) : MemNext (execSecWmapWrite value secure s) := by
  unfold execSecWmapWrite
  refine MemNext.command ?_
  repeat' (first
    | with_reducible assumption
    | with_reducible apply MemNext.next
    | with_reducible apply MemNext.ite
    | with_reducible apply MemOk.ite
    | with_reducible apply State.bumpObj_mem
    | with_reducible apply State.setFlds_mem
    | with_reducible apply State.worldError_mem)

theorem State.loadSlot_mem {s : State} (n : Nat) (k : KeySlot) (hM : MemOk s) : MemOk (State.loadSlot s n k) := by
  unfold State.loadSlot
  repeat' (first
    | with_reducible assumption
    | (extract_lets +onlyGivenNames u; refine (fun (hu : MemOk u) => ?_) ?_; clear_value u; rotate_left; unfold u; clear u)
    | with_reducible apply State.setKeySlot_mem
    | dsimp only
    | ((conv => pattern (State.mk ..)); with_reducible apply MemOk.same; case e => (dsimp only [State.mems]; first | done | with_reducible rfl)))

theorem State.kslotFields_mem {s : State} (op slot part src : Nat) (hM : MemOk s) : MemOk (State.kslotFields s op slot part src) := by
  unfold State.kslotFields
  repeat' (first
    | with_reducible assumption
    | with_reducible apply State.setFlds_mem)

theorem execKeySlotAgree_mem (slot part src at_ : Nat) (secure : Bool) {s : State} (hM : MemOk s) : MemNext (execKeySlotAgree slot part src at_ secure s) := by
  unfold execKeySlotAgree
  refine MemNext.command ?_
  repeat' (first
    | with_reducible assumption
    | with_reducible apply MemNext.next
    | with_reducible apply MemNext.ite
    | with_reducible apply State.kslotFields_mem
    | with_reducible apply State.setSec_mem
    | with_reducible apply State.reach_mem
    | with_reducible apply State.setFld_mem)

theorem execAgreeHandshakeEnd_mem (key : List Byte) (fixed : Nat) (ok : Bool) (at_ : Nat) {s : State} (hM : MemOk s) : MemNext (execAgreeHandshakeEnd key fixed ok at_ s) := by
  unfold execAgreeHandshakeEnd
  refine MemNext.command ?_
  repeat' (first
    | with_reducible assumption
    | with_reducible apply MemNext.next
    | with_reducible apply MemNext.ite
    | (extract_lets +onlyGivenNames u; refine (fun (hu : MemOk u) => ?_) ?_; clear_value u; rotate_left; unfold u; clear u)
    | with_reducible apply State.logIt_mem
    | with_reducible apply State.setSec_mem
    | with_reducible apply State.reach_mem
    | with_reducible apply State.setFld_mem
    | with_reducible apply State.loadSlot_mem
    | split)

theorem execKeySlotDerive_mem (slot part src context : Nat) (secure : Bool) {s : State} (hM : MemOk s) : MemNext (execKeySlotDerive slot part src context secure s) := by
  unfold execKeySlotDerive
  refine MemNext.command ?_
  repeat' (first
    | with_reducible assumption
    | with_reducible apply MemNext.next
    | with_reducible apply MemNext.ite
    | with_reducible apply State.kslotFields_mem
    | with_reducible apply State.setFlds_mem
    | with_reducible apply State.setFld_mem
    | with_reducible apply State.loadSlot_mem)

theorem execKeySlotClear_mem (slot : Nat) (secure : Bool) {s : State} (hM : MemOk s) : MemNext (execKeySlotClear slot secure s) := by
  unfold execKeySlotClear
  refine MemNext.command ?_
  repeat' (first
    | with_reducible assumption
    | with_reducible apply MemNext.next
    | with_reducible apply MemNext.ite
    | with_reducible apply State.kslotFields_mem
    | with_reducible apply State.setFld_mem
    | with_reducible apply State.loadSlot_mem)

theorem State.unwrapChunks_mem (key aad : List Byte) (obs : List Obs) (fuel i left off : Nat) {s : State} (hM : MemOk s) :
    MemOk (State.unwrapChunks key aad obs fuel i left off s).2 := by
  induction fuel generalizing i left off s with
  | zero => exact hM
  | succ n ih =>
    unfold State.unwrapChunks
    dsimp only
    have k := State.urRead_mem (s := s) secReq off (min left 65536 + 16) obs hM
    generalize s.urRead secReq off (min left 65536 + 16) obs = u at *
    obtain ⟨e, u⟩ := u
    cases e with
    | error e => exact k
    | ok b =>
      dsimp only
      split
      · exact k
      · exact ih _ _ _ k

theorem execSecUnwrap_mem (src dst : Nat) (secure : Bool) {s : State} (hM : MemOk s) : MemNext (execSecUnwrap src dst secure s) := by
  unfold execSecUnwrap
  refine MemNext.command ?_
  repeat' (first
    | with_reducible assumption
    | with_reducible apply MemNext.next
    | with_reducible apply MemNext.ite
    | with_reducible apply State.setFlds_mem
    | with_reducible apply State.worldError_mem
    | with_reducible apply State.setSec_mem)

theorem State.endUnwrap_mem {s : State} (r done : Nat) (hM : MemOk s) : MemOk (State.endUnwrap s r done) := by
  unfold State.endUnwrap
  repeat' (first
    | with_reducible assumption
    | with_reducible apply MemOk.ite
    | with_reducible apply State.logIt_mem
    | with_reducible apply State.bumpObj_mem
    | with_reducible apply State.setSec_mem
    | with_reducible apply State.setFlds_mem)

theorem execUnwrapComplete_mem (obs : List Obs) (at_ : Nat) {s : State} (hM : MemOk s) : MemNext (execUnwrapComplete obs at_ s) := by
  unfold execUnwrapComplete
  refine MemNext.command ?_
  repeat' (first
    | with_reducible assumption
    | intro _
    | with_reducible apply MemNext.next
    | with_reducible apply MemNext.ite
    | with_reducible apply MemOk.ite
    | (extract_lets +onlyGivenNames u; refine (fun (hu : MemOk u) => ?_) ?_; clear_value u; rotate_left; unfold u; clear u)
    | with_reducible apply MemOk.foldl
    | with_reducible apply State.zeroUnits_mem
    | with_reducible apply State.urRead_mem
    | with_reducible apply State.urWrite_mem
    | with_reducible apply State.reach_mem
    | with_reducible apply State.endUnwrap_mem
    | with_reducible apply State.unwrapChunks_mem
    | (split; all_goals first | (with_reducible have hx := congrArg Prod.snd ‹(_ : _ × State) = (_, _)›; dsimp only at hx; subst hx) | (with_reducible have hx := congrArg (fun x => x.2.2) ‹(_ : _ × _ × State) = (_, _, _)›; dsimp only at hx; subst hx) | skip)
    | dsimp only
    | ((conv => pattern (State.mk ..)); with_reducible apply MemOk.same; case e => (dsimp only [State.mems]; first | done | with_reducible rfl)))

theorem State.attestNonce_mem {s : State} (nonce : List Byte) (hM : MemOk s) : MemOk (State.attestNonce s nonce) := by
  unfold State.attestNonce
  repeat' (first
    | with_reducible assumption
    | with_reducible apply State.setSec_mem)

theorem execAttestNonceWrite_mem (nonce : List Byte) {s : State} (hM : MemOk s) : MemNext (execAttestNonceWrite nonce s) := by
  unfold execAttestNonceWrite
  refine MemNext.command ?_
  repeat' (first
    | with_reducible assumption
    | with_reducible apply MemNext.next
    | with_reducible apply MemOk.ite
    | with_reducible apply State.attestNonce_mem)

theorem execAttestReportSigned_mem (at_ : Nat) {s : State} (hM : MemOk s) : MemNext (execAttestReportSigned at_ s) := by
  unfold execAttestReportSigned
  refine MemNext.command ?_
  repeat' (first
    | with_reducible assumption
    | with_reducible apply MemNext.next
    | (extract_lets +onlyGivenNames u; refine (fun (hu : MemOk u) => ?_) ?_; clear_value u; rotate_left; unfold u; clear u)
    | with_reducible apply State.setObjVal_mem
    | with_reducible apply State.bumpVersion_mem
    | with_reducible apply State.setSec_mem
    | with_reducible apply State.reach_mem
    | split)

theorem execSecMeasWrite_mem (index value : Nat) (secure : Bool) {s : State} (hM : MemOk s) : MemNext (execSecMeasWrite index value secure s) := by
  unfold execSecMeasWrite
  refine MemNext.command ?_
  repeat' (first
    | with_reducible assumption
    | with_reducible apply MemNext.next
    | with_reducible apply MemNext.ite
    | with_reducible apply State.setSec_mem
    | with_reducible apply State.worldError_mem)

theorem execDebugToken_mem (level : Nat) (sig : List Byte) {s : State} (hM : MemOk s) : MemNext (execDebugToken level sig s) := by
  unfold execDebugToken
  refine MemNext.command ?_
  repeat' (first
    | with_reducible assumption
    | with_reducible apply MemNext.next
    | with_reducible apply MemNext.ite
    | with_reducible apply State.logIt_mem
    | with_reducible apply State.setSec_mem
    | with_reducible apply State.fresh_mem)

theorem State.zeroModel_mem {s : State} (hM : MemOk s) : MemOk (State.zeroModel s) := by
  unfold State.zeroModel
  repeat' (first
    | with_reducible assumption
    | intro _
    | with_reducible apply MemOk.foldl
    | with_reducible apply State.zeroUnits_mem)

theorem execDebugUnlock_mem {s : State} (hM : MemOk s) : MemNext (execDebugUnlock s) := by
  unfold execDebugUnlock
  refine MemNext.command ?_
  repeat' (first
    | with_reducible assumption
    | with_reducible apply MemNext.next
    | with_reducible apply MemOk.ite
    | (extract_lets +onlyGivenNames u; refine (fun (hu : MemOk u) => ?_) ?_; clear_value u; rotate_left; unfold u; clear u)
    | with_reducible apply State.logIt_mem
    | with_reducible apply State.zeroSlots_mem
    | with_reducible apply State.setObj_mem
    | with_reducible apply State.setSec_mem
    | with_reducible apply State.setFlds_mem
    | with_reducible apply State.pwrSync_mem
    | with_reducible apply State.zeroModel_mem
    | with_reducible apply State.endUnwrap_mem
    | split)

end Sys2Proof.Machine
end

