-- ==== Sys2Proof/Laws/MemorySystem.lean ====
section
/-!
SUPPORT. The commands of the links, the Crier, power, reset, the clocks, the Reeve, the registers and the tracts keep the memories in their canonical form.
-/
namespace Sys2Proof.Machine
set_option linter.all false

theorem State.hlMembers_mem {s : State} (hM : MemOk s) : MemOk (State.hlMembers s) := by
  unfold State.hlMembers
  repeat' (first
    | with_reducible assumption
    | intro _
    | with_reducible apply MemOk.ite
    | (extract_lets +onlyGivenNames u; refine (fun (hu : MemOk u) => ?_) ?_; clear_value u; rotate_left; unfold u; clear u)
    | with_reducible apply MemOk.foldl
    | with_reducible apply State.setObj_mem
    | with_reducible apply State.reach_mem
    | (split; all_goals first | (with_reducible have hx := congrArg Prod.snd ‹(_ : _ × State) = (_, _)›; dsimp only at hx; subst hx) | (with_reducible have hx := congrArg (fun x => x.2.2) ‹(_ : _ × _ × State) = (_, _, _)›; dsimp only at hx; subst hx) | skip)
    | dsimp only
    | ((conv => pattern (State.mk ..)); with_reducible apply MemOk.same; case e => (dsimp only [State.mems]; first | done | with_reducible rfl)))

theorem State.portDown_mem {s : State} (p : Nat) (hM : MemOk s) : MemOk (State.portDown s p) := by
  unfold State.portDown
  repeat' (first
    | with_reducible assumption
    | with_reducible apply MemOk.ite
    | with_reducible apply State.logIt_mem
    | with_reducible apply State.bumpObj_mem
    | with_reducible apply State.hlMembers_mem
    | with_reducible apply State.setHlPort_mem
    | with_reducible apply State.setFld_mem)

theorem State.portTrain_mem {s : State} (p : Nat) (hM : MemOk s) : MemOk (State.portTrain s p) := by
  unfold State.portTrain
  repeat' (first
    | with_reducible assumption
    | with_reducible apply MemOk.ite
    | with_reducible apply State.setFld_mem)

theorem execHlPortUp_mem (port width rate : Nat) {s : State} (hM : MemOk s) : MemNext (execHlPortUp port width rate s) := by
  unfold execHlPortUp
  refine MemNext.command ?_
  repeat' (first
    | with_reducible assumption
    | with_reducible apply MemNext.next
    | with_reducible apply MemNext.ite
    | with_reducible apply State.sendPacket_mem
    | with_reducible apply State.setFlds_mem)

theorem execHlPortDown_mem (port : Nat) {s : State} (hM : MemOk s) : MemNext (execHlPortDown port s) := by
  unfold execHlPortDown
  refine MemNext.command ?_
  repeat' (first
    | with_reducible assumption
    | with_reducible apply MemNext.next
    | with_reducible apply MemNext.ite
    | with_reducible apply State.portTrain_mem
    | with_reducible apply State.portDown_mem)

theorem execHlRetrain_mem (port : Nat) {s : State} (hM : MemOk s) : MemNext (execHlRetrain port s) := by
  unfold execHlRetrain
  refine MemNext.command ?_
  repeat' (first
    | with_reducible assumption
    | with_reducible apply MemNext.next
    | with_reducible apply State.portTrain_mem)

theorem State.ackPacket_mem {s : State} (p lseq : Nat) (hM : MemOk s) : MemOk (State.ackPacket s p lseq) := by
  unfold State.ackPacket
  repeat' (first
    | with_reducible assumption
    | with_reducible apply State.send_mem)

theorem State.arrive_mem {s : State} (p : Nat) (x : HlPacket) (crcOk : Bool) (hM : MemOk s) : MemOk (State.arrive s p x crcOk).2 := by
  unfold State.arrive
  repeat' (first
    | with_reducible assumption
    | with_reducible apply State.sendPacket_mem
    | with_reducible apply State.ackPacket_mem
    | with_reducible apply State.setHlPort_mem
    | split
    | dsimp only)

theorem execHlHello_mem (port id : Nat) (master : Bool) (digest : List Byte) (members : Nat) (ring : Bool) {s : State} (hM : MemOk s) : MemNext (execHlHello port id master digest members ring s) := by
  unfold execHlHello
  refine MemNext.command ?_
  repeat' (first
    | with_reducible assumption
    | intro _
    | with_reducible apply MemNext.next
    | with_reducible apply MemNext.ite
    | with_reducible apply MemOk.ite
    | (extract_lets +onlyGivenNames u; refine (fun (hu : MemOk u) => ?_) ?_; clear_value u; rotate_left; unfold u; clear u)
    | with_reducible apply MemOk.foldl
    | with_reducible apply State.pumpAll_mem
    | with_reducible apply State.logIt_mem
    | with_reducible apply State.hlMembers_mem
    | with_reducible apply State.setHlPort_mem
    | with_reducible apply State.setFlds_mem
    | with_reducible apply State.reach_mem
    | with_reducible apply State.setFld_mem
    | (split; all_goals first | (with_reducible have hx := congrArg Prod.snd ‹(_ : _ × State) = (_, _)›; dsimp only at hx; subst hx) | (with_reducible have hx := congrArg (fun x => x.2.2) ‹(_ : _ × _ × State) = (_, _, _)›; dsimp only at hx; subst hx) | skip)
    | dsimp only
    | ((conv => pattern (State.mk ..)); with_reducible apply MemOk.same; case e => (dsimp only [State.mems]; first | done | with_reducible rfl)))

theorem execHlUnknownPacket_mem (port : Nat) {s : State} (hM : MemOk s) : MemNext (execHlUnknownPacket port s) := by
  unfold execHlUnknownPacket
  refine MemNext.command ?_
  repeat' (first
    | with_reducible assumption
    | with_reducible apply MemNext.next
    | with_reducible apply MemNext.ite
    | dsimp only
    | ((conv => pattern (State.mk ..)); with_reducible apply MemOk.same; case e => (dsimp only [State.mems]; first | done | with_reducible rfl)))

theorem State.openGrain_mem {s : State} (x : HlPacket) (hM : MemOk s) : MemOk (State.openGrain s x).2 := by
  unfold State.openGrain
  repeat' (first
    | with_reducible assumption
    | split
    | dsimp only
    | ((conv => pattern (State.mk ..)); with_reducible apply MemOk.same; case e => (dsimp only [State.mems]; first | done | with_reducible rfl)))

theorem State.takeGrain_mem {s : State} (p : Nat) (x : HlPacket) (hM : MemOk s) : MemOk (State.takeGrain s p x).2 := by
  unfold State.takeGrain
  repeat' (first
    | with_reducible assumption
    | with_reducible apply State.bumpObj_mem
    | with_reducible apply State.openGrain_mem
    | with_reducible apply State.gateArrival_mem
    | with_reducible apply State.rejectGate_mem
    | (split; all_goals first | (with_reducible have hx := congrArg Prod.snd ‹(_ : _ × State) = (_, _)›; dsimp only at hx; subst hx) | skip))

theorem execHlData_mem (port dst src lseq tally gate offset bin xfer ctr : Nat) (body : List Byte) (crcOk : Bool) {s : State} (hM : MemOk s) : MemNext (execHlData port dst src lseq tally gate offset bin xfer ctr body crcOk s) := by
  unfold execHlData
  refine MemNext.command ?_
  repeat' (first
    | with_reducible assumption
    | with_reducible apply MemNext.next
    | with_reducible apply State.settle_mem
    | with_reducible apply State.sendPacket_mem
    | with_reducible apply State.takeGrain_mem
    | with_reducible apply State.arrive_mem
    | (split; all_goals first | (with_reducible have hx := congrArg Prod.snd ‹(_ : _ × State) = (_, _)›; dsimp only at hx; subst hx) | skip)
    | dsimp only)

theorem State.failTransfer_mem {s : State} (t : Transfer) (detail darg : Nat) (hM : MemOk s) : MemOk (State.failTransfer s t detail darg) := by
  unfold State.failTransfer
  repeat' (first
    | with_reducible assumption
    | (extract_lets +onlyGivenNames u; refine (fun (hu : MemOk u) => ?_) ?_; clear_value u; rotate_left; unfold u; clear u)
    | with_reducible apply State.settle_mem
    | with_reducible apply State.setTransfers_mem
    | with_reducible apply State.endJob_mem)

theorem State.acceptGrain_mem {s : State} (t : Transfer) (g : Nat) (hM : MemOk s) : MemOk (State.acceptGrain s t g) := by
  unfold State.acceptGrain
  repeat' (first
    | with_reducible assumption
    | with_reducible apply MemOk.ite
    | with_reducible apply State.pumpAll_mem
    | with_reducible apply State.setTransfers_mem
    | with_reducible apply State.updTransfer_mem)

theorem State.takeReply_mem {s : State} (xfer offset code : Nat) (hM : MemOk s) : MemOk (State.takeReply s xfer offset code) := by
  unfold State.takeReply
  repeat' (first
    | with_reducible assumption
    | with_reducible apply MemOk.ite
    | with_reducible apply State.acceptGrain_mem
    | with_reducible apply State.sendGrain_mem
    | with_reducible apply State.failTransfer_mem
    | split)

theorem execHlReply_mem (port dst src lseq xfer offset code : Nat) (crcOk : Bool) {s : State} (hM : MemOk s) : MemNext (execHlReply port dst src lseq xfer offset code crcOk s) := by
  unfold execHlReply
  refine MemNext.command ?_
  repeat' (first
    | with_reducible assumption
    | with_reducible apply MemNext.next
    | with_reducible apply State.takeReply_mem
    | with_reducible apply State.arrive_mem
    | (split; all_goals first | (with_reducible have hx := congrArg Prod.snd ‹(_ : _ × State) = (_, _)›; dsimp only at hx; subst hx) | skip)
    | dsimp only)

theorem execHlLinkack_mem (port lseq : Nat) {s : State} (hM : MemOk s) : MemNext (execHlLinkack port lseq s) := by
  unfold execHlLinkack
  refine MemNext.command ?_
  repeat' (first
    | with_reducible assumption
    | with_reducible apply MemNext.next
    | with_reducible apply MemOk.ite
    | with_reducible apply State.setHlPort_mem)

theorem execHlReplay_mem (port lseq : Nat) {s : State} (hM : MemOk s) : MemNext (execHlReplay port lseq s) := by
  unfold execHlReplay
  refine MemNext.command ?_
  repeat' (first
    | with_reducible assumption
    | with_reducible apply MemNext.next
    | with_reducible apply MemNext.ite
    | with_reducible apply State.send_mem
    | with_reducible apply State.bumpObj_mem
    | with_reducible apply State.setHlPort_mem
    | with_reducible apply State.portTrain_mem
    | with_reducible apply State.portDown_mem
    | split)

theorem execHlReplyTimeout_mem (xfer grain at_ : Nat) {s : State} (hM : MemOk s) : MemNext (execHlReplyTimeout xfer grain at_ s) := by
  unfold execHlReplyTimeout
  refine MemNext.command ?_
  repeat' (first
    | with_reducible assumption
    | with_reducible apply MemNext.next
    | with_reducible apply MemNext.ite
    | (extract_lets +onlyGivenNames u; refine (fun (hu : MemOk u) => ?_) ?_; clear_value u; rotate_left; unfold u; clear u)
    | with_reducible apply State.failTransfer_mem
    | with_reducible apply State.reach_mem
    | split)

theorem execHlSyncSend_mem (at_ : Nat) {s : State} (hM : MemOk s) : MemNext (execHlSyncSend at_ s) := by
  unfold execHlSyncSend
  refine MemNext.command ?_
  repeat' (first
    | with_reducible assumption
    | intro _
    | with_reducible apply MemNext.next
    | with_reducible apply MemNext.ite
    | with_reducible apply MemOk.ite
    | with_reducible apply MemOk.foldl
    | with_reducible apply State.sendPacket_mem
    | with_reducible apply State.reach_mem)

theorem State.alignTime_mem {s : State} (goal : Nat) (hM : MemOk s) : MemOk (State.alignTime s goal) := by
  unfold State.alignTime
  repeat' (first
    | with_reducible assumption
    | with_reducible apply MemOk.ite
    | with_reducible apply State.setObj_mem
    | dsimp only
    | ((conv => pattern (State.mk ..)); with_reducible apply MemOk.same; case e => (dsimp only [State.mems]; first | done | with_reducible rfl)))

theorem execHlSync_mem (port src lseq stamp delay : Nat) (crcOk : Bool) (at_ : Nat) {s : State} (hM : MemOk s) : MemNext (execHlSync port src lseq stamp delay crcOk at_ s) := by
  unfold execHlSync
  refine MemNext.command ?_
  repeat' (first
    | with_reducible assumption
    | with_reducible apply MemNext.next
    | with_reducible apply MemNext.ite
    | with_reducible apply MemOk.ite
    | (extract_lets +onlyGivenNames u; refine (fun (hu : MemOk u) => ?_) ?_; clear_value u; rotate_left; unfold u; clear u)
    | with_reducible apply State.sendPacket_mem
    | with_reducible apply State.reach_mem
    | with_reducible apply State.arrive_mem
    | with_reducible apply State.alignTime_mem
    | (split; all_goals first | (with_reducible have hx := congrArg Prod.snd ‹(_ : _ × State) = (_, _)›; dsimp only at hx; subst hx) | skip)
    | dsimp only)

theorem execHlSyncLoss_mem (at_ : Nat) {s : State} (hM : MemOk s) : MemNext (execHlSyncLoss at_ s) := by
  unfold execHlSyncLoss
  refine MemNext.command ?_
  repeat' (first
    | with_reducible assumption
    | with_reducible apply MemNext.next
    | with_reducible apply MemNext.ite
    | (extract_lets +onlyGivenNames u; refine (fun (hu : MemOk u) => ?_) ?_; clear_value u; rotate_left; unfold u; clear u)
    | with_reducible apply State.reach_mem
    | with_reducible apply State.setObj_mem
    | dsimp only
    | ((conv => pattern (State.mk ..)); with_reducible apply MemOk.same; case e => (dsimp only [State.mems]; first | done | with_reducible rfl)))

theorem execNhlwakePulse_mem (at_ : Nat) {s : State} (hM : MemOk s) : MemNext (execNhlwakePulse at_ s) := by
  unfold execNhlwakePulse
  refine MemNext.command ?_
  repeat' (first
    | with_reducible assumption
    | with_reducible apply MemNext.next
    | with_reducible apply MemOk.ite
    | with_reducible apply State.wake_mem
    | with_reducible apply State.reach_mem)

theorem State.sendMgmt_mem {s : State} (dst : Nat) (frame : List Byte) (hM : MemOk s) : MemOk (State.sendMgmt s dst frame) := by
  unfold State.sendMgmt
  repeat' (first
    | with_reducible assumption
    | with_reducible apply State.sendPacket_mem
    | split)

theorem execHlMgmt_mem (fromNet : Bool) (port dst src lseq : Nat) (frame : List Byte) (crcOk : Bool) {s : State} (hM : MemOk s) : MemNext (execHlMgmt fromNet port dst src lseq frame crcOk s) := by
  unfold execHlMgmt
  refine MemNext.command ?_
  repeat' (first
    | with_reducible assumption
    | with_reducible apply MemNext.next
    | with_reducible apply MemNext.ite
    | with_reducible apply MemOk.ite
    | with_reducible apply State.send_mem
    | with_reducible apply State.sendMgmt_mem
    | with_reducible apply State.arrive_mem
    | (split; all_goals first | (with_reducible have hx := congrArg Prod.snd ‹(_ : _ × State) = (_, _)›; dsimp only at hx; subst hx) | skip)
    | dsimp only)

theorem State.lgStart_mem {s : State} (op type part handle a0 a1 a2 : Nat) (hM : MemOk s) : MemOk (State.lgStart s op type part handle a0 a1 a2) := by
  unfold State.lgStart
  repeat' (first
    | with_reducible assumption
    | with_reducible apply State.setFlds_mem
    | with_reducible apply State.setFld_mem)

theorem State.lgEnd_mem {s : State} (r : LgResult) (hM : MemOk s) : MemOk (State.lgEnd s r) := by
  unfold State.lgEnd
  repeat' (first
    | with_reducible assumption
    | with_reducible apply MemOk.ite
    | with_reducible apply State.logIt_mem
    | with_reducible apply State.setFld_mem)

theorem State.lgBody_mem {s : State} (type part handle a0 a1 a2 : Nat) (secure : Bool) (obs : List Obs) (hM : MemOk s) :
    MemOk (s.lgBody type part handle a0 a1 a2 secure obs).2 := by
  unfold State.lgBody
  split
  · extract_lets dh hkv layers slab
    split <;> exact hM
  · exact hM
  · split
    · exact hM
    · have k := State.grantState_mem (s := s) (bits a0 31 29) part handle (bit a0 26) (bit a0 25) hM
      generalize s.grantState (bits a0 31 29) part handle (bit a0 26) (bit a0 25) = o at *
      cases o with
      | none => exact State.bumpObj_mem _ _ _ hM
      | some t =>
        have k := k t rfl
        dsimp only
        generalize t.hearth.leases.find? (fun l => decide (l.owner = handle)) = p
        cases p <;> exact k
  · split <;> exact hM
  · generalize s.beamPage part = o
    cases o <;> exact hM
  · extract_lets r
    split
    · exact hM
    · split
      · exact hM
      · exact State.setRing_mem _ _ hM
  · extract_lets page
    split
    · exact hM
    · have k := State.urRead_mem (s := s) (unitReq 0x11 secure) (page * 4096) 48 obs hM
      generalize s.urRead (unitReq 0x11 secure) (page * 4096) 48 obs = u at *
      obtain ⟨e, u⟩ := u
      cases e <;> exact k
  · exact hM

theorem State.lgOpen_mem {s : State} (type part bank a0 a1 a2 : Nat) (secure : Bool) (obs : List Obs) (hM : MemOk s) :
    MemOk (s.lgOpen type part bank a0 a1 a2 secure obs).2 := by
  unfold State.lgOpen
  cases lgArgBits type with
  | none => exact hM
  | some m =>
    dsimp only
    generalize (if type = 2 then s.lgOwnerCheck a0 a2 secure else .done) = own
    split
    · exact hM
    · split
      · exact hM
      · generalize s.freeRecord bank = fr
        cases fr with
        | none => exact hM
        | some slot =>
          dsimp only
          generalize s.nextRecGen slot = gen
          have k := State.lgBody_mem (s := s) type part (handleOf slot gen) a0 a1 a2 secure obs hM
          generalize s.lgBody type part (handleOf slot gen) a0 a1 a2 secure obs = u at *
          obtain ⟨e, u⟩ := u
          cases e with
          | error e => exact k
          | ok body =>
            dsimp only
            have k1 := State.setRec_mem slot (recHeader type part (if type = 2 then a0 else 0) gen secure + body % 2 ^ 448 * 2 ^ 64) k
            generalize u.setRec slot (recHeader type part (if type = 2 then a0 else 0) gen secure + body % 2 ^ 448 * 2 ^ 64) = v at *
            have k2 : MemOk (if type = 2 then v.writePageEntry a0 slot 0 0 obs else (none, v)).2 := by
              split
              · exact State.writePageEntry_mem _ _ _ _ _ k1
              · exact k1
            generalize (if type = 2 then v.writePageEntry a0 slot 0 0 obs else (none, v)) = w at *
            obtain ⟨e, w⟩ := w
            cases e with
            | some e => exact State.logIt_mem _ _ _ _ _ _ (State.setRec_mem _ _ k2)
            | none => exact State.setFld_mem _ _ _ k2

theorem State.freeRec_mem {s : State} (slot : Nat) (hM : MemOk s) : MemOk (State.freeRec s slot) := by
  unfold State.freeRec
  repeat' (first
    | with_reducible assumption
    | with_reducible apply State.setRec_mem)

theorem State.freePages_mem {s : State} (seq : Nat) (slots : List Nat) (hM : MemOk s) : MemOk (State.freePages s seq slots) := by
  unfold State.freePages
  repeat' (first
    | with_reducible assumption
    | intro _
    | with_reducible apply MemOk.ite
    | (extract_lets +onlyGivenNames u; refine (fun (hu : MemOk u) => ?_) ?_; clear_value u; rotate_left; unfold u; clear u)
    | with_reducible apply MemOk.foldl
    | with_reducible apply State.freeRec_mem
    | with_reducible apply State.putEntry_mem
    | split
    | dsimp only
    | ((conv => pattern (State.mk ..)); with_reducible apply MemOk.same; case e => (dsimp only [State.mems]; first | done | with_reducible rfl)))

theorem State.lgRelease_mem {s : State} (h : Nat) (obs : List Obs) (hM : MemOk s) : MemOk (State.lgRelease s h obs).2 := by
  unfold State.lgRelease
  repeat' (first
    | with_reducible assumption
    | intro _
    | with_reducible apply MemOk.ite
    | (extract_lets +onlyGivenNames u; refine (fun (hu : MemOk u) => ?_) ?_; clear_value u; rotate_left; unfold u; clear u)
    | with_reducible apply MemOk.foldl
    | with_reducible apply State.setRing_mem
    | with_reducible apply State.freePages_mem
    | with_reducible apply State.admitEntries_mem
    | with_reducible apply State.putEntry_mem
    | with_reducible apply State.releaseLease_mem
    | (split; all_goals first | (with_reducible have hx := congrArg Prod.snd ‹(_ : _ × State) = (_, _)›; dsimp only at hx; subst hx) | (with_reducible have hx := congrArg (fun x => x.2.2) ‹(_ : _ × _ × State) = (_, _, _)›; dsimp only at hx; subst hx) | skip)
    | dsimp only
    | ((conv => pattern (State.mk ..)); with_reducible apply MemOk.same; case e => (dsimp only [State.mems]; first | done | with_reducible rfl)))

theorem State.lgClose_mem {s : State} (h : Nat) (secure : Bool) (obs : List Obs) (hM : MemOk s) : MemOk (State.lgClose s h secure obs).2 := by
  unfold State.lgClose
  repeat' (first
    | with_reducible assumption
    | with_reducible apply State.logIt_mem
    | with_reducible apply State.lgRelease_mem
    | with_reducible apply State.freeRec_mem
    | (split; all_goals first | (with_reducible have hx := congrArg Prod.snd ‹(_ : _ × State) = (_, _)›; dsimp only at hx; subst hx) | skip))

theorem State.truncatePages_mem {s : State} (seq n : Nat) (l : List Nat) (hM : MemOk s) : MemOk (s.truncatePages seq n l).2 := by
  induction l generalizing s with
  | nil => exact hM
  | cons slot r ih =>
    unfold State.truncatePages
    extract_lets e clear
    have k := State.setPageCount_mem (s := s) seq slot (if clear then 0 else pgQ e) (min (n - 256 * pgPidx e) 256) hM
    generalize s.setPageCount seq slot (if clear then 0 else pgQ e) (min (n - 256 * pgPidx e) 256) = u at *
    obtain ⟨v, u⟩ := u
    cases v with
    | some v => exact k
    | none =>
      refine ih ?_
      try dsimp only
      split
      · exact MemOk.foldl k (fun s p h => State.clearQ_mem _ h)
      · exact k

theorem State.lgTruncate_mem {s : State} (h n : Nat) (secure : Bool) (obs : List Obs) (hM : MemOk s) : MemOk (s.lgTruncate h n secure obs).2 := by
  unfold State.lgTruncate
  cases s.lgCheck h secure false <;> try exact hM
  dsimp only
  split
  · exact hM
  · split
    · exact hM
    · generalize s.pagesOf h = pages
      have k0 := State.admitEntries_mem (s := s) h (pages.map (fun p => pgPidx (pageWord (s.recAt p)))) obs hM
      generalize s.admitEntries h (pages.map (fun p => pgPidx (pageWord (s.recAt p)))) obs = w at *
      obtain ⟨e, w⟩ := w
      cases e with
      | some e => exact State.logIt_mem _ _ _ _ _ _ k0
      | none =>
        dsimp only
        have k := State.truncatePages_mem (s := w) h n pages k0
        generalize w.truncatePages h n pages = u at *
        obtain ⟨e, u⟩ := u
        cases e with
        | some e => exact k
        | none => exact State.setRec_mem _ _ k

theorem execLedgerRead_mem (handle : Nat) (secure : Bool) {s : State} (hM : MemOk s) : MemNext (execLedgerRead handle secure s) := by
  unfold execLedgerRead
  refine MemNext.command ?_
  repeat' (first
    | with_reducible assumption
    | intro _
    | with_reducible apply MemNext.next
    | (extract_lets +onlyGivenNames u; refine (fun (hu : MemOk u) => ?_) ?_; clear_value u; rotate_left; unfold u; clear u)
    | with_reducible apply MemOk.foldl
    | with_reducible apply State.lgEnd_mem
    | with_reducible apply State.lgStart_mem
    | with_reducible apply State.lgFetch_mem
    | with_reducible apply State.setFld_mem
    | split)

theorem State.setCrier_mem {s : State} (c : CrierGroup) (hM : MemOk s) (hc : SMap.wf (fun _ => 0) c.window = true) : MemOk (s.setCrier c) :=
  ⟨hM.bin, hM.home, hM.frame, hM.plane, hM.spill, hc⟩

theorem State.setSession_mem {s : State} (n : Nat) (x : Option Session) (hM : MemOk s) : MemOk (State.setSession s n x) := by
  unfold State.setSession
  repeat' (first
    | with_reducible assumption
    | with_reducible apply State.setCrier_mem
    | dsimp only
    | with_reducible apply MemOk.window)

theorem State.countSessions_mem {s : State} (hM : MemOk s) : MemOk (State.countSessions s) := by
  unfold State.countSessions
  repeat' (first
    | with_reducible assumption
    | with_reducible apply State.setObj_mem)

theorem State.endSession_mem {s : State} (n : Nat) (hM : MemOk s) : MemOk (State.endSession s n) := by
  unfold State.endSession
  repeat' (first
    | with_reducible assumption
    | with_reducible apply MemOk.ite
    | (extract_lets +onlyGivenNames u; refine (fun (hu : MemOk u) => ?_) ?_; clear_value u; rotate_left; unfold u; clear u)
    | with_reducible apply State.setKeySlot_mem
    | with_reducible apply State.countSessions_mem
    | with_reducible apply State.freeRec_mem
    | with_reducible apply State.setSession_mem
    | split)

theorem State.applyNet_mem {s : State} (hM : MemOk s) : MemOk (State.applyNet s) := by
  unfold State.applyNet
  repeat' (first
    | with_reducible assumption
    | with_reducible apply State.setCrier_mem
    | dsimp only
    | with_reducible apply MemOk.window)

theorem State.endSessions_mem {s : State} (hM : MemOk s) : MemOk (State.endSessions s) := by
  unfold State.endSessions
  repeat' (first
    | with_reducible assumption
    | intro _
    | with_reducible apply MemOk.foldl
    | with_reducible apply State.endSession_mem)

theorem State.setPwr_mem {s : State} (p : PwrGroup) (hM : MemOk s) : MemOk (State.setPwr s p) := by
  unfold State.setPwr
  repeat' (first
    | with_reducible assumption
    | ((conv => pattern (State.mk ..)); with_reducible apply MemOk.same; case e => (dsimp only [State.mems]; first | done | with_reducible rfl)))

theorem State.pllSync_mem {s : State} (hM : MemOk s) : MemOk (State.pllSync s) := by
  unfold State.pllSync
  repeat' (first
    | with_reducible assumption
    | intro _
    | with_reducible apply MemOk.ite
    | with_reducible apply MemOk.foldl
    | with_reducible apply State.setFld_mem)

theorem State.losePlanes_mem {s : State} (c : Nat) (hM : MemOk s) : MemOk (s.losePlanes c) := by
  refine ⟨hM.bin, hM.home, hM.frame, ?_, hM.spill, hM.window⟩
  have hp := hM.plane
  unfold State.losePlanes
  dsimp only
  generalize planeKey c 0 0 0 = k
  have run (b n j : Nat) : SMap.rising (k + j) ((List.range' j n).filterMap (fun i =>
      let w := Config.freeWord (b + i)
      if w = 0#32 then none else some (k + i, w))) = true := by
    induction n generalizing j with
    | zero => rfl
    | succ n ih =>
      rw [List.range'_succ, List.filterMap_cons]
      have := ih (j + 1)
      by_cases hw : Config.freeWord (b + j) = 0#32
      · simp only [hw, if_true]
        exact SMap.rising_mono (by omega) this
      · simp only [hw, if_false, SMap.rising_cons]
        exact ⟨Nat.le_refl _, by simpa [Nat.add_assoc] using this⟩
  simp only [SMap.wf, Bool.and_eq_true, List.all_eq_true, decide_eq_true_eq] at hp ⊢
  have hr : SMap.rising k (freeRun k s.free 16384) = true := by
    have := run s.free 16384 0
    simpa [freeRun, List.range_eq_range'] using this
  have hlt : ∀ e ∈ freeRun k s.free 16384, e.1 < k + 16384 ∧ e.2 ≠ 0#32 := by
    intro e he
    unfold freeRun at he
    obtain ⟨i, hi, h⟩ := List.mem_filterMap.mp he
    have hi := List.mem_range.mp hi
    dsimp only at h
    split at h
    · cases h
    · rename_i hz; injection h with h; subst h; exact ⟨by simp only; omega, hz⟩
  refine ⟨?_, ?_⟩
  · rw [List.append_assoc]
    refine SMap.rising_append (SMap.rising_filter _ hp.1) (by intro e he; have := (List.mem_filter.mp he).2; simpa using this) ?_ (Nat.zero_le _)
    exact SMap.rising_append hr (fun e he => (hlt e he).1)
      (SMap.rising_from (SMap.rising_filter _ hp.1) (by intro e he; have := (List.mem_filter.mp he).2; simpa using this)) (by omega)
  · intro e he
    rcases List.mem_append.mp he with he | he
    · rcases List.mem_append.mp he with he | he
      · exact hp.2 e (List.mem_filter.mp he).1
      · exact (hlt e he).2
    · exact hp.2 e (List.mem_filter.mp he).1

theorem State.powerOff_mem {s : State} (d : Nat) (hM : MemOk s) : MemOk (State.powerOff s d) := by
  unfold State.powerOff
  repeat' (first
    | with_reducible assumption
    | intro _
    | with_reducible apply MemOk.ite
    | (extract_lets +onlyGivenNames u; refine (fun (hu : MemOk u) => ?_) ?_; clear_value u; rotate_left; unfold u; clear u)
    | with_reducible apply MemOk.foldl
    | with_reducible apply State.setPower_mem
    | with_reducible apply State.resetGates_mem
    | with_reducible apply State.pllSync_mem
    | with_reducible apply State.setPwr_mem
    | with_reducible apply State.setFlds_mem
    | with_reducible apply State.setFld_mem
    | with_reducible apply State.svDrop_mem
    | with_reducible apply State.setObj_mem
    | with_reducible apply State.losePlanes_mem
    | with_reducible apply State.portDown_mem
    | (split; all_goals first | (with_reducible have hx := congrArg Prod.snd ‹(_ : _ × State) = (_, _)›; dsimp only at hx; subst hx) | (with_reducible have hx := congrArg (fun x => x.2.2) ‹(_ : _ × _ × State) = (_, _, _)›; dsimp only at hx; subst hx) | skip)
    | dsimp only
    | ((conv => pattern (State.mk ..)); with_reducible apply MemOk.same; case e => (dsimp only [State.mems]; first | done | with_reducible rfl)))

theorem execDomainSwitchOff_mem (domain at_ : Nat) {s : State} (hM : MemOk s) : MemNext (execDomainSwitchOff domain at_ s) := by
  unfold execDomainSwitchOff
  refine MemNext.command ?_
  repeat' (first
    | with_reducible assumption
    | with_reducible apply MemNext.next
    | with_reducible apply MemNext.ite
    | with_reducible apply State.powerOff_mem
    | with_reducible apply State.reach_mem)

theorem execDomainStart_mem (at_ : Nat) {s : State} (hM : MemOk s) : MemNext (execDomainStart at_ s) := by
  unfold execDomainStart
  refine MemNext.command ?_
  repeat' (first
    | with_reducible assumption
    | with_reducible apply MemNext.next
    | with_reducible apply MemNext.ite
    | (extract_lets +onlyGivenNames u; refine (fun (hu : MemOk u) => ?_) ?_; clear_value u; rotate_left; unfold u; clear u)
    | with_reducible apply State.setPwr_mem
    | with_reducible apply State.reach_mem
    | split)

theorem State.loadBin_mem {s : State} (b : Nat) (hM : MemOk s) : MemOk (State.loadBin s b) := by
  unfold State.loadBin
  repeat' (first
    | with_reducible assumption
    | with_reducible apply MemOk.ite
    | with_reducible apply State.startZeroing_mem
    | with_reducible apply State.setFld_mem
    | dsimp only
    | ((conv => pattern (State.mk ..)); with_reducible apply MemOk.same; case e => (dsimp only [State.mems]; first | done | with_reducible rfl)))

theorem execDomainPowerGood_mem (domain at_ : Nat) {s : State} (hM : MemOk s) : MemNext (execDomainPowerGood domain at_ s) := by
  unfold execDomainPowerGood
  refine MemNext.command ?_
  repeat' (first
    | with_reducible assumption
    | with_reducible apply MemNext.next
    | with_reducible apply MemNext.ite
    | with_reducible apply MemOk.ite
    | with_reducible apply State.settle_mem
    | with_reducible apply State.setPwr_mem
    | with_reducible apply State.setPower_mem
    | with_reducible apply State.applyNet_mem
    | with_reducible apply State.pwrSync_mem
    | with_reducible apply State.portTrain_mem
    | with_reducible apply State.reach_mem
    | with_reducible apply State.decideNext_mem
    | with_reducible apply State.loadBin_mem)

theorem execRegOk_mem (at_ : Nat) {s : State} (hM : MemOk s) : MemNext (execRegOk at_ s) := by
  unfold execRegOk
  refine MemNext.command ?_
  repeat' (first
    | with_reducible assumption
    | with_reducible apply MemNext.next
    | with_reducible apply MemNext.ite
    | with_reducible apply MemOk.ite
    | with_reducible apply State.requestAll_mem
    | with_reducible apply State.setPwr_mem
    | with_reducible apply State.setFlds_mem
    | with_reducible apply State.pwrSync_mem
    | with_reducible apply State.reach_mem)

theorem execRegOkTimeout_mem (at_ : Nat) {s : State} (hM : MemOk s) : MemNext (execRegOkTimeout at_ s) := by
  unfold execRegOkTimeout
  refine MemNext.command ?_
  repeat' (first
    | with_reducible assumption
    | with_reducible apply MemNext.next
    | with_reducible apply MemNext.ite
    | with_reducible apply State.bumpObj_mem
    | with_reducible apply State.setPwr_mem
    | with_reducible apply State.setFlds_mem
    | with_reducible apply State.reach_mem)

theorem execRegRetry_mem (at_ : Nat) {s : State} (hM : MemOk s) : MemNext (execRegRetry at_ s) := by
  unfold execRegRetry
  refine MemNext.command ?_
  repeat' (first
    | with_reducible assumption
    | with_reducible apply MemNext.next
    | with_reducible apply MemNext.ite
    | with_reducible apply State.reach_mem
    | with_reducible apply State.regFull_mem)

theorem execBrownOut_mem (at_ : Nat) {s : State} (hM : MemOk s) : MemNext (execBrownOut at_ s) := by
  unfold execBrownOut
  refine MemNext.command ?_
  repeat' (first
    | with_reducible assumption
    | with_reducible apply MemNext.next
    | with_reducible apply State.bumpObj_mem
    | with_reducible apply State.setPwr_mem
    | with_reducible apply State.wake_mem
    | with_reducible apply State.watchReset_mem
    | with_reducible apply State.setFlds_mem
    | with_reducible apply State.reach_mem
    | with_reducible apply State.regFull_mem
    | dsimp only
    | ((conv => pattern (State.mk ..)); with_reducible apply MemOk.same; case e => (dsimp only [State.mems]; first | done | with_reducible rfl)))

theorem State.beginEntry_mem {s : State} (target : Nat) (hM : MemOk s) : MemOk (State.beginEntry s target) := by
  unfold State.beginEntry
  repeat' (first
    | with_reducible assumption
    | with_reducible apply State.setFld_mem
    | with_reducible apply State.setPwr_mem)

theorem execIdleEntry_mem (at_ : Nat) {s : State} (hM : MemOk s) : MemNext (execIdleEntry at_ s) := by
  unfold execIdleEntry
  refine MemNext.command ?_
  repeat' (first
    | with_reducible assumption
    | with_reducible apply MemNext.next
    | with_reducible apply MemNext.ite
    | with_reducible apply State.reach_mem
    | with_reducible apply State.setFld_mem)

theorem execDozeEntry_mem (at_ : Nat) {s : State} (hM : MemOk s) : MemNext (execDozeEntry at_ s) := by
  unfold execDozeEntry
  refine MemNext.command ?_
  repeat' (first
    | with_reducible assumption
    | with_reducible apply MemNext.next
    | with_reducible apply MemNext.ite
    | with_reducible apply State.setPwr_mem
    | with_reducible apply State.beginEntry_mem
    | with_reducible apply State.reach_mem)

theorem State.abortUpdate_mem {s : State} (hM : MemOk s) : MemOk (State.abortUpdate s) := by
  unfold State.abortUpdate
  repeat' (first
    | with_reducible assumption
    | with_reducible apply MemOk.ite
    | (extract_lets +onlyGivenNames u; refine (fun (hu : MemOk u) => ?_) ?_; clear_value u; rotate_left; unfold u; clear u)
    | with_reducible apply State.logIt_mem
    | with_reducible apply State.setFld_mem
    | with_reducible apply State.setObj_mem
    | ((conv => pattern (State.mk ..)); with_reducible apply MemOk.same; case e => (dsimp only [State.mems]; first | done | with_reducible rfl)))

theorem State.restSteps_mem {s : State} (hM : MemOk s) : MemOk (State.restSteps s) := by
  unfold State.restSteps
  repeat' (first
    | with_reducible assumption
    | intro _
    | (extract_lets +onlyGivenNames u; refine (fun (hu : MemOk u) => ?_) ?_; clear_value u; rotate_left; unfold u; clear u)
    | with_reducible apply MemOk.foldl
    | with_reducible apply State.setLeases_mem
    | with_reducible apply State.setRec_mem
    | with_reducible apply State.audSuspend_mem
    | with_reducible apply State.camSuspend_mem
    | dsimp only
    | ((conv => pattern (State.mk ..)); with_reducible apply MemOk.same; case e => (dsimp only [State.mems]; first | done | with_reducible rfl)))

theorem State.enterRest_mem {s : State} (hM : MemOk s) : MemOk (State.enterRest s) := by
  unfold State.enterRest
  repeat' (first
    | with_reducible assumption
    | with_reducible apply State.restSteps_mem
    | with_reducible apply State.abortUpdate_mem
    | with_reducible apply State.beginEntry_mem)

theorem execRestEntry_mem (at_ : Nat) {s : State} (hM : MemOk s) : MemNext (execRestEntry at_ s) := by
  unfold execRestEntry
  refine MemNext.command ?_
  repeat' (first
    | with_reducible assumption
    | with_reducible apply MemNext.next
    | with_reducible apply MemNext.ite
    | with_reducible apply MemOk.ite
    | with_reducible apply State.enterRest_mem
    | with_reducible apply State.setPwr_mem
    | with_reducible apply State.reach_mem)

theorem State.enterListen_mem {s : State} (refused : Bool) (hM : MemOk s) : MemOk (State.enterListen s refused) := by
  unfold State.enterListen
  repeat' (first
    | with_reducible assumption
    | intro _
    | with_reducible apply MemOk.ite
    | (extract_lets +onlyGivenNames u; refine (fun (hu : MemOk u) => ?_) ?_; clear_value u; rotate_left; unfold u; clear u)
    | with_reducible apply MemOk.foldl
    | with_reducible apply State.zeroSlots_mem
    | with_reducible apply State.send_mem
    | with_reducible apply State.abortUpdate_mem
    | with_reducible apply State.flushLog_mem
    | with_reducible apply State.setPwr_mem
    | with_reducible apply State.endSessions_mem
    | with_reducible apply State.beginEntry_mem
    | with_reducible apply State.refused_mem
    | (split; all_goals first | (with_reducible have hx := congrArg Prod.snd ‹(_ : _ × State) = (_, _)›; dsimp only at hx; subst hx) | (with_reducible have hx := congrArg (fun x => x.2.2) ‹(_ : _ × _ × State) = (_, _, _)›; dsimp only at hx; subst hx) | skip)
    | dsimp only
    | ((conv => pattern (State.mk ..)); with_reducible apply MemOk.same; case e => (dsimp only [State.mems]; first | done | with_reducible rfl)))

theorem execListenEntry_mem (refused : Bool) (at_ : Nat) {s : State} (hM : MemOk s) : MemNext (execListenEntry refused at_ s) := by
  unfold execListenEntry
  refine MemNext.command ?_
  repeat' (first
    | with_reducible assumption
    | intro _
    | with_reducible apply MemNext.next
    | with_reducible apply MemNext.ite
    | with_reducible apply MemOk.ite
    | (extract_lets +onlyGivenNames u; refine (fun (hu : MemOk u) => ?_) ?_; clear_value u; rotate_left; unfold u; clear u)
    | with_reducible apply MemOk.foldl
    | with_reducible apply State.setPwr_mem
    | with_reducible apply State.enterListen_mem
    | with_reducible apply State.reach_mem
    | with_reducible apply State.refused_mem
    | (split; all_goals first | (with_reducible have hx := congrArg Prod.snd ‹(_ : _ × State) = (_, _)›; dsimp only at hx; subst hx) | (with_reducible have hx := congrArg (fun x => x.2.2) ‹(_ : _ × _ × State) = (_, _, _)›; dsimp only at hx; subst hx) | skip)
    | dsimp only
    | ((conv => pattern (State.mk ..)); with_reducible apply MemOk.same; case e => (dsimp only [State.mems]; first | done | with_reducible rfl)))

theorem State.lateEntry_mem {s : State} (hM : MemOk s) : MemOk (State.lateEntry s) := by
  unfold State.lateEntry
  repeat' (first
    | with_reducible assumption
    | with_reducible apply MemOk.ite
    | with_reducible apply State.enterRest_mem
    | with_reducible apply State.setPwr_mem
    | with_reducible apply State.enterListen_mem)

theorem State.dropGranary_mem {s : State} (bad : List Nat) (hM : MemOk s) : MemOk (s.dropGranary bad) := by
  unfold State.dropGranary
  extract_lets s1
  have h1 : MemOk s1 := by
    refine MemOk.foldl hM ?_
    intro s e h
    dsimp only
    split
    · have k := State.bumpFld_mem .urCntCount 3 1 (State.frameToHome_mem e.1 e.2.page h)
      split
      · exact State.quarantine_mem _ _ k
      · exact k
    · exact State.stopFill_mem _ h
  exact ⟨h1.bin, h1.home, rfl, h1.plane, h1.spill, h1.window⟩

theorem State.leaveDomains_mem {s : State} (state : Nat) (hM : MemOk s) : MemOk (State.leaveDomains s state) := by
  unfold State.leaveDomains
  repeat' (first
    | with_reducible assumption
    | intro _
    | with_reducible apply MemOk.ite
    | with_reducible apply MemOk.foldl
    | with_reducible apply State.powerOff_mem)

theorem State.replayWake_mem {s : State} (hM : MemOk s) : MemOk (State.replayWake s) := by
  unfold State.replayWake
  repeat' (first
    | with_reducible assumption
    | with_reducible apply MemOk.ite
    | with_reducible apply State.bumpObj_mem
    | with_reducible apply State.startResume_mem)

theorem execStateEntryComplete_mem (bad : List Nat) (at_ : Nat) {s : State} (hM : MemOk s) : MemNext (execStateEntryComplete bad at_ s) := by
  unfold execStateEntryComplete
  refine MemNext.command ?_
  repeat' (first
    | with_reducible assumption
    | with_reducible apply MemNext.next
    | with_reducible apply MemNext.ite
    | with_reducible apply MemOk.ite
    | with_reducible apply State.leaveDomains_mem
    | with_reducible apply State.setPwr_mem
    | with_reducible apply State.replayWake_mem
    | with_reducible apply State.setFlds_mem
    | with_reducible apply State.reach_mem
    | with_reducible apply State.dropGranary_mem)

theorem State.endDoze_mem {s : State} (hM : MemOk s) : MemOk (State.endDoze s) := by
  unfold State.endDoze
  repeat' (first
    | with_reducible assumption
    | with_reducible apply MemOk.ite
    | with_reducible apply State.setPwr_mem)

theorem State.lateEvents_mem {s : State} (hM : MemOk s) : MemOk (State.lateEvents s) := by
  unfold State.lateEvents
  repeat' (first
    | with_reducible assumption
    | intro _
    | with_reducible apply MemOk.foldl
    | with_reducible apply State.setPwr_mem
    | with_reducible apply State.eventOn_mem)

theorem State.resumeDone_mem {s : State} (hM : MemOk s) : MemOk (State.resumeDone s) := by
  unfold State.resumeDone
  repeat' (first
    | with_reducible assumption
    | with_reducible apply MemOk.ite
    | (extract_lets +onlyGivenNames u; refine (fun (hu : MemOk u) => ?_) ?_; clear_value u; rotate_left; unfold u; clear u)
    | with_reducible apply State.settle_mem
    | with_reducible apply State.audResume_mem
    | with_reducible apply State.setPwr_mem
    | with_reducible apply State.endDoze_mem
    | with_reducible apply State.camResume_mem
    | with_reducible apply State.lateEvents_mem
    | with_reducible apply State.pwrSync_mem
    | with_reducible apply State.setFlds_mem
    | with_reducible apply State.decideNext_mem)

theorem execWakeAlarm_mem (at_ : Nat) {s : State} (hM : MemOk s) : MemNext (execWakeAlarm at_ s) := by
  unfold execWakeAlarm
  refine MemNext.command ?_
  repeat' (first
    | with_reducible assumption
    | with_reducible apply MemNext.next
    | with_reducible apply MemNext.ite
    | with_reducible apply State.setPwr_mem
    | with_reducible apply State.wake_mem
    | with_reducible apply State.reach_mem)

theorem State.setBoot_mem {s : State} (b : BootGroup) (hM : MemOk s) : MemOk (State.setBoot s b) := by
  unfold State.setBoot
  repeat' (first
    | with_reducible assumption
    | ((conv => pattern (State.mk ..)); with_reducible apply MemOk.same; case e => (dsimp only [State.mems]; first | done | with_reducible rfl)))

theorem State.setStage_mem {s : State} (x : BootStage) (hM : MemOk s) : MemOk (State.setStage s x) := by
  unfold State.setStage
  repeat' (first
    | with_reducible assumption
    | with_reducible apply State.setBoot_mem)

theorem State.setHold_mem {s : State} (k : Nat) (on : Bool) (hM : MemOk s) : MemOk (State.setHold s k on) := by
  unfold State.setHold
  repeat' (first
    | with_reducible assumption
    | with_reducible apply State.setBoot_mem)

theorem State.keepFlds_mem {s t : State} (l : List (Fld × Nat)) (hM : MemOk s) : MemOk (s.keepFlds t l) :=
  MemOk.foldl hM (fun _ _ h => State.setFld_mem _ _ _ h)

theorem State.keepObjs_mem {s t : State} (l : List (Obj × Nat)) (hM : MemOk s) : MemOk (s.keepObjs t l) :=
  MemOk.foldl hM (fun _ _ h => State.setObjVal_mem _ _ _ h)

theorem State.updAfter_mem {s t : State} (hM : MemOk s) : MemOk (s.updAfter t) := MemOk.ite (State.setObj_mem _ _ _ hM) hM

theorem State.powerOnState_mem {s : State} (cause : Nat) (hM : MemOk s) : MemOk (s.powerOnState cause) := by
  unfold State.powerOnState
  refine State.setObj_mem _ _ _ (State.setFld_mem _ _ _ (State.updAfter_mem (State.keepObjs_mem _ (State.keepFlds_mem _ ?_))))
  exact ⟨rfl, rfl, rfl, rfl, rfl, rfl⟩

theorem State.powerOn_mem {s : State} (cause : Nat) (hM : MemOk s) : MemOk (State.powerOn s cause) := by
  unfold State.powerOn
  repeat' (first
    | with_reducible assumption
    | (extract_lets +onlyGivenNames u; refine (fun (hu : MemOk u) => ?_) ?_; clear_value u; rotate_left; unfold u; clear u)
    | with_reducible apply State.setObj_mem
    | with_reducible apply State.powerOnState_mem
    | split)

theorem State.diesOff_mem {s : State} (hM : MemOk s) : MemOk s.diesOff := by
  unfold State.diesOff
  refine State.updAfter_mem (State.keepObjs_mem _ (State.keepFlds_mem _ ?_))
  exact ⟨rfl, hM.home, rfl, rfl, rfl, rfl⟩

theorem State.warmStop_mem {s : State} (hM : MemOk s) : MemOk s.warmStop := by
  unfold State.warmStop
  extract_lets s1 g s2 s3 s4 lost s5
  have h1 : MemOk s1 := MemOk.foldl hM (fun s c h => State.updCore_mem _ _ h)
  clear_value s1
  have h2 : MemOk s2 := ⟨h1.bin, h1.home, h1.frame, h1.plane, h1.spill, h1.window⟩
  clear_value s2
  have h3 : MemOk s3 := MemOk.foldl h2 (fun s j h => State.withdraw_mem _ _ _ h)
  clear_value s3
  have h4 : MemOk s4 := MemOk.foldl h3 (fun s c h => State.finishJob_mem _ h)
  clear_value s4
  have h5 : MemOk s5 := State.bumpObj_mem _ _ _ h4
  clear_value s5
  exact ⟨h5.bin, h5.home, h5.frame, rfl, rfl, h5.window⟩

theorem State.warmLedger_mem {s : State} (hM : MemOk s) : MemOk (State.warmLedger s) := by
  unfold State.warmLedger
  repeat' (first
    | with_reducible assumption
    | intro _
    | with_reducible apply MemOk.ite
    | with_reducible apply MemOk.foldl
    | with_reducible apply State.setRec_mem)

theorem State.restart_mem {s : State} (hM : MemOk s) : MemOk (State.restart s) := by
  unfold State.restart
  repeat' (first
    | with_reducible assumption
    | with_reducible apply MemOk.ite
    | with_reducible apply State.diesOff_mem
    | with_reducible apply State.setStage_mem
    | with_reducible apply State.startPower_mem)

theorem State.warmReset_mem {s : State} (cause : Nat) (hM : MemOk s) : MemOk (State.warmReset s cause) := by
  unfold State.warmReset
  repeat' (first
    | with_reducible assumption
    | intro _
    | with_reducible apply MemOk.ite
    | (extract_lets +onlyGivenNames u; refine (fun (hu : MemOk u) => ?_) ?_; clear_value u; rotate_left; unfold u; clear u)
    | with_reducible apply MemOk.foldl
    | with_reducible apply State.logIt_mem
    | with_reducible apply State.warmLedger_mem
    | with_reducible apply State.zeroSlots_mem
    | with_reducible apply State.warmStop_mem
    | with_reducible apply State.bumpObj_mem
    | with_reducible apply State.resetGates_mem
    | with_reducible apply State.setStage_mem
    | with_reducible apply State.endSessions_mem
    | with_reducible apply State.setObj_mem
    | with_reducible apply State.watchReset_mem
    | with_reducible apply State.setBoot_mem
    | with_reducible apply State.restart_mem
    | with_reducible apply State.setFld_mem
    | (split; all_goals first | (with_reducible have hx := congrArg Prod.snd ‹(_ : _ × State) = (_, _)›; dsimp only at hx; subst hx) | (with_reducible have hx := congrArg (fun x => x.2.2) ‹(_ : _ × _ × State) = (_, _, _)›; dsimp only at hx; subst hx) | skip)
    | dsimp only
    | ((conv => pattern (State.mk ..)); with_reducible apply MemOk.same; case e => (dsimp only [State.mems]; first | done | with_reducible rfl)))

theorem State.sourcesBack_mem {s : State} (hM : MemOk s) : MemOk (State.sourcesBack s) := by
  unfold State.sourcesBack
  repeat' (first
    | with_reducible assumption
    | intro _
    | with_reducible apply MemOk.ite
    | (extract_lets +onlyGivenNames u; refine (fun (hu : MemOk u) => ?_) ?_; clear_value u; rotate_left; unfold u; clear u)
    | with_reducible apply MemOk.foldl
    | with_reducible apply State.warmReset_mem
    | split
    | dsimp only
    | ((conv => pattern (State.mk ..)); with_reducible apply MemOk.same; case e => (dsimp only [State.mems]; first | done | with_reducible rfl)))

theorem execWarmResetZeroingComplete_mem (bad : List Nat) (at_ : Nat) {s : State} (hM : MemOk s) : MemNext (execWarmResetZeroingComplete bad at_ s) := by
  unfold execWarmResetZeroingComplete
  refine MemNext.command ?_
  repeat' (first
    | with_reducible assumption
    | with_reducible apply MemNext.next
    | with_reducible apply MemNext.ite
    | with_reducible apply State.reach_mem
    | with_reducible apply State.zeroModel_mem
    | with_reducible apply State.restart_mem
    | with_reducible apply State.dropGranary_mem
    | dsimp only
    | ((conv => pattern (State.mk ..)); with_reducible apply MemOk.same; case e => (dsimp only [State.mems]; first | done | with_reducible rfl)))

theorem execNporLow_mem (at_ : Nat) {s : State} (hM : MemOk s) : MemNext (execNporLow at_ s) := by
  unfold execNporLow
  refine MemNext.command ?_
  repeat' (first
    | with_reducible assumption
    | with_reducible apply MemNext.next
    | with_reducible apply State.reach_mem
    | with_reducible apply State.powerOn_mem
    | with_reducible apply State.setHold_mem)

theorem execNporRelease_mem (masterSel : Bool) (id buttons at_ : Nat) {s : State} (hM : MemOk s) : MemNext (execNporRelease masterSel id buttons at_ s) := by
  unfold execNporRelease
  refine MemNext.command ?_
  repeat' (first
    | with_reducible assumption
    | with_reducible apply MemNext.next
    | with_reducible apply MemNext.ite
    | with_reducible apply State.startPower_mem
    | with_reducible apply State.setObj_mem
    | with_reducible apply State.setStage_mem
    | with_reducible apply State.setFlds_mem
    | with_reducible apply State.setBoot_mem
    | with_reducible apply State.setHold_mem
    | with_reducible apply State.setDoor_mem
    | with_reducible apply State.reach_mem)

theorem execRecoveryDecision_mem (at_ : Nat) {s : State} (hM : MemOk s) : MemNext (execRecoveryDecision at_ s) := by
  unfold execRecoveryDecision
  refine MemNext.command ?_
  repeat' (first
    | with_reducible assumption
    | with_reducible apply MemNext.next
    | with_reducible apply MemNext.ite
    | with_reducible apply State.buttonsUp_mem
    | with_reducible apply State.reach_mem
    | with_reducible apply State.setBoot_mem
    | with_reducible apply State.setFld_mem)

theorem execNrstLow_mem (at_ : Nat) {s : State} (hM : MemOk s) : MemNext (execNrstLow at_ s) := by
  unfold execNrstLow
  refine MemNext.command ?_
  repeat' (first
    | with_reducible assumption
    | with_reducible apply MemNext.next
    | with_reducible apply State.reach_mem
    | with_reducible apply State.warmReset_mem
    | with_reducible apply State.setHold_mem)

theorem State.releaseHold_mem {s : State} (k : Nat) (hM : MemOk s) : MemOk (State.releaseHold s k) := by
  unfold State.releaseHold
  repeat' (first
    | with_reducible assumption
    | with_reducible apply MemOk.ite
    | with_reducible apply State.setHold_mem
    | with_reducible apply State.startPower_mem)

theorem execNrstRelease_mem (at_ : Nat) {s : State} (hM : MemOk s) : MemNext (execNrstRelease at_ s) := by
  unfold execNrstRelease
  refine MemNext.command ?_
  repeat' (first
    | with_reducible assumption
    | with_reducible apply MemNext.next
    | with_reducible apply State.reach_mem
    | with_reducible apply State.releaseHold_mem)

theorem execExtestSelect_mem (at_ : Nat) {s : State} (hM : MemOk s) : MemNext (execExtestSelect at_ s) := by
  unfold execExtestSelect
  refine MemNext.command ?_
  repeat' (first
    | with_reducible assumption
    | with_reducible apply MemNext.next
    | with_reducible apply State.reach_mem
    | with_reducible apply State.warmReset_mem
    | with_reducible apply State.setHold_mem)

theorem execExtestDeselect_mem (at_ : Nat) {s : State} (hM : MemOk s) : MemNext (execExtestDeselect at_ s) := by
  unfold execExtestDeselect
  refine MemNext.command ?_
  repeat' (first
    | with_reducible assumption
    | with_reducible apply MemNext.next
    | with_reducible apply State.reach_mem
    | with_reducible apply State.releaseHold_mem)

theorem execRstCtrlWarm_mem (secure : Bool) (at_ : Nat) {s : State} (hM : MemOk s) : MemNext (execRstCtrlWarm secure at_ s) := by
  unfold execRstCtrlWarm
  refine MemNext.command ?_
  repeat' (first
    | with_reducible assumption
    | with_reducible apply MemNext.next
    | with_reducible apply MemOk.ite
    | with_reducible apply State.reach_mem
    | with_reducible apply State.warmReset_mem
    | with_reducible apply State.worldError_mem)

theorem execRstCtrlPartition_mem (part : Nat) (secure : Bool) {s : State} (hM : MemOk s) : MemNext (execRstCtrlPartition part secure s) := by
  unfold execRstCtrlPartition
  refine MemNext.command ?_
  repeat' (first
    | with_reducible assumption
    | with_reducible apply MemNext.next
    | with_reducible apply MemNext.ite
    | with_reducible apply State.settle_mem
    | with_reducible apply State.pwrSync_mem
    | with_reducible apply State.worldError_mem
    | with_reducible apply State.beginReset_mem)

theorem execWatchRegulatorOverload_mem (at_ : Nat) {s : State} (hM : MemOk s) : MemNext (execWatchRegulatorOverload at_ s) := by
  unfold execWatchRegulatorOverload
  refine MemNext.command ?_
  repeat' (first
    | with_reducible assumption
    | with_reducible apply MemNext.next
    | with_reducible apply MemNext.ite
    | with_reducible apply MemOk.ite
    | with_reducible apply State.startPower_mem
    | with_reducible apply State.setBoot_mem
    | with_reducible apply State.reach_mem
    | with_reducible apply State.powerOn_mem)

theorem execVddAonInRemoved_mem (at_ : Nat) {s : State} (hM : MemOk s) : MemNext (execVddAonInRemoved at_ s) := by
  unfold execVddAonInRemoved
  refine MemNext.command ?_
  repeat' (first
    | with_reducible assumption
    | with_reducible apply MemNext.next
    | with_reducible apply State.setBoot_mem
    | with_reducible apply State.reach_mem
    | with_reducible apply State.powerOn_mem)

theorem execDeviceRootFormed_mem (ok : Bool) (at_ : Nat) {s : State} (hM : MemOk s) : MemNext (execDeviceRootFormed ok at_ s) := by
  unfold execDeviceRootFormed
  refine MemNext.command ?_
  repeat' (first
    | with_reducible assumption
    | with_reducible apply MemNext.next
    | with_reducible apply MemNext.ite
    | with_reducible apply MemOk.ite
    | with_reducible apply State.logIt_mem
    | with_reducible apply State.setStage_mem
    | with_reducible apply State.setObj_mem
    | with_reducible apply State.setFlds_mem
    | with_reducible apply State.reach_mem)

theorem State.loadSaved_mem {s : State} (hM : MemOk s) : MemOk (State.loadSaved s) := by
  unfold State.loadSaved
  repeat' (first
    | with_reducible assumption
    | intro _
    | with_reducible apply MemOk.foldl
    | with_reducible apply State.setObjVal_mem
    | split)

theorem State.reeveWrites_mem {s : State} (hM : MemOk s) : MemOk (State.reeveWrites s) := by
  unfold State.reeveWrites
  repeat' (first
    | with_reducible assumption
    | intro _
    | with_reducible apply MemOk.ite
    | (extract_lets +onlyGivenNames u; refine (fun (hu : MemOk u) => ?_) ?_; clear_value u; rotate_left; unfold u; clear u)
    | with_reducible apply MemOk.foldl
    | with_reducible apply State.setObj_mem
    | with_reducible apply State.setTarget_mem
    | with_reducible apply State.setFlds_mem
    | with_reducible apply State.setFld_mem
    | (split; all_goals first | (with_reducible have hx := congrArg Prod.snd ‹(_ : _ × State) = (_, _)›; dsimp only at hx; subst hx) | (with_reducible have hx := congrArg (fun x => x.2.2) ‹(_ : _ × _ × State) = (_, _, _)›; dsimp only at hx; subst hx) | skip)
    | dsimp only
    | ((conv => pattern (State.mk ..)); with_reducible apply MemOk.same; case e => (dsimp only [State.mems]; first | done | with_reducible rfl)))

theorem State.buildCopy_mem {s : State} (rejected : List Nat) (hM : MemOk s) : MemOk (State.buildCopy s rejected) := by
  unfold State.buildCopy
  repeat' (first
    | with_reducible assumption
    | intro _
    | with_reducible apply MemOk.ite
    | with_reducible apply MemOk.foldl
    | with_reducible apply State.loadBin_mem
    | dsimp only
    | ((conv => pattern (State.mk ..)); with_reducible apply MemOk.same; case e => (dsimp only [State.mems]; first | done | with_reducible rfl)))

theorem execBootRomVerifyComplete_mem (slot version seq : Nat) (rejected : List Nat) (auth reeveMeas confMeas : List Byte) (peers : List Nat) (at_ : Nat) {s : State} (hM : MemOk s) : MemNext (execBootRomVerifyComplete slot version seq rejected auth reeveMeas confMeas peers at_ s) := by
  unfold execBootRomVerifyComplete
  refine MemNext.command ?_
  repeat' (first
    | with_reducible assumption
    | intro _
    | with_reducible apply MemNext.next
    | with_reducible apply MemNext.ite
    | with_reducible apply MemOk.ite
    | (extract_lets +onlyGivenNames u; refine (fun (hu : MemOk u) => ?_) ?_; clear_value u; rotate_left; unfold u; clear u)
    | with_reducible apply MemOk.foldl
    | with_reducible apply State.buildCopy_mem
    | with_reducible apply State.setStage_mem
    | with_reducible apply State.applyNet_mem
    | with_reducible apply State.setBoot_mem
    | with_reducible apply State.logIt_mem
    | with_reducible apply State.setSec_mem
    | with_reducible apply State.reach_mem
    | with_reducible apply State.reeveWrites_mem
    | with_reducible apply State.loadSaved_mem
    | with_reducible apply State.setPwr_mem
    | with_reducible apply State.setFlds_mem
    | with_reducible apply State.sourcesBack_mem
    | with_reducible apply State.setObj_mem
    | with_reducible apply State.pwrSync_mem
    | (split; all_goals first | (with_reducible have hx := congrArg Prod.snd ‹(_ : _ × State) = (_, _)›; dsimp only at hx; subst hx) | (with_reducible have hx := congrArg (fun x => x.2.2) ‹(_ : _ × _ × State) = (_, _, _)›; dsimp only at hx; subst hx) | skip)
    | dsimp only
    | ((conv => pattern (State.mk ..)); with_reducible apply MemOk.same; case e => (dsimp only [State.mems]; first | done | with_reducible rfl)))

theorem execWatchImageVerified_mem (ok : Bool) (modelId watchMeas modelMeas : List Byte) (watchVersion modelVersion at_ : Nat) {s : State} (hM : MemOk s) : MemNext (execWatchImageVerified ok modelId watchMeas modelMeas watchVersion modelVersion at_ s) := by
  unfold execWatchImageVerified
  refine MemNext.command ?_
  repeat' (first
    | with_reducible assumption
    | with_reducible apply MemNext.next
    | with_reducible apply MemNext.ite
    | with_reducible apply State.setObjVal_mem
    | with_reducible apply State.setPwr_mem
    | with_reducible apply State.setSec_mem
    | with_reducible apply State.reach_mem
    | with_reducible apply State.setWatch_mem
    | with_reducible apply State.watchReset_mem
    | with_reducible apply State.setFld_mem)

theorem State.bootRegion_mem {s : State} (l : List Nat) (hM : MemOk s) : MemOk (State.bootRegion s l) := by
  unfold State.bootRegion
  repeat' (first
    | with_reducible assumption
    | intro _
    | with_reducible apply MemOk.ite
    | (extract_lets +onlyGivenNames u; refine (fun (hu : MemOk u) => ?_) ?_; clear_value u; rotate_left; unfold u; clear u)
    | with_reducible apply MemOk.foldl
    | with_reducible apply State.applyRegion_mem
    | with_reducible apply State.setFlds_mem
    | with_reducible apply State.setFld_mem
    | (split; all_goals first | (with_reducible have hx := congrArg Prod.snd ‹(_ : _ × State) = (_, _)›; dsimp only at hx; subst hx) | (with_reducible have hx := congrArg (fun x => x.2.2) ‹(_ : _ × _ × State) = (_, _, _)›; dsimp only at hx; subst hx) | skip)
    | dsimp only
    | ((conv => pattern (State.mk ..)); with_reducible apply MemOk.same; case e => (dsimp only [State.mems]; first | done | with_reducible rfl)))

theorem execHostFirmwareVerified_mem (slot version wmap : Nat) (regions : List (List Nat)) (measurement : List Byte) (at_ : Nat) {s : State} (hM : MemOk s) : MemNext (execHostFirmwareVerified slot version wmap regions measurement at_ s) := by
  unfold execHostFirmwareVerified
  refine MemNext.command ?_
  repeat' (first
    | with_reducible assumption
    | intro _
    | with_reducible apply MemNext.next
    | with_reducible apply MemNext.ite
    | with_reducible apply MemOk.ite
    | with_reducible apply MemOk.foldl
    | with_reducible apply State.setStage_mem
    | with_reducible apply State.setBoot_mem
    | with_reducible apply State.setSec_mem
    | with_reducible apply State.lateEvents_mem
    | with_reducible apply State.reach_mem
    | with_reducible apply State.setRing_mem
    | with_reducible apply State.setFlds_mem
    | with_reducible apply State.bootRegion_mem
    | with_reducible apply State.setFld_mem
    | with_reducible apply State.setObj_mem)

theorem State.setClk_mem {s : State} (c : ClkGroup) (hM : MemOk s) : MemOk (State.setClk s c) := by
  unfold State.setClk
  repeat' (first
    | with_reducible assumption
    | ((conv => pattern (State.mk ..)); with_reducible apply MemOk.same; case e => (dsimp only [State.mems]; first | done | with_reducible rfl)))

theorem State.setLock_mem {s : State} (pll : Nat) (on : Bool) (hM : MemOk s) : MemOk (State.setLock s pll on) := by
  unfold State.setLock
  repeat' (first
    | with_reducible assumption
    | with_reducible apply State.setFld_mem)

theorem State.askSwitches_mem {s : State} (cores : List Nat) (src : Nat) (hM : MemOk s) : MemOk (State.askSwitches s cores src) := by
  unfold State.askSwitches
  repeat' (first
    | with_reducible assumption
    | with_reducible apply State.setClk_mem
    | with_reducible apply State.setFld_mem)

theorem State.setVolt_mem {s : State} (mv : Nat) (hM : MemOk s) : MemOk (State.setVolt s mv) := by
  unfold State.setVolt
  repeat' (first
    | with_reducible assumption
    | intro _
    | with_reducible apply MemOk.ite
    | (extract_lets +onlyGivenNames u; refine (fun (hu : MemOk u) => ?_) ?_; clear_value u; rotate_left; unfold u; clear u)
    | with_reducible apply MemOk.foldl
    | with_reducible apply State.send_mem
    | with_reducible apply State.setObj_mem
    | split
    | dsimp only
    | ((conv => pattern (State.mk ..)); with_reducible apply MemOk.same; case e => (dsimp only [State.mems]; first | done | with_reducible rfl)))

theorem State.setChange_mem {s : State} (x : Option StepChange) (hM : MemOk s) : MemOk (State.setChange s x) := by
  unfold State.setChange
  repeat' (first
    | with_reducible assumption
    | dsimp only
    | ((conv => pattern (State.mk ..)); with_reducible apply MemOk.same; case e => (dsimp only [State.mems]; first | done | with_reducible rfl)))

theorem State.retune_mem {s : State} (pll : Nat) (next : StepChange) (hM : MemOk s) : MemOk (State.retune s pll next) := by
  unfold State.retune
  repeat' (first
    | with_reducible assumption
    | intro _
    | with_reducible apply MemOk.ite
    | (extract_lets +onlyGivenNames u; refine (fun (hu : MemOk u) => ?_) ?_; clear_value u; rotate_left; unfold u; clear u)
    | with_reducible apply MemOk.foldl
    | with_reducible apply State.setLock_mem
    | with_reducible apply State.setChange_mem
    | with_reducible apply State.setFld_mem
    | split
    | dsimp only
    | ((conv => pattern (State.mk ..)); with_reducible apply MemOk.same; case e => (dsimp only [State.mems]; first | done | with_reducible rfl)))

theorem State.stepNext_mem {s : State} (hM : MemOk s) : MemOk (State.stepNext s) := by
  unfold State.stepNext
  repeat' (first
    | with_reducible assumption
    | intro _
    | with_reducible apply MemOk.ite
    | (extract_lets +onlyGivenNames u; refine (fun (hu : MemOk u) => ?_) ?_; clear_value u; rotate_left; unfold u; clear u)
    | with_reducible apply MemOk.foldl
    | with_reducible apply State.askSwitches_mem
    | with_reducible apply State.retune_mem
    | with_reducible apply State.bumpObj_mem
    | with_reducible apply State.setObj_mem
    | with_reducible apply State.setChange_mem
    | with_reducible apply State.setVolt_mem
    | with_reducible apply State.setFld_mem
    | (split; all_goals first | (with_reducible have hx := congrArg Prod.snd ‹(_ : _ × State) = (_, _)›; dsimp only at hx; subst hx) | (with_reducible have hx := congrArg (fun x => x.2.2) ‹(_ : _ × _ × State) = (_, _, _)›; dsimp only at hx; subst hx) | skip)
    | dsimp only
    | ((conv => pattern (State.mk ..)); with_reducible apply MemOk.same; case e => (dsimp only [State.mems]; first | done | with_reducible rfl)))

theorem State.stepOn_mem {s : State} (hM : MemOk s) : MemOk (State.stepOn s) := by
  unfold State.stepOn
  repeat' (first
    | with_reducible assumption
    | with_reducible apply State.stepNext_mem)

theorem execClkTcselSwitch_mem (core src : Nat) (secure : Bool) {s : State} (hM : MemOk s) : MemNext (execClkTcselSwitch core src secure s) := by
  unfold execClkTcselSwitch
  refine MemNext.command ?_
  repeat' (first
    | with_reducible assumption
    | with_reducible apply MemNext.next
    | with_reducible apply MemNext.ite
    | with_reducible apply State.askSwitches_mem
    | with_reducible apply State.setFlds_mem
    | with_reducible apply State.worldError_mem
    | with_reducible apply State.setFld_mem)

theorem execTclkSwitchComplete_mem {s : State} (hM : MemOk s) : MemNext (execTclkSwitchComplete s) := by
  unfold execTclkSwitchComplete
  refine MemNext.command ?_
  repeat' (first
    | with_reducible assumption
    | with_reducible apply MemNext.next
    | with_reducible apply MemNext.ite
    | with_reducible apply State.stepOn_mem
    | with_reducible apply State.bumpObj_mem
    | with_reducible apply State.setFlds_mem
    | with_reducible apply State.setClk_mem
    | split)

theorem State.takeSpread_mem {s : State} (pll : Nat) (hM : MemOk s) : MemOk (State.takeSpread s pll) := by
  unfold State.takeSpread
  repeat' (first
    | with_reducible assumption
    | intro _
    | with_reducible apply MemOk.ite
    | (extract_lets +onlyGivenNames u; refine (fun (hu : MemOk u) => ?_) ?_; clear_value u; rotate_left; unfold u; clear u)
    | with_reducible apply MemOk.foldl
    | with_reducible apply State.setClk_mem
    | split
    | dsimp only
    | ((conv => pattern (State.mk ..)); with_reducible apply MemOk.same; case e => (dsimp only [State.mems]; first | done | with_reducible rfl)))

theorem execPllLock_mem (pll : Nat) {s : State} (hM : MemOk s) : MemNext (execPllLock pll s) := by
  unfold execPllLock
  refine MemNext.command ?_
  repeat' (first
    | with_reducible assumption
    | intro _
    | with_reducible apply MemNext.next
    | with_reducible apply MemNext.ite
    | with_reducible apply MemOk.ite
    | (extract_lets +onlyGivenNames u; refine (fun (hu : MemOk u) => ?_) ?_; clear_value u; rotate_left; unfold u; clear u)
    | with_reducible apply MemOk.foldl
    | with_reducible apply State.takeSpread_mem
    | with_reducible apply State.setLock_mem
    | with_reducible apply State.stepOn_mem
    | (split; all_goals first | (with_reducible have hx := congrArg Prod.snd ‹(_ : _ × State) = (_, _)›; dsimp only at hx; subst hx) | (with_reducible have hx := congrArg (fun x => x.2.2) ‹(_ : _ × _ × State) = (_, _, _)›; dsimp only at hx; subst hx) | skip)
    | dsimp only
    | ((conv => pattern (State.mk ..)); with_reducible apply MemOk.same; case e => (dsimp only [State.mems]; first | done | with_reducible rfl)))

theorem State.forceOutputs_mem {s : State} (hM : MemOk s) : MemOk (State.forceOutputs s) := by
  unfold State.forceOutputs
  repeat' (first
    | with_reducible assumption
    | with_reducible apply MemOk.ite
    | with_reducible apply State.setFld_mem)

theorem execClockSourceFailure_mem (source at_ : Nat) {s : State} (hM : MemOk s) : MemNext (execClockSourceFailure source at_ s) := by
  unfold execClockSourceFailure
  refine MemNext.command ?_
  repeat' (first
    | with_reducible assumption
    | with_reducible apply MemNext.next
    | with_reducible apply MemNext.ite
    | with_reducible apply MemOk.ite
    | with_reducible apply State.requestStart_mem
    | with_reducible apply State.logIt_mem
    | with_reducible apply State.bumpObj_mem
    | with_reducible apply State.forceOutputs_mem
    | with_reducible apply State.reach_mem
    | with_reducible apply State.setLock_mem
    | with_reducible apply State.setFlds_mem
    | with_reducible apply State.regFull_mem
    | with_reducible apply State.setFld_mem
    | with_reducible apply State.setClk_mem)

theorem execClockSourceReturn_mem (sources at_ : Nat) {s : State} (hM : MemOk s) : MemNext (execClockSourceReturn sources at_ s) := by
  unfold execClockSourceReturn
  refine MemNext.command ?_
  repeat' (first
    | with_reducible assumption
    | with_reducible apply MemNext.next
    | with_reducible apply MemNext.ite
    | with_reducible apply State.setClk_mem
    | with_reducible apply State.reach_mem
    | with_reducible apply State.sourcesBack_mem
    | with_reducible apply State.setFld_mem)

theorem execClkReturnTimeout_mem (at_ : Nat) {s : State} (hM : MemOk s) : MemNext (execClkReturnTimeout at_ s) := by
  unfold execClkReturnTimeout
  refine MemNext.command ?_
  repeat' (first
    | with_reducible assumption
    | with_reducible apply MemNext.next
    | with_reducible apply MemNext.ite
    | with_reducible apply State.setClk_mem
    | with_reducible apply State.reach_mem)

theorem execClkEnWrite_mem (value : Nat) (secure : Bool) {s : State} (hM : MemOk s) : MemNext (execClkEnWrite value secure s) := by
  unfold execClkEnWrite
  refine MemNext.command ?_
  repeat' (first
    | with_reducible assumption
    | intro _
    | with_reducible apply MemNext.next
    | with_reducible apply MemNext.ite
    | with_reducible apply MemOk.ite
    | (extract_lets +onlyGivenNames u; refine (fun (hu : MemOk u) => ?_) ?_; clear_value u; rotate_left; unfold u; clear u)
    | with_reducible apply MemOk.foldl
    | with_reducible apply State.setFld_mem
    | with_reducible apply State.pwrSync_mem
    | with_reducible apply State.worldError_mem
    | with_reducible apply State.refused_mem
    | (split; all_goals first | (with_reducible have hx := congrArg Prod.snd ‹(_ : _ × State) = (_, _)›; dsimp only at hx; subst hx) | (with_reducible have hx := congrArg (fun x => x.2.2) ‹(_ : _ × _ × State) = (_, _, _)›; dsimp only at hx; subst hx) | skip)
    | dsimp only
    | ((conv => pattern (State.mk ..)); with_reducible apply MemOk.same; case e => (dsimp only [State.mems]; first | done | with_reducible rfl)))

theorem execHardwareThrottle_mem (highest : Int) (at_ : Nat) {s : State} (hM : MemOk s) : MemNext (execHardwareThrottle highest at_ s) := by
  unfold execHardwareThrottle
  refine MemNext.command ?_
  repeat' (first
    | with_reducible assumption
    | with_reducible apply MemNext.next
    | with_reducible apply MemNext.ite
    | with_reducible apply State.reach_mem
    | with_reducible apply State.setClk_mem)

theorem execThermalTrip_mem (reading : Int) (since at_ : Nat) {s : State} (hM : MemOk s) : MemNext (execThermalTrip reading since at_ s) := by
  unfold execThermalTrip
  refine MemNext.command ?_
  have h0 := State.reach_mem at_ hM
  generalize s.reach at_ = s0 at *
  dsimp only
  split
  · exact MemNext.next h0
  · refine MemNext.next (State.setBoot_mem _ (State.setFld_mem _ _ _ (State.setPwr_mem _ ?_)))
    have h1 : MemOk ((List.range 49).foldl (fun (s : State) i => s.powerOff (49 - i)) s0.forceOutputs) :=
      MemOk.foldl (State.forceOutputs_mem h0) (fun s i h => State.powerOff_mem _ h)
    exact ⟨h1.bin, h1.home, h1.frame, rfl, rfl, h1.window⟩

theorem State.setReeve_mem {s : State} (x : ReeveGroup) (hM : MemOk s) : MemOk (State.setReeve s x) := by
  unfold State.setReeve
  repeat' (first
    | with_reducible assumption
    | ((conv => pattern (State.mk ..)); with_reducible apply MemOk.same; case e => (dsimp only [State.mems]; first | done | with_reducible rfl)))

theorem State.readSensor_mem {s : State} (temps : List (Option Int)) (i : Nat) (hM : MemOk s) : MemOk (State.readSensor s temps i) := by
  unfold State.readSensor
  repeat' (first
    | with_reducible assumption
    | with_reducible apply MemOk.ite
    | with_reducible apply State.setReeve_mem
    | with_reducible apply State.logIt_mem
    | with_reducible apply State.setObj_mem)

theorem State.readSensors_mem {s : State} (temps : List (Option Int)) (hM : MemOk s) : MemOk (State.readSensors s temps) := by
  unfold State.readSensors
  repeat' (first
    | with_reducible assumption
    | intro _
    | with_reducible apply MemOk.foldl
    | with_reducible apply State.readSensor_mem
    | with_reducible apply State.setFld_mem
    | split
    | dsimp only)

theorem State.readRegulator_mem {s : State} (x : Sensed) (i : Nat) (hM : MemOk s) : MemOk (State.readRegulator s x i) := by
  unfold State.readRegulator
  repeat' (first
    | with_reducible assumption
    | with_reducible apply MemOk.ite
    | with_reducible apply State.setReeve_mem
    | with_reducible apply State.logIt_mem
    | split)

theorem State.readPmbus_mem {s : State} (x : Sensed) (hM : MemOk s) : MemOk (State.readPmbus s x) := by
  unfold State.readPmbus
  repeat' (first
    | with_reducible assumption
    | intro _
    | (extract_lets +onlyGivenNames u; refine (fun (hu : MemOk u) => ?_) ?_; clear_value u; rotate_left; unfold u; clear u)
    | with_reducible apply MemOk.foldl
    | with_reducible apply State.setReeve_mem
    | with_reducible apply State.readRegulator_mem
    | with_reducible apply State.setObj_mem)

theorem State.thermalLoop_mem {s : State} (temps : List (Option Int)) (hold : Bool) (hM : MemOk s) : MemOk (State.thermalLoop s temps hold) := by
  unfold State.thermalLoop
  repeat' (first
    | with_reducible assumption
    | with_reducible apply State.setReeve_mem
    | split)

theorem State.powerLoop_mem {s : State} (hold : Bool) (hM : MemOk s) : MemOk (State.powerLoop s hold) := by
  unfold State.powerLoop
  repeat' (first
    | with_reducible assumption
    | with_reducible apply State.setReeve_mem)

theorem State.beginChange_mem {s : State} (hold : Bool) (hM : MemOk s) : MemOk (State.beginChange s hold) := by
  unfold State.beginChange
  repeat' (first
    | with_reducible assumption
    | with_reducible apply MemOk.ite
    | with_reducible apply State.askSwitches_mem
    | with_reducible apply State.setChange_mem
    | with_reducible apply State.setVolt_mem
    | with_reducible apply State.stepOn_mem)

theorem State.confirmVoltage_mem {s : State} (vout : Nat) (hM : MemOk s) : MemOk (State.confirmVoltage s vout) := by
  unfold State.confirmVoltage
  repeat' (first
    | with_reducible assumption
    | with_reducible apply MemOk.ite
    | with_reducible apply State.askSwitches_mem
    | with_reducible apply State.setChange_mem
    | with_reducible apply State.stepOn_mem
    | split)

theorem State.voltageLoop_mem {s : State} (margins : List Nat) (hM : MemOk s) : MemOk (State.voltageLoop s margins) := by
  unfold State.voltageLoop
  repeat' (first
    | with_reducible assumption
    | intro _
    | with_reducible apply MemOk.ite
    | (extract_lets +onlyGivenNames u; refine (fun (hu : MemOk u) => ?_) ?_; clear_value u; rotate_left; unfold u; clear u)
    | with_reducible apply MemOk.foldl
    | with_reducible apply State.setReeve_mem
    | with_reducible apply State.logIt_mem
    | with_reducible apply State.setVolt_mem
    | with_reducible apply step_mem
    | (split; all_goals first | (with_reducible have hx := congrArg Prod.snd ‹(_ : _ × State) = (_, _)›; dsimp only at hx; subst hx) | (with_reducible have hx := congrArg (fun x => x.2.2) ‹(_ : _ × _ × State) = (_, _, _)›; dsimp only at hx; subst hx) | skip)
    | dsimp only
    | ((conv => pattern (State.mk ..)); with_reducible apply MemOk.same; case e => (dsimp only [State.mems]; first | done | with_reducible rfl)))

theorem State.migrationLoop_mem {s : State} (hM : MemOk s) : MemOk s.migrationLoop := by
  unfold State.migrationLoop
  extract_lets e m m'
  have k := State.setObj_mem .migPromote 0 m' hM
  exact ⟨k.bin, hM.home, hM.frame, k.plane, k.spill, k.window⟩

theorem State.idleLoop_mem {s : State} (hM : MemOk s) : MemOk (State.idleLoop s) := by
  unfold State.idleLoop
  repeat' (first
    | with_reducible assumption
    | with_reducible apply MemOk.ite
    | with_reducible apply State.setObj_mem
    | with_reducible apply State.setPwr_mem)

theorem State.watchScale_mem {s : State} (p : Nat) (hM : MemOk s) : MemOk (State.watchScale s p) := by
  unfold State.watchScale
  repeat' (first
    | with_reducible assumption
    | with_reducible apply MemOk.ite
    | with_reducible apply State.setReeve_mem
    | with_reducible apply State.logIt_mem
    | with_reducible apply State.setObj_mem
    | with_reducible apply State.event_mem)

theorem State.watchSelftest_mem {s : State} (c : Nat) (hM : MemOk s) : MemOk (State.watchSelftest s c) := by
  unfold State.watchSelftest
  repeat' (first
    | with_reducible assumption
    | with_reducible apply MemOk.ite
    | with_reducible apply State.setReeve_mem
    | with_reducible apply State.logIt_mem
    | with_reducible apply State.bumpObj_mem
    | with_reducible apply State.event_mem)

theorem State.watchQuarter_mem {s : State} (x : Sensed) (q : Nat) (hM : MemOk s) : MemOk (State.watchQuarter s x q) := by
  unfold State.watchQuarter
  repeat' (first
    | with_reducible assumption
    | with_reducible apply MemOk.ite
    | with_reducible apply State.logIt_mem
    | with_reducible apply State.startRetire_mem)

theorem State.fullPeriod_mem {s : State} (x : Sensed) (hM : MemOk s) : MemOk (State.fullPeriod s x) := by
  unfold State.fullPeriod
  repeat' (first
    | with_reducible assumption
    | intro _
    | (extract_lets +onlyGivenNames u; refine (fun (hu : MemOk u) => ?_) ?_; clear_value u; rotate_left; unfold u; clear u)
    | with_reducible apply MemOk.foldl
    | with_reducible apply State.powerLoop_mem
    | with_reducible apply State.beginChange_mem
    | with_reducible apply State.confirmVoltage_mem
    | with_reducible apply State.thermalLoop_mem
    | with_reducible apply State.readPmbus_mem
    | with_reducible apply State.watchSelftest_mem
    | with_reducible apply State.migrationLoop_mem
    | with_reducible apply State.watchScale_mem
    | with_reducible apply State.voltageLoop_mem
    | with_reducible apply State.readSensors_mem
    | with_reducible apply State.watchQuarter_mem
    | with_reducible apply State.idleLoop_mem)

theorem State.updatePeriod_mem {s : State} (x : Sensed) (hM : MemOk s) : MemOk (State.updatePeriod s x) := by
  unfold State.updatePeriod
  repeat' (first
    | with_reducible assumption
    | (extract_lets +onlyGivenNames u; refine (fun (hu : MemOk u) => ?_) ?_; clear_value u; rotate_left; unfold u; clear u)
    | with_reducible apply State.powerLoop_mem
    | with_reducible apply State.beginChange_mem
    | with_reducible apply State.thermalLoop_mem
    | with_reducible apply State.readPmbus_mem
    | with_reducible apply State.readSensors_mem)

theorem execGovernorPeriod_mem (temps : List (Option Int)) (pouts : List (Option Nat)) (status : List Nat) (vout : Nat) (margins ces ues : List Nat) (overrun : Bool) (at_ : Nat) {s : State} (hM : MemOk s) : MemNext (execGovernorPeriod temps pouts status vout margins ces ues overrun at_ s) := by
  unfold execGovernorPeriod
  refine MemNext.command ?_
  repeat' (first
    | with_reducible assumption
    | with_reducible apply MemNext.next
    | with_reducible apply MemNext.ite
    | with_reducible apply MemOk.ite
    | with_reducible apply State.setReeve_mem
    | with_reducible apply State.bumpObj_mem
    | with_reducible apply State.idleLoop_mem
    | with_reducible apply State.updatePeriod_mem
    | with_reducible apply State.reach_mem
    | with_reducible apply State.readSensors_mem
    | with_reducible apply State.setFld_mem
    | with_reducible apply State.fullPeriod_mem)

theorem execPmbusAlert_mem {s : State} (hM : MemOk s) : MemNext (execPmbusAlert s) := by
  unfold execPmbusAlert
  refine MemNext.command ?_
  repeat' (first
    | with_reducible assumption
    | with_reducible apply MemNext.next
    | with_reducible apply State.setReeve_mem)

theorem execLogFlush_mem (at_ : Nat) {s : State} (hM : MemOk s) : MemNext (execLogFlush at_ s) := by
  unfold execLogFlush
  refine MemNext.command ?_
  repeat' (first
    | with_reducible assumption
    | with_reducible apply MemNext.next
    | with_reducible apply MemOk.ite
    | with_reducible apply State.reach_mem
    | with_reducible apply State.flushLog_mem)

theorem State.setUpd_mem {s : State} (x : UpdGroup) (hM : MemOk s) : MemOk (State.setUpd s x) := by
  unfold State.setUpd
  repeat' (first
    | with_reducible assumption
    | ((conv => pattern (State.mk ..)); with_reducible apply MemOk.same; case e => (dsimp only [State.mems]; first | done | with_reducible rfl)))

theorem State.endUpdate_mem {s : State} (result : Nat) (hM : MemOk s) : MemOk (State.endUpdate s result) := by
  unfold State.endUpdate
  repeat' (first
    | with_reducible assumption
    | (extract_lets +onlyGivenNames u; refine (fun (hu : MemOk u) => ?_) ?_; clear_value u; rotate_left; unfold u; clear u)
    | with_reducible apply State.logIt_mem
    | with_reducible apply State.lateEntry_mem
    | with_reducible apply State.setUpd_mem
    | with_reducible apply State.setObj_mem
    | with_reducible apply State.setFld_mem)

theorem State.updBegin_mem {s : State} (hM : MemOk s) : MemOk (State.updBegin s) := by
  unfold State.updBegin
  repeat' (first
    | with_reducible assumption
    | with_reducible apply MemOk.ite
    | with_reducible apply State.setUpd_mem
    | with_reducible apply State.setObj_mem
    | with_reducible apply State.endUpdate_mem
    | with_reducible apply State.setFld_mem)

theorem State.updData_mem {s : State} (bytes : List Byte) (hM : MemOk s) : MemOk (State.updData s bytes) := by
  unfold State.updData
  repeat' (first
    | with_reducible assumption
    | with_reducible apply MemOk.ite
    | with_reducible apply State.setUpd_mem
    | with_reducible apply State.setObj_mem
    | with_reducible apply State.endUpdate_mem)

theorem State.updFinish_mem {s : State} (hM : MemOk s) : MemOk (State.updFinish s) := by
  unfold State.updFinish
  repeat' (first
    | with_reducible assumption
    | with_reducible apply MemOk.ite
    | with_reducible apply State.setFld_mem)

theorem State.updCancel_mem {s : State} (hM : MemOk s) : MemOk (State.updCancel s) := by
  unfold State.updCancel
  repeat' (first
    | with_reducible assumption
    | with_reducible apply MemOk.ite
    | with_reducible apply State.endUpdate_mem)

theorem State.updCommand_mem {s : State} (n : Nat) (hM : MemOk s) : MemOk (State.updCommand s n) := by
  unfold State.updCommand
  repeat' (first
    | with_reducible assumption
    | with_reducible apply State.updCancel_mem
    | with_reducible apply State.warmReset_mem
    | with_reducible apply State.updFinish_mem
    | with_reducible apply State.updBegin_mem
    | split)

theorem State.updWrite_mem {s : State} (o : Obj) (secure : Bool) (f : State → State) (hM : MemOk s) (hf : ∀ t, MemOk t → MemOk (f t)) :
    MemOk (s.updWrite o secure f) := by
  unfold State.updWrite
  split
  · exact hf _ hM
  · exact State.objRefused_mem _ _ hM

theorem execUpdBegin_mem (secure : Bool) {s : State} (hM : MemOk s) : MemNext (execUpdBegin secure s) := by
  unfold execUpdBegin
  refine MemNext.command ?_
  repeat' (first
    | with_reducible assumption
    | intro _
    | with_reducible apply MemNext.next
    | with_reducible apply MemNext.ite
    | with_reducible apply MemOk.ite
    | (extract_lets +onlyGivenNames u; refine (fun (hu : MemOk u) => ?_) ?_; clear_value u; rotate_left; unfold u; clear u)
    | with_reducible apply MemOk.foldl
    | with_reducible apply State.updBegin_mem
    | with_reducible apply State.updWrite_mem
    | (split; all_goals first | (with_reducible have hx := congrArg Prod.snd ‹(_ : _ × State) = (_, _)›; dsimp only at hx; subst hx) | (with_reducible have hx := congrArg (fun x => x.2.2) ‹(_ : _ × _ × State) = (_, _, _)›; dsimp only at hx; subst hx) | skip)
    | dsimp only
    | ((conv => pattern (State.mk ..)); with_reducible apply MemOk.same; case e => (dsimp only [State.mems]; first | done | with_reducible rfl)))

theorem execUpdData_mem (bytes : List Byte) (secure : Bool) {s : State} (hM : MemOk s) : MemNext (execUpdData bytes secure s) := by
  unfold execUpdData
  refine MemNext.command ?_
  repeat' (first
    | with_reducible assumption
    | intro _
    | with_reducible apply MemNext.next
    | with_reducible apply MemNext.ite
    | with_reducible apply MemOk.ite
    | (extract_lets +onlyGivenNames u; refine (fun (hu : MemOk u) => ?_) ?_; clear_value u; rotate_left; unfold u; clear u)
    | with_reducible apply MemOk.foldl
    | with_reducible apply State.updWrite_mem
    | with_reducible apply State.updData_mem
    | (split; all_goals first | (with_reducible have hx := congrArg Prod.snd ‹(_ : _ × State) = (_, _)›; dsimp only at hx; subst hx) | (with_reducible have hx := congrArg (fun x => x.2.2) ‹(_ : _ × _ × State) = (_, _, _)›; dsimp only at hx; subst hx) | skip)
    | dsimp only
    | ((conv => pattern (State.mk ..)); with_reducible apply MemOk.same; case e => (dsimp only [State.mems]; first | done | with_reducible rfl)))

theorem execUpdFinish_mem (secure : Bool) {s : State} (hM : MemOk s) : MemNext (execUpdFinish secure s) := by
  unfold execUpdFinish
  refine MemNext.command ?_
  repeat' (first
    | with_reducible assumption
    | intro _
    | with_reducible apply MemNext.next
    | with_reducible apply MemNext.ite
    | with_reducible apply MemOk.ite
    | (extract_lets +onlyGivenNames u; refine (fun (hu : MemOk u) => ?_) ?_; clear_value u; rotate_left; unfold u; clear u)
    | with_reducible apply MemOk.foldl
    | with_reducible apply State.updWrite_mem
    | with_reducible apply State.updFinish_mem
    | (split; all_goals first | (with_reducible have hx := congrArg Prod.snd ‹(_ : _ × State) = (_, _)›; dsimp only at hx; subst hx) | (with_reducible have hx := congrArg (fun x => x.2.2) ‹(_ : _ × _ × State) = (_, _, _)›; dsimp only at hx; subst hx) | skip)
    | dsimp only
    | ((conv => pattern (State.mk ..)); with_reducible apply MemOk.same; case e => (dsimp only [State.mems]; first | done | with_reducible rfl)))

theorem execUpdCancel_mem (secure : Bool) {s : State} (hM : MemOk s) : MemNext (execUpdCancel secure s) := by
  unfold execUpdCancel
  refine MemNext.command ?_
  repeat' (first
    | with_reducible assumption
    | intro _
    | with_reducible apply MemNext.next
    | with_reducible apply MemNext.ite
    | with_reducible apply MemOk.ite
    | (extract_lets +onlyGivenNames u; refine (fun (hu : MemOk u) => ?_) ?_; clear_value u; rotate_left; unfold u; clear u)
    | with_reducible apply MemOk.foldl
    | with_reducible apply State.updCancel_mem
    | with_reducible apply State.updWrite_mem
    | (split; all_goals first | (with_reducible have hx := congrArg Prod.snd ‹(_ : _ × State) = (_, _)›; dsimp only at hx; subst hx) | (with_reducible have hx := congrArg (fun x => x.2.2) ‹(_ : _ × _ × State) = (_, _, _)›; dsimp only at hx; subst hx) | skip)
    | dsimp only
    | ((conv => pattern (State.mk ..)); with_reducible apply MemOk.same; case e => (dsimp only [State.mems]; first | done | with_reducible rfl)))

theorem execUpdActivate_mem (secure : Bool) (at_ : Nat) {s : State} (hM : MemOk s) : MemNext (execUpdActivate secure at_ s) := by
  unfold execUpdActivate
  refine MemNext.command ?_
  repeat' (first
    | with_reducible assumption
    | intro _
    | with_reducible apply MemNext.next
    | with_reducible apply MemNext.ite
    | with_reducible apply MemOk.ite
    | (extract_lets +onlyGivenNames u; refine (fun (hu : MemOk u) => ?_) ?_; clear_value u; rotate_left; unfold u; clear u)
    | with_reducible apply MemOk.foldl
    | with_reducible apply State.reach_mem
    | with_reducible apply State.updWrite_mem
    | with_reducible apply State.updCommand_mem
    | (split; all_goals first | (with_reducible have hx := congrArg Prod.snd ‹(_ : _ × State) = (_, _)›; dsimp only at hx; subst hx) | (with_reducible have hx := congrArg (fun x => x.2.2) ‹(_ : _ × _ × State) = (_, _, _)›; dsimp only at hx; subst hx) | skip)
    | dsimp only
    | ((conv => pattern (State.mk ..)); with_reducible apply MemOk.same; case e => (dsimp only [State.mems]; first | done | with_reducible rfl)))

theorem execUpdVerifyComplete_mem (result : Nat) {s : State} (hM : MemOk s) : MemNext (execUpdVerifyComplete result s) := by
  unfold execUpdVerifyComplete
  refine MemNext.command ?_
  repeat' (first
    | with_reducible assumption
    | with_reducible apply MemNext.next
    | with_reducible apply MemNext.ite
    | with_reducible apply State.endUpdate_mem
    | with_reducible apply State.setFld_mem)

theorem execUpdWriteComplete_mem (ok : Bool) {s : State} (hM : MemOk s) : MemNext (execUpdWriteComplete ok s) := by
  unfold execUpdWriteComplete
  refine MemNext.command ?_
  repeat' (first
    | with_reducible assumption
    | with_reducible apply MemNext.next
    | with_reducible apply MemNext.ite
    | with_reducible apply MemOk.ite
    | with_reducible apply State.endUpdate_mem
    | with_reducible apply State.setFld_mem)

theorem execUpdCommitComplete_mem (ok : Bool) {s : State} (hM : MemOk s) : MemNext (execUpdCommitComplete ok s) := by
  unfold execUpdCommitComplete
  refine MemNext.command ?_
  repeat' (first
    | with_reducible assumption
    | with_reducible apply MemNext.next
    | with_reducible apply MemNext.ite
    | with_reducible apply State.setObj_mem
    | with_reducible apply State.endUpdate_mem)

theorem State.refused_mem {s : State} (c : Code) (index sub : Nat) (hM : MemOk s) : MemOk (State.refused s c index sub) := by
  unfold State.refused
  repeat' (first
    | with_reducible assumption
    | with_reducible apply MemOk.ite
    | with_reducible apply State.objRefused_mem
    | with_reducible apply State.bumpObj_mem)

theorem State.showSave_mem {s : State} (idle : Nat) (hM : MemOk s) : MemOk (State.showSave s idle) := by
  unfold State.showSave
  repeat' (first
    | with_reducible assumption
    | with_reducible apply State.setObj_mem)

theorem State.queueSave_mem {s : State} (j : SaveJob) (hM : MemOk s) : MemOk (State.queueSave s j) := by
  unfold State.queueSave
  repeat' (first
    | with_reducible assumption
    | with_reducible apply State.setCrier_mem
    | with_reducible apply State.showSave_mem
    | dsimp only
    | with_reducible apply MemOk.window)

theorem State.saveObjects_mem {s : State} (secure : Bool) (hM : MemOk s) : MemOk (State.saveObjects s secure) := by
  unfold State.saveObjects
  repeat' (first
    | with_reducible assumption
    | with_reducible apply State.queueSave_mem)

theorem State.putObj_mem {s : State} (o : Obj) (sub : Nat) (v : Val) (hM : MemOk s) : MemOk (State.putObj s o sub v) := by
  unfold State.putObj
  repeat' (first
    | with_reducible assumption
    | (extract_lets +onlyGivenNames u; refine (fun (hu : MemOk u) => ?_) ?_; clear_value u; rotate_left; unfold u; clear u)
    | with_reducible apply State.setObjVal_mem
    | with_reducible apply State.setPwr_mem
    | with_reducible apply State.setObj_mem
    | with_reducible apply State.setTarget_mem
    | split)

theorem State.restoreObjects_mem {s : State} (secure : Bool) (hM : MemOk s) : MemOk (State.restoreObjects s secure) := by
  unfold State.restoreObjects
  repeat' (first
    | with_reducible assumption
    | intro _
    | with_reducible apply MemOk.foldl
    | with_reducible apply State.queueSave_mem
    | with_reducible apply State.putObj_mem)

theorem State.saveDone_mem {s : State} (ok : Bool) (hM : MemOk s) : MemOk (State.saveDone s ok) := by
  unfold State.saveDone
  repeat' (first
    | with_reducible assumption
    | with_reducible apply State.showSave_mem
    | with_reducible apply State.setCrier_mem
    | split
    | dsimp only
    | with_reducible apply MemOk.window)

theorem execAlmanacSave_mem (secure : Bool) {s : State} (hM : MemOk s) : MemNext (execAlmanacSave secure s) := by
  unfold execAlmanacSave
  refine MemNext.command ?_
  repeat' (first
    | with_reducible assumption
    | with_reducible apply MemNext.next
    | with_reducible apply State.saveObjects_mem)

theorem execAlmanacRestore_mem (secure : Bool) {s : State} (hM : MemOk s) : MemNext (execAlmanacRestore secure s) := by
  unfold execAlmanacRestore
  refine MemNext.command ?_
  repeat' (first
    | with_reducible assumption
    | with_reducible apply MemNext.next
    | with_reducible apply State.restoreObjects_mem)

theorem execAlmanacSaveComplete_mem (ok : Bool) {s : State} (hM : MemOk s) : MemNext (execAlmanacSaveComplete ok s) := by
  unfold execAlmanacSaveComplete
  refine MemNext.command ?_
  repeat' (first
    | with_reducible assumption
    | with_reducible apply MemNext.next
    | with_reducible apply State.saveDone_mem)

theorem State.writeEffect_mem {s : State} (o : Obj) (sub : Nat) (v : Val) (secure : Bool) (hM : MemOk s) : MemOk (State.writeEffect s o sub v secure) := by
  unfold State.writeEffect
  repeat' (first
    | with_reducible assumption
    | with_reducible apply MemOk.ite
    | (extract_lets +onlyGivenNames u; refine (fun (hu : MemOk u) => ?_) ?_; clear_value u; rotate_left; unfold u; clear u)
    | with_reducible apply State.attestNonce_mem
    | with_reducible apply State.updCommand_mem
    | with_reducible apply State.putObj_mem
    | with_reducible apply State.apply_mem
    | with_reducible apply State.saveObjects_mem
    | with_reducible apply State.updData_mem
    | with_reducible apply State.restoreObjects_mem
    | with_reducible apply State.bumpVersion_mem
    | split)

theorem State.writeObj_mem {s : State} (index sub : Nat) (type : Option Nat) (b : List Byte) (block secure : Bool) (hM : MemOk s) : MemOk (State.writeObj s index sub type b block secure).2 := by
  unfold State.writeObj
  repeat' (first
    | with_reducible assumption
    | with_reducible apply State.writeEffect_mem
    | with_reducible apply State.refused_mem
    | split)

theorem State.writeBlock_mem {s : State} (st : Option Staging) (index sub offset total : Nat) (data : List Byte) (last secure : Bool) (hM : MemOk s) : MemOk (State.writeBlock s st index sub offset total data last secure).2.2 := by
  unfold State.writeBlock
  repeat' (first
    | with_reducible assumption
    | with_reducible apply State.writeObj_mem
    | with_reducible apply State.refused_mem
    | split
    | dsimp only)

theorem State.pullRecords_mem {s : State} (r : Nat) (verify : Bool) (obs : List Obs) (n q : Nat) (hM : MemOk s) :
    MemOk (s.pullRecords r verify obs n q).2 := by
  induction n generalizing s q with
  | zero => exact hM
  | succ n ih =>
    unfold State.pullRecords
    extract_lets x
    have k := State.urRead_mem (s := s) (unitReq 0x17 (x.secure || r == 0)) (x.store * 4096 + q % 4096 * 64) 64 obs hM
    generalize s.urRead (unitReq 0x17 (x.secure || r == 0)) (x.store * 4096 + q % 4096 * 64) 64 obs = u at *
    obtain ⟨e, u⟩ := u
    cases e with
    | error e => exact State.logIt_mem _ _ _ _ _ _ k
    | ok b =>
      dsimp only
      split
      · exact State.logIt_mem _ _ _ _ _ _ k
      · have k2 := ih (q + 1) k
        generalize u.pullRecords r verify obs n (q + 1) = v at *
        obtain ⟨e, v⟩ := v
        cases e <;> exact k2

theorem State.pull_mem {s : State} (r first count : Nat) (verify : Bool) (obs : List Obs) (hM : MemOk s) : MemOk (State.pull s r first count verify obs).2 := by
  unfold State.pull
  repeat' (first
    | with_reducible assumption
    | with_reducible apply State.pullRecords_mem
    | (split; all_goals first | (with_reducible have hx := congrArg Prod.snd ‹(_ : _ × State) = (_, _)›; dsimp only at hx; subst hx) | skip)
    | dsimp only
    | ((conv => pattern (State.mk ..)); with_reducible apply MemOk.same; case e => (dsimp only [State.mems]; first | done | with_reducible rfl)))

theorem State.ack_mem {s : State} (r a : Nat) (hM : MemOk s) : MemOk (State.ack s r a).2 := by
  unfold State.ack
  repeat' (first
    | with_reducible assumption
    | with_reducible apply State.setRing_mem
    | split
    | dsimp only)

theorem execResultPublish_mem (core : Option Nat) (handle subject evidence cls flags code : Nat) (payload : List Byte) (at_ : Nat) {s : State} (hM : MemOk s) : MemNext (execResultPublish core handle subject evidence cls flags code payload at_ s) := by
  unfold execResultPublish
  refine MemNext.command ?_
  repeat' (first
    | with_reducible assumption
    | with_reducible apply MemNext.next
    | with_reducible apply MemNext.ite
    | (extract_lets +onlyGivenNames u; refine (fun (hu : MemOk u) => ?_) ?_; clear_value u; rotate_left; unfold u; clear u)
    | with_reducible apply State.publishTo_mem
    | with_reducible apply State.updCore_mem
    | with_reducible apply State.reach_mem
    | with_reducible apply State.publishDue_mem
    | split
    | dsimp only)

theorem State.sendFrame_mem {s : State} (peer : Peer) (b : List Byte) (hM : MemOk s) : MemOk (State.sendFrame s peer b) := by
  unfold State.sendFrame
  repeat' (first
    | with_reducible assumption
    | with_reducible apply MemOk.ite
    | with_reducible apply State.send_mem
    | with_reducible apply State.sendMgmt_mem)

theorem State.sendOpen_mem {s : State} (peer : Peer) (op flags session seq : Nat) (payload : List Byte) (hM : MemOk s) : MemOk (State.sendOpen s peer op flags session seq payload) := by
  unfold State.sendOpen
  repeat' (first
    | with_reducible assumption
    | with_reducible apply State.sendFrame_mem)

theorem State.sendOn_mem {s : State} (n op flags seq : Nat) (payload : List Byte) (hM : MemOk s) : MemOk (State.sendOn s n op flags seq payload) := by
  unfold State.sendOn
  repeat' (first
    | with_reducible assumption
    | with_reducible apply MemOk.ite
    | with_reducible apply State.setKeySlot_mem
    | with_reducible apply State.sendOpen_mem
    | with_reducible apply State.endSession_mem
    | with_reducible apply State.sendFrame_mem
    | split)

theorem State.opRead_mem {s : State} (p : List Byte) (secure : Bool) (hM : MemOk s) : MemOk (State.opRead s p secure).2.2 := by
  unfold State.opRead
  repeat' (first
    | with_reducible assumption
    | with_reducible apply State.refused_mem
    | split)

theorem State.opWrite_mem {s : State} (p : List Byte) (secure : Bool) (hM : MemOk s) : MemOk (State.opWrite s p secure).2.2 := by
  unfold State.opWrite
  repeat' (first
    | with_reducible assumption
    | with_reducible apply State.writeObj_mem
    | split)

theorem State.opReadBlock_mem {s : State} (p : List Byte) (secure : Bool) (hM : MemOk s) : MemOk (State.opReadBlock s p secure).2.2 := by
  unfold State.opReadBlock
  repeat' (first
    | with_reducible assumption
    | with_reducible apply State.refused_mem
    | split)

theorem State.opWriteBlock_mem {s : State} (n : Nat) (x : Session) (p : List Byte) (last : Bool) (hM : MemOk s) : MemOk (State.opWriteBlock s n x p last).2.2 := by
  unfold State.opWriteBlock
  repeat' (first
    | with_reducible assumption
    | with_reducible apply State.writeBlock_mem
    | with_reducible apply State.setSession_mem
    | split
    | dsimp only)

theorem State.opSubscribe_mem {s : State} (n : Nat) (x : Session) (p : List Byte) (hM : MemOk s) : MemOk (State.opSubscribe s n x p).2.2 := by
  unfold State.opSubscribe
  repeat' (first
    | with_reducible assumption
    | intro _
    | with_reducible apply MemOk.ite
    | (extract_lets +onlyGivenNames u; refine (fun (hu : MemOk u) => ?_) ?_; clear_value u; rotate_left; unfold u; clear u)
    | with_reducible apply MemOk.foldl
    | with_reducible apply State.answer_mem
    | with_reducible apply State.setSession_mem
    | with_reducible apply State.refused_mem
    | (split; all_goals first | (with_reducible have hx := congrArg Prod.snd ‹(_ : _ × State) = (_, _)›; dsimp only at hx; subst hx) | (with_reducible have hx := congrArg (fun x => x.2.2) ‹(_ : _ × _ × State) = (_, _, _)›; dsimp only at hx; subst hx) | skip)
    | dsimp only
    | ((conv => pattern (State.mk ..)); with_reducible apply MemOk.same; case e => (dsimp only [State.mems]; first | done | with_reducible rfl)))

theorem State.opPull_mem {s : State} (p : List Byte) (obs : List Obs) (secure : Bool) (hM : MemOk s) : MemOk (State.opPull s p obs secure).2.2 := by
  unfold State.opPull
  repeat' (first
    | with_reducible assumption
    | with_reducible apply State.pull_mem
    | with_reducible apply State.refused_mem
    | split
    | dsimp only)

theorem State.opAck_mem {s : State} (p : List Byte) (secure : Bool) (hM : MemOk s) : MemOk (State.opAck s p secure).2.2 := by
  unfold State.opAck
  repeat' (first
    | with_reducible assumption
    | with_reducible apply State.ack_mem
    | with_reducible apply State.refused_mem
    | split)

theorem State.opAbort_mem {s : State} (p : List Byte) (secure : Bool) (hM : MemOk s) : MemOk (State.opAbort s p secure).2.2 := by
  unfold State.opAbort
  repeat' (first
    | with_reducible assumption
    | with_reducible apply State.abortJob_mem
    | split)

theorem State.runCrierOp_mem {s : State} (n : Nat) (x : Session) (op : Nat) (p : List Byte) (last : Bool) (obs : List Obs) (hM : MemOk s) : MemOk (State.runCrierOp s n x op p last obs).2.2 := by
  unfold State.runCrierOp
  repeat' (first
    | with_reducible assumption
    | with_reducible apply State.opAck_mem
    | with_reducible apply State.opRead_mem
    | with_reducible apply State.opReadBlock_mem
    | with_reducible apply State.opPull_mem
    | with_reducible apply State.opAbort_mem
    | with_reducible apply State.opWriteBlock_mem
    | with_reducible apply State.opWrite_mem
    | with_reducible apply State.opSubscribe_mem
    | split)

theorem State.recordSession_mem {s : State} (x : Session) (hM : MemOk s) : MemOk (State.recordSession s x) := by
  unfold State.recordSession
  repeat' (first
    | with_reducible assumption
    | with_reducible apply State.setRec_mem)

theorem State.serve_mem {s : State} (n seq op : Nat) (p : List Byte) (last : Bool) (obs : List Obs) (hM : MemOk s) :
    MemOk (s.serve n seq op p last obs) := by
  unfold State.serve
  cases s.session n with
  | none => exact hM
  | some x =>
    dsimp only
    have k := State.runCrierOp_mem (s := s) n x op p last obs hM
    generalize s.runCrierOp n x op p last obs = r at *
    obtain ⟨a, b, u⟩ := r
    dsimp only at *
    have k2 : MemOk ((match u.session n with
      | none => u
      | some y => let y := y.remember seq op (natLe 1 a.num ++ b); (u.setSession n (some y)).recordSession y).sendOn n op respFlags seq
        (natLe 1 a.num ++ b)) := by
      refine State.sendOn_mem _ _ _ _ _ ?_
      cases u.session n with
      | none => exact k
      | some y => exact State.recordSession_mem _ (State.setSession_mem _ _ k)
    split
    · exact State.endSession_mem _ k2
    · exact k2

theorem State.identify_mem {s : State} (peer : Peer) (seq : Nat) (hM : MemOk s) : MemOk (State.identify s peer seq) := by
  unfold State.identify
  repeat' (first
    | with_reducible assumption
    | with_reducible apply State.fresh_mem
    | with_reducible apply State.setCrier_mem
    | with_reducible apply State.sendOpen_mem
    | dsimp only
    | with_reducible apply MemOk.window)

theorem State.openAt_mem {s : State} (x : Session) (slot : Nat) (hM : MemOk s) : MemOk (s.openAt x slot).2 :=
  State.countSessions_mem (State.setSession_mem _ _ (State.setRec_mem _ _ hM))

theorem State.newSession_mem {s : State} (x : Session) (hM : MemOk s) : ∀ r, s.newSession x = some r → MemOk r.2 := by
  intro r h
  unfold State.newSession at h
  generalize s.freeRecord 0 = o at h
  cases o with
  | none => cases h
  | some slot => injection h with h; subst h; exact State.openAt_mem _ _ hM

theorem State.openSecure_mem {s : State} (peer : Peer) (p : List Byte) (timeout : Nat) (hM : MemOk s) :
    MemOk (s.openSecure peer p timeout).2.2.2 := by
  unfold State.openSecure
  generalize s.openAuth peer p = oa
  generalize s.freeKeySlot = fk
  cases oa with
  | none => exact State.logIt_mem _ _ _ _ _ _ hM
  | some x =>
    cases fk with
    | none => exact hM
    | some slot =>
      dsimp only
      have k := State.fresh_mem (State.setCrier_mem (s := s) { s.crier with nonces := s.crier.nonces.filter (fun y => decide (y ≠ x)) } hM hM.window)
      generalize (s.setCrier { s.crier with nonces := s.crier.nonces.filter (fun y => decide (y ≠ x)) }).fresh = f at *
      split
      · exact k
      · rename_i n u h
        exact State.loadSlot_mem _ _ (State.newSession_mem _ k _ h)

theorem State.openSession_mem {s : State} (peer : Peer) (p : List Byte) (hM : MemOk s) : MemOk (s.openSession peer p).2.2.2 := by
  unfold State.openSession
  extract_lets mode timeout only
  repeat' split
  all_goals first
    | exact hM
    | exact State.openSecure_mem _ _ _ hM
    | skip
  rename_i n u h
  exact State.newSession_mem _ hM _ h

theorem State.serveOpen_mem {s : State} (peer : Peer) (seq : Nat) (p : List Byte) (hM : MemOk s) : MemOk (State.serveOpen s peer seq p) := by
  unfold State.serveOpen
  repeat' (first
    | with_reducible assumption
    | with_reducible apply State.openSession_mem
    | with_reducible apply State.sendOpen_mem)

theorem State.onSession_mem {s : State} (op : Nat) (f : CrierFrame) (obs : List Obs) (hM : MemOk s) : MemOk (State.onSession s op f obs) := by
  unfold State.onSession
  repeat' (first
    | with_reducible assumption
    | with_reducible apply MemOk.ite
    | (extract_lets +onlyGivenNames u; refine (fun (hu : MemOk u) => ?_) ?_; clear_value u; rotate_left; unfold u; clear u)
    | with_reducible apply State.recordSession_mem
    | with_reducible apply State.setSession_mem
    | with_reducible apply State.serve_mem
    | with_reducible apply State.logIt_mem
    | with_reducible apply State.bumpObj_mem
    | with_reducible apply State.setCrier_mem
    | with_reducible apply State.sendOn_mem
    | with_reducible apply State.wake_mem
    | with_reducible apply State.sendOpen_mem
    | split
    | dsimp only
    | with_reducible apply MemOk.window)

theorem State.frameIn_mem {s : State} (op : Nat) (f : CrierFrame) (obs : List Obs) (hM : MemOk s) : MemOk (State.frameIn s op f obs) := by
  unfold State.frameIn
  repeat' (first
    | with_reducible assumption
    | with_reducible apply MemOk.ite
    | with_reducible apply State.serveOpen_mem
    | with_reducible apply State.bumpObj_mem
    | with_reducible apply State.setCrier_mem
    | with_reducible apply State.onSession_mem
    | with_reducible apply State.wake_mem
    | with_reducible apply State.identify_mem
    | with_reducible apply State.sendOpen_mem
    | dsimp only
    | with_reducible apply MemOk.window)

theorem State.serveWaiting_mem {s : State} (hM : MemOk s) : MemOk (State.serveWaiting s) := by
  unfold State.serveWaiting
  repeat' (first
    | with_reducible assumption
    | intro _
    | with_reducible apply MemOk.ite
    | with_reducible apply MemOk.foldl
    | with_reducible apply State.serveOpen_mem
    | with_reducible apply State.identify_mem
    | with_reducible apply State.serve_mem
    | with_reducible apply State.setCrier_mem
    | dsimp only
    | with_reducible apply MemOk.window)

theorem State.setChData_mem {s : State} (ch : Nat) (b : List Byte) (hM : MemOk s) : MemOk (State.setChData s ch b) := by
  unfold State.setChData
  repeat' (first
    | with_reducible assumption
    | with_reducible apply State.setCrier_mem
    | with_reducible apply State.setFld_mem
    | dsimp only
    | with_reducible apply MemOk.window
    | with_reducible apply SMap.wf_putRun)

theorem State.setChStaging_mem {s : State} (ch : Nat) (x : Option Staging) (hM : MemOk s) : MemOk (State.setChStaging s ch x) := by
  unfold State.setChStaging
  repeat' (first
    | with_reducible assumption
    | with_reducible apply State.setCrier_mem
    | dsimp only
    | with_reducible apply MemOk.window)

theorem State.windowOp_mem {s : State} (ch op : Nat) (last : Bool) (obs : List Obs) (hM : MemOk s) : MemOk (State.windowOp s ch op last obs).2 := by
  unfold State.windowOp
  repeat' (first
    | with_reducible assumption
    | with_reducible apply MemOk.ite
    | with_reducible apply State.writeBlock_mem
    | with_reducible apply State.ack_mem
    | with_reducible apply State.pull_mem
    | with_reducible apply State.writeObj_mem
    | with_reducible apply State.refused_mem
    | with_reducible apply State.setChData_mem
    | with_reducible apply State.setFlds_mem
    | with_reducible apply State.abortJob_mem
    | with_reducible apply State.setFld_mem
    | with_reducible apply State.setChStaging_mem
    | split
    | dsimp only)

theorem State.windowGo_mem {s : State} (ch op : Nat) (last secure : Bool) (obs : List Obs) (hM : MemOk s) : MemOk (State.windowGo s ch op last secure obs) := by
  unfold State.windowGo
  repeat' (first
    | with_reducible assumption
    | with_reducible apply MemOk.ite
    | (extract_lets +onlyGivenNames u; refine (fun (hu : MemOk u) => ?_) ?_; clear_value u; rotate_left; unfold u; clear u)
    | with_reducible apply State.send_mem
    | with_reducible apply State.windowOp_mem
    | with_reducible apply State.setFlds_mem
    | with_reducible apply State.worldError_mem)

theorem State.via_mem {s : State} (op : Nat) (v : Via) (obs : List Obs) (hM : MemOk s) : MemOk (State.via s op v obs) := by
  unfold State.via
  repeat' (first
    | with_reducible assumption
    | with_reducible apply State.windowGo_mem
    | with_reducible apply State.frameIn_mem
    | split)

theorem execCrierIdentify_mem (frame : CrierFrame) (at_ : Nat) {s : State} (hM : MemOk s) : MemNext (execCrierIdentify frame at_ s) := by
  unfold execCrierIdentify
  refine MemNext.command ?_
  repeat' (first
    | with_reducible assumption
    | with_reducible apply MemNext.next
    | with_reducible apply State.reach_mem
    | with_reducible apply State.frameIn_mem)

theorem execCrierOpen_mem (frame : CrierFrame) (at_ : Nat) {s : State} (hM : MemOk s) : MemNext (execCrierOpen frame at_ s) := by
  unfold execCrierOpen
  refine MemNext.command ?_
  repeat' (first
    | with_reducible assumption
    | with_reducible apply MemNext.next
    | with_reducible apply State.reach_mem
    | with_reducible apply State.frameIn_mem)

theorem execCrierClose_mem (frame : CrierFrame) (at_ : Nat) {s : State} (hM : MemOk s) : MemNext (execCrierClose frame at_ s) := by
  unfold execCrierClose
  refine MemNext.command ?_
  repeat' (first
    | with_reducible assumption
    | with_reducible apply MemNext.next
    | with_reducible apply State.reach_mem
    | with_reducible apply State.frameIn_mem)

theorem execCrierSubscribe_mem (frame : CrierFrame) (at_ : Nat) {s : State} (hM : MemOk s) : MemNext (execCrierSubscribe frame at_ s) := by
  unfold execCrierSubscribe
  refine MemNext.command ?_
  repeat' (first
    | with_reducible assumption
    | with_reducible apply MemNext.next
    | with_reducible apply State.reach_mem
    | with_reducible apply State.frameIn_mem)

theorem execObjectRead_mem (via : Via) (at_ : Nat) {s : State} (hM : MemOk s) : MemNext (execObjectRead via at_ s) := by
  unfold execObjectRead
  refine MemNext.command ?_
  repeat' (first
    | with_reducible assumption
    | with_reducible apply MemNext.next
    | with_reducible apply State.reach_mem
    | with_reducible apply State.via_mem)

theorem execObjectWrite_mem (via : Via) (at_ : Nat) {s : State} (hM : MemOk s) : MemNext (execObjectWrite via at_ s) := by
  unfold execObjectWrite
  refine MemNext.command ?_
  repeat' (first
    | with_reducible assumption
    | with_reducible apply MemNext.next
    | with_reducible apply State.reach_mem
    | with_reducible apply State.via_mem)

theorem execReadBlock_mem (via : Via) (at_ : Nat) {s : State} (hM : MemOk s) : MemNext (execReadBlock via at_ s) := by
  unfold execReadBlock
  refine MemNext.command ?_
  repeat' (first
    | with_reducible assumption
    | with_reducible apply MemNext.next
    | with_reducible apply State.reach_mem
    | with_reducible apply State.via_mem)

theorem execWriteBlock_mem (via : Via) (at_ : Nat) {s : State} (hM : MemOk s) : MemNext (execWriteBlock via at_ s) := by
  unfold execWriteBlock
  refine MemNext.command ?_
  repeat' (first
    | with_reducible assumption
    | with_reducible apply MemNext.next
    | with_reducible apply State.reach_mem
    | with_reducible apply State.via_mem)

theorem execCrierPull_mem (via : Via) (obs : List Obs) (at_ : Nat) {s : State} (hM : MemOk s) : MemNext (execCrierPull via obs at_ s) := by
  unfold execCrierPull
  refine MemNext.command ?_
  repeat' (first
    | with_reducible assumption
    | with_reducible apply MemNext.next
    | with_reducible apply State.reach_mem
    | with_reducible apply State.via_mem)

theorem execCrierAck_mem (via : Via) (at_ : Nat) {s : State} (hM : MemOk s) : MemNext (execCrierAck via at_ s) := by
  unfold execCrierAck
  refine MemNext.command ?_
  repeat' (first
    | with_reducible assumption
    | with_reducible apply MemNext.next
    | with_reducible apply State.reach_mem
    | with_reducible apply State.via_mem)

theorem execUnknownOperation_mem (op : Nat) (via : Via) (at_ : Nat) {s : State} (hM : MemOk s) : MemNext (execUnknownOperation op via at_ s) := by
  unfold execUnknownOperation
  refine MemNext.command ?_
  repeat' (first
    | with_reducible assumption
    | with_reducible apply MemNext.next
    | with_reducible apply State.reach_mem
    | with_reducible apply State.via_mem)

theorem execRotaAbort_mem (via : Option Via) (ring index : Nat) (secure : Bool) (at_ : Nat) {s : State} (hM : MemOk s) : MemNext (execRotaAbort via ring index secure at_ s) := by
  unfold execRotaAbort
  refine MemNext.command ?_
  repeat' (first
    | with_reducible assumption
    | with_reducible apply MemNext.next
    | (extract_lets +onlyGivenNames u; refine (fun (hu : MemOk u) => ?_) ?_; clear_value u; rotate_left; unfold u; clear u)
    | with_reducible apply State.via_mem
    | with_reducible apply State.reach_mem
    | with_reducible apply State.setFlds_mem
    | with_reducible apply State.abortJob_mem
    | split
    | dsimp only)

theorem execCrierNotify_mem (session kind index sub at_ : Nat) {s : State} (hM : MemOk s) : MemNext (execCrierNotify session kind index sub at_ s) := by
  unfold execCrierNotify
  refine MemNext.command ?_
  repeat' (first
    | with_reducible assumption
    | with_reducible apply MemNext.next
    | with_reducible apply MemNext.ite
    | with_reducible apply State.sendOn_mem
    | with_reducible apply State.setSession_mem
    | with_reducible apply State.reach_mem
    | with_reducible apply State.setCrier_mem
    | split
    | dsimp only
    | with_reducible apply MemOk.window)

theorem execSessionTimeout_mem (session at_ : Nat) {s : State} (hM : MemOk s) : MemNext (execSessionTimeout session at_ s) := by
  unfold execSessionTimeout
  refine MemNext.command ?_
  repeat' (first
    | with_reducible assumption
    | with_reducible apply MemNext.next
    | with_reducible apply MemOk.ite
    | (extract_lets +onlyGivenNames u; refine (fun (hu : MemOk u) => ?_) ?_; clear_value u; rotate_left; unfold u; clear u)
    | with_reducible apply State.endSession_mem
    | with_reducible apply State.reach_mem
    | split)

theorem execArpRequest_mem (target senderIp senderMac : Nat) {s : State} (hM : MemOk s) : MemNext (execArpRequest target senderIp senderMac s) := by
  unfold execArpRequest
  refine MemNext.command ?_
  repeat' (first
    | with_reducible assumption
    | with_reducible apply MemNext.next
    | with_reducible apply MemOk.ite
    | with_reducible apply State.send_mem)

theorem execIcmpEcho_mem (target senderIp senderMac : Nat) (payload : List Byte) {s : State} (hM : MemOk s) : MemNext (execIcmpEcho target senderIp senderMac payload s) := by
  unfold execIcmpEcho
  refine MemNext.command ?_
  repeat' (first
    | with_reducible assumption
    | with_reducible apply MemNext.next
    | with_reducible apply MemOk.ite
    | with_reducible apply State.send_mem)

theorem execTc10RemoteWake_mem (at_ : Nat) {s : State} (hM : MemOk s) : MemNext (execTc10RemoteWake at_ s) := by
  unfold execTc10RemoteWake
  refine MemNext.command ?_
  repeat' (first
    | with_reducible assumption
    | with_reducible apply MemNext.next
    | with_reducible apply MemOk.ite
    | with_reducible apply State.reach_mem
    | with_reducible apply State.wake_mem)

theorem State.followTime_mem {s : State} (offset : Int) (hM : MemOk s) : MemOk (State.followTime s offset) := by
  unfold State.followTime
  repeat' (first
    | with_reducible assumption
    | with_reducible apply MemOk.ite
    | with_reducible apply State.setObj_mem
    | with_reducible apply State.setCrier_mem
    | dsimp only
    | ((conv => pattern (State.mk ..)); with_reducible apply MemOk.same; case e => (dsimp only [State.mems]; first | done | with_reducible rfl))
    | with_reducible apply MemOk.window)

theorem execGptpMessage_mem (kind : Nat) (offset : Int) (delay at_ : Nat) {s : State} (hM : MemOk s) : MemNext (execGptpMessage kind offset delay at_ s) := by
  unfold execGptpMessage
  refine MemNext.command ?_
  repeat' (first
    | with_reducible assumption
    | with_reducible apply MemNext.next
    | with_reducible apply MemNext.ite
    | with_reducible apply MemOk.ite
    | with_reducible apply State.send_mem
    | with_reducible apply State.followTime_mem
    | with_reducible apply State.reach_mem
    | with_reducible apply State.setCrier_mem
    | dsimp only
    | with_reducible apply MemOk.window)

theorem execResumeComplete_mem (at_ : Nat) {s : State} (hM : MemOk s) : MemNext (execResumeComplete at_ s) := by
  unfold execResumeComplete
  refine MemNext.command ?_
  repeat' (first
    | with_reducible assumption
    | with_reducible apply MemNext.next
    | with_reducible apply MemNext.ite
    | with_reducible apply State.serveWaiting_mem
    | with_reducible apply State.resumeDone_mem
    | with_reducible apply State.reach_mem)

theorem State.writeFld_mem {s : State} (f : Fld) (i k value : Nat) (hM : MemOk s) : MemOk (State.writeFld s f i k value) := by
  unfold State.writeFld
  repeat' (first
    | with_reducible assumption
    | intro _
    | with_reducible apply MemOk.ite
    | (extract_lets +onlyGivenNames u; refine (fun (hu : MemOk u) => ?_) ?_; clear_value u; rotate_left; unfold u; clear u)
    | with_reducible apply MemOk.foldl
    | with_reducible apply State.setFld_mem
    | with_reducible apply State.refused_mem
    | with_reducible apply State.setTarget_mem
    | (split; all_goals first | (with_reducible have hx := congrArg Prod.snd ‹(_ : _ × State) = (_, _)›; dsimp only at hx; subst hx) | (with_reducible have hx := congrArg (fun x => x.2.2) ‹(_ : _ × _ × State) = (_, _, _)›; dsimp only at hx; subst hx) | skip)
    | dsimp only
    | ((conv => pattern (State.mk ..)); with_reducible apply MemOk.same; case e => (dsimp only [State.mems]; first | done | with_reducible rfl)))

theorem State.suspectCleared_mem {s t : State} (k : Nat) (hM : MemOk t) : MemOk (s.suspectCleared t k) := by
  unfold State.suspectCleared
  split
  · have h := State.setFld_mem .rtGnetNopair k (b2n (t.activePair k).isNone) hM
    exact ⟨h.bin, h.home, h.frame, h.plane, h.spill, h.window⟩
  · exact hM

theorem State.afterWrite_mem {s t : State} (x : RegAt) (hM : MemOk t) : MemOk (s.afterWrite t x) := by
  unfold State.afterWrite
  have a (u : State) (h : MemOk u) : MemOk u.decideNext.settle.pwrSync := State.pwrSync_mem (State.settle_mem (State.decideNext_mem h))
  split
  · exact a _ hM
  · exact a _ hM
  · exact a _ hM
  · exact a _ (State.suspectCleared_mem _ hM)
  · exact State.pwrSync_mem hM
  · exact State.pwrSync_mem hM
  · extract_lets on u
    refine State.pwrSync_mem (MemOk.ite (MemOk.ite ?_ hM) ?_)
    · exact State.portTrain_mem _ hM
    · exact State.portDown_mem _ hM
  · exact hM

theorem State.writeReg_mem {s : State} (x : RegAt) (value : Nat) (secure : Bool) (hM : MemOk s) : MemOk (s.writeReg x value secure) := by
  unfold State.writeReg
  cases s.refusedFld x value true secure with
  | some f => exact State.worldError_mem _ _ hM
  | none =>
    dsimp only
    have k : MemOk ((Fld.all.filter (fun f => f.inWord x.reg x.word)).foldl (fun (t : State) f => t.writeFld f x.inst x.word value) s) :=
      MemOk.foldl hM (fun t f h => State.writeFld_mem _ _ _ _ h)
    generalize (Fld.all.filter (fun f => f.inWord x.reg x.word)).foldl (fun (t : State) f => t.writeFld f x.inst x.word value) s = u at *
    have a := State.afterWrite_mem (s := s) x k
    exact MemOk.ite (State.gatedError_mem hM) (MemOk.ite (State.setFld_mem _ _ _ hM) (MemOk.ite (State.setFld_mem _ _ _ a) a))

theorem State.writeWindow_mem {s : State} (ch i value : Nat) (secure : Bool) (hM : MemOk s) : MemOk (State.writeWindow s ch i value secure) := by
  unfold State.writeWindow
  repeat' (first
    | with_reducible assumption
    | with_reducible apply MemOk.ite
    | with_reducible apply State.worldError_mem
    | with_reducible apply State.setCrier_mem
    | dsimp only
    | with_reducible apply MemOk.window
    | with_reducible apply SMap.wf_putRun)

theorem execLogRegisterClear_mem (which inst : Nat) (secure : Bool) {s : State} (hM : MemOk s) : MemNext (execLogRegisterClear which inst secure s) := by
  unfold execLogRegisterClear
  refine MemNext.command ?_
  repeat' (first
    | with_reducible assumption
    | intro _
    | with_reducible apply MemNext.next
    | with_reducible apply MemNext.ite
    | with_reducible apply MemOk.foldl
    | with_reducible apply State.setFld_mem
    | with_reducible apply State.worldError_mem
    | split)

theorem State.readReg_mem {s : State} (addr : Nat) (x : RegAt) (secure : Bool) (hM : MemOk s) : MemOk (State.readReg s addr x secure) := by
  unfold State.readReg
  repeat' (first
    | with_reducible assumption
    | intro _
    | with_reducible apply MemOk.ite
    | (extract_lets +onlyGivenNames u; refine (fun (hu : MemOk u) => ?_) ?_; clear_value u; rotate_left; unfold u; clear u)
    | with_reducible apply MemOk.foldl
    | with_reducible apply State.send_mem
    | with_reducible apply State.worldError_mem
    | with_reducible apply State.gatedError_mem
    | split
    | dsimp only
    | ((conv => pattern (State.mk ..)); with_reducible apply MemOk.same; case e => (dsimp only [State.mems]; first | done | with_reducible rfl)))

theorem State.readWindow_mem {s : State} (addr ch i : Nat) (secure : Bool) (hM : MemOk s) : MemOk (State.readWindow s addr ch i secure) := by
  unfold State.readWindow
  repeat' (first
    | with_reducible assumption
    | intro _
    | with_reducible apply MemOk.ite
    | (extract_lets +onlyGivenNames u; refine (fun (hu : MemOk u) => ?_) ?_; clear_value u; rotate_left; unfold u; clear u)
    | with_reducible apply MemOk.foldl
    | with_reducible apply State.send_mem
    | with_reducible apply State.worldError_mem
    | split
    | dsimp only
    | ((conv => pattern (State.mk ..)); with_reducible apply MemOk.same; case e => (dsimp only [State.mems]; first | done | with_reducible rfl)))

theorem execDramRequest_mem (port off : Nat) (write : Bool) (deadline : Option Nat) (at_ : Nat) {s : State} (hM : MemOk s) : MemNext (execDramRequest port off write deadline at_ s) := by
  unfold execDramRequest
  refine MemNext.command ?_
  repeat' (first
    | with_reducible assumption
    | with_reducible apply MemNext.next
    | with_reducible apply MemNext.ite
    | with_reducible apply State.mcRequest_mem
    | with_reducible apply State.reach_mem
    | dsimp only
    | ((conv => pattern (State.mk ..)); with_reducible apply MemOk.same; case e => (dsimp only [State.mems]; first | done | with_reducible rfl)))

theorem State.mcErrlog_mem {s : State} (type : Nat) (r : McReq) (hM : MemOk s) : MemOk (State.mcErrlog s type r) := by
  unfold State.mcErrlog
  repeat' (first
    | with_reducible assumption
    | with_reducible apply MemOk.ite
    | with_reducible apply State.setFlds_mem)

theorem State.runUpdate_mem {s : State} (c : Nat) (hM : MemOk s) : MemOk (State.runUpdate s c) := by
  unfold State.runUpdate
  repeat' (first
    | with_reducible assumption
    | with_reducible apply MemOk.ite
    | dsimp only
    | ((conv => pattern (State.mk ..)); with_reducible apply MemOk.same; case e => (dsimp only [State.mems]; first | done | with_reducible rfl)))

theorem State.reportUe_mem {s : State} (r : McReq) (hM : MemOk s) : MemOk (State.reportUe s r) := by
  unfold State.reportUe
  repeat' (first
    | with_reducible assumption
    | intro _
    | with_reducible apply MemOk.ite
    | (extract_lets +onlyGivenNames u; refine (fun (hu : MemOk u) => ?_) ?_; clear_value u; rotate_left; unfold u; clear u)
    | with_reducible apply MemOk.foldl
    | with_reducible apply State.send_mem
    | split
    | dsimp only
    | ((conv => pattern (State.mk ..)); with_reducible apply MemOk.same; case e => (dsimp only [State.mems]; first | done | with_reducible rfl)))

theorem execDramRequestComplete_mem (channel : Nat) (ce ue : Bool) (at_ : Nat) {s : State} (hM : MemOk s) : MemNext (execDramRequestComplete channel ce ue at_ s) := by
  unfold execDramRequestComplete
  refine MemNext.command ?_
  repeat' (first
    | with_reducible assumption
    | intro _
    | with_reducible apply MemNext.next
    | with_reducible apply MemNext.ite
    | with_reducible apply MemOk.ite
    | (extract_lets +onlyGivenNames u; refine (fun (hu : MemOk u) => ?_) ?_; clear_value u; rotate_left; unfold u; clear u)
    | with_reducible apply MemOk.foldl
    | with_reducible apply State.reportUe_mem
    | with_reducible apply State.mcAdmit_mem
    | with_reducible apply State.mcSlot_mem
    | with_reducible apply State.activate_mem
    | with_reducible apply State.runUpdate_mem
    | with_reducible apply State.logIt_mem
    | with_reducible apply State.bumpObj_mem
    | with_reducible apply State.mcErrlog_mem
    | with_reducible apply State.reach_mem
    | with_reducible apply State.setMcQueue_mem
    | (split; all_goals first | (with_reducible have hx := congrArg Prod.snd ‹(_ : _ × State) = (_, _)›; dsimp only at hx; subst hx) | (with_reducible have hx := congrArg (fun x => x.2.2) ‹(_ : _ × _ × State) = (_, _, _)›; dsimp only at hx; subst hx) | skip)
    | dsimp only
    | ((conv => pattern (State.mk ..)); with_reducible apply MemOk.same; case e => (dsimp only [State.mems]; first | done | with_reducible rfl)))

theorem State.refreshBank_mem {s : State} (key : Nat) (owed : Int) (hM : MemOk s) : MemOk (State.refreshBank s key owed) := by
  unfold State.refreshBank
  repeat' (first
    | with_reducible assumption
    | intro _
    | with_reducible apply MemOk.ite
    | (extract_lets +onlyGivenNames u; refine (fun (hu : MemOk u) => ?_) ?_; clear_value u; rotate_left; unfold u; clear u)
    | with_reducible apply MemOk.foldl
    | split
    | dsimp only
    | ((conv => pattern (State.mk ..)); with_reducible apply MemOk.same; case e => (dsimp only [State.mems]; first | done | with_reducible rfl)))

theorem execPerBankRefresh_mem (channel rank bank : Nat) {s : State} (hM : MemOk s) : MemNext (execPerBankRefresh channel rank bank s) := by
  unfold execPerBankRefresh
  refine MemNext.command ?_
  repeat' (first
    | with_reducible assumption
    | intro _
    | with_reducible apply MemNext.next
    | with_reducible apply MemNext.ite
    | with_reducible apply MemOk.ite
    | (extract_lets +onlyGivenNames u; refine (fun (hu : MemOk u) => ?_) ?_; clear_value u; rotate_left; unfold u; clear u)
    | with_reducible apply MemOk.foldl
    | with_reducible apply State.refreshBank_mem
    | with_reducible apply State.mcSlot_mem
    | with_reducible apply State.fresh_mem
    | (split; all_goals first | (with_reducible have hx := congrArg Prod.snd ‹(_ : _ × State) = (_, _)›; dsimp only at hx; subst hx) | (with_reducible have hx := congrArg (fun x => x.2.2) ‹(_ : _ × _ × State) = (_, _, _)›; dsimp only at hx; subst hx) | skip)
    | dsimp only
    | ((conv => pattern (State.mk ..)); with_reducible apply MemOk.same; case e => (dsimp only [State.mems]; first | done | with_reducible rfl)))

theorem execMr4Read_mem (channel multiplier : Nat) (hot : Bool) {s : State} (hM : MemOk s) : MemNext (execMr4Read channel multiplier hot s) := by
  unfold execMr4Read
  refine MemNext.command ?_
  repeat' (first
    | with_reducible assumption
    | with_reducible apply MemNext.next
    | with_reducible apply MemOk.ite
    | with_reducible apply State.event_mem
    | dsimp only
    | ((conv => pattern (State.mk ..)); with_reducible apply MemOk.same; case e => (dsimp only [State.mems]; first | done | with_reducible rfl)))

theorem execActWindowClear_mem {s : State} (hM : MemOk s) : MemNext (execActWindowClear s) := by
  unfold execActWindowClear
  refine MemNext.command ?_
  repeat' (first
    | with_reducible assumption
    | with_reducible apply MemNext.next
    | dsimp only
    | ((conv => pattern (State.mk ..)); with_reducible apply MemOk.same; case e => (dsimp only [State.mems]; first | done | with_reducible rfl)))

theorem State.driftError_mem {s : State} (channel : Nat) (hM : MemOk s) : MemOk (State.driftError s channel) := by
  unfold State.driftError
  repeat' (first
    | with_reducible assumption
    | intro _
    | with_reducible apply MemOk.ite
    | (extract_lets +onlyGivenNames u; refine (fun (hu : MemOk u) => ?_) ?_; clear_value u; rotate_left; unfold u; clear u)
    | with_reducible apply MemOk.foldl
    | with_reducible apply State.logIt_mem
    | with_reducible apply State.setFlds_mem
    | split
    | dsimp only
    | ((conv => pattern (State.mk ..)); with_reducible apply MemOk.same; case e => (dsimp only [State.mems]; first | done | with_reducible rfl)))

theorem execPeriodicRetrain_mem (channel drift : Nat) (at_ : Nat) {s : State} (hM : MemOk s) : MemNext (execPeriodicRetrain channel drift at_ s) := by
  unfold execPeriodicRetrain
  refine MemNext.command ?_
  repeat' (first
    | with_reducible assumption
    | intro _
    | with_reducible apply MemNext.next
    | with_reducible apply MemNext.ite
    | with_reducible apply MemOk.ite
    | (extract_lets +onlyGivenNames u; refine (fun (hu : MemOk u) => ?_) ?_; clear_value u; rotate_left; unfold u; clear u)
    | with_reducible apply MemOk.foldl
    | with_reducible apply State.driftError_mem
    | with_reducible apply State.reach_mem
    | with_reducible apply State.runUpdate_mem
    | (split; all_goals first | (with_reducible have hx := congrArg Prod.snd ‹(_ : _ × State) = (_, _)›; dsimp only at hx; subst hx) | (with_reducible have hx := congrArg (fun x => x.2.2) ‹(_ : _ × _ × State) = (_, _, _)›; dsimp only at hx; subst hx) | skip)
    | dsimp only
    | ((conv => pattern (State.mk ..)); with_reducible apply MemOk.same; case e => (dsimp only [State.mems]; first | done | with_reducible rfl)))

theorem execForcedRetrainUpdate_mem (channel : Nat) (at_ : Nat) {s : State} (hM : MemOk s) : MemNext (execForcedRetrainUpdate channel at_ s) := by
  unfold execForcedRetrainUpdate
  refine MemNext.command ?_
  repeat' (first
    | with_reducible assumption
    | with_reducible apply MemNext.next
    | with_reducible apply MemNext.ite
    | with_reducible apply State.reach_mem
    | dsimp only
    | ((conv => pattern (State.mk ..)); with_reducible apply MemOk.same; case e => (dsimp only [State.mems]; first | done | with_reducible rfl)))

theorem execDramPowerDown_mem (at_ : Nat) {s : State} (hM : MemOk s) : MemNext (execDramPowerDown at_ s) := by
  unfold execDramPowerDown
  refine MemNext.command ?_
  repeat' (first
    | with_reducible assumption
    | with_reducible apply MemNext.next
    | with_reducible apply MemNext.ite
    | with_reducible apply State.reach_mem
    | dsimp only
    | ((conv => pattern (State.mk ..)); with_reducible apply MemOk.same; case e => (dsimp only [State.mems]; first | done | with_reducible rfl)))

theorem execMcRegionWrite_mem (n word value : Nat) (secure : Bool) {s : State} (hM : MemOk s) : MemNext (execMcRegionWrite n word value secure s) := by
  unfold execMcRegionWrite
  refine MemNext.command ?_
  repeat' (first
    | with_reducible assumption
    | with_reducible apply MemNext.next
    | with_reducible apply MemNext.ite
    | with_reducible apply MemOk.ite
    | with_reducible apply State.setFld_mem
    | with_reducible apply State.setFlds_mem
    | with_reducible apply State.worldError_mem)

theorem execGemmNSplit_mem (core : Nat) (cmd : TcCmd) (obs : List Obs) {s : State} (hM : MemOk s) : MemNext (execGemmNSplit core cmd obs s) := by
  unfold execGemmNSplit
  refine MemNext.command ?_
  repeat' (first
    | with_reducible assumption
    | with_reducible apply MemNext.next
    | with_reducible apply State.tractCommand_mem)

theorem execGemmKSplit_mem (core : Nat) (cmd : TcCmd) (obs : List Obs) {s : State} (hM : MemOk s) : MemNext (execGemmKSplit core cmd obs s) := by
  unfold execGemmKSplit
  refine MemNext.command ?_
  repeat' (first
    | with_reducible assumption
    | with_reducible apply MemNext.next
    | with_reducible apply State.tractCommand_mem)

theorem execGemmBTransposed_mem (core : Nat) (cmd : TcCmd) (obs : List Obs) {s : State} (hM : MemOk s) : MemNext (execGemmBTransposed core cmd obs s) := by
  unfold execGemmBTransposed
  refine MemNext.command ?_
  repeat' (first
    | with_reducible assumption
    | with_reducible apply MemNext.next
    | with_reducible apply State.tractCommand_mem)

theorem execConvDense_mem (core : Nat) (cmd : TcCmd) (obs : List Obs) {s : State} (hM : MemOk s) : MemNext (execConvDense core cmd obs s) := by
  unfold execConvDense
  refine MemNext.command ?_
  repeat' (first
    | with_reducible assumption
    | with_reducible apply MemNext.next
    | with_reducible apply State.tractCommand_mem)

theorem execConvDiagonal_mem (core : Nat) (cmd : TcCmd) (obs : List Obs) {s : State} (hM : MemOk s) : MemNext (execConvDiagonal core cmd obs s) := by
  unfold execConvDiagonal
  refine MemNext.command ?_
  repeat' (first
    | with_reducible assumption
    | with_reducible apply MemNext.next
    | with_reducible apply State.tractCommand_mem)

theorem execAttnForward_mem (core : Nat) (cmd : TcCmd) (ur obs : List Obs) {s : State} (hM : MemOk s) : MemNext (execAttnForward core cmd ur obs s) := by
  unfold execAttnForward
  refine MemNext.command ?_
  repeat' (first
    | with_reducible assumption
    | with_reducible apply MemNext.next
    | with_reducible apply State.tractCommand_mem)

theorem execAttnBackward_mem (core : Nat) (cmd : TcCmd) (ur obs : List Obs) {s : State} (hM : MemOk s) : MemNext (execAttnBackward core cmd ur obs s) := by
  unfold execAttnBackward
  refine MemNext.command ?_
  repeat' (first
    | with_reducible assumption
    | with_reducible apply MemNext.next
    | with_reducible apply State.tractCommand_mem)

theorem execScanDiagonal_mem (core : Nat) (cmd : TcCmd) (obs : List Obs) {s : State} (hM : MemOk s) : MemNext (execScanDiagonal core cmd obs s) := by
  unfold execScanDiagonal
  refine MemNext.command ?_
  repeat' (first
    | with_reducible assumption
    | with_reducible apply MemNext.next
    | with_reducible apply State.tractCommand_mem)

theorem execScanMatrixValued_mem (core : Nat) (cmd : TcCmd) (obs : List Obs) {s : State} (hM : MemOk s) : MemNext (execScanMatrixValued core cmd obs s) := by
  unfold execScanMatrixValued
  refine MemNext.command ?_
  repeat' (first
    | with_reducible assumption
    | with_reducible apply MemNext.next
    | with_reducible apply State.tractCommand_mem)

theorem execScanStep_mem (core : Nat) (cmd : TcCmd) (obs : List Obs) {s : State} (hM : MemOk s) : MemNext (execScanStep core cmd obs s) := by
  unfold execScanStep
  refine MemNext.command ?_
  repeat' (first
    | with_reducible assumption
    | with_reducible apply MemNext.next
    | with_reducible apply State.tractCommand_mem)

theorem execVecCopy_mem (core : Nat) (cmd : TcCmd) (obs : List Obs) {s : State} (hM : MemOk s) : MemNext (execVecCopy core cmd obs s) := by
  unfold execVecCopy
  refine MemNext.command ?_
  repeat' (first
    | with_reducible assumption
    | with_reducible apply MemNext.next
    | with_reducible apply State.tractCommand_mem)

theorem execVecAdd_mem (core : Nat) (cmd : TcCmd) (obs : List Obs) {s : State} (hM : MemOk s) : MemNext (execVecAdd core cmd obs s) := by
  unfold execVecAdd
  refine MemNext.command ?_
  repeat' (first
    | with_reducible assumption
    | with_reducible apply MemNext.next
    | with_reducible apply State.tractCommand_mem)

theorem execVecMultiply_mem (core : Nat) (cmd : TcCmd) (obs : List Obs) {s : State} (hM : MemOk s) : MemNext (execVecMultiply core cmd obs s) := by
  unfold execVecMultiply
  refine MemNext.command ?_
  repeat' (first
    | with_reducible assumption
    | with_reducible apply MemNext.next
    | with_reducible apply State.tractCommand_mem)

theorem execVecFusedMultiplyAdd_mem (core : Nat) (cmd : TcCmd) (obs : List Obs) {s : State} (hM : MemOk s) : MemNext (execVecFusedMultiplyAdd core cmd obs s) := by
  unfold execVecFusedMultiplyAdd
  refine MemNext.command ?_
  repeat' (first
    | with_reducible assumption
    | with_reducible apply MemNext.next
    | with_reducible apply State.tractCommand_mem)

theorem execVecMaximum_mem (core : Nat) (cmd : TcCmd) (obs : List Obs) {s : State} (hM : MemOk s) : MemNext (execVecMaximum core cmd obs s) := by
  unfold execVecMaximum
  refine MemNext.command ?_
  repeat' (first
    | with_reducible assumption
    | with_reducible apply MemNext.next
    | with_reducible apply State.tractCommand_mem)

theorem execVecMinimum_mem (core : Nat) (cmd : TcCmd) (obs : List Obs) {s : State} (hM : MemOk s) : MemNext (execVecMinimum core cmd obs s) := by
  unfold execVecMinimum
  refine MemNext.command ?_
  repeat' (first
    | with_reducible assumption
    | with_reducible apply MemNext.next
    | with_reducible apply State.tractCommand_mem)

theorem execVecExp_mem (core : Nat) (cmd : TcCmd) (obs : List Obs) {s : State} (hM : MemOk s) : MemNext (execVecExp core cmd obs s) := by
  unfold execVecExp
  refine MemNext.command ?_
  repeat' (first
    | with_reducible assumption
    | with_reducible apply MemNext.next
    | with_reducible apply State.tractCommand_mem)

theorem execVecLog_mem (core : Nat) (cmd : TcCmd) (obs : List Obs) {s : State} (hM : MemOk s) : MemNext (execVecLog core cmd obs s) := by
  unfold execVecLog
  refine MemNext.command ?_
  repeat' (first
    | with_reducible assumption
    | with_reducible apply MemNext.next
    | with_reducible apply State.tractCommand_mem)

theorem execVecReciprocal_mem (core : Nat) (cmd : TcCmd) (obs : List Obs) {s : State} (hM : MemOk s) : MemNext (execVecReciprocal core cmd obs s) := by
  unfold execVecReciprocal
  refine MemNext.command ?_
  repeat' (first
    | with_reducible assumption
    | with_reducible apply MemNext.next
    | with_reducible apply State.tractCommand_mem)

theorem execVecSigmoid_mem (core : Nat) (cmd : TcCmd) (obs : List Obs) {s : State} (hM : MemOk s) : MemNext (execVecSigmoid core cmd obs s) := by
  unfold execVecSigmoid
  refine MemNext.command ?_
  repeat' (first
    | with_reducible assumption
    | with_reducible apply MemNext.next
    | with_reducible apply State.tractCommand_mem)

theorem execVecTanh_mem (core : Nat) (cmd : TcCmd) (obs : List Obs) {s : State} (hM : MemOk s) : MemNext (execVecTanh core cmd obs s) := by
  unfold execVecTanh
  refine MemNext.command ?_
  repeat' (first
    | with_reducible assumption
    | with_reducible apply MemNext.next
    | with_reducible apply State.tractCommand_mem)

theorem execVecSilu_mem (core : Nat) (cmd : TcCmd) (obs : List Obs) {s : State} (hM : MemOk s) : MemNext (execVecSilu core cmd obs s) := by
  unfold execVecSilu
  refine MemNext.command ?_
  repeat' (first
    | with_reducible assumption
    | with_reducible apply MemNext.next
    | with_reducible apply State.tractCommand_mem)

theorem execVecGelu_mem (core : Nat) (cmd : TcCmd) (obs : List Obs) {s : State} (hM : MemOk s) : MemNext (execVecGelu core cmd obs s) := by
  unfold execVecGelu
  refine MemNext.command ?_
  repeat' (first
    | with_reducible assumption
    | with_reducible apply MemNext.next
    | with_reducible apply State.tractCommand_mem)

theorem execVecSumAlongD0_mem (core : Nat) (cmd : TcCmd) (obs : List Obs) {s : State} (hM : MemOk s) : MemNext (execVecSumAlongD0 core cmd obs s) := by
  unfold execVecSumAlongD0
  refine MemNext.command ?_
  repeat' (first
    | with_reducible assumption
    | with_reducible apply MemNext.next
    | with_reducible apply State.tractCommand_mem)

theorem execVecMaximumAlongD0_mem (core : Nat) (cmd : TcCmd) (obs : List Obs) {s : State} (hM : MemOk s) : MemNext (execVecMaximumAlongD0 core cmd obs s) := by
  unfold execVecMaximumAlongD0
  refine MemNext.command ?_
  repeat' (first
    | with_reducible assumption
    | with_reducible apply MemNext.next
    | with_reducible apply State.tractCommand_mem)

theorem execVecRequantise_mem (core : Nat) (cmd : TcCmd) (obs : List Obs) {s : State} (hM : MemOk s) : MemNext (execVecRequantise core cmd obs s) := by
  unfold execVecRequantise
  refine MemNext.command ?_
  repeat' (first
    | with_reducible assumption
    | with_reducible apply MemNext.next
    | with_reducible apply State.tractCommand_mem)

theorem execPoolMax_mem (core : Nat) (cmd : TcCmd) (obs : List Obs) {s : State} (hM : MemOk s) : MemNext (execPoolMax core cmd obs s) := by
  unfold execPoolMax
  refine MemNext.command ?_
  repeat' (first
    | with_reducible assumption
    | with_reducible apply MemNext.next
    | with_reducible apply State.tractCommand_mem)

theorem execPoolAverage_mem (core : Nat) (cmd : TcCmd) (obs : List Obs) {s : State} (hM : MemOk s) : MemNext (execPoolAverage core cmd obs s) := by
  unfold execPoolAverage
  refine MemNext.command ?_
  repeat' (first
    | with_reducible assumption
    | with_reducible apply MemNext.next
    | with_reducible apply State.tractCommand_mem)

theorem execDmaUnifiedRangeToBin_mem (core : Nat) (cmd : TcCmd) (ur obs : List Obs) {s : State} (hM : MemOk s) : MemNext (execDmaUnifiedRangeToBin core cmd ur obs s) := by
  unfold execDmaUnifiedRangeToBin
  refine MemNext.command ?_
  repeat' (first
    | with_reducible assumption
    | with_reducible apply MemNext.next
    | with_reducible apply State.tractCommand_mem)

theorem execDmaBinToUnifiedRange_mem (core : Nat) (cmd : TcCmd) (ur obs : List Obs) {s : State} (hM : MemOk s) : MemNext (execDmaBinToUnifiedRange core cmd ur obs s) := by
  unfold execDmaBinToUnifiedRange
  refine MemNext.command ?_
  repeat' (first
    | with_reducible assumption
    | with_reducible apply MemNext.next
    | with_reducible apply State.tractCommand_mem)

theorem execDmaBinToBin_mem (core : Nat) (cmd : TcCmd) (obs : List Obs) {s : State} (hM : MemOk s) : MemNext (execDmaBinToBin core cmd obs s) := by
  unfold execDmaBinToBin
  refine MemNext.command ?_
  repeat' (first
    | with_reducible assumption
    | with_reducible apply MemNext.next
    | with_reducible apply State.tractCommand_mem)

theorem execDmaBinToRemoteGate_mem (core : Nat) (cmd : TcCmd) (obs : List Obs) {s : State} (hM : MemOk s) : MemNext (execDmaBinToRemoteGate core cmd obs s) := by
  unfold execDmaBinToRemoteGate
  refine MemNext.command ?_
  repeat' (first
    | with_reducible assumption
    | with_reducible apply MemNext.next
    | with_reducible apply State.tractCommand_mem)

theorem execWaitTally_mem (core : Nat) (cmd : TcCmd) {s : State} (hM : MemOk s) : MemNext (execWaitTally core cmd s) := by
  unfold execWaitTally
  refine MemNext.command ?_
  repeat' (first
    | with_reducible assumption
    | with_reducible apply MemNext.next
    | with_reducible apply State.tractCommand_mem)

theorem execScalePerRowAbsoluteMaximum_mem (core : Nat) (cmd : TcCmd) (obs : List Obs) {s : State} (hM : MemOk s) : MemNext (execScalePerRowAbsoluteMaximum core cmd obs s) := by
  unfold execScalePerRowAbsoluteMaximum
  refine MemNext.command ?_
  repeat' (first
    | with_reducible assumption
    | with_reducible apply MemNext.next
    | with_reducible apply State.tractCommand_mem)

theorem execScaleLoad_mem (core : Nat) (cmd : TcCmd) (obs : List Obs) {s : State} (hM : MemOk s) : MemNext (execScaleLoad core cmd obs s) := by
  unfold execScaleLoad
  refine MemNext.command ?_
  repeat' (first
    | with_reducible assumption
    | with_reducible apply MemNext.next
    | with_reducible apply State.tractCommand_mem)

theorem execScaleAdapt_mem (core : Nat) (cmd : TcCmd) (obs : List Obs) {s : State} (hM : MemOk s) : MemNext (execScaleAdapt core cmd obs s) := by
  unfold execScaleAdapt
  refine MemNext.command ?_
  repeat' (first
    | with_reducible assumption
    | with_reducible apply MemNext.next
    | with_reducible apply State.tractCommand_mem)

theorem execSpillOut_mem (core : Nat) (cmd : TcCmd) (obs : List Obs) {s : State} (hM : MemOk s) : MemNext (execSpillOut core cmd obs s) := by
  unfold execSpillOut
  refine MemNext.command ?_
  repeat' (first
    | with_reducible assumption
    | with_reducible apply MemNext.next
    | with_reducible apply State.tractCommand_mem)

theorem execSpillIn_mem (core : Nat) (cmd : TcCmd) (obs : List Obs) {s : State} (hM : MemOk s) : MemNext (execSpillIn core cmd obs s) := by
  unfold execSpillIn
  refine MemNext.command ?_
  repeat' (first
    | with_reducible assumption
    | with_reducible apply MemNext.next
    | with_reducible apply State.tractCommand_mem)

theorem execReservedClassCommand_mem (core : Nat) (cmd : TcCmd) {s : State} (hM : MemOk s) : MemNext (execReservedClassCommand core cmd s) := by
  unfold execReservedClassCommand
  refine MemNext.command ?_
  repeat' (first
    | with_reducible assumption
    | with_reducible apply MemNext.next
    | with_reducible apply State.tractCommand_mem)

end Sys2Proof.Machine
end

