-- ==== Sys2Proof/Laws/Touches.lean ====
section
/-!
SUPPORT. Which parts of the state an operation may change: one lemma for each operation of the shared files.
-/
namespace Sys2Proof.Machine
set_option linter.all false

/-- The parts of the state. -/
inductive Part where
  | pending | time | free | regs | objs | sent | bin | ur | mc | hearth | rota | ledger | log | safe | sec | hedge | sv | hp | cam | aud | watch | door | pwr | clk | reeve | upd | crier | boot
deriving DecidableEq, Repr

/-- A part is the same in two states. -/
abbrev SamePart (p : Part) (s t : State) : Prop :=
  match p with
  | .pending => t.pending = s.pending
  | .time => t.time = s.time
  | .free => t.free = s.free
  | .regs => t.regs = s.regs
  | .objs => t.objs = s.objs
  | .sent => t.sent = s.sent
  | .bin => t.bin = s.bin
  | .ur => t.ur = s.ur
  | .mc => t.mc = s.mc
  | .hearth => t.hearth = s.hearth
  | .rota => t.rota = s.rota
  | .ledger => t.ledger = s.ledger
  | .log => t.log = s.log
  | .safe => t.safe = s.safe
  | .sec => t.sec = s.sec
  | .hedge => t.hedge = s.hedge
  | .sv => t.sv = s.sv
  | .hp => t.hp = s.hp
  | .cam => t.cam = s.cam
  | .aud => t.aud = s.aud
  | .watch => t.watch = s.watch
  | .door => t.door = s.door
  | .pwr => t.pwr = s.pwr
  | .clk => t.clk = s.clk
  | .reeve => t.reeve = s.reeve
  | .upd => t.upd = s.upd
  | .crier => t.crier = s.crier
  | .boot => t.boot = s.boot

/-- Every part but the listed ones is the same in two states. -/
structure Touches (l : List Part) (s t : State) : Prop where
  keep : ∀ p, p ∉ l → SamePart p s t

theorem SamePart.refl (p : Part) (s : State) : SamePart p s s := by cases p <;> rfl

theorem SamePart.trans {p : Part} {s t u : State} (h : SamePart p s t) (k : SamePart p t u) : SamePart p s u := by
  cases p <;> exact Eq.trans k h

theorem Touches.refl (l : List Part) (s : State) : Touches l s s := ⟨fun p _ => SamePart.refl p s⟩

theorem Touches.trans {l : List Part} {s t u : State} (h : Touches l s t) (k : Touches l t u) : Touches l s u :=
  ⟨fun p hp => (h.keep p hp).trans (k.keep p hp)⟩

theorem Touches.mono {l m : List Part} {s t : State} (h : Touches l s t) (hl : l ⊆ m) : Touches m s t := ⟨fun p hp => h.keep p (fun k => hp (hl k))⟩

theorem Touches.foldl {α : Type} {l : List Part} {z s : State} (F : State → α → State) (xs : List α) (h : Touches l z s)
    (hF : ∀ s x, Touches l z s → Touches l z (F s x)) : Touches l z (xs.foldl F s) := by
  induction xs generalizing s with
  | nil => exact h
  | cons a r ih => exact ih (hF s a h)

theorem Touches.ite {l : List Part} {z s t : State} {c : Prop} [Decidable c] (h : Touches l z s) (k : Touches l z t) :
    Touches l z (if c then s else t) := by split <;> assumption

/-- An update whose parts are listed, of a state that differs in listed parts. -/
theorem Touches.of {l : List Part} {z s t : State} (h : Touches l z s) (k : ∀ p, p ∉ l → SamePart p s t) : Touches l z t := h.trans ⟨k⟩

/-- A command answers a next state in which only the listed parts differ. -/
def Answers (l : List Part) (s : State) (o : Host.Outcome State Fault Refusal) : Prop := ∃ t, o = .next t ∧ Touches l s t

theorem Answers.next {l : List Part} {s t : State} (h : Touches l s t) : Answers l s (.next t) := ⟨t, rfl, h⟩

theorem Answers.ite {l : List Part} {s : State} {a b : Host.Outcome State Fault Refusal} {c : Prop} [Decidable c] (h : Answers l s a)
    (k : Answers l s b) : Answers l s (if c then a else b) := by split <;> assumption

theorem Answers.command {l : List Part} {s : State} {f : State → Host.Outcome State Fault Refusal} (h : Answers l s (f s)) :
    Answers l s (s.command f) := by
  obtain ⟨t, ht, hk⟩ := h
  refine ⟨{ t with pending := s.pending }, by simp [State.command, ht], ⟨fun p hp => ?_⟩⟩
  cases p <;> first | rfl | exact hk.keep _ hp

theorem State.setFld_touches {L : List Part} {Z : State} {s : State} (f : Fld) (i v : Nat) (hT : Touches L Z s) (hl : [.regs] ⊆ L) : Touches L Z (State.setFld s f i v) := by
  unfold State.setFld
  repeat' (first
    | with_reducible assumption
    | ((conv => pattern (State.mk ..)); (with_reducible apply Touches.of); case k => (intro p hp; cases p <;> first | exact absurd (hl (by decide)) hp | (dsimp only [SamePart]; done) | (dsimp only [SamePart]; with_reducible exact rfl))))

theorem State.setFlds_touches {L : List Part} {Z : State} {s : State} (i : Nat) (l : List (Fld × Nat)) (hT : Touches L Z s) (hl : [.regs] ⊆ L) : Touches L Z (State.setFlds s i l) := by
  unfold State.setFlds
  repeat' (first
    | with_reducible assumption
    | intro _
    | with_reducible apply Touches.foldl
    | with_reducible apply State.setFld_touches)

theorem State.bumpFld_touches {L : List Part} {Z : State} {s : State} (f : Fld) (i n : Nat) (hT : Touches L Z s) (hl : [.regs] ⊆ L) : Touches L Z (State.bumpFld s f i n) := by
  unfold State.bumpFld
  repeat' (first
    | with_reducible assumption
    | with_reducible apply State.setFld_touches)

theorem State.setObjVal_touches {L : List Part} {Z : State} {s : State} (o : Obj) (sub : Nat) (v : Val) (hT : Touches L Z s) (hl : [.objs] ⊆ L) : Touches L Z (State.setObjVal s o sub v) := by
  unfold State.setObjVal
  repeat' (first
    | with_reducible assumption
    | ((conv => pattern (State.mk ..)); (with_reducible apply Touches.of); case k => (intro p hp; cases p <;> first | exact absurd (hl (by decide)) hp | (dsimp only [SamePart]; done) | (dsimp only [SamePart]; with_reducible exact rfl))))

theorem State.setObj_touches {L : List Part} {Z : State} {s : State} (o : Obj) (sub v : Nat) (hT : Touches L Z s) (hl : [.objs] ⊆ L) : Touches L Z (State.setObj s o sub v) := by
  unfold State.setObj
  repeat' (first
    | with_reducible assumption
    | with_reducible apply State.setObjVal_touches)

theorem State.bumpObj_touches {L : List Part} {Z : State} {s : State} (o : Obj) (sub n : Nat) (hT : Touches L Z s) (hl : [.objs] ⊆ L) : Touches L Z (State.bumpObj s o sub n) := by
  unfold State.bumpObj
  repeat' (first
    | with_reducible assumption
    | with_reducible apply State.setObj_touches)

theorem State.bumpVersion_touches {L : List Part} {Z : State} {s : State} (key : Nat) (hT : Touches L Z s) (hl : [.crier] ⊆ L) : Touches L Z (State.bumpVersion s key) := by
  unfold State.bumpVersion
  repeat' (first
    | with_reducible assumption
    | dsimp only
    | ((conv => pattern (State.mk ..)); (with_reducible apply Touches.of); case k => (intro p hp; cases p <;> first | exact absurd (hl (by decide)) hp | (dsimp only [SamePart]; done) | (dsimp only [SamePart]; with_reducible exact rfl))))

theorem State.fresh_touches {L : List Part} {Z : State} {s : State} (hT : Touches L Z s) (hl : [.free] ⊆ L) : Touches L Z (State.fresh s).2 := by
  unfold State.fresh
  repeat' (first
    | with_reducible assumption
    | dsimp only
    | ((conv => pattern (State.mk ..)); (with_reducible apply Touches.of); case k => (intro p hp; cases p <;> first | exact absurd (hl (by decide)) hp | (dsimp only [SamePart]; done) | (dsimp only [SamePart]; with_reducible exact rfl))))

theorem State.send_touches {L : List Part} {Z : State} {s : State} (m : Sent) (hT : Touches L Z s) (hl : [.sent] ⊆ L) : Touches L Z (State.send s m) := by
  unfold State.send
  repeat' (first
    | with_reducible assumption
    | ((conv => pattern (State.mk ..)); (with_reducible apply Touches.of); case k => (intro p hp; cases p <;> first | exact absurd (hl (by decide)) hp | (dsimp only [SamePart]; done) | (dsimp only [SamePart]; with_reducible exact rfl))))

theorem State.reach_touches {L : List Part} {Z : State} {s : State} (t : Nat) (hT : Touches L Z s) (hl : [.time] ⊆ L) : Touches L Z (State.reach s t) := by
  unfold State.reach
  repeat' (first
    | with_reducible assumption
    | ((conv => pattern (State.mk ..)); (with_reducible apply Touches.of); case k => (intro p hp; cases p <;> first | exact absurd (hl (by decide)) hp | (dsimp only [SamePart]; done) | (dsimp only [SamePart]; with_reducible exact rfl))))

theorem State.tick_touches {L : List Part} {Z : State} {s : State} (hT : Touches L Z s) (hl : [.time, .bin, .hedge] ⊆ L) : Touches L Z (State.tick s) := by
  unfold State.tick
  repeat' (first
    | with_reducible assumption
    | split
    | dsimp only
    | ((conv => pattern (State.mk ..)); (with_reducible apply Touches.of); case k => (intro p hp; cases p <;> first | exact absurd (hl (by decide)) hp | (dsimp only [SamePart]; done) | (dsimp only [SamePart]; with_reducible exact rfl))))

theorem State.answer_touches {L : List Part} {Z : State} {s : State} (init : Nat) (ok : Bool) (data : List Byte) (hT : Touches L Z s) (hl : [.sent] ⊆ L) : Touches L Z (State.answer s init ok data) := by
  unfold State.answer
  repeat' (first
    | with_reducible assumption
    | with_reducible apply State.send_touches)

theorem State.logEvent_touches {L : List Part} {Z : State} {s : State} (tag : LogTag) (source flags a0 a1 a2 : Nat) (hT : Touches L Z s) (hl : [.objs, .log] ⊆ L) : Touches L Z (State.logEvent s tag source flags a0 a1 a2) := by
  unfold State.logEvent
  repeat' (first
    | with_reducible assumption
    | ((with_reducible refine List.Subset.trans ?_ hl); decide)
    | with_reducible apply Touches.ite
    | with_reducible apply State.bumpObj_touches
    | with_reducible apply State.setObj_touches
    | dsimp only
    | ((conv => pattern (State.mk ..)); (with_reducible apply Touches.of); case k => (intro p hp; cases p <;> first | exact absurd (hl (by decide)) hp | (dsimp only [SamePart]; done) | (dsimp only [SamePart]; with_reducible exact rfl))))

theorem State.flushLog_touches {L : List Part} {Z : State} {s : State} (hT : Touches L Z s) (hl : [.objs, .log] ⊆ L) : Touches L Z (State.flushLog s) := by
  unfold State.flushLog
  repeat' (first
    | with_reducible assumption
    | ((with_reducible refine List.Subset.trans ?_ hl); decide)
    | with_reducible apply State.setObj_touches
    | split
    | dsimp only
    | ((conv => pattern (State.mk ..)); (with_reducible apply Touches.of); case k => (intro p hp; cases p <;> first | exact absurd (hl (by decide)) hp | (dsimp only [SamePart]; done) | (dsimp only [SamePart]; with_reducible exact rfl))))

theorem State.logIt_touches {L : List Part} {Z : State} {s : State} (tag : LogTag) (source flags a0 a1 a2 : Nat) (hT : Touches L Z s) (hl : [.objs, .log] ⊆ L) : Touches L Z (State.logIt s tag source flags a0 a1 a2) := by
  unfold State.logIt
  repeat' (first
    | with_reducible assumption
    | with_reducible apply Touches.ite
    | with_reducible apply State.logEvent_touches
    | with_reducible apply State.flushLog_touches)

theorem State.worldError_touches {L : List Part} {Z : State} {s : State} (f : Fld) (i : Nat) (hT : Touches L Z s) (hl : [.objs, .sent, .log] ⊆ L) : Touches L Z (State.worldError s f i) := by
  unfold State.worldError
  repeat' (first
    | with_reducible assumption
    | ((with_reducible refine List.Subset.trans ?_ hl); decide)
    | with_reducible apply State.send_touches
    | with_reducible apply State.logIt_touches)

theorem State.reservedAccess_touches {L : List Part} {Z : State} {s : State} (addr : Nat) (hT : Touches L Z s) (hl : [.objs, .sent, .log] ⊆ L) : Touches L Z (State.reservedAccess s addr) := by
  unfold State.reservedAccess
  repeat' (first
    | with_reducible assumption
    | with_reducible exact hl
    | ((with_reducible refine List.Subset.trans ?_ hl); decide)
    | intro _
    | with_reducible apply Touches.ite
    | (extract_lets +onlyGivenNames u; refine (fun (hu : Touches _ _ u) => ?_) ?_; clear_value u; rotate_left; unfold u; clear u)
    | with_reducible apply Touches.foldl
    | with_reducible apply State.send_touches
    | with_reducible apply State.logIt_touches
    | split
    | dsimp only
    | ((conv => pattern (State.mk ..)); (with_reducible apply Touches.of); case k => (intro p hp; cases p <;> first | exact absurd (hl (by decide)) hp | (dsimp only [SamePart]; done) | (dsimp only [SamePart]; with_reducible exact rfl))))

theorem State.objRefused_touches {L : List Part} {Z : State} {s : State} (index sub : Nat) (hT : Touches L Z s) (hl : [.objs, .log] ⊆ L) : Touches L Z (State.objRefused s index sub) := by
  unfold State.objRefused
  repeat' (first
    | with_reducible assumption
    | with_reducible exact hl
    | ((with_reducible refine List.Subset.trans ?_ hl); decide)
    | intro _
    | with_reducible apply Touches.ite
    | (extract_lets +onlyGivenNames u; refine (fun (hu : Touches _ _ u) => ?_) ?_; clear_value u; rotate_left; unfold u; clear u)
    | with_reducible apply Touches.foldl
    | with_reducible apply State.logIt_touches
    | split
    | dsimp only
    | ((conv => pattern (State.mk ..)); (with_reducible apply Touches.of); case k => (intro p hp; cases p <;> first | exact absurd (hl (by decide)) hp | (dsimp only [SamePart]; done) | (dsimp only [SamePart]; with_reducible exact rfl))))

theorem State.refuseAccess_touches {L : List Part} {Z : State} {s : State} (q : Requester) (write : Bool) (space unit : Nat) (hT : Touches L Z s) (hl : [.regs, .objs, .log, .sec] ⊆ L) : Touches L Z (State.refuseAccess s q write space unit) := by
  unfold State.refuseAccess
  repeat' (first
    | with_reducible assumption
    | ((with_reducible refine List.Subset.trans ?_ hl); decide)
    | with_reducible apply Touches.ite
    | with_reducible apply State.logIt_touches
    | with_reducible apply State.bumpObj_touches
    | with_reducible apply State.setFlds_touches
    | dsimp only
    | ((conv => pattern (State.mk ..)); (with_reducible apply Touches.of); case k => (intro p hp; cases p <;> first | exact absurd (hl (by decide)) hp | (dsimp only [SamePart]; done) | (dsimp only [SamePart]; with_reducible exact rfl))))

theorem State.setMcQueue_touches {L : List Part} {Z : State} {s : State} (c : Nat) (l : List McReq) (hT : Touches L Z s) (hl : [.mc] ⊆ L) : Touches L Z (State.setMcQueue s c l) := by
  unfold State.setMcQueue
  repeat' (first
    | with_reducible assumption
    | dsimp only
    | ((conv => pattern (State.mk ..)); (with_reducible apply Touches.of); case k => (intro p hp; cases p <;> first | exact absurd (hl (by decide)) hp | (dsimp only [SamePart]; done) | (dsimp only [SamePart]; with_reducible exact rfl))))

theorem State.mcTake_touches {L : List Part} {Z : State} {s : State} (r : McReq) (hT : Touches L Z s) (hl : [.mc] ⊆ L) : Touches L Z (State.mcTake s r) := by
  unfold State.mcTake
  repeat' (first
    | with_reducible assumption
    | with_reducible exact hl
    | ((with_reducible refine List.Subset.trans ?_ hl); decide)
    | intro _
    | with_reducible apply Touches.ite
    | (extract_lets +onlyGivenNames u; refine (fun (hu : Touches _ _ u) => ?_) ?_; clear_value u; rotate_left; unfold u; clear u)
    | with_reducible apply Touches.foldl
    | with_reducible apply State.setMcQueue_touches
    | split
    | dsimp only
    | ((conv => pattern (State.mk ..)); (with_reducible apply Touches.of); case k => (intro p hp; cases p <;> first | exact absurd (hl (by decide)) hp | (dsimp only [SamePart]; done) | (dsimp only [SamePart]; with_reducible exact rfl))))

theorem State.mcRequest_touches {L : List Part} {Z : State} {s : State} (port off : Nat) (write : Bool) (deadline : Option Nat) (hT : Touches L Z s) (hl : [.mc] ⊆ L) : Touches L Z (State.mcRequest s port off write deadline) := by
  unfold State.mcRequest
  repeat' (first
    | with_reducible assumption
    | with_reducible exact hl
    | ((with_reducible refine List.Subset.trans ?_ hl); decide)
    | intro _
    | with_reducible apply Touches.ite
    | (extract_lets +onlyGivenNames u; refine (fun (hu : Touches _ _ u) => ?_) ?_; clear_value u; rotate_left; unfold u; clear u)
    | with_reducible apply Touches.foldl
    | with_reducible apply State.mcTake_touches
    | split
    | dsimp only
    | ((conv => pattern (State.mk ..)); (with_reducible apply Touches.of); case k => (intro p hp; cases p <;> first | exact absurd (hl (by decide)) hp | (dsimp only [SamePart]; done) | (dsimp only [SamePart]; with_reducible exact rfl))))

theorem State.rollAct_touches {L : List Part} {Z : State} {s : State} (key : Nat) (hT : Touches L Z s) (hl : [.mc] ⊆ L) : Touches L Z (State.rollAct s key) := by
  unfold State.rollAct
  repeat' (first
    | with_reducible assumption
    | with_reducible exact hl
    | ((with_reducible refine List.Subset.trans ?_ hl); decide)
    | intro _
    | with_reducible apply Touches.ite
    | (extract_lets +onlyGivenNames u; refine (fun (hu : Touches _ _ u) => ?_) ?_; clear_value u; rotate_left; unfold u; clear u)
    | with_reducible apply Touches.foldl
    | split
    | dsimp only
    | ((conv => pattern (State.mk ..)); (with_reducible apply Touches.of); case k => (intro p hp; cases p <;> first | exact absurd (hl (by decide)) hp | (dsimp only [SamePart]; done) | (dsimp only [SamePart]; with_reducible exact rfl))))

theorem State.activate_touches {L : List Part} {Z : State} {s : State} (key row : Nat) (hT : Touches L Z s) (hl : [.mc] ⊆ L) : Touches L Z (State.activate s key row) := by
  unfold State.activate
  repeat' (first
    | with_reducible assumption
    | with_reducible exact hl
    | ((with_reducible refine List.Subset.trans ?_ hl); decide)
    | intro _
    | with_reducible apply Touches.ite
    | (extract_lets +onlyGivenNames u; refine (fun (hu : Touches _ _ u) => ?_) ?_; clear_value u; rotate_left; unfold u; clear u)
    | with_reducible apply Touches.foldl
    | with_reducible apply State.rollAct_touches
    | split
    | dsimp only
    | ((conv => pattern (State.mk ..)); (with_reducible apply Touches.of); case k => (intro p hp; cases p <;> first | exact absurd (hl (by decide)) hp | (dsimp only [SamePart]; done) | (dsimp only [SamePart]; with_reducible exact rfl))))

theorem State.nearRefresh_touches {L : List Part} {Z : State} {s : State} (key : Nat) (hT : Touches L Z s) (hl : [.objs, .mc] ⊆ L) : Touches L Z (State.nearRefresh s key) := by
  unfold State.nearRefresh
  repeat' (first
    | with_reducible assumption
    | with_reducible exact hl
    | ((with_reducible refine List.Subset.trans ?_ hl); decide)
    | intro _
    | with_reducible apply Touches.ite
    | (extract_lets +onlyGivenNames u; refine (fun (hu : Touches _ _ u) => ?_) ?_; clear_value u; rotate_left; unfold u; clear u)
    | with_reducible apply Touches.foldl
    | with_reducible apply State.bumpObj_touches
    | with_reducible apply State.activate_touches
    | split
    | dsimp only
    | ((conv => pattern (State.mk ..)); (with_reducible apply Touches.of); case k => (intro p hp; cases p <;> first | exact absurd (hl (by decide)) hp | (dsimp only [SamePart]; done) | (dsimp only [SamePart]; with_reducible exact rfl))))

theorem State.mcSlot_touches {L : List Part} {Z : State} {s : State} (channel : Nat) (hT : Touches L Z s) (hl : [.objs, .mc] ⊆ L) : Touches L Z (State.mcSlot s channel) := by
  unfold State.mcSlot
  repeat' (first
    | with_reducible assumption
    | with_reducible exact hl
    | ((with_reducible refine List.Subset.trans ?_ hl); decide)
    | intro _
    | with_reducible apply Touches.ite
    | (extract_lets +onlyGivenNames u; refine (fun (hu : Touches _ _ u) => ?_) ?_; clear_value u; rotate_left; unfold u; clear u)
    | with_reducible apply Touches.foldl
    | with_reducible apply State.nearRefresh_touches
    | split
    | dsimp only
    | ((conv => pattern (State.mk ..)); (with_reducible apply Touches.of); case k => (intro p hp; cases p <;> first | exact absurd (hl (by decide)) hp | (dsimp only [SamePart]; done) | (dsimp only [SamePart]; with_reducible exact rfl))))

theorem State.setDir_touches {L : List Part} {Z : State} {s : State} (f : Nat) (e : DirEntry) (hT : Touches L Z s) (hl : [.ur] ⊆ L) : Touches L Z (State.setDir s f e) := by
  unfold State.setDir
  repeat' (first
    | with_reducible assumption
    | dsimp only
    | ((conv => pattern (State.mk ..)); (with_reducible apply Touches.of); case k => (intro p hp; cases p <;> first | exact absurd (hl (by decide)) hp | (dsimp only [SamePart]; done) | (dsimp only [SamePart]; with_reducible exact rfl))))

theorem State.setPageState_touches {L : List Part} {Z : State} {s : State} (p : Nat) (e : PageState) (hT : Touches L Z s) (hl : [.ur] ⊆ L) : Touches L Z (State.setPageState s p e) := by
  unfold State.setPageState
  repeat' (first
    | with_reducible assumption
    | dsimp only
    | ((conv => pattern (State.mk ..)); (with_reducible apply Touches.of); case k => (intro p hp; cases p <;> first | exact absurd (hl (by decide)) hp | (dsimp only [SamePart]; done) | (dsimp only [SamePart]; with_reducible exact rfl))))

theorem State.putHome_touches {L : List Part} {Z : State} {s : State} (off : Nat) (bs : List Byte) (gs : List Nat) (hT : Touches L Z s) (hl : [.ur] ⊆ L) : Touches L Z (State.putHome s off bs gs) := by
  unfold State.putHome
  repeat' (first
    | with_reducible assumption
    | with_reducible exact hl
    | ((with_reducible refine List.Subset.trans ?_ hl); decide)
    | intro _
    | with_reducible apply Touches.ite
    | (extract_lets +onlyGivenNames u; refine (fun (hu : Touches _ _ u) => ?_) ?_; clear_value u; rotate_left; unfold u; clear u)
    | with_reducible apply Touches.foldl
    | split
    | dsimp only
    | ((conv => pattern (State.mk ..)); (with_reducible apply Touches.of); case k => (intro p hp; cases p <;> first | exact absurd (hl (by decide)) hp | (dsimp only [SamePart]; done) | (dsimp only [SamePart]; with_reducible exact rfl))))

theorem State.encodeHome_touches {L : List Part} {Z : State} {s : State} (p : Nat) (encode : Bool) (hT : Touches L Z s) (hl : [.ur] ⊆ L) : Touches L Z (State.encodeHome s p encode) := by
  unfold State.encodeHome
  repeat' (first
    | with_reducible assumption
    | with_reducible exact hl
    | ((with_reducible refine List.Subset.trans ?_ hl); decide)
    | intro _
    | with_reducible apply Touches.ite
    | (extract_lets +onlyGivenNames u; refine (fun (hu : Touches _ _ u) => ?_) ?_; clear_value u; rotate_left; unfold u; clear u)
    | with_reducible apply Touches.foldl
    | with_reducible apply State.setPageState_touches
    | with_reducible apply State.putHome_touches
    | split
    | dsimp only
    | ((conv => pattern (State.mk ..)); (with_reducible apply Touches.of); case k => (intro p hp; cases p <;> first | exact absurd (hl (by decide)) hp | (dsimp only [SamePart]; done) | (dsimp only [SamePart]; with_reducible exact rfl))))

theorem State.mergeHome_touches {L : List Part} {Z : State} {s : State} (off : Nat) (bs : List Byte) (gs : List Nat) (hT : Touches L Z s) (hl : [.ur] ⊆ L) : Touches L Z (State.mergeHome s off bs gs) := by
  unfold State.mergeHome
  repeat' (first
    | with_reducible assumption
    | with_reducible exact hl
    | ((with_reducible refine List.Subset.trans ?_ hl); decide)
    | intro _
    | with_reducible apply Touches.ite
    | (extract_lets +onlyGivenNames u; refine (fun (hu : Touches _ _ u) => ?_) ?_; clear_value u; rotate_left; unfold u; clear u)
    | with_reducible apply Touches.foldl
    | with_reducible apply State.putHome_touches
    | with_reducible apply State.encodeHome_touches
    | split
    | dsimp only
    | ((conv => pattern (State.mk ..)); (with_reducible apply Touches.of); case k => (intro p hp; cases p <;> first | exact absurd (hl (by decide)) hp | (dsimp only [SamePart]; done) | (dsimp only [SamePart]; with_reducible exact rfl))))

theorem State.wholeHome_touches {L : List Part} {Z : State} {s : State} (p : Nat) (bs : List Byte) (hT : Touches L Z s) (hl : [.ur] ⊆ L) : Touches L Z (State.wholeHome s p bs) := by
  unfold State.wholeHome
  repeat' (first
    | with_reducible assumption
    | with_reducible exact hl
    | ((with_reducible refine List.Subset.trans ?_ hl); decide)
    | intro _
    | with_reducible apply Touches.ite
    | (extract_lets +onlyGivenNames u; refine (fun (hu : Touches _ _ u) => ?_) ?_; clear_value u; rotate_left; unfold u; clear u)
    | with_reducible apply Touches.foldl
    | with_reducible apply State.putHome_touches
    | with_reducible apply State.encodeHome_touches
    | split
    | dsimp only
    | ((conv => pattern (State.mk ..)); (with_reducible apply Touches.of); case k => (intro p hp; cases p <;> first | exact absurd (hl (by decide)) hp | (dsimp only [SamePart]; done) | (dsimp only [SamePart]; with_reducible exact rfl))))

theorem State.frameToHome_touches {L : List Part} {Z : State} {s : State} (f p : Nat) (hT : Touches L Z s) (hl : [.ur] ⊆ L) : Touches L Z (State.frameToHome s f p) := by
  unfold State.frameToHome
  repeat' (first
    | with_reducible assumption
    | with_reducible apply State.encodeHome_touches
    | dsimp only
    | ((conv => pattern (State.mk ..)); (with_reducible apply Touches.of); case k => (intro p hp; cases p <;> first | exact absurd (hl (by decide)) hp | (dsimp only [SamePart]; done) | (dsimp only [SamePart]; with_reducible exact rfl))))

theorem State.homeToFrame_touches {L : List Part} {Z : State} {s : State} (p f : Nat) (hT : Touches L Z s) (hl : [.ur] ⊆ L) : Touches L Z (State.homeToFrame s p f) := by
  unfold State.homeToFrame
  repeat' (first
    | with_reducible assumption
    | with_reducible exact hl
    | ((with_reducible refine List.Subset.trans ?_ hl); decide)
    | intro _
    | with_reducible apply Touches.ite
    | (extract_lets +onlyGivenNames u; refine (fun (hu : Touches _ _ u) => ?_) ?_; clear_value u; rotate_left; unfold u; clear u)
    | with_reducible apply Touches.foldl
    | (split; all_goals first | (with_reducible have hx := congrArg Prod.snd ‹(_ : _ × State) = (_, _)›; dsimp only at hx; subst hx) | (with_reducible have hx := congrArg (fun x => x.2.2) ‹(_ : _ × _ × State) = (_, _, _)›; dsimp only at hx; subst hx) | skip)
    | dsimp only
    | ((conv => pattern (State.mk ..)); (with_reducible apply Touches.of); case k => (intro p hp; cases p <;> first | exact absurd (hl (by decide)) hp | (dsimp only [SamePart]; done) | (dsimp only [SamePart]; with_reducible exact rfl))))

theorem State.dropFrame_touches {L : List Part} {Z : State} {s : State} (f : Nat) (st : FrameState) (hT : Touches L Z s) (hl : [.ur] ⊆ L) : Touches L Z (State.dropFrame s f st) := by
  unfold State.dropFrame
  repeat' (first
    | with_reducible assumption
    | with_reducible apply State.setDir_touches
    | dsimp only
    | ((conv => pattern (State.mk ..)); (with_reducible apply Touches.of); case k => (intro p hp; cases p <;> first | exact absurd (hl (by decide)) hp | (dsimp only [SamePart]; done) | (dsimp only [SamePart]; with_reducible exact rfl))))

theorem State.setPinOf_touches {L : List Part} {Z : State} {s : State} (p : Nat) (v : Bool) (hT : Touches L Z s) (hl : [.ur] ⊆ L) : Touches L Z (State.setPinOf s p v) := by
  unfold State.setPinOf
  repeat' (first
    | with_reducible assumption
    | with_reducible exact hl
    | ((with_reducible refine List.Subset.trans ?_ hl); decide)
    | intro _
    | with_reducible apply Touches.ite
    | (extract_lets +onlyGivenNames u; refine (fun (hu : Touches _ _ u) => ?_) ?_; clear_value u; rotate_left; unfold u; clear u)
    | with_reducible apply Touches.foldl
    | with_reducible apply State.setDir_touches
    | split
    | dsimp only
    | ((conv => pattern (State.mk ..)); (with_reducible apply Touches.of); case k => (intro p hp; cases p <;> first | exact absurd (hl (by decide)) hp | (dsimp only [SamePart]; done) | (dsimp only [SamePart]; with_reducible exact rfl))))

theorem State.fillHome_touches {L : List Part} {Z : State} {s : State} (x : Fill) (hT : Touches L Z s) (hl : [.ur, .mc] ⊆ L) : Touches L Z (State.fillHome s x) := by
  unfold State.fillHome
  repeat' (first
    | with_reducible assumption
    | with_reducible exact hl
    | ((with_reducible refine List.Subset.trans ?_ hl); decide)
    | intro _
    | with_reducible apply Touches.ite
    | (extract_lets +onlyGivenNames u; refine (fun (hu : Touches _ _ u) => ?_) ?_; clear_value u; rotate_left; unfold u; clear u)
    | with_reducible apply Touches.foldl
    | with_reducible apply State.setDir_touches
    | with_reducible apply State.setPinOf_touches
    | with_reducible apply State.mcRequest_touches
    | with_reducible apply State.homeToFrame_touches
    | split
    | dsimp only
    | ((conv => pattern (State.mk ..)); (with_reducible apply Touches.of); case k => (intro p hp; cases p <;> first | exact absurd (hl (by decide)) hp | (dsimp only [SamePart]; done) | (dsimp only [SamePart]; with_reducible exact rfl))))

theorem State.freeFrame_touches {L : List Part} {Z : State} {s : State} (f : Nat) (hT : Touches L Z s) (hl : [.ur, .mc] ⊆ L) : Touches L Z (State.freeFrame s f) := by
  unfold State.freeFrame
  repeat' (first
    | with_reducible assumption
    | with_reducible exact hl
    | ((with_reducible refine List.Subset.trans ?_ hl); decide)
    | intro _
    | with_reducible apply Touches.ite
    | (extract_lets +onlyGivenNames u; refine (fun (hu : Touches _ _ u) => ?_) ?_; clear_value u; rotate_left; unfold u; clear u)
    | with_reducible apply Touches.foldl
    | with_reducible apply State.dropFrame_touches
    | with_reducible apply State.fillHome_touches
    | split
    | dsimp only
    | ((conv => pattern (State.mk ..)); (with_reducible apply Touches.of); case k => (intro p hp; cases p <;> first | exact absurd (hl (by decide)) hp | (dsimp only [SamePart]; done) | (dsimp only [SamePart]; with_reducible exact rfl))))

theorem State.moveFrame_touches {L : List Part} {Z : State} {s : State} (f : Nat) (x : Fill) (hT : Touches L Z s) (hl : [.ur, .mc] ⊆ L) : Touches L Z (State.moveFrame s f x) := by
  unfold State.moveFrame
  repeat' (first
    | with_reducible assumption
    | with_reducible exact hl
    | ((with_reducible refine List.Subset.trans ?_ hl); decide)
    | intro _
    | with_reducible apply Touches.ite
    | (extract_lets +onlyGivenNames u; refine (fun (hu : Touches _ _ u) => ?_) ?_; clear_value u; rotate_left; unfold u; clear u)
    | with_reducible apply Touches.foldl
    | with_reducible apply State.setDir_touches
    | with_reducible apply State.freeFrame_touches
    | split
    | dsimp only
    | ((conv => pattern (State.mk ..)); (with_reducible apply Touches.of); case k => (intro p hp; cases p <;> first | exact absurd (hl (by decide)) hp | (dsimp only [SamePart]; done) | (dsimp only [SamePart]; with_reducible exact rfl))))

theorem State.beginFill_touches {L : List Part} {Z : State} {s : State} (x : Fill) (hT : Touches L Z s) (hl : [.ur, .mc] ⊆ L) : Touches L Z (State.beginFill s x) := by
  unfold State.beginFill
  repeat' (first
    | with_reducible assumption
    | with_reducible exact hl
    | ((with_reducible refine List.Subset.trans ?_ hl); decide)
    | intro _
    | with_reducible apply Touches.ite
    | (extract_lets +onlyGivenNames u; refine (fun (hu : Touches _ _ u) => ?_) ?_; clear_value u; rotate_left; unfold u; clear u)
    | with_reducible apply Touches.foldl
    | with_reducible apply State.moveFrame_touches
    | with_reducible apply State.fillHome_touches
    | split
    | dsimp only
    | ((conv => pattern (State.mk ..)); (with_reducible apply Touches.of); case k => (intro p hp; cases p <;> first | exact absurd (hl (by decide)) hp | (dsimp only [SamePart]; done) | (dsimp only [SamePart]; with_reducible exact rfl))))

theorem State.queueWriteBack_touches {L : List Part} {Z : State} {s : State} (f : Nat) (fill : Option Fill) (hT : Touches L Z s) (hl : [.ur, .mc] ⊆ L) : Touches L Z (State.queueWriteBack s f fill) := by
  unfold State.queueWriteBack
  repeat' (first
    | with_reducible assumption
    | with_reducible exact hl
    | ((with_reducible refine List.Subset.trans ?_ hl); decide)
    | intro _
    | with_reducible apply Touches.ite
    | (extract_lets +onlyGivenNames u; refine (fun (hu : Touches _ _ u) => ?_) ?_; clear_value u; rotate_left; unfold u; clear u)
    | with_reducible apply Touches.foldl
    | with_reducible apply State.setDir_touches
    | with_reducible apply State.mcRequest_touches
    | split
    | dsimp only
    | ((conv => pattern (State.mk ..)); (with_reducible apply Touches.of); case k => (intro p hp; cases p <;> first | exact absurd (hl (by decide)) hp | (dsimp only [SamePart]; done) | (dsimp only [SamePart]; with_reducible exact rfl))))

theorem State.startFill_touches {L : List Part} {Z : State} {s : State} (x : Fill) (hT : Touches L Z s) (hl : [.ur, .mc] ⊆ L) : Touches L Z (State.startFill s x) := by
  unfold State.startFill
  repeat' (first
    | with_reducible assumption
    | with_reducible exact hl
    | ((with_reducible refine List.Subset.trans ?_ hl); decide)
    | intro _
    | with_reducible apply Touches.ite
    | (extract_lets +onlyGivenNames u; refine (fun (hu : Touches _ _ u) => ?_) ?_; clear_value u; rotate_left; unfold u; clear u)
    | with_reducible apply Touches.foldl
    | with_reducible apply State.dropFrame_touches
    | with_reducible apply State.beginFill_touches
    | with_reducible apply State.queueWriteBack_touches
    | (split; all_goals first | (with_reducible have hx := congrArg Prod.snd ‹(_ : _ × State) = (_, _)›; dsimp only at hx; subst hx) | (with_reducible have hx := congrArg (fun x => x.2.2) ‹(_ : _ × _ × State) = (_, _, _)›; dsimp only at hx; subst hx) | skip)
    | dsimp only
    | ((conv => pattern (State.mk ..)); (with_reducible apply Touches.of); case k => (intro p hp; cases p <;> first | exact absurd (hl (by decide)) hp | (dsimp only [SamePart]; done) | (dsimp only [SamePart]; with_reducible exact rfl))))

theorem State.endFill_touches {L : List Part} {Z : State} {s : State} (x : Fill) (hT : Touches L Z s) (hl : [.regs, .ur] ⊆ L) : Touches L Z (State.endFill s x) := by
  unfold State.endFill
  repeat' (first
    | with_reducible assumption
    | ((with_reducible refine List.Subset.trans ?_ hl); decide)
    | with_reducible apply State.setDir_touches
    | with_reducible apply State.bumpFld_touches
    | split
    | ((conv => pattern (State.mk ..)); (with_reducible apply Touches.of); case k => (intro p hp; cases p <;> first | exact absurd (hl (by decide)) hp | (dsimp only [SamePart]; done) | (dsimp only [SamePart]; with_reducible exact rfl))))

theorem State.quarantine_touches {L : List Part} {Z : State} {s : State} (p cause : Nat) (hT : Touches L Z s) (hl : [.regs, .objs, .ur, .log] ⊆ L) : Touches L Z (State.quarantine s p cause) := by
  unfold State.quarantine
  repeat' (first
    | with_reducible assumption
    | with_reducible exact hl
    | ((with_reducible refine List.Subset.trans ?_ hl); decide)
    | intro _
    | with_reducible apply Touches.ite
    | (extract_lets +onlyGivenNames u; refine (fun (hu : Touches _ _ u) => ?_) ?_; clear_value u; rotate_left; unfold u; clear u)
    | with_reducible apply Touches.foldl
    | with_reducible apply State.setDir_touches
    | with_reducible apply State.setPageState_touches
    | with_reducible apply State.logIt_touches
    | with_reducible apply State.setFlds_touches
    | with_reducible apply State.bumpFld_touches
    | (split; all_goals first | (with_reducible have hx := congrArg Prod.snd ‹(_ : _ × State) = (_, _)›; dsimp only at hx; subst hx) | (with_reducible have hx := congrArg (fun x => x.2.2) ‹(_ : _ × _ × State) = (_, _, _)›; dsimp only at hx; subst hx) | skip)
    | dsimp only
    | ((conv => pattern (State.mk ..)); (with_reducible apply Touches.of); case k => (intro p hp; cases p <;> first | exact absurd (hl (by decide)) hp | (dsimp only [SamePart]; done) | (dsimp only [SamePart]; with_reducible exact rfl))))

theorem State.freeQuarantined_touches {L : List Part} {Z : State} {s : State} (p : Nat) (hT : Touches L Z s) (hl : [.ur, .mc] ⊆ L) : Touches L Z (State.freeQuarantined s p) := by
  unfold State.freeQuarantined
  repeat' (first
    | with_reducible assumption
    | with_reducible exact hl
    | ((with_reducible refine List.Subset.trans ?_ hl); decide)
    | intro _
    | with_reducible apply Touches.ite
    | (extract_lets +onlyGivenNames u; refine (fun (hu : Touches _ _ u) => ?_) ?_; clear_value u; rotate_left; unfold u; clear u)
    | with_reducible apply Touches.foldl
    | with_reducible apply State.freeFrame_touches
    | split
    | dsimp only
    | ((conv => pattern (State.mk ..)); (with_reducible apply Touches.of); case k => (intro p hp; cases p <;> first | exact absurd (hl (by decide)) hp | (dsimp only [SamePart]; done) | (dsimp only [SamePart]; with_reducible exact rfl))))

theorem State.clearQ_touches {L : List Part} {Z : State} {s : State} (p : Nat) (hT : Touches L Z s) (hl : [.ur, .mc] ⊆ L) : Touches L Z (State.clearQ s p) := by
  unfold State.clearQ
  repeat' (first
    | with_reducible assumption
    | with_reducible exact hl
    | ((with_reducible refine List.Subset.trans ?_ hl); decide)
    | intro _
    | with_reducible apply Touches.ite
    | (extract_lets +onlyGivenNames u; refine (fun (hu : Touches _ _ u) => ?_) ?_; clear_value u; rotate_left; unfold u; clear u)
    | with_reducible apply Touches.foldl
    | with_reducible apply State.setPageState_touches
    | with_reducible apply State.freeQuarantined_touches
    | (split; all_goals first | (with_reducible have hx := congrArg Prod.snd ‹(_ : _ × State) = (_, _)›; dsimp only at hx; subst hx) | (with_reducible have hx := congrArg (fun x => x.2.2) ‹(_ : _ × _ × State) = (_, _, _)›; dsimp only at hx; subst hx) | skip)
    | dsimp only
    | ((conv => pattern (State.mk ..)); (with_reducible apply Touches.of); case k => (intro p hp; cases p <;> first | exact absurd (hl (by decide)) hp | (dsimp only [SamePart]; done) | (dsimp only [SamePart]; with_reducible exact rfl))))

theorem State.setCand_touches {L : List Part} {Z : State} {s : State} (k : Nat) (c : Cand) (hT : Touches L Z s) (hl : [.ur] ⊆ L) : Touches L Z (State.setCand s k c) := by
  unfold State.setCand
  repeat' (first
    | with_reducible assumption
    | dsimp only
    | ((conv => pattern (State.mk ..)); (with_reducible apply Touches.of); case k => (intro p hp; cases p <;> first | exact absurd (hl (by decide)) hp | (dsimp only [SamePart]; done) | (dsimp only [SamePart]; with_reducible exact rfl))))

theorem State.countCand_touches {L : List Part} {Z : State} {s : State} (p : Nat) (hT : Touches L Z s) (hl : [.ur] ⊆ L) : Touches L Z (State.countCand s p) := by
  unfold State.countCand
  repeat' (first
    | with_reducible assumption
    | with_reducible apply Touches.ite
    | with_reducible apply State.setCand_touches)

theorem State.promote_touches {L : List Part} {Z : State} {s : State} (q : Requester) (p : Nat) (hT : Touches L Z s) (hl : [.ur, .mc] ⊆ L) : Touches L Z (State.promote s q p) := by
  unfold State.promote
  repeat' (first
    | with_reducible assumption
    | with_reducible exact hl
    | ((with_reducible refine List.Subset.trans ?_ hl); decide)
    | intro _
    | with_reducible apply Touches.ite
    | (extract_lets +onlyGivenNames u; refine (fun (hu : Touches _ _ u) => ?_) ?_; clear_value u; rotate_left; unfold u; clear u)
    | with_reducible apply Touches.foldl
    | with_reducible apply State.setCand_touches
    | with_reducible apply State.startFill_touches
    | (split; all_goals first | (with_reducible have hx := congrArg Prod.snd ‹(_ : _ × State) = (_, _)›; dsimp only at hx; subst hx) | (with_reducible have hx := congrArg (fun x => x.2.2) ‹(_ : _ × _ × State) = (_, _, _)›; dsimp only at hx; subst hx) | skip)
    | dsimp only
    | ((conv => pattern (State.mk ..)); (with_reducible apply Touches.of); case k => (intro p hp; cases p <;> first | exact absurd (hl (by decide)) hp | (dsimp only [SamePart]; done) | (dsimp only [SamePart]; with_reducible exact rfl))))

theorem State.urTouch_touches {L : List Part} {Z : State} {s : State} (q : Requester) (p grains : Nat) (write : Bool) (hT : Touches L Z s) (hl : [.regs, .ur, .mc] ⊆ L) : Touches L Z (State.urTouch s q p grains write) := by
  unfold State.urTouch
  repeat' (first
    | with_reducible assumption
    | with_reducible exact hl
    | ((with_reducible refine List.Subset.trans ?_ hl); decide)
    | intro _
    | with_reducible apply Touches.ite
    | (extract_lets +onlyGivenNames u; refine (fun (hu : Touches _ _ u) => ?_) ?_; clear_value u; rotate_left; unfold u; clear u)
    | with_reducible apply Touches.foldl
    | with_reducible apply State.promote_touches
    | with_reducible apply State.setDir_touches
    | with_reducible apply State.mcRequest_touches
    | with_reducible apply State.countCand_touches
    | with_reducible apply State.bumpFld_touches
    | (split; all_goals first | (with_reducible have hx := congrArg Prod.snd ‹(_ : _ × State) = (_, _)›; dsimp only at hx; subst hx) | (with_reducible have hx := congrArg (fun x => x.2.2) ‹(_ : _ × _ × State) = (_, _, _)›; dsimp only at hx; subst hx) | skip)
    | dsimp only
    | ((conv => pattern (State.mk ..)); (with_reducible apply Touches.of); case k => (intro p hp; cases p <;> first | exact absurd (hl (by decide)) hp | (dsimp only [SamePart]; done) | (dsimp only [SamePart]; with_reducible exact rfl))))

theorem State.urCheck_touches {L : List Part} {Z : State} {s : State} (q : Requester) (write : Bool) (off n p : Nat) (obs : List Obs) (hT : Touches L Z s) (hl : [.regs, .objs, .ur, .log, .sec] ⊆ L) : Touches L Z (State.urCheck s q write off n p obs).2 := by
  unfold State.urCheck
  repeat' (first
    | with_reducible assumption
    | with_reducible exact hl
    | ((with_reducible refine List.Subset.trans ?_ hl); decide)
    | intro _
    | with_reducible apply Touches.ite
    | (extract_lets +onlyGivenNames u; refine (fun (hu : Touches _ _ u) => ?_) ?_; clear_value u; rotate_left; unfold u; clear u)
    | with_reducible apply Touches.foldl
    | with_reducible apply State.refuseAccess_touches
    | with_reducible apply State.quarantine_touches
    | (split; all_goals first | (with_reducible have hx := congrArg Prod.snd ‹(_ : _ × State) = (_, _)›; dsimp only at hx; subst hx) | (with_reducible have hx := congrArg (fun x => x.2.2) ‹(_ : _ × _ × State) = (_, _, _)›; dsimp only at hx; subst hx) | skip)
    | dsimp only
    | ((conv => pattern (State.mk ..)); (with_reducible apply Touches.of); case k => (intro p hp; cases p <;> first | exact absurd (hl (by decide)) hp | (dsimp only [SamePart]; done) | (dsimp only [SamePart]; with_reducible exact rfl))))

theorem State.urReadPage_touches {L : List Part} {Z : State} {s : State} (q : Requester) (off n : Nat) (obs : List Obs) (p : Nat) (hT : Touches L Z s) (hl : [.regs, .objs, .ur, .mc, .log, .sec] ⊆ L) : Touches L Z (State.urReadPage s q off n obs p).2 := by
  unfold State.urReadPage
  repeat' (first
    | with_reducible assumption
    | ((with_reducible refine List.Subset.trans ?_ hl); decide)
    | with_reducible apply State.urCheck_touches
    | with_reducible apply State.urTouch_touches
    | (split; all_goals first | (with_reducible have hx := congrArg Prod.snd ‹(_ : _ × State) = (_, _)›; dsimp only at hx; subst hx) | skip)
    | dsimp only)

theorem State.urReadNext_touches {L : List Part} {Z : State} {q : Requester} {off n : Nat} {obs : List Obs}
    {a : Except UrErr (List Byte) × State} (p : Nat) (hT : Touches L Z a.2) (hl : [.regs, .objs, .ur, .mc, .log, .sec] ⊆ L) :
    Touches L Z (State.urReadNext q off n obs a p).2 := by
  obtain ⟨e, s⟩ := a
  have k := State.urReadPage_touches (s := s) q off n obs p hT hl
  unfold State.urReadNext
  cases e with
  | error e => exact hT
  | ok bs =>
    dsimp only
    generalize s.urReadPage q off n obs p = r at *
    obtain ⟨r1, r2⟩ := r
    cases r1 <;> exact k

theorem State.urReadPages_touches {L : List Part} {Z : State} {s : State} (q : Requester) (off n : Nat) (obs : List Obs) (ps : List Nat)
    (hT : Touches L Z s) (hl : [.regs, .objs, .ur, .mc, .log, .sec] ⊆ L) : Touches L Z (s.urReadPages q off n obs ps).2 := by
  unfold State.urReadPages
  suffices ∀ a : Except UrErr (List Byte) × State, Touches L Z a.2 → Touches L Z (ps.foldl (State.urReadNext q off n obs) a).2 from this _ hT
  induction ps with
  | nil => exact fun _ h => h
  | cons p r ih => exact fun a h => ih _ (State.urReadNext_touches p h hl)

theorem State.urRead_touches {L : List Part} {Z : State} {s : State} (q : Requester) (off n : Nat) (obs : List Obs) (hT : Touches L Z s) (hl : [.regs, .objs, .ur, .mc, .log, .sec] ⊆ L) : Touches L Z (State.urRead s q off n obs).2 := by
  unfold State.urRead
  repeat' (first
    | with_reducible assumption
    | with_reducible exact hl
    | ((with_reducible refine List.Subset.trans ?_ hl); decide)
    | intro _
    | with_reducible apply Touches.ite
    | (extract_lets +onlyGivenNames u; refine (fun (hu : Touches _ _ u) => ?_) ?_; clear_value u; rotate_left; unfold u; clear u)
    | with_reducible apply Touches.foldl
    | with_reducible apply State.urReadPages_touches
    | (split; all_goals first | (with_reducible have hx := congrArg Prod.snd ‹(_ : _ × State) = (_, _)›; dsimp only at hx; subst hx) | (with_reducible have hx := congrArg (fun x => x.2.2) ‹(_ : _ × _ × State) = (_, _, _)›; dsimp only at hx; subst hx) | skip)
    | dsimp only
    | ((conv => pattern (State.mk ..)); (with_reducible apply Touches.of); case k => (intro p hp; cases p <;> first | exact absurd (hl (by decide)) hp | (dsimp only [SamePart]; done) | (dsimp only [SamePart]; with_reducible exact rfl))))

theorem State.urPut_touches {L : List Part} {Z : State} {s : State} (off : Nat) (bs : List Byte) (hT : Touches L Z s) (hl : [.ur] ⊆ L) : Touches L Z (State.urPut s off bs) := by
  unfold State.urPut
  repeat' (first
    | with_reducible assumption
    | ((with_reducible refine List.Subset.trans ?_ hl); decide)
    | with_reducible apply State.setDir_touches
    | with_reducible apply State.wholeHome_touches
    | with_reducible apply State.mergeHome_touches
    | split
    | dsimp only
    | ((conv => pattern (State.mk ..)); (with_reducible apply Touches.of); case k => (intro p hp; cases p <;> first | exact absurd (hl (by decide)) hp | (dsimp only [SamePart]; done) | (dsimp only [SamePart]; with_reducible exact rfl))))

theorem State.urPutWhole_touches {L : List Part} {Z : State} {s : State} (p : Nat) (bs : List Byte) (hT : Touches L Z s) (hl : [.ur, .mc] ⊆ L) : Touches L Z (State.urPutWhole s p bs) := by
  unfold State.urPutWhole
  repeat' (first
    | with_reducible assumption
    | ((with_reducible refine List.Subset.trans ?_ hl); decide)
    | with_reducible apply Touches.ite
    | with_reducible apply State.setPageState_touches
    | with_reducible apply State.wholeHome_touches
    | with_reducible apply State.urPut_touches
    | with_reducible apply State.freeQuarantined_touches
    | split
    | dsimp only
    | ((conv => pattern (State.mk ..)); (with_reducible apply Touches.of); case k => (intro p hp; cases p <;> first | exact absurd (hl (by decide)) hp | (dsimp only [SamePart]; done) | (dsimp only [SamePart]; with_reducible exact rfl))))

theorem State.urPutPage_touches {L : List Part} {Z : State} {s : State} (q : Requester) (off : Nat) (bs : List Byte) (p : Nat) (hT : Touches L Z s) (hl : [.regs, .ur, .mc] ⊆ L) : Touches L Z (State.urPutPage s q off bs p) := by
  unfold State.urPutPage
  repeat' (first
    | with_reducible assumption
    | with_reducible exact hl
    | ((with_reducible refine List.Subset.trans ?_ hl); decide)
    | intro _
    | with_reducible apply Touches.ite
    | (extract_lets +onlyGivenNames u; refine (fun (hu : Touches _ _ u) => ?_) ?_; clear_value u; rotate_left; unfold u; clear u)
    | with_reducible apply Touches.foldl
    | with_reducible apply State.urPut_touches
    | with_reducible apply State.urPutWhole_touches
    | with_reducible apply State.urTouch_touches
    | split
    | dsimp only
    | ((conv => pattern (State.mk ..)); (with_reducible apply Touches.of); case k => (intro p hp; cases p <;> first | exact absurd (hl (by decide)) hp | (dsimp only [SamePart]; done) | (dsimp only [SamePart]; with_reducible exact rfl))))

theorem State.urCheckPages_touches {L : List Part} {Z : State} {q : Requester} {off n : Nat} {obs : List Obs} {a : Option UrErr × State} (p : Nat)
    (hT : Touches L Z a.2) (hl : [.regs, .objs, .ur, .log, .sec] ⊆ L) : Touches L Z (State.urCheckPages q off n obs a p).2 := by
  obtain ⟨e, s⟩ := a
  unfold State.urCheckPages
  cases e with
  | some e => exact hT
  | none => exact State.urCheck_touches (s := s) q true off n p obs hT hl

theorem State.urAdmit_touches {L : List Part} {Z : State} {s : State} (q : Requester) (off n : Nat) (obs : List Obs) (hT : Touches L Z s)
    (hl : [.regs, .objs, .ur, .log, .sec] ⊆ L) : Touches L Z (s.urAdmit q off n obs).2 := by
  unfold State.urAdmit
  suffices ∀ a : Option UrErr × State, Touches L Z a.2 → Touches L Z ((pagesOfRun off n).foldl (State.urCheckPages q off n obs) a).2 from this _ hT
  induction pagesOfRun off n with
  | nil => exact fun _ h => h
  | cons p r ih => exact fun a h => ih _ (State.urCheckPages_touches p h hl)

theorem State.urStore_touches {L : List Part} {Z : State} {s : State} (q : Requester) (off : Nat) (bs : List Byte) (hT : Touches L Z s) (hl : [.regs, .ur, .mc] ⊆ L) : Touches L Z (State.urStore s q off bs) := by
  unfold State.urStore
  repeat' (first
    | with_reducible assumption
    | with_reducible exact hl
    | ((with_reducible refine List.Subset.trans ?_ hl); decide)
    | intro _
    | with_reducible apply Touches.ite
    | (extract_lets +onlyGivenNames u; refine (fun (hu : Touches _ _ u) => ?_) ?_; clear_value u; rotate_left; unfold u; clear u)
    | with_reducible apply Touches.foldl
    | with_reducible apply State.urPutPage_touches
    | split
    | dsimp only
    | ((conv => pattern (State.mk ..)); (with_reducible apply Touches.of); case k => (intro p hp; cases p <;> first | exact absurd (hl (by decide)) hp | (dsimp only [SamePart]; done) | (dsimp only [SamePart]; with_reducible exact rfl))))

theorem State.urWrite_touches {L : List Part} {Z : State} {s : State} (q : Requester) (off : Nat) (bs : List Byte) (obs : List Obs) (hT : Touches L Z s) (hl : [.regs, .objs, .ur, .mc, .log, .sec] ⊆ L) : Touches L Z (State.urWrite s q off bs obs).2 := by
  unfold State.urWrite
  repeat' (first
    | with_reducible assumption
    | with_reducible exact hl
    | ((with_reducible refine List.Subset.trans ?_ hl); decide)
    | intro _
    | with_reducible apply Touches.ite
    | (extract_lets +onlyGivenNames u; refine (fun (hu : Touches _ _ u) => ?_) ?_; clear_value u; rotate_left; unfold u; clear u)
    | with_reducible apply Touches.foldl
    | with_reducible apply State.urStore_touches
    | with_reducible apply State.urAdmit_touches
    | (split; all_goals first | (with_reducible have hx := congrArg Prod.snd ‹(_ : _ × State) = (_, _)›; dsimp only at hx; subst hx) | (with_reducible have hx := congrArg (fun x => x.2.2) ‹(_ : _ × _ × State) = (_, _, _)›; dsimp only at hx; subst hx) | skip)
    | dsimp only
    | ((conv => pattern (State.mk ..)); (with_reducible apply Touches.of); case k => (intro p hp; cases p <;> first | exact absurd (hl (by decide)) hp | (dsimp only [SamePart]; done) | (dsimp only [SamePart]; with_reducible exact rfl))))

theorem State.pinInto_touches {L : List Part} {Z : State} {s : State} (p quota port : Nat) (deadline : Option Nat) (hT : Touches L Z s) (hl : [.ur, .mc] ⊆ L) : Touches L Z (State.pinInto s p quota port deadline).2 := by
  unfold State.pinInto
  repeat' (first
    | with_reducible assumption
    | with_reducible exact hl
    | ((with_reducible refine List.Subset.trans ?_ hl); decide)
    | intro _
    | with_reducible apply Touches.ite
    | (extract_lets +onlyGivenNames u; refine (fun (hu : Touches _ _ u) => ?_) ?_; clear_value u; rotate_left; unfold u; clear u)
    | with_reducible apply Touches.foldl
    | with_reducible apply State.startFill_touches
    | split
    | dsimp only
    | ((conv => pattern (State.mk ..)); (with_reducible apply Touches.of); case k => (intro p hp; cases p <;> first | exact absurd (hl (by decide)) hp | (dsimp only [SamePart]; done) | (dsimp only [SamePart]; with_reducible exact rfl))))

theorem State.pinPage_touches {L : List Part} {Z : State} {s : State} (p quota port : Nat) (deadline : Option Nat) (hT : Touches L Z s) (hl : [.ur, .mc] ⊆ L) : Touches L Z (State.pinPage s p quota port deadline).2 := by
  unfold State.pinPage
  repeat' (first
    | with_reducible assumption
    | ((with_reducible refine List.Subset.trans ?_ hl); decide)
    | with_reducible apply State.pinInto_touches
    | with_reducible apply State.setPinOf_touches
    | split
    | dsimp only
    | ((conv => pattern (State.mk ..)); (with_reducible apply Touches.of); case k => (intro p hp; cases p <;> first | exact absurd (hl (by decide)) hp | (dsimp only [SamePart]; done) | (dsimp only [SamePart]; with_reducible exact rfl))))

theorem State.unpinPage_touches {L : List Part} {Z : State} {s : State} (p : Nat) (hT : Touches L Z s) (hl : [.ur] ⊆ L) : Touches L Z (State.unpinPage s p) := by
  unfold State.unpinPage
  repeat' (first
    | with_reducible assumption
    | with_reducible apply State.setPinOf_touches
    | split)

theorem State.setPinning_touches {L : List Part} {Z : State} {s : State} (x : Option (List Nat × Nat)) (hT : Touches L Z s) (hl : [.ur] ⊆ L) : Touches L Z (State.setPinning s x) := by
  unfold State.setPinning
  repeat' (first
    | with_reducible assumption
    | with_reducible exact hl
    | ((with_reducible refine List.Subset.trans ?_ hl); decide)
    | intro _
    | with_reducible apply Touches.ite
    | (extract_lets +onlyGivenNames u; refine (fun (hu : Touches _ _ u) => ?_) ?_; clear_value u; rotate_left; unfold u; clear u)
    | with_reducible apply Touches.foldl
    | split
    | dsimp only
    | ((conv => pattern (State.mk ..)); (with_reducible apply Touches.of); case k => (intro p hp; cases p <;> first | exact absurd (hl (by decide)) hp | (dsimp only [SamePart]; done) | (dsimp only [SamePart]; with_reducible exact rfl))))

theorem State.stopFill_touches {L : List Part} {Z : State} {s : State} (f : Nat) (hT : Touches L Z s) (hl : [.ur] ⊆ L) : Touches L Z (State.stopFill s f) := by
  unfold State.stopFill
  repeat' (first
    | with_reducible assumption
    | with_reducible exact hl
    | ((with_reducible refine List.Subset.trans ?_ hl); decide)
    | intro _
    | with_reducible apply Touches.ite
    | (extract_lets +onlyGivenNames u; refine (fun (hu : Touches _ _ u) => ?_) ?_; clear_value u; rotate_left; unfold u; clear u)
    | with_reducible apply Touches.foldl
    | with_reducible apply State.dropFrame_touches
    | with_reducible apply State.frameToHome_touches
    | split
    | dsimp only
    | ((conv => pattern (State.mk ..)); (with_reducible apply Touches.of); case k => (intro p hp; cases p <;> first | exact absurd (hl (by decide)) hp | (dsimp only [SamePart]; done) | (dsimp only [SamePart]; with_reducible exact rfl))))

theorem State.retireFrame_touches {L : List Part} {Z : State} {s : State} (f : Nat) (hT : Touches L Z s) (hl : [.ur, .mc] ⊆ L) : Touches L Z (State.retireFrame s f) := by
  unfold State.retireFrame
  repeat' (first
    | with_reducible assumption
    | with_reducible exact hl
    | ((with_reducible refine List.Subset.trans ?_ hl); decide)
    | intro _
    | with_reducible apply Touches.ite
    | (extract_lets +onlyGivenNames u; refine (fun (hu : Touches _ _ u) => ?_) ?_; clear_value u; rotate_left; unfold u; clear u)
    | with_reducible apply Touches.foldl
    | with_reducible apply State.setDir_touches
    | with_reducible apply State.dropFrame_touches
    | with_reducible apply State.queueWriteBack_touches
    | with_reducible apply State.stopFill_touches
    | split
    | dsimp only
    | ((conv => pattern (State.mk ..)); (with_reducible apply Touches.of); case k => (intro p hp; cases p <;> first | exact absurd (hl (by decide)) hp | (dsimp only [SamePart]; done) | (dsimp only [SamePart]; with_reducible exact rfl))))

theorem State.startRetire_touches {L : List Part} {Z : State} {s : State} (quarter : Nat) (hT : Touches L Z s) (hl : [.regs, .ur, .mc] ⊆ L) : Touches L Z (State.startRetire s quarter) := by
  unfold State.startRetire
  repeat' (first
    | with_reducible assumption
    | with_reducible exact hl
    | ((with_reducible refine List.Subset.trans ?_ hl); decide)
    | intro _
    | with_reducible apply Touches.ite
    | (extract_lets +onlyGivenNames u; refine (fun (hu : Touches _ _ u) => ?_) ?_; clear_value u; rotate_left; unfold u; clear u)
    | with_reducible apply Touches.foldl
    | with_reducible apply State.retireFrame_touches
    | with_reducible apply State.setFld_touches
    | split
    | dsimp only
    | ((conv => pattern (State.mk ..)); (with_reducible apply Touches.of); case k => (intro p hp; cases p <;> first | exact absurd (hl (by decide)) hp | (dsimp only [SamePart]; done) | (dsimp only [SamePart]; with_reducible exact rfl))))

theorem State.setRec_touches {L : List Part} {Z : State} {s : State} (slot v : Nat) (hT : Touches L Z s) (hl : [.ledger] ⊆ L) : Touches L Z (State.setRec s slot v) := by
  unfold State.setRec
  repeat' (first
    | with_reducible assumption
    | dsimp only
    | ((conv => pattern (State.mk ..)); (with_reducible apply Touches.of); case k => (intro p hp; cases p <;> first | exact absurd (hl (by decide)) hp | (dsimp only [SamePart]; done) | (dsimp only [SamePart]; with_reducible exact rfl))))

theorem State.setRing_touches {L : List Part} {Z : State} {s : State} (r : Nat) (x : Ring) (hT : Touches L Z s) (hl : [.ledger] ⊆ L) : Touches L Z (State.setRing s r x) := by
  unfold State.setRing
  repeat' (first
    | with_reducible assumption
    | dsimp only
    | ((conv => pattern (State.mk ..)); (with_reducible apply Touches.of); case k => (intro p hp; cases p <;> first | exact absurd (hl (by decide)) hp | (dsimp only [SamePart]; done) | (dsimp only [SamePart]; with_reducible exact rfl))))

theorem State.dropRecord_touches {L : List Part} {Z : State} {s : State} (r : Nat) (hT : Touches L Z s) (hl : [.objs, .ledger] ⊆ L) : Touches L Z (State.dropRecord s r) := by
  unfold State.dropRecord
  repeat' (first
    | with_reducible assumption
    | ((with_reducible refine List.Subset.trans ?_ hl); decide)
    | with_reducible apply Touches.ite
    | with_reducible apply State.bumpObj_touches
    | with_reducible apply State.setRing_touches)

theorem State.publishDue_touches {L : List Part} {Z : State} {s : State} (r subject evidence cls flags code : Nat) (payload : List Byte) (due : Option Nat) (hT : Touches L Z s) (hl : [.regs, .objs, .ur, .mc, .ledger, .log, .sec] ⊆ L) : Touches L Z (State.publishDue s r subject evidence cls flags code payload due) := by
  unfold State.publishDue
  repeat' (first
    | with_reducible assumption
    | ((with_reducible refine List.Subset.trans ?_ hl); decide)
    | with_reducible apply Touches.ite
    | with_reducible apply State.logIt_touches
    | with_reducible apply State.setRing_touches
    | with_reducible apply State.urWrite_touches
    | with_reducible apply State.dropRecord_touches
    | (split; all_goals first | (with_reducible have hx := congrArg Prod.snd ‹(_ : _ × State) = (_, _)›; dsimp only at hx; subst hx) | skip)
    | dsimp only
    | ((conv => pattern (State.mk ..)); (with_reducible apply Touches.of); case k => (intro p hp; cases p <;> first | exact absurd (hl (by decide)) hp | (dsimp only [SamePart]; done) | (dsimp only [SamePart]; with_reducible exact rfl))))

theorem State.publish_touches {L : List Part} {Z : State} {s : State} (r subject evidence cls flags code : Nat) (payload : List Byte) (hT : Touches L Z s) (hl : [.regs, .objs, .ur, .mc, .ledger, .log, .sec] ⊆ L) : Touches L Z (State.publish s r subject evidence cls flags code payload) := by
  unfold State.publish
  repeat' (first
    | with_reducible assumption
    | with_reducible apply State.publishDue_touches)

theorem State.publishTo_touches {L : List Part} {Z : State} {s : State} (h subject evidence cls flags code : Nat) (payload : List Byte) (hT : Touches L Z s) (hl : [.regs, .objs, .ur, .mc, .ledger, .log, .sec] ⊆ L) : Touches L Z (State.publishTo s h subject evidence cls flags code payload) := by
  unfold State.publishTo
  repeat' (first
    | with_reducible assumption
    | ((with_reducible refine List.Subset.trans ?_ hl); decide)
    | with_reducible apply Touches.ite
    | with_reducible apply State.publish_touches
    | with_reducible apply State.dropRecord_touches)

theorem State.eventOn_touches {L : List Part} {Z : State} {s : State} (subject code arg evidence : Nat) (hT : Touches L Z s) (hl : [.regs, .objs, .ur, .mc, .ledger, .log, .sec, .pwr] ⊆ L) : Touches L Z (State.eventOn s subject code arg evidence) := by
  unfold State.eventOn
  repeat' (first
    | with_reducible assumption
    | ((with_reducible refine List.Subset.trans ?_ hl); decide)
    | with_reducible apply Touches.ite
    | with_reducible apply State.publish_touches
    | dsimp only
    | ((conv => pattern (State.mk ..)); (with_reducible apply Touches.of); case k => (intro p hp; cases p <;> first | exact absurd (hl (by decide)) hp | (dsimp only [SamePart]; done) | (dsimp only [SamePart]; with_reducible exact rfl))))

theorem State.event_touches {L : List Part} {Z : State} {s : State} (code arg evidence : Nat) (hT : Touches L Z s) (hl : [.regs, .objs, .ur, .mc, .ledger, .log, .sec, .pwr] ⊆ L) : Touches L Z (State.event s code arg evidence) := by
  unfold State.event
  repeat' (first
    | with_reducible assumption
    | with_reducible apply State.eventOn_touches)

theorem State.binCapture_touches {L : List Part} {Z : State} {s : State} (b type bank row port : Nat) (hT : Touches L Z s) (hl : [.regs] ⊆ L) : Touches L Z (State.binCapture s b type bank row port) := by
  unfold State.binCapture
  repeat' (first
    | with_reducible assumption
    | with_reducible exact hl
    | ((with_reducible refine List.Subset.trans ?_ hl); decide)
    | intro _
    | with_reducible apply Touches.ite
    | (extract_lets +onlyGivenNames u; refine (fun (hu : Touches _ _ u) => ?_) ?_; clear_value u; rotate_left; unfold u; clear u)
    | with_reducible apply Touches.foldl
    | with_reducible apply State.setFlds_touches
    | split
    | dsimp only
    | ((conv => pattern (State.mk ..)); (with_reducible apply Touches.of); case k => (intro p hp; cases p <;> first | exact absurd (hl (by decide)) hp | (dsimp only [SamePart]; done) | (dsimp only [SamePart]; with_reducible exact rfl))))

theorem State.binErrlog_touches {L : List Part} {Z : State} {s : State} (b type bank row port : Nat) (hT : Touches L Z s) (hl : [.regs, .objs, .log] ⊆ L) : Touches L Z (State.binErrlog s b type bank row port) := by
  unfold State.binErrlog
  repeat' (first
    | with_reducible assumption
    | with_reducible exact hl
    | ((with_reducible refine List.Subset.trans ?_ hl); decide)
    | intro _
    | with_reducible apply Touches.ite
    | (extract_lets +onlyGivenNames u; refine (fun (hu : Touches _ _ u) => ?_) ?_; clear_value u; rotate_left; unfold u; clear u)
    | with_reducible apply Touches.foldl
    | with_reducible apply State.logIt_touches
    | with_reducible apply State.binCapture_touches
    | (split; all_goals first | (with_reducible have hx := congrArg Prod.snd ‹(_ : _ × State) = (_, _)›; dsimp only at hx; subst hx) | (with_reducible have hx := congrArg (fun x => x.2.2) ‹(_ : _ × _ × State) = (_, _, _)›; dsimp only at hx; subst hx) | skip)
    | dsimp only
    | ((conv => pattern (State.mk ..)); (with_reducible apply Touches.of); case k => (intro p hp; cases p <;> first | exact absurd (hl (by decide)) hp | (dsimp only [SamePart]; done) | (dsimp only [SamePart]; with_reducible exact rfl))))

theorem State.setPoison_touches {L : List Part} {Z : State} {s : State} (b g : Nat) (v : Bool) (hT : Touches L Z s) (hl : [.bin] ⊆ L) : Touches L Z (State.setPoison s b g v) := by
  unfold State.setPoison
  repeat' (first
    | with_reducible assumption
    | dsimp only
    | ((conv => pattern (State.mk ..)); (with_reducible apply Touches.of); case k => (intro p hp; cases p <;> first | exact absurd (hl (by decide)) hp | (dsimp only [SamePart]; done) | (dsimp only [SamePart]; with_reducible exact rfl))))

theorem State.binCorrected_touches {L : List Part} {Z : State} {s : State} (b g port : Nat) (hT : Touches L Z s) (hl : [.regs, .objs, .bin, .log] ⊆ L) : Touches L Z (State.binCorrected s b g port) := by
  unfold State.binCorrected
  repeat' (first
    | with_reducible assumption
    | ((with_reducible refine List.Subset.trans ?_ hl); decide)
    | with_reducible apply State.binErrlog_touches
    | with_reducible apply State.bumpFld_touches
    | split
    | dsimp only
    | ((conv => pattern (State.mk ..)); (with_reducible apply Touches.of); case k => (intro p hp; cases p <;> first | exact absurd (hl (by decide)) hp | (dsimp only [SamePart]; done) | (dsimp only [SamePart]; with_reducible exact rfl))))

theorem State.binUncorrectable_touches {L : List Part} {Z : State} {s : State} (b g port : Nat) (hT : Touches L Z s) (hl : [.regs, .objs, .bin, .log] ⊆ L) : Touches L Z (State.binUncorrectable s b g port) := by
  unfold State.binUncorrectable
  repeat' (first
    | with_reducible assumption
    | ((with_reducible refine List.Subset.trans ?_ hl); decide)
    | with_reducible apply Touches.ite
    | with_reducible apply State.binErrlog_touches
    | with_reducible apply State.setPoison_touches
    | with_reducible apply State.bumpFld_touches
    | dsimp only
    | ((conv => pattern (State.mk ..)); (with_reducible apply Touches.of); case k => (intro p hp; cases p <;> first | exact absurd (hl (by decide)) hp | (dsimp only [SamePart]; done) | (dsimp only [SamePart]; with_reducible exact rfl))))

theorem State.binSealBad_touches {L : List Part} {Z : State} {s : State} (b g port : Nat) (hT : Touches L Z s) (hl : [.regs, .objs, .bin, .log] ⊆ L) : Touches L Z (State.binSealBad s b g port) := by
  unfold State.binSealBad
  repeat' (first
    | with_reducible assumption
    | ((with_reducible refine List.Subset.trans ?_ hl); decide)
    | with_reducible apply State.binErrlog_touches
    | with_reducible apply State.setPoison_touches
    | with_reducible apply State.bumpFld_touches)

theorem State.binPoisonHit_touches {L : List Part} {Z : State} {s : State} (b g port : Nat) (hT : Touches L Z s) (hl : [.regs, .objs, .log] ⊆ L) : Touches L Z (State.binPoisonHit s b g port) := by
  unfold State.binPoisonHit
  repeat' (first
    | with_reducible assumption
    | with_reducible apply State.binErrlog_touches)

theorem State.binWorldError_touches {L : List Part} {Z : State} {s : State} (q : Requester) (write : Bool) (b g port : Nat) (hT : Touches L Z s) (hl : [.regs, .objs, .log, .sec] ⊆ L) : Touches L Z (State.binWorldError s q write b g port) := by
  unfold State.binWorldError
  repeat' (first
    | with_reducible assumption
    | ((with_reducible refine List.Subset.trans ?_ hl); decide)
    | with_reducible apply State.binErrlog_touches
    | with_reducible apply State.refuseAccess_touches
    | with_reducible apply State.bumpFld_touches)

theorem State.checkGrain_touches {L : List Part} {Z : State} {s : State} (port b g : Nat) (whole : Bool) (obs : List Obs) (hT : Touches L Z s) (hl : [.regs, .objs, .bin, .log] ⊆ L) : Touches L Z (State.checkGrain s port b g whole obs).2 := by
  unfold State.checkGrain
  repeat' (first
    | with_reducible assumption
    | ((with_reducible refine List.Subset.trans ?_ hl); decide)
    | with_reducible apply State.binPoisonHit_touches
    | with_reducible apply State.binSealBad_touches
    | with_reducible apply State.binCorrected_touches
    | with_reducible apply State.binUncorrectable_touches
    | split
    | dsimp only)

theorem State.checkGrains_touches {L : List Part} {Z : State} {s : State} (port b : Nat) (gs : List (Nat × Bool)) (obs : List Obs)
    (hT : Touches L Z s) (hl : [.regs, .objs, .bin, .log] ⊆ L) : Touches L Z (s.checkGrains port b gs obs).2 := by
  induction gs generalizing s with
  | nil => exact hT
  | cons g r ih =>
    obtain ⟨g, w⟩ := g
    have k := State.checkGrain_touches (s := s) port b g w obs hT hl
    unfold State.checkGrains
    generalize s.checkGrain port b g w obs = u at *
    obtain ⟨e, u⟩ := u
    cases e with
    | some e => exact k
    | none => exact ih k

theorem State.binAdmit_touches {L : List Part} {Z : State} {s : State} (q : Requester) (write : Bool) (port b : Nat) (gs : List Nat) (hT : Touches L Z s) (hl : [.regs, .objs, .log, .sec] ⊆ L) : Touches L Z (State.binAdmit s q write port b gs).2 := by
  unfold State.binAdmit
  repeat' (first
    | with_reducible assumption
    | with_reducible apply State.binWorldError_touches
    | split)

theorem State.binStore_touches {L : List Part} {Z : State} {s : State} (b : Nat) (ws : List (Nat × Byte)) (gs : List (Nat × Bool)) (hT : Touches L Z s) (hl : [.bin] ⊆ L) : Touches L Z (State.binStore s b ws gs) := by
  unfold State.binStore
  repeat' (first
    | with_reducible assumption
    | dsimp only
    | ((conv => pattern (State.mk ..)); (with_reducible apply Touches.of); case k => (intro p hp; cases p <;> first | exact absurd (hl (by decide)) hp | (dsimp only [SamePart]; done) | (dsimp only [SamePart]; with_reducible exact rfl))))

theorem State.mergeCheck_touches {L : List Part} {Z : State} {s : State} (port b : Nat) (gs : List (Nat × Bool)) (obs : List Obs) (hT : Touches L Z s) (hl : [.regs, .objs, .bin, .log] ⊆ L) : Touches L Z (State.mergeCheck s port b gs obs).2 := by
  unfold State.mergeCheck
  repeat' (first
    | with_reducible assumption
    | with_reducible exact hl
    | ((with_reducible refine List.Subset.trans ?_ hl); decide)
    | intro _
    | with_reducible apply Touches.ite
    | (extract_lets +onlyGivenNames u; refine (fun (hu : Touches _ _ u) => ?_) ?_; clear_value u; rotate_left; unfold u; clear u)
    | with_reducible apply Touches.foldl
    | with_reducible apply State.checkGrains_touches
    | (split; all_goals first | (with_reducible have hx := congrArg Prod.snd ‹(_ : _ × State) = (_, _)›; dsimp only at hx; subst hx) | (with_reducible have hx := congrArg (fun x => x.2.2) ‹(_ : _ × _ × State) = (_, _, _)›; dsimp only at hx; subst hx) | skip)
    | dsimp only
    | ((conv => pattern (State.mk ..)); (with_reducible apply Touches.of); case k => (intro p hp; cases p <;> first | exact absurd (hl (by decide)) hp | (dsimp only [SamePart]; done) | (dsimp only [SamePart]; with_reducible exact rfl))))

theorem State.binWrite_touches {L : List Part} {Z : State} {s : State} (port b : Nat) (ws : List (Nat × Byte)) (obs : List Obs) (hT : Touches L Z s) (hl : [.regs, .objs, .bin, .log] ⊆ L) : Touches L Z (State.binWrite s port b ws obs).2 := by
  unfold State.binWrite
  repeat' (first
    | with_reducible assumption
    | ((with_reducible refine List.Subset.trans ?_ hl); decide)
    | with_reducible apply State.binStore_touches
    | with_reducible apply State.mergeCheck_touches
    | (split; all_goals first | (with_reducible have hx := congrArg Prod.snd ‹(_ : _ × State) = (_, _)›; dsimp only at hx; subst hx) | skip)
    | dsimp only)

theorem State.binWriteRun_touches {L : List Part} {Z : State} {s : State} (port b off : Nat) (bs : List Byte) (obs : List Obs) (hT : Touches L Z s) (hl : [.regs, .objs, .bin, .log] ⊆ L) : Touches L Z (State.binWriteRun s port b off bs obs).2 := by
  unfold State.binWriteRun
  repeat' (first
    | with_reducible assumption
    | ((with_reducible refine List.Subset.trans ?_ hl); decide)
    | with_reducible apply State.binStore_touches
    | with_reducible apply State.mergeCheck_touches
    | (split; all_goals first | (with_reducible have hx := congrArg Prod.snd ‹(_ : _ × State) = (_, _)›; dsimp only at hx; subst hx) | skip)
    | dsimp only)

theorem State.binUnitWrite_touches {L : List Part} {Z : State} {s : State} (q : Requester) (port b off : Nat) (bs : List Byte) (hT : Touches L Z s) (hl : [.regs, .objs, .bin, .log, .sec] ⊆ L) : Touches L Z (State.binUnitWrite s q port b off bs).2 := by
  unfold State.binUnitWrite
  repeat' (first
    | with_reducible assumption
    | ((with_reducible refine List.Subset.trans ?_ hl); decide)
    | with_reducible apply State.binWriteRun_touches
    | with_reducible apply State.binAdmit_touches
    | (split; all_goals first | (with_reducible have hx := congrArg Prod.snd ‹(_ : _ × State) = (_, _)›; dsimp only at hx; subst hx) | skip))

theorem State.binUnitRead_touches {L : List Part} {Z : State} {s : State} (q : Requester) (port b off n : Nat) (obs : List Obs) (hT : Touches L Z s) (hl : [.regs, .objs, .bin, .log, .sec] ⊆ L) : Touches L Z (State.binUnitRead s q port b off n obs).2 := by
  unfold State.binUnitRead
  repeat' (first
    | with_reducible assumption
    | ((with_reducible refine List.Subset.trans ?_ hl); decide)
    | with_reducible apply State.checkGrains_touches
    | with_reducible apply State.binAdmit_touches
    | (split; all_goals first | (with_reducible have hx := congrArg Prod.snd ‹(_ : _ × State) = (_, _)›; dsimp only at hx; subst hx) | skip)
    | dsimp only)

theorem State.raiseTally_touches {L : List Part} {Z : State} {s : State} (b t n : Nat) (hT : Touches L Z s) (hl : [.regs] ⊆ L) : Touches L Z (State.raiseTally s b t n) := by
  unfold State.raiseTally
  repeat' (first
    | with_reducible assumption
    | with_reducible apply State.setFld_touches)

theorem State.setSlotMap_touches {L : List Part} {Z : State} {s : State} (b : Nat) (m : SlotMap) (hT : Touches L Z s) (hl : [.regs, .bin] ⊆ L) : Touches L Z (State.setSlotMap s b m) := by
  unfold State.setSlotMap
  repeat' (first
    | with_reducible assumption
    | ((with_reducible refine List.Subset.trans ?_ hl); decide)
    | with_reducible apply State.setFld_touches
    | dsimp only
    | ((conv => pattern (State.mk ..)); (with_reducible apply Touches.of); case k => (intro p hp; cases p <;> first | exact absurd (hl (by decide)) hp | (dsimp only [SamePart]; done) | (dsimp only [SamePart]; with_reducible exact rfl))))

theorem State.rotaSlotMap_touches {L : List Part} {Z : State} {s : State} (b : Nat) (hT : Touches L Z s) (hl : [.free, .regs, .bin] ⊆ L) : Touches L Z (State.rotaSlotMap s b) := by
  unfold State.rotaSlotMap
  repeat' (first
    | with_reducible assumption
    | ((with_reducible refine List.Subset.trans ?_ hl); decide)
    | with_reducible apply Touches.ite
    | with_reducible apply State.setSlotMap_touches
    | with_reducible apply State.fresh_touches)

theorem State.setNet_touches {L : List Part} {Z : State} {s : State} (k : Nat) (x : GuardRun) (hT : Touches L Z s) (hl : [.rota] ⊆ L) : Touches L Z (State.setNet s k x) := by
  unfold State.setNet
  repeat' (first
    | with_reducible assumption
    | dsimp only
    | ((conv => pattern (State.mk ..)); (with_reducible apply Touches.of); case k => (intro p hp; cases p <;> first | exact absurd (hl (by decide)) hp | (dsimp only [SamePart]; done) | (dsimp only [SamePart]; with_reducible exact rfl))))

theorem State.setHpFeed_touches {L : List Part} {Z : State} {s : State} (n : Nat) (f : Option HpFeed) (hT : Touches L Z s) (hl : [.hp] ⊆ L) : Touches L Z (State.setHpFeed s n f) := by
  unfold State.setHpFeed
  repeat' (first
    | with_reducible assumption
    | dsimp only
    | ((conv => pattern (State.mk ..)); (with_reducible apply Touches.of); case k => (intro p hp; cases p <;> first | exact absurd (hl (by decide)) hp | (dsimp only [SamePart]; done) | (dsimp only [SamePart]; with_reducible exact rfl))))

theorem State.hpEdge_touches {L : List Part} {Z : State} {s : State} (n : Nat) (hT : Touches L Z s) (hl : [.objs, .hp] ⊆ L) : Touches L Z (State.hpEdge s n) := by
  unfold State.hpEdge
  repeat' (first
    | with_reducible assumption
    | ((with_reducible refine List.Subset.trans ?_ hl); decide)
    | with_reducible apply State.bumpObj_touches
    | with_reducible apply State.setHpFeed_touches
    | split)

theorem State.hpStop_touches {L : List Part} {Z : State} {s : State} (n : Nat) (hT : Touches L Z s) (hl : [.regs, .objs, .hp] ⊆ L) : Touches L Z (State.hpStop s n) := by
  unfold State.hpStop
  repeat' (first
    | with_reducible assumption
    | ((with_reducible refine List.Subset.trans ?_ hl); decide)
    | with_reducible apply State.bumpObj_touches
    | with_reducible apply State.setFld_touches
    | with_reducible apply State.hpEdge_touches
    | with_reducible apply State.setHpFeed_touches
    | split
    | dsimp only
    | ((conv => pattern (State.mk ..)); (with_reducible apply Touches.of); case k => (intro p hp; cases p <;> first | exact absurd (hl (by decide)) hp | (dsimp only [SamePart]; done) | (dsimp only [SamePart]; with_reducible exact rfl))))

theorem State.setOsRun_touches {L : List Part} {Z : State} {s : State} (n : Nat) (r : Option OsRun) (hT : Touches L Z s) (hl : [.cam] ⊆ L) : Touches L Z (State.setOsRun s n r) := by
  unfold State.setOsRun
  repeat' (first
    | with_reducible assumption
    | dsimp only
    | ((conv => pattern (State.mk ..)); (with_reducible apply Touches.of); case k => (intro p hp; cases p <;> first | exact absurd (hl (by decide)) hp | (dsimp only [SamePart]; done) | (dsimp only [SamePart]; with_reducible exact rfl))))

theorem State.osOff_touches {L : List Part} {Z : State} {s : State} (n result : Nat) (hT : Touches L Z s) (hl : [.regs, .cam] ⊆ L) : Touches L Z (State.osOff s n result) := by
  unfold State.osOff
  repeat' (first
    | with_reducible assumption
    | ((with_reducible refine List.Subset.trans ?_ hl); decide)
    | with_reducible apply State.setFlds_touches
    | with_reducible apply State.setOsRun_touches)

theorem State.audOff_touches {L : List Part} {Z : State} {s : State} (result : Nat) (hT : Touches L Z s) (hl : [.regs, .aud] ⊆ L) : Touches L Z (State.audOff s result) := by
  unfold State.audOff
  repeat' (first
    | with_reducible assumption
    | ((with_reducible refine List.Subset.trans ?_ hl); decide)
    | with_reducible apply State.setFlds_touches
    | dsimp only
    | ((conv => pattern (State.mk ..)); (with_reducible apply Touches.of); case k => (intro p hp; cases p <;> first | exact absurd (hl (by decide)) hp | (dsimp only [SamePart]; done) | (dsimp only [SamePart]; with_reducible exact rfl))))

theorem State.zeroSpan_touches {L : List Part} {Z : State} {s : State} (hT : Touches L Z s) (hl : [.regs, .objs, .bin, .log, .sec, .watch] ⊆ L) : Touches L Z (State.zeroSpan s) := by
  unfold State.zeroSpan
  repeat' (first
    | with_reducible assumption
    | ((with_reducible refine List.Subset.trans ?_ hl); decide)
    | with_reducible apply State.binUnitWrite_touches
    | split
    | dsimp only
    | ((conv => pattern (State.mk ..)); (with_reducible apply Touches.of); case k => (intro p hp; cases p <;> first | exact absurd (hl (by decide)) hp | (dsimp only [SamePart]; done) | (dsimp only [SamePart]; with_reducible exact rfl))))

theorem State.watchReject_touches {L : List Part} {Z : State} {s : State} (hT : Touches L Z s) (hl : [.regs, .objs, .bin, .ur, .mc, .ledger, .log, .sec, .watch, .pwr] ⊆ L) : Touches L Z (State.watchReject s) := by
  unfold State.watchReject
  repeat' (first
    | with_reducible assumption
    | ((with_reducible refine List.Subset.trans ?_ hl); decide)
    | with_reducible apply State.event_touches
    | with_reducible apply State.zeroSpan_touches
    | dsimp only
    | ((conv => pattern (State.mk ..)); (with_reducible apply Touches.of); case k => (intro p hp; cases p <;> first | exact absurd (hl (by decide)) hp | (dsimp only [SamePart]; done) | (dsimp only [SamePart]; with_reducible exact rfl))))

theorem State.stopFeed_touches {L : List Part} {Z : State} {s : State} (part n : Nat) (hT : Touches L Z s) (hl : [.regs, .objs, .hp] ⊆ L) : Touches L Z (State.stopFeed s part n) := by
  unfold State.stopFeed
  repeat' (first
    | with_reducible assumption
    | with_reducible apply Touches.ite
    | with_reducible apply State.hpStop_touches
    | split)

theorem State.stopCamera_touches {L : List Part} {Z : State} {s : State} (cores : List Nat) (n : Nat) (hT : Touches L Z s) (hl : [.regs, .cam] ⊆ L) : Touches L Z (State.stopCamera s cores n) := by
  unfold State.stopCamera
  repeat' (first
    | with_reducible assumption
    | with_reducible apply Touches.ite
    | with_reducible apply State.osOff_touches)

theorem State.stopAligned_touches {L : List Part} {Z : State} {s : State} (cores : List Nat) (hT : Touches L Z s) (hl : [.regs, .aud] ⊆ L) : Touches L Z (State.stopAligned s cores) := by
  unfold State.stopAligned
  repeat' (first
    | with_reducible assumption
    | with_reducible apply Touches.ite
    | with_reducible apply State.audOff_touches
    | split)

theorem State.stopSpan_touches {L : List Part} {Z : State} {s : State} (cores : List Nat) (hT : Touches L Z s) (hl : [.regs, .objs, .bin, .ur, .mc, .ledger, .log, .sec, .watch, .pwr] ⊆ L) : Touches L Z (State.stopSpan s cores) := by
  unfold State.stopSpan
  repeat' (first
    | with_reducible assumption
    | with_reducible apply Touches.ite
    | with_reducible apply State.watchReject_touches
    | split)

theorem State.stopStreams_touches {L : List Part} {Z : State} {s : State} (part : Nat) (cores : List Nat) (hT : Touches L Z s) (hl : [.regs, .objs, .bin, .ur, .mc, .ledger, .log, .sec, .hp, .cam, .aud, .watch, .pwr] ⊆ L) : Touches L Z (State.stopStreams s part cores) := by
  unfold State.stopStreams
  repeat' (first
    | with_reducible assumption
    | ((with_reducible refine List.Subset.trans ?_ hl); decide)
    | intro _
    | with_reducible apply Touches.foldl
    | with_reducible apply State.stopCamera_touches
    | with_reducible apply State.stopFeed_touches
    | with_reducible apply State.stopSpan_touches
    | with_reducible apply State.stopAligned_touches)

theorem State.setPower_touches {L : List Part} {Z : State} {s : State} (d : Nat) (on : Bool) (hT : Touches L Z s) (hl : [.regs] ⊆ L) : Touches L Z (State.setPower s d on) := by
  unfold State.setPower
  repeat' (first
    | with_reducible assumption
    | with_reducible apply Touches.ite
    | with_reducible apply State.setFld_touches)

theorem State.gatedError_touches {L : List Part} {Z : State} {s : State} (hT : Touches L Z s) (hl : [.objs, .sent] ⊆ L) : Touches L Z (State.gatedError s) := by
  unfold State.gatedError
  repeat' (first
    | with_reducible assumption
    | ((with_reducible refine List.Subset.trans ?_ hl); decide)
    | with_reducible apply State.send_touches
    | with_reducible apply State.bumpObj_touches)

theorem State.requestStart_touches {L : List Part} {Z : State} {s : State} (d : Nat) (hT : Touches L Z s) (hl : [.pwr] ⊆ L) : Touches L Z (State.requestStart s d) := by
  unfold State.requestStart
  repeat' (first
    | with_reducible assumption
    | with_reducible apply Touches.ite
    | split
    | dsimp only
    | ((conv => pattern (State.mk ..)); (with_reducible apply Touches.of); case k => (intro p hp; cases p <;> first | exact absurd (hl (by decide)) hp | (dsimp only [SamePart]; done) | (dsimp only [SamePart]; with_reducible exact rfl))))

theorem State.pwrSync_touches {L : List Part} {Z : State} {s : State} (hT : Touches L Z s) (hl : [.pwr] ⊆ L) : Touches L Z (State.pwrSync s) := by
  unfold State.pwrSync
  repeat' (first
    | with_reducible assumption
    | intro _
    | with_reducible apply Touches.ite
    | with_reducible apply Touches.foldl
    | with_reducible apply State.requestStart_touches
    | dsimp only
    | ((conv => pattern (State.mk ..)); (with_reducible apply Touches.of); case k => (intro p hp; cases p <;> first | exact absurd (hl (by decide)) hp | (dsimp only [SamePart]; done) | (dsimp only [SamePart]; with_reducible exact rfl))))

theorem State.regFull_touches {L : List Part} {Z : State} {s : State} (hT : Touches L Z s) (hl : [.regs, .pwr] ⊆ L) : Touches L Z (State.regFull s) := by
  unfold State.regFull
  repeat' (first
    | with_reducible assumption
    | ((with_reducible refine List.Subset.trans ?_ hl); decide)
    | with_reducible apply Touches.ite
    | with_reducible apply State.setFld_touches
    | dsimp only
    | ((conv => pattern (State.mk ..)); (with_reducible apply Touches.of); case k => (intro p hp; cases p <;> first | exact absurd (hl (by decide)) hp | (dsimp only [SamePart]; done) | (dsimp only [SamePart]; with_reducible exact rfl))))

theorem State.requestAll_touches {L : List Part} {Z : State} {s : State} (hT : Touches L Z s) (hl : [.pwr] ⊆ L) : Touches L Z (State.requestAll s) := by
  unfold State.requestAll
  repeat' (first
    | with_reducible assumption
    | intro _
    | with_reducible apply Touches.foldl
    | with_reducible apply State.requestStart_touches)

theorem State.startPower_touches {L : List Part} {Z : State} {s : State} (hT : Touches L Z s) (hl : [.regs, .pwr, .boot] ⊆ L) : Touches L Z (State.startPower s) := by
  unfold State.startPower
  repeat' (first
    | with_reducible assumption
    | ((with_reducible refine List.Subset.trans ?_ hl); decide)
    | with_reducible apply Touches.ite
    | with_reducible apply State.requestAll_touches
    | with_reducible apply State.regFull_touches
    | dsimp only
    | ((conv => pattern (State.mk ..)); (with_reducible apply Touches.of); case k => (intro p hp; cases p <;> first | exact absurd (hl (by decide)) hp | (dsimp only [SamePart]; done) | (dsimp only [SamePart]; with_reducible exact rfl))))

theorem State.buttonsUp_touches {L : List Part} {Z : State} {s : State} (hT : Touches L Z s) (hl : [.regs, .pwr, .boot] ⊆ L) : Touches L Z (State.buttonsUp s) := by
  unfold State.buttonsUp
  repeat' (first
    | with_reducible assumption
    | with_reducible apply Touches.ite
    | with_reducible apply State.startPower_touches
    | dsimp only
    | ((conv => pattern (State.mk ..)); (with_reducible apply Touches.of); case k => (intro p hp; cases p <;> first | exact absurd (hl (by decide)) hp | (dsimp only [SamePart]; done) | (dsimp only [SamePart]; with_reducible exact rfl))))

theorem State.startResume_touches {L : List Part} {Z : State} {s : State} (replayed : Bool) (hT : Touches L Z s) (hl : [.regs, .objs, .sent, .pwr] ⊆ L) : Touches L Z (State.startResume s replayed) := by
  unfold State.startResume
  repeat' (first
    | with_reducible assumption
    | ((with_reducible refine List.Subset.trans ?_ hl); decide)
    | with_reducible apply Touches.ite
    | with_reducible apply State.regFull_touches
    | with_reducible apply State.pwrSync_touches
    | with_reducible apply State.send_touches
    | with_reducible apply State.setObj_touches
    | with_reducible apply State.setFlds_touches
    | split)

theorem State.wake_touches {L : List Part} {Z : State} {s : State} (code at_ arg : Nat) (hT : Touches L Z s) (hl : [.regs, .objs, .sent, .pwr] ⊆ L) : Touches L Z (State.wake s code at_ arg) := by
  unfold State.wake
  repeat' (first
    | with_reducible assumption
    | ((with_reducible refine List.Subset.trans ?_ hl); decide)
    | with_reducible apply Touches.ite
    | with_reducible apply State.startResume_touches
    | with_reducible apply State.setFld_touches
    | dsimp only
    | ((conv => pattern (State.mk ..)); (with_reducible apply Touches.of); case k => (intro p hp; cases p <;> first | exact absurd (hl (by decide)) hp | (dsimp only [SamePart]; done) | (dsimp only [SamePart]; with_reducible exact rfl))))

theorem State.cancelWake_touches {L : List Part} {Z : State} {s : State} (code : Nat) (hT : Touches L Z s) (hl : [.regs, .pwr] ⊆ L) : Touches L Z (State.cancelWake s code) := by
  unfold State.cancelWake
  repeat' (first
    | with_reducible assumption
    | ((with_reducible refine List.Subset.trans ?_ hl); decide)
    | with_reducible apply State.setFld_touches
    | dsimp only
    | ((conv => pattern (State.mk ..)); (with_reducible apply Touches.of); case k => (intro p hp; cases p <;> first | exact absurd (hl (by decide)) hp | (dsimp only [SamePart]; done) | (dsimp only [SamePart]; with_reducible exact rfl))))

theorem State.doorEvent_touches {L : List Part} {Z : State} {s : State} (code arg at_ : Nat) (hT : Touches L Z s) (hl : [.regs, .objs, .ur, .mc, .ledger, .log, .sec, .pwr] ⊆ L) : Touches L Z (State.doorEvent s code arg at_) := by
  unfold State.doorEvent
  repeat' (first
    | with_reducible assumption
    | with_reducible apply Touches.ite
    | with_reducible apply State.event_touches
    | dsimp only
    | ((conv => pattern (State.mk ..)); (with_reducible apply Touches.of); case k => (intro p hp; cases p <;> first | exact absurd (hl (by decide)) hp | (dsimp only [SamePart]; done) | (dsimp only [SamePart]; with_reducible exact rfl))))

theorem State.watchEvent_touches {L : List Part} {Z : State} {s : State} (code arg at_ : Nat) (hT : Touches L Z s) (hl : [.regs, .objs, .ur, .mc, .ledger, .log, .sec, .pwr] ⊆ L) : Touches L Z (State.watchEvent s code arg at_) := by
  unfold State.watchEvent
  repeat' (first
    | with_reducible assumption
    | with_reducible apply Touches.ite
    | with_reducible apply State.event_touches
    | dsimp only
    | ((conv => pattern (State.mk ..)); (with_reducible apply Touches.of); case k => (intro p hp; cases p <;> first | exact absurd (hl (by decide)) hp | (dsimp only [SamePart]; done) | (dsimp only [SamePart]; with_reducible exact rfl))))

end Sys2Proof.Machine
end

