-- ==== Sys2Proof/Laws/TouchesUnits.lean ====
section
/-!
SUPPORT. Which parts of the state the commands that start nothing else may change.
-/
namespace Sys2Proof.Machine
set_option linter.all false

theorem State.lgFetch_touches {L : List Part} {Z : State} {s : State} (hT : Touches L Z s) (hl : [.free, .objs] ⊆ L) : Touches L Z (State.lgFetch s) := by
  unfold State.lgFetch
  repeat' (first
    | with_reducible assumption
    | ((with_reducible refine List.Subset.trans ?_ hl); decide)
    | with_reducible apply State.fresh_touches
    | with_reducible apply State.bumpObj_touches)

theorem State.setKeySlot_touches {L : List Part} {Z : State} {s : State} (n : Nat) (k : KeySlot) (hT : Touches L Z s) (hl : [.sec] ⊆ L) : Touches L Z (State.setKeySlot s n k) := by
  unfold State.setKeySlot
  repeat' (first
    | with_reducible assumption
    | dsimp only
    | ((conv => pattern (State.mk ..)); (with_reducible apply Touches.of); case k => (intro p hp; cases p <;> first | exact absurd (hl (by decide)) hp | (dsimp only [SamePart]; done) | (dsimp only [SamePart]; with_reducible exact rfl))))

theorem State.setHlPort_touches {L : List Part} {Z : State} {s : State} (p : Nat) (x : HlPort) (hT : Touches L Z s) (hl : [.hedge] ⊆ L) : Touches L Z (State.setHlPort s p x) := by
  unfold State.setHlPort
  repeat' (first
    | with_reducible assumption
    | dsimp only
    | ((conv => pattern (State.mk ..)); (with_reducible apply Touches.of); case k => (intro p hp; cases p <;> first | exact absurd (hl (by decide)) hp | (dsimp only [SamePart]; done) | (dsimp only [SamePart]; with_reducible exact rfl))))

theorem State.sendPacket_touches {L : List Part} {Z : State} {s : State} (p : Nat) (x : HlPacket) (hT : Touches L Z s) (hl : [.sent, .hedge] ⊆ L) : Touches L Z (State.sendPacket s p x) := by
  unfold State.sendPacket
  repeat' (first
    | with_reducible assumption
    | ((with_reducible refine List.Subset.trans ?_ hl); decide)
    | with_reducible apply State.setHlPort_touches
    | with_reducible apply State.send_touches)

theorem State.setSplit_touches {L : List Part} {Z : State} {s : State} (core split : Nat) (hT : Touches L Z s) (hl : [.regs] ⊆ L) : Touches L Z (State.setSplit s core split) := by
  unfold State.setSplit
  repeat' (first
    | with_reducible assumption
    | with_reducible apply Touches.ite
    | with_reducible apply State.setFld_touches)

theorem execHearthCfgWrite_touches (core split : Nat) (secure : Bool) {s : State} : Answers [.regs, .objs, .sent, .log] s (execHearthCfgWrite core split secure s) := by
  have hl : ([.regs, .objs, .sent, .log] : List Part) ⊆ [.regs, .objs, .sent, .log] := fun _ h => h
  have hT := Touches.refl [.regs, .objs, .sent, .log] s
  unfold execHearthCfgWrite
  refine Answers.command ?_
  repeat' (first
    | with_reducible assumption
    | ((with_reducible refine List.Subset.trans ?_ hl); decide)
    | with_reducible apply Answers.next
    | with_reducible apply Touches.ite
    | with_reducible apply State.worldError_touches
    | with_reducible apply State.setSplit_touches)

theorem execCorrectedWordWriteBack_touches (bin : Nat) {s : State} : Answers [.bin] s (execCorrectedWordWriteBack bin s) := by
  have hl : ([.bin] : List Part) ⊆ [.bin] := fun _ h => h
  have hT := Touches.refl [.bin] s
  unfold execCorrectedWordWriteBack
  refine Answers.command ?_
  repeat' (first
    | with_reducible assumption
    | with_reducible apply Answers.next
    | split
    | dsimp only
    | ((conv => pattern (State.mk ..)); (with_reducible apply Touches.of); case k => (intro p hp; cases p <;> first | exact absurd (hl (by decide)) hp | (dsimp only [SamePart]; done) | (dsimp only [SamePart]; with_reducible exact rfl))))

theorem State.startZeroing_touches {L : List Part} {Z : State} {s : State} (b : Nat) (hT : Touches L Z s) (hl : [.regs] ⊆ L) : Touches L Z (State.startZeroing s b) := by
  unfold State.startZeroing
  repeat' (first
    | with_reducible assumption
    | with_reducible apply State.setFlds_touches)

theorem execBinInit_touches (bin : Nat) (secure : Bool) {s : State} : Answers [.regs, .objs, .sent, .log] s (execBinInit bin secure s) := by
  have hl : ([.regs, .objs, .sent, .log] : List Part) ⊆ [.regs, .objs, .sent, .log] := fun _ h => h
  have hT := Touches.refl [.regs, .objs, .sent, .log] s
  unfold execBinInit
  refine Answers.command ?_
  repeat' (first
    | with_reducible assumption
    | ((with_reducible refine List.Subset.trans ?_ hl); decide)
    | with_reducible apply Answers.next
    | with_reducible apply Answers.ite
    | with_reducible apply State.worldError_touches
    | with_reducible apply State.startZeroing_touches)

theorem execSlotMapWrite_touches (bin word value : Nat) (secure : Bool) {s : State} : Answers [.regs, .objs, .sent, .bin, .log] s (execSlotMapWrite bin word value secure s) := by
  have hl : ([.regs, .objs, .sent, .bin, .log] : List Part) ⊆ [.regs, .objs, .sent, .bin, .log] := fun _ h => h
  have hT := Touches.refl [.regs, .objs, .sent, .bin, .log] s
  unfold execSlotMapWrite
  refine Answers.command ?_
  repeat' (first
    | with_reducible assumption
    | ((with_reducible refine List.Subset.trans ?_ hl); decide)
    | with_reducible apply Answers.next
    | with_reducible apply Answers.ite
    | with_reducible apply Touches.ite
    | with_reducible apply State.worldError_touches
    | with_reducible apply State.setSlotMap_touches
    | with_reducible apply State.bumpFld_touches)

theorem execGateOpen_touches (bin gate : Nat) (secure : Bool) {s : State} : Answers [.regs, .objs, .sent, .log] s (execGateOpen bin gate secure s) := by
  have hl : ([.regs, .objs, .sent, .log] : List Part) ⊆ [.regs, .objs, .sent, .log] := fun _ h => h
  have hT := Touches.refl [.regs, .objs, .sent, .log] s
  unfold execGateOpen
  refine Answers.command ?_
  repeat' (first
    | with_reducible assumption
    | ((with_reducible refine List.Subset.trans ?_ hl); decide)
    | with_reducible apply Answers.next
    | with_reducible apply Answers.ite
    | with_reducible apply State.worldError_touches
    | with_reducible apply State.setFlds_touches
    | with_reducible apply State.setFld_touches)

theorem execGateClose_touches (bin gate : Nat) (secure : Bool) {s : State} : Answers [.regs, .objs, .sent, .log] s (execGateClose bin gate secure s) := by
  have hl : ([.regs, .objs, .sent, .log] : List Part) ⊆ [.regs, .objs, .sent, .log] := fun _ h => h
  have hT := Touches.refl [.regs, .objs, .sent, .log] s
  unfold execGateClose
  refine Answers.command ?_
  repeat' (first
    | with_reducible assumption
    | ((with_reducible refine List.Subset.trans ?_ hl); decide)
    | with_reducible apply Answers.next
    | with_reducible apply Answers.ite
    | with_reducible apply State.worldError_touches
    | with_reducible apply State.setFlds_touches)

theorem execMigrationDecay_touches (at_ : Nat) {s : State} : Answers [.time, .ur] s (execMigrationDecay at_ s) := by
  have hl : ([.time, .ur] : List Part) ⊆ [.time, .ur] := fun _ h => h
  have hT := Touches.refl [.time, .ur] s
  unfold execMigrationDecay
  refine Answers.command ?_
  repeat' (first
    | with_reducible assumption
    | ((with_reducible refine List.Subset.trans ?_ hl); decide)
    | with_reducible apply Answers.next
    | with_reducible apply State.reach_touches
    | dsimp only
    | ((conv => pattern (State.mk ..)); (with_reducible apply Touches.of); case k => (intro p hp; cases p <;> first | exact absurd (hl (by decide)) hp | (dsimp only [SamePart]; done) | (dsimp only [SamePart]; with_reducible exact rfl))))

theorem State.setQuota_touches {L : List Part} {Z : State} {s : State} (quota ways : Nat) (hT : Touches L Z s) (hl : [.regs] ⊆ L) : Touches L Z (State.setQuota s quota ways) := by
  unfold State.setQuota
  repeat' (first
    | with_reducible assumption
    | with_reducible apply Touches.ite
    | with_reducible apply State.setFld_touches)

theorem execUrQuotaWrite_touches (quota ways : Nat) (secure : Bool) {s : State} : Answers [.regs, .objs, .sent, .log] s (execUrQuotaWrite quota ways secure s) := by
  have hl : ([.regs, .objs, .sent, .log] : List Part) ⊆ [.regs, .objs, .sent, .log] := fun _ h => h
  have hT := Touches.refl [.regs, .objs, .sent, .log] s
  unfold execUrQuotaWrite
  refine Answers.command ?_
  repeat' (first
    | with_reducible assumption
    | ((with_reducible refine List.Subset.trans ?_ hl); decide)
    | with_reducible apply Answers.next
    | with_reducible apply Touches.ite
    | with_reducible apply State.worldError_touches
    | with_reducible apply State.setQuota_touches)

theorem execUrPstateWrite_touches (page : Nat) (q sheaf secure : Bool) {s : State} : Answers [.regs, .objs, .sent, .ur, .mc, .log] s (execUrPstateWrite page q sheaf secure s) := by
  have hl : ([.regs, .objs, .sent, .ur, .mc, .log] : List Part) ⊆ [.regs, .objs, .sent, .ur, .mc, .log] := fun _ h => h
  have hT := Touches.refl [.regs, .objs, .sent, .ur, .mc, .log] s
  unfold execUrPstateWrite
  refine Answers.command ?_
  repeat' (first
    | with_reducible assumption
    | ((with_reducible refine List.Subset.trans ?_ hl); decide)
    | with_reducible apply Answers.next
    | with_reducible apply Answers.ite
    | with_reducible apply Touches.ite
    | with_reducible apply State.setPageState_touches
    | with_reducible apply State.worldError_touches
    | with_reducible apply State.clearQ_touches
    | with_reducible apply State.setFld_touches)

theorem State.svMove_touches {L : List Part} {Z : State} {s : State} (hT : Touches L Z s) (hl : [.regs, .sv] ⊆ L) : Touches L Z (State.svMove s) := by
  unfold State.svMove
  repeat' (first
    | with_reducible assumption
    | ((with_reducible refine List.Subset.trans ?_ hl); decide)
    | with_reducible apply Touches.ite
    | with_reducible apply State.setFld_touches
    | split
    | dsimp only
    | ((conv => pattern (State.mk ..)); (with_reducible apply Touches.of); case k => (intro p hp; cases p <;> first | exact absurd (hl (by decide)) hp | (dsimp only [SamePart]; done) | (dsimp only [SamePart]; with_reducible exact rfl))))

theorem State.svLease_touches {L : List Part} {Z : State} {s : State} (part : Nat) (en : Bool) (hT : Touches L Z s) (hl : [.regs, .sv] ⊆ L) : Touches L Z (State.svLease s part en) := by
  unfold State.svLease
  repeat' (first
    | with_reducible assumption
    | ((with_reducible refine List.Subset.trans ?_ hl); decide)
    | with_reducible apply Touches.ite
    | with_reducible apply State.setFlds_touches
    | with_reducible apply State.svMove_touches
    | with_reducible apply State.setFld_touches)

theorem execSvLeaseWrite_touches (part : Nat) (en secure : Bool) {s : State} : Answers [.regs, .objs, .sent, .log, .sv, .pwr] s (execSvLeaseWrite part en secure s) := by
  have hl : ([.regs, .objs, .sent, .log, .sv, .pwr] : List Part) ⊆ [.regs, .objs, .sent, .log, .sv, .pwr] := fun _ h => h
  have hT := Touches.refl [.regs, .objs, .sent, .log, .sv, .pwr] s
  unfold execSvLeaseWrite
  refine Answers.command ?_
  repeat' (first
    | with_reducible assumption
    | with_reducible exact hl
    | ((with_reducible refine List.Subset.trans ?_ hl); decide)
    | intro _
    | with_reducible apply Answers.next
    | with_reducible apply Answers.ite
    | with_reducible apply Touches.ite
    | (extract_lets +onlyGivenNames u; refine (fun (hu : Touches _ _ u) => ?_) ?_; clear_value u; rotate_left; unfold u; clear u)
    | with_reducible apply Touches.foldl
    | with_reducible apply State.svLease_touches
    | with_reducible apply State.pwrSync_touches
    | with_reducible apply State.worldError_touches
    | (split; all_goals first | (with_reducible have hx := congrArg Prod.snd ‹(_ : _ × State) = (_, _)›; dsimp only at hx; subst hx) | (with_reducible have hx := congrArg (fun x => x.2.2) ‹(_ : _ × _ × State) = (_, _, _)›; dsimp only at hx; subst hx) | skip)
    | dsimp only
    | ((conv => pattern (State.mk ..)); (with_reducible apply Touches.of); case k => (intro p hp; cases p <;> first | exact absurd (hl (by decide)) hp | (dsimp only [SamePart]; done) | (dsimp only [SamePart]; with_reducible exact rfl))))

theorem execHpDoorbell_touches (feed tail : Nat) (secure : Bool) {s : State} : Answers [.objs, .sent, .log, .hp] s (execHpDoorbell feed tail secure s) := by
  have hl : ([.objs, .sent, .log, .hp] : List Part) ⊆ [.objs, .sent, .log, .hp] := fun _ h => h
  have hT := Touches.refl [.objs, .sent, .log, .hp] s
  unfold execHpDoorbell
  refine Answers.command ?_
  repeat' (first
    | with_reducible assumption
    | ((with_reducible refine List.Subset.trans ?_ hl); decide)
    | with_reducible apply Answers.next
    | with_reducible apply Answers.ite
    | with_reducible apply State.gatedError_touches
    | with_reducible apply State.worldError_touches
    | with_reducible apply State.bumpObj_touches
    | with_reducible apply State.hpEdge_touches
    | with_reducible apply State.setHpFeed_touches
    | split)

theorem execLaneSampleStart_touches (lane at_ : Nat) {s : State} : Answers [.time, .objs, .hp] s (execLaneSampleStart lane at_ s) := by
  have hl : ([.time, .objs, .hp] : List Part) ⊆ [.time, .objs, .hp] := fun _ h => h
  have hT := Touches.refl [.time, .objs, .hp] s
  unfold execLaneSampleStart
  refine Answers.command ?_
  repeat' (first
    | with_reducible assumption
    | ((with_reducible refine List.Subset.trans ?_ hl); decide)
    | with_reducible apply Answers.next
    | with_reducible apply Answers.ite
    | with_reducible apply State.hpEdge_touches
    | with_reducible apply State.reach_touches
    | with_reducible apply State.setHpFeed_touches
    | split
    | dsimp only
    | ((conv => pattern (State.mk ..)); (with_reducible apply Touches.of); case k => (intro p hp; cases p <;> first | exact absurd (hl (by decide)) hp | (dsimp only [SamePart]; done) | (dsimp only [SamePart]; with_reducible exact rfl))))

theorem State.osTake_touches {L : List Part} {Z : State} {s : State} (n : Nat) (hT : Touches L Z s) (hl : [.regs, .cam] ⊆ L) : Touches L Z (State.osTake s n) := by
  unfold State.osTake
  repeat' (first
    | with_reducible assumption
    | ((with_reducible refine List.Subset.trans ?_ hl); decide)
    | with_reducible apply Touches.ite
    | with_reducible apply State.setOsRun_touches
    | with_reducible apply State.setFld_touches
    | split)

theorem execOsRelease_touches (stream add : Nat) {s : State} : Answers [.regs, .objs, .sent, .cam] s (execOsRelease stream add s) := by
  have hl : ([.regs, .objs, .sent, .cam] : List Part) ⊆ [.regs, .objs, .sent, .cam] := fun _ h => h
  have hT := Touches.refl [.regs, .objs, .sent, .cam] s
  unfold execOsRelease
  refine Answers.command ?_
  repeat' (first
    | with_reducible assumption
    | ((with_reducible refine List.Subset.trans ?_ hl); decide)
    | with_reducible apply Answers.next
    | with_reducible apply Answers.ite
    | with_reducible apply Touches.ite
    | with_reducible apply State.gatedError_touches
    | with_reducible apply State.setOsRun_touches
    | with_reducible apply State.osTake_touches
    | split)

theorem execCamColourWrite_touches (sensor : Nat) (blob : List Byte) {s : State} : Answers [.objs, .crier] s (execCamColourWrite sensor blob s) := by
  have hl : ([.objs, .crier] : List Part) ⊆ [.objs, .crier] := fun _ h => h
  have hT := Touches.refl [.objs, .crier] s
  unfold execCamColourWrite
  refine Answers.command ?_
  repeat' (first
    | with_reducible assumption
    | ((with_reducible refine List.Subset.trans ?_ hl); decide)
    | with_reducible apply Answers.next
    | with_reducible apply State.setObjVal_touches
    | with_reducible apply State.bumpVersion_touches)

theorem State.setWatch_touches {L : List Part} {Z : State} {s : State} (w : WatchGroup) (hT : Touches L Z s) (hl : [.watch] ⊆ L) : Touches L Z (State.setWatch s w) := by
  unfold State.setWatch
  repeat' (first
    | with_reducible assumption
    | ((conv => pattern (State.mk ..)); (with_reducible apply Touches.of); case k => (intro p hp; cases p <;> first | exact absurd (hl (by decide)) hp | (dsimp only [SamePart]; done) | (dsimp only [SamePart]; with_reducible exact rfl))))

theorem State.audTake_touches {L : List Part} {Z : State} {s : State} (hT : Touches L Z s) (hl : [.regs, .aud] ⊆ L) : Touches L Z (State.audTake s) := by
  unfold State.audTake
  repeat' (first
    | with_reducible assumption
    | ((with_reducible refine List.Subset.trans ?_ hl); decide)
    | with_reducible apply State.setFld_touches
    | split
    | dsimp only
    | ((conv => pattern (State.mk ..)); (with_reducible apply Touches.of); case k => (intro p hp; cases p <;> first | exact absurd (hl (by decide)) hp | (dsimp only [SamePart]; done) | (dsimp only [SamePart]; with_reducible exact rfl))))

theorem execAudStreamEnable_touches (en : Bool) {s : State} : Answers [.regs, .objs, .sent, .aud] s (execAudStreamEnable en s) := by
  have hl : ([.regs, .objs, .sent, .aud] : List Part) ⊆ [.regs, .objs, .sent, .aud] := fun _ h => h
  have hT := Touches.refl [.regs, .objs, .sent, .aud] s
  unfold execAudStreamEnable
  refine Answers.command ?_
  repeat' (first
    | with_reducible assumption
    | ((with_reducible refine List.Subset.trans ?_ hl); decide)
    | with_reducible apply Answers.next
    | with_reducible apply Answers.ite
    | with_reducible apply Touches.ite
    | with_reducible apply State.gatedError_touches
    | with_reducible apply State.audOff_touches
    | with_reducible apply State.setFld_touches
    | ((conv => pattern (State.mk ..)); (with_reducible apply Touches.of); case k => (intro p hp; cases p <;> first | exact absurd (hl (by decide)) hp | (dsimp only [SamePart]; done) | (dsimp only [SamePart]; with_reducible exact rfl))))

theorem execAudioRelease_touches {s : State} : Answers [.regs, .aud] s (execAudioRelease s) := by
  have hl : ([.regs, .aud] : List Part) ⊆ [.regs, .aud] := fun _ h => h
  have hT := Touches.refl [.regs, .aud] s
  unfold execAudioRelease
  refine Answers.command ?_
  repeat' (first
    | with_reducible assumption
    | with_reducible apply Answers.next
    | with_reducible apply State.audTake_touches)

theorem execLockOpenExpiry_touches (at_ : Nat) {s : State} : Answers [.time, .objs, .ledger, .watch, .crier] s (execLockOpenExpiry at_ s) := by
  have hl : ([.time, .objs, .ledger, .watch, .crier] : List Part) ⊆ [.time, .objs, .ledger, .watch, .crier] := fun _ h => h
  have hT := Touches.refl [.time, .objs, .ledger, .watch, .crier] s
  unfold execLockOpenExpiry
  refine Answers.command ?_
  repeat' (first
    | with_reducible assumption
    | with_reducible exact hl
    | ((with_reducible refine List.Subset.trans ?_ hl); decide)
    | intro _
    | with_reducible apply Answers.next
    | with_reducible apply Answers.ite
    | with_reducible apply Touches.ite
    | (extract_lets +onlyGivenNames u; refine (fun (hu : Touches _ _ u) => ?_) ?_; clear_value u; rotate_left; unfold u; clear u)
    | with_reducible apply Touches.foldl
    | with_reducible apply State.openAt_touches
    | with_reducible apply State.reach_touches
    | with_reducible apply State.setWatch_touches
    | (split; all_goals first | (with_reducible have hx := congrArg Prod.snd ‹(_ : _ × State) = (_, _)›; dsimp only at hx; subst hx) | (with_reducible have hx := congrArg (fun x => x.2.2) ‹(_ : _ × _ × State) = (_, _, _)›; dsimp only at hx; subst hx) | skip)
    | dsimp only
    | ((conv => pattern (State.mk ..)); (with_reducible apply Touches.of); case k => (intro p hp; cases p <;> first | exact absurd (hl (by decide)) hp | (dsimp only [SamePart]; done) | (dsimp only [SamePart]; with_reducible exact rfl))))

theorem execErasingComplete_touches {s : State} : Answers [.watch] s (execErasingComplete s) := by
  have hl : ([.watch] : List Part) ⊆ [.watch] := fun _ h => h
  have hT := Touches.refl [.watch] s
  unfold execErasingComplete
  refine Answers.command ?_
  repeat' (first
    | with_reducible assumption
    | with_reducible apply Answers.next
    | with_reducible apply Touches.ite
    | with_reducible apply State.setWatch_touches)

theorem execWatchSpanWrite_touches (value : Nat) (secure : Bool) {s : State} : Answers [.regs, .objs, .sent, .log] s (execWatchSpanWrite value secure s) := by
  have hl : ([.regs, .objs, .sent, .log] : List Part) ⊆ [.regs, .objs, .sent, .log] := fun _ h => h
  have hT := Touches.refl [.regs, .objs, .sent, .log] s
  unfold execWatchSpanWrite
  refine Answers.command ?_
  repeat' (first
    | with_reducible assumption
    | ((with_reducible refine List.Subset.trans ?_ hl); decide)
    | with_reducible apply Answers.next
    | with_reducible apply Answers.ite
    | with_reducible apply State.worldError_touches
    | with_reducible apply State.setFlds_touches)

theorem State.setDoor_touches {L : List Part} {Z : State} {s : State} (d : DoorGroup) (hT : Touches L Z s) (hl : [.door] ⊆ L) : Touches L Z (State.setDoor s d) := by
  unfold State.setDoor
  repeat' (first
    | with_reducible assumption
    | ((conv => pattern (State.mk ..)); (with_reducible apply Touches.of); case k => (intro p hp; cases p <;> first | exact absurd (hl (by decide)) hp | (dsimp only [SamePart]; done) | (dsimp only [SamePart]; with_reducible exact rfl))))

theorem execDoorLedWrite_touches (led value at_ : Nat) {s : State} : Answers [.time, .regs, .objs, .sent, .door] s (execDoorLedWrite led value at_ s) := by
  have hl : ([.time, .regs, .objs, .sent, .door] : List Part) ⊆ [.time, .regs, .objs, .sent, .door] := fun _ h => h
  have hT := Touches.refl [.time, .regs, .objs, .sent, .door] s
  unfold execDoorLedWrite
  refine Answers.command ?_
  repeat' (first
    | with_reducible assumption
    | ((with_reducible refine List.Subset.trans ?_ hl); decide)
    | with_reducible apply Answers.next
    | with_reducible apply Answers.ite
    | with_reducible apply State.gatedError_touches
    | with_reducible apply State.reach_touches
    | with_reducible apply State.setDoor_touches
    | with_reducible apply State.setFlds_touches)

theorem execComparatorStart_touches (net : Nat) {s : State} : Answers [.rota] s (execComparatorStart net s) := by
  have hl : ([.rota] : List Part) ⊆ [.rota] := fun _ h => h
  have hT := Touches.refl [.rota] s
  unfold execComparatorStart
  refine Answers.command ?_
  repeat' (first
    | with_reducible assumption
    | with_reducible apply Answers.next
    | with_reducible apply Touches.ite
    | with_reducible apply State.setNet_touches)

theorem execSafeFaultClear_touches (mask : Nat) (secure : Bool) {s : State} : Answers [.regs, .objs, .sent, .log] s (execSafeFaultClear mask secure s) := by
  have hl : ([.regs, .objs, .sent, .log] : List Part) ⊆ [.regs, .objs, .sent, .log] := fun _ h => h
  have hT := Touches.refl [.regs, .objs, .sent, .log] s
  unfold execSafeFaultClear
  refine Answers.command ?_
  repeat' (first
    | with_reducible assumption
    | ((with_reducible refine List.Subset.trans ?_ hl); decide)
    | intro _
    | with_reducible apply Answers.next
    | with_reducible apply Answers.ite
    | with_reducible apply Touches.ite
    | with_reducible apply Touches.foldl
    | with_reducible apply State.worldError_touches
    | with_reducible apply State.setFld_touches)

theorem execSafeInjectCompare_touches (net : Nat) (secure : Bool) {s : State} : Answers [.objs, .sent, .log, .safe] s (execSafeInjectCompare net secure s) := by
  have hl : ([.objs, .sent, .log, .safe] : List Part) ⊆ [.objs, .sent, .log, .safe] := fun _ h => h
  have hT := Touches.refl [.objs, .sent, .log, .safe] s
  unfold execSafeInjectCompare
  refine Answers.command ?_
  repeat' (first
    | with_reducible assumption
    | ((with_reducible refine List.Subset.trans ?_ hl); decide)
    | with_reducible apply Answers.next
    | with_reducible apply Touches.ite
    | with_reducible apply State.worldError_touches
    | dsimp only
    | ((conv => pattern (State.mk ..)); (with_reducible apply Touches.of); case k => (intro p hp; cases p <;> first | exact absurd (hl (by decide)) hp | (dsimp only [SamePart]; done) | (dsimp only [SamePart]; with_reducible exact rfl))))

theorem execSafeInjectWatchdog_touches (ww : Nat) (secure : Bool) {s : State} : Answers [.objs, .sent, .log, .safe] s (execSafeInjectWatchdog ww secure s) := by
  have hl : ([.objs, .sent, .log, .safe] : List Part) ⊆ [.objs, .sent, .log, .safe] := fun _ h => h
  have hT := Touches.refl [.objs, .sent, .log, .safe] s
  unfold execSafeInjectWatchdog
  refine Answers.command ?_
  repeat' (first
    | with_reducible assumption
    | ((with_reducible refine List.Subset.trans ?_ hl); decide)
    | with_reducible apply Answers.next
    | with_reducible apply Touches.ite
    | with_reducible apply State.worldError_touches
    | dsimp only
    | ((conv => pattern (State.mk ..)); (with_reducible apply Touches.of); case k => (intro p hp; cases p <;> first | exact absurd (hl (by decide)) hp | (dsimp only [SamePart]; done) | (dsimp only [SamePart]; with_reducible exact rfl))))

theorem State.setSec_touches {L : List Part} {Z : State} {s : State} (x : SecGroup) (hT : Touches L Z s) (hl : [.sec] ⊆ L) : Touches L Z (State.setSec s x) := by
  unfold State.setSec
  repeat' (first
    | with_reducible assumption
    | ((conv => pattern (State.mk ..)); (with_reducible apply Touches.of); case k => (intro p hp; cases p <;> first | exact absurd (hl (by decide)) hp | (dsimp only [SamePart]; done) | (dsimp only [SamePart]; with_reducible exact rfl))))

theorem State.setRegion_touches {L : List Part} {Z : State} {s : State} (n : Nat) (r : Region) (hT : Touches L Z s) (hl : [.sec] ⊆ L) : Touches L Z (State.setRegion s n r) := by
  unfold State.setRegion
  repeat' (first
    | with_reducible assumption
    | with_reducible apply State.setSec_touches)

theorem State.applyRegion_touches {L : List Part} {Z : State} {s : State} (n : Nat) (r : Region) (hT : Touches L Z s) (hl : [.regs, .sec] ⊆ L) : Touches L Z (State.applyRegion s n r) := by
  unfold State.applyRegion
  repeat' (first
    | with_reducible assumption
    | ((with_reducible refine List.Subset.trans ?_ hl); decide)
    | with_reducible apply State.setRegion_touches
    | with_reducible apply State.setFlds_touches)

theorem execBoundaryRegionWrite_touches (n word : Nat) (secure : Bool) {s : State} : Answers [.regs, .objs, .sent, .log, .sec] s (execBoundaryRegionWrite n word secure s) := by
  have hl : ([.regs, .objs, .sent, .log, .sec] : List Part) ⊆ [.regs, .objs, .sent, .log, .sec] := fun _ h => h
  have hT := Touches.refl [.regs, .objs, .sent, .log, .sec] s
  unfold execBoundaryRegionWrite
  refine Answers.command ?_
  repeat' (first
    | with_reducible assumption
    | ((with_reducible refine List.Subset.trans ?_ hl); decide)
    | with_reducible apply Answers.next
    | with_reducible apply Answers.ite
    | with_reducible apply State.applyRegion_touches
    | with_reducible apply State.worldError_touches
    | with_reducible apply State.setSec_touches
    | with_reducible apply State.setFld_touches)

theorem execSecWmapWrite_touches (value : Nat) (secure : Bool) {s : State} : Answers [.regs, .objs, .sent, .log, .aud, .watch] s (execSecWmapWrite value secure s) := by
  have hl : ([.regs, .objs, .sent, .log, .aud, .watch] : List Part) ⊆ [.regs, .objs, .sent, .log, .aud, .watch] := fun _ h => h
  have hT := Touches.refl [.regs, .objs, .sent, .log, .aud, .watch] s
  unfold execSecWmapWrite
  refine Answers.command ?_
  repeat' (first
    | with_reducible assumption
    | ((with_reducible refine List.Subset.trans ?_ hl); decide)
    | with_reducible apply Answers.next
    | with_reducible apply Answers.ite
    | with_reducible apply Touches.ite
    | with_reducible apply State.worldError_touches
    | with_reducible apply State.bumpObj_touches
    | with_reducible apply State.setFlds_touches)

theorem State.loadSlot_touches {L : List Part} {Z : State} {s : State} (n : Nat) (k : KeySlot) (hT : Touches L Z s) (hl : [.sec, .hedge] ⊆ L) : Touches L Z (State.loadSlot s n k) := by
  unfold State.loadSlot
  repeat' (first
    | with_reducible assumption
    | ((with_reducible refine List.Subset.trans ?_ hl); decide)
    | with_reducible apply State.setKeySlot_touches
    | dsimp only
    | ((conv => pattern (State.mk ..)); (with_reducible apply Touches.of); case k => (intro p hp; cases p <;> first | exact absurd (hl (by decide)) hp | (dsimp only [SamePart]; done) | (dsimp only [SamePart]; with_reducible exact rfl))))

theorem State.kslotFields_touches {L : List Part} {Z : State} {s : State} (op slot part src : Nat) (hT : Touches L Z s) (hl : [.regs] ⊆ L) : Touches L Z (State.kslotFields s op slot part src) := by
  unfold State.kslotFields
  repeat' (first
    | with_reducible assumption
    | with_reducible apply State.setFlds_touches)

theorem execKeySlotClear_touches (slot : Nat) (secure : Bool) {s : State} : Answers [.regs, .sec, .hedge] s (execKeySlotClear slot secure s) := by
  have hl : ([.regs, .sec, .hedge] : List Part) ⊆ [.regs, .sec, .hedge] := fun _ h => h
  have hT := Touches.refl [.regs, .sec, .hedge] s
  unfold execKeySlotClear
  refine Answers.command ?_
  repeat' (first
    | with_reducible assumption
    | ((with_reducible refine List.Subset.trans ?_ hl); decide)
    | with_reducible apply Answers.next
    | with_reducible apply Answers.ite
    | with_reducible apply State.loadSlot_touches
    | with_reducible apply State.kslotFields_touches
    | with_reducible apply State.setFld_touches)

theorem execSecUnwrap_touches (src dst : Nat) (secure : Bool) {s : State} : Answers [.regs, .objs, .sent, .log, .sec] s (execSecUnwrap src dst secure s) := by
  have hl : ([.regs, .objs, .sent, .log, .sec] : List Part) ⊆ [.regs, .objs, .sent, .log, .sec] := fun _ h => h
  have hT := Touches.refl [.regs, .objs, .sent, .log, .sec] s
  unfold execSecUnwrap
  refine Answers.command ?_
  repeat' (first
    | with_reducible assumption
    | ((with_reducible refine List.Subset.trans ?_ hl); decide)
    | with_reducible apply Answers.next
    | with_reducible apply Answers.ite
    | with_reducible apply State.setFlds_touches
    | with_reducible apply State.worldError_touches
    | with_reducible apply State.setSec_touches)

theorem State.attestNonce_touches {L : List Part} {Z : State} {s : State} (nonce : List Byte) (hT : Touches L Z s) (hl : [.sec] ⊆ L) : Touches L Z (State.attestNonce s nonce) := by
  unfold State.attestNonce
  repeat' (first
    | with_reducible assumption
    | with_reducible apply State.setSec_touches)

theorem execAttestNonceWrite_touches (nonce : List Byte) {s : State} : Answers [.sec] s (execAttestNonceWrite nonce s) := by
  have hl : ([.sec] : List Part) ⊆ [.sec] := fun _ h => h
  have hT := Touches.refl [.sec] s
  unfold execAttestNonceWrite
  refine Answers.command ?_
  repeat' (first
    | with_reducible assumption
    | with_reducible apply Answers.next
    | with_reducible apply Touches.ite
    | with_reducible apply State.attestNonce_touches)

theorem execSecMeasWrite_touches (index value : Nat) (secure : Bool) {s : State} : Answers [.objs, .sent, .log, .sec] s (execSecMeasWrite index value secure s) := by
  have hl : ([.objs, .sent, .log, .sec] : List Part) ⊆ [.objs, .sent, .log, .sec] := fun _ h => h
  have hT := Touches.refl [.objs, .sent, .log, .sec] s
  unfold execSecMeasWrite
  refine Answers.command ?_
  repeat' (first
    | with_reducible assumption
    | ((with_reducible refine List.Subset.trans ?_ hl); decide)
    | with_reducible apply Answers.next
    | with_reducible apply Answers.ite
    | with_reducible apply State.worldError_touches
    | with_reducible apply State.setSec_touches)

theorem execDebugToken_touches (level : Nat) (sig : List Byte) {s : State} : Answers [.free, .objs, .log, .sec] s (execDebugToken level sig s) := by
  have hl : ([.free, .objs, .log, .sec] : List Part) ⊆ [.free, .objs, .log, .sec] := fun _ h => h
  have hT := Touches.refl [.free, .objs, .log, .sec] s
  unfold execDebugToken
  refine Answers.command ?_
  repeat' (first
    | with_reducible assumption
    | ((with_reducible refine List.Subset.trans ?_ hl); decide)
    | with_reducible apply Answers.next
    | with_reducible apply Answers.ite
    | with_reducible apply State.logIt_touches
    | with_reducible apply State.fresh_touches
    | with_reducible apply State.setSec_touches)

theorem State.portTrain_touches {L : List Part} {Z : State} {s : State} (p : Nat) (hT : Touches L Z s) (hl : [.regs] ⊆ L) : Touches L Z (State.portTrain s p) := by
  unfold State.portTrain
  repeat' (first
    | with_reducible assumption
    | with_reducible apply Touches.ite
    | with_reducible apply State.setFld_touches)

theorem execHlRetrain_touches (port : Nat) {s : State} : Answers [.regs] s (execHlRetrain port s) := by
  have hl : ([.regs] : List Part) ⊆ [.regs] := fun _ h => h
  have hT := Touches.refl [.regs] s
  unfold execHlRetrain
  refine Answers.command ?_
  repeat' (first
    | with_reducible assumption
    | with_reducible apply Answers.next
    | with_reducible apply State.portTrain_touches)

theorem execHlLinkack_touches (port lseq : Nat) {s : State} : Answers [.hedge] s (execHlLinkack port lseq s) := by
  have hl : ([.hedge] : List Part) ⊆ [.hedge] := fun _ h => h
  have hT := Touches.refl [.hedge] s
  unfold execHlLinkack
  refine Answers.command ?_
  repeat' (first
    | with_reducible assumption
    | with_reducible apply Answers.next
    | with_reducible apply Touches.ite
    | with_reducible apply State.setHlPort_touches)

theorem execHlSyncSend_touches (at_ : Nat) {s : State} : Answers [.time, .sent, .hedge] s (execHlSyncSend at_ s) := by
  have hl : ([.time, .sent, .hedge] : List Part) ⊆ [.time, .sent, .hedge] := fun _ h => h
  have hT := Touches.refl [.time, .sent, .hedge] s
  unfold execHlSyncSend
  refine Answers.command ?_
  repeat' (first
    | with_reducible assumption
    | ((with_reducible refine List.Subset.trans ?_ hl); decide)
    | intro _
    | with_reducible apply Answers.next
    | with_reducible apply Answers.ite
    | with_reducible apply Touches.ite
    | with_reducible apply Touches.foldl
    | with_reducible apply State.sendPacket_touches
    | with_reducible apply State.reach_touches)

theorem execHlSyncLoss_touches (at_ : Nat) {s : State} : Answers [.time, .objs, .hedge] s (execHlSyncLoss at_ s) := by
  have hl : ([.time, .objs, .hedge] : List Part) ⊆ [.time, .objs, .hedge] := fun _ h => h
  have hT := Touches.refl [.time, .objs, .hedge] s
  unfold execHlSyncLoss
  refine Answers.command ?_
  repeat' (first
    | with_reducible assumption
    | ((with_reducible refine List.Subset.trans ?_ hl); decide)
    | with_reducible apply Answers.next
    | with_reducible apply Answers.ite
    | with_reducible apply State.setObj_touches
    | with_reducible apply State.reach_touches
    | dsimp only
    | ((conv => pattern (State.mk ..)); (with_reducible apply Touches.of); case k => (intro p hp; cases p <;> first | exact absurd (hl (by decide)) hp | (dsimp only [SamePart]; done) | (dsimp only [SamePart]; with_reducible exact rfl))))

theorem State.lgStart_touches {L : List Part} {Z : State} {s : State} (op type part handle a0 a1 a2 : Nat) (hT : Touches L Z s) (hl : [.regs] ⊆ L) : Touches L Z (State.lgStart s op type part handle a0 a1 a2) := by
  unfold State.lgStart
  repeat' (first
    | with_reducible assumption
    | with_reducible apply State.setFld_touches
    | with_reducible apply State.setFlds_touches)

theorem State.lgEnd_touches {L : List Part} {Z : State} {s : State} (r : LgResult) (hT : Touches L Z s) (hl : [.regs, .objs, .log] ⊆ L) : Touches L Z (State.lgEnd s r) := by
  unfold State.lgEnd
  repeat' (first
    | with_reducible assumption
    | ((with_reducible refine List.Subset.trans ?_ hl); decide)
    | with_reducible apply Touches.ite
    | with_reducible apply State.setFld_touches
    | with_reducible apply State.logIt_touches)

theorem execLedgerRead_touches (handle : Nat) (secure : Bool) {s : State} : Answers [.free, .regs, .objs, .log] s (execLedgerRead handle secure s) := by
  have hl : ([.free, .regs, .objs, .log] : List Part) ⊆ [.free, .regs, .objs, .log] := fun _ h => h
  have hT := Touches.refl [.free, .regs, .objs, .log] s
  unfold execLedgerRead
  refine Answers.command ?_
  repeat' (first
    | with_reducible assumption
    | ((with_reducible refine List.Subset.trans ?_ hl); decide)
    | intro _
    | with_reducible apply Answers.next
    | with_reducible apply Touches.foldl
    | with_reducible apply State.lgStart_touches
    | with_reducible apply State.lgFetch_touches
    | with_reducible apply State.lgEnd_touches
    | with_reducible apply State.setFld_touches
    | split
    | dsimp only)

theorem State.setCrier_touches {L : List Part} {Z : State} {s : State} (c : CrierGroup) (hT : Touches L Z s) (hl : [.crier] ⊆ L) : Touches L Z (State.setCrier s c) := by
  unfold State.setCrier
  repeat' (first
    | with_reducible assumption
    | ((conv => pattern (State.mk ..)); (with_reducible apply Touches.of); case k => (intro p hp; cases p <;> first | exact absurd (hl (by decide)) hp | (dsimp only [SamePart]; done) | (dsimp only [SamePart]; with_reducible exact rfl))))

theorem State.setSession_touches {L : List Part} {Z : State} {s : State} (n : Nat) (x : Option Session) (hT : Touches L Z s) (hl : [.crier] ⊆ L) : Touches L Z (State.setSession s n x) := by
  unfold State.setSession
  repeat' (first
    | with_reducible assumption
    | with_reducible apply State.setCrier_touches)

theorem State.countSessions_touches {L : List Part} {Z : State} {s : State} (hT : Touches L Z s) (hl : [.objs] ⊆ L) : Touches L Z (State.countSessions s) := by
  unfold State.countSessions
  repeat' (first
    | with_reducible assumption
    | with_reducible apply State.setObj_touches)

theorem State.setPwr_touches {L : List Part} {Z : State} {s : State} (p : PwrGroup) (hT : Touches L Z s) (hl : [.pwr] ⊆ L) : Touches L Z (State.setPwr s p) := by
  unfold State.setPwr
  repeat' (first
    | with_reducible assumption
    | ((conv => pattern (State.mk ..)); (with_reducible apply Touches.of); case k => (intro p hp; cases p <;> first | exact absurd (hl (by decide)) hp | (dsimp only [SamePart]; done) | (dsimp only [SamePart]; with_reducible exact rfl))))

theorem execRegOk_touches (at_ : Nat) {s : State} : Answers [.time, .regs, .pwr] s (execRegOk at_ s) := by
  have hl : ([.time, .regs, .pwr] : List Part) ⊆ [.time, .regs, .pwr] := fun _ h => h
  have hT := Touches.refl [.time, .regs, .pwr] s
  unfold execRegOk
  refine Answers.command ?_
  repeat' (first
    | with_reducible assumption
    | ((with_reducible refine List.Subset.trans ?_ hl); decide)
    | with_reducible apply Answers.next
    | with_reducible apply Answers.ite
    | with_reducible apply Touches.ite
    | with_reducible apply State.reach_touches
    | with_reducible apply State.setPwr_touches
    | with_reducible apply State.requestAll_touches
    | with_reducible apply State.pwrSync_touches
    | with_reducible apply State.setFlds_touches)

theorem execRegRetry_touches (at_ : Nat) {s : State} : Answers [.time, .regs, .pwr] s (execRegRetry at_ s) := by
  have hl : ([.time, .regs, .pwr] : List Part) ⊆ [.time, .regs, .pwr] := fun _ h => h
  have hT := Touches.refl [.time, .regs, .pwr] s
  unfold execRegRetry
  refine Answers.command ?_
  repeat' (first
    | with_reducible assumption
    | ((with_reducible refine List.Subset.trans ?_ hl); decide)
    | with_reducible apply Answers.next
    | with_reducible apply Answers.ite
    | with_reducible apply State.regFull_touches
    | with_reducible apply State.reach_touches)

theorem execIdleEntry_touches (at_ : Nat) {s : State} : Answers [.time, .regs] s (execIdleEntry at_ s) := by
  have hl : ([.time, .regs] : List Part) ⊆ [.time, .regs] := fun _ h => h
  have hT := Touches.refl [.time, .regs] s
  unfold execIdleEntry
  refine Answers.command ?_
  repeat' (first
    | with_reducible assumption
    | ((with_reducible refine List.Subset.trans ?_ hl); decide)
    | with_reducible apply Answers.next
    | with_reducible apply Answers.ite
    | with_reducible apply State.reach_touches
    | with_reducible apply State.setFld_touches)

theorem State.setClk_touches {L : List Part} {Z : State} {s : State} (c : ClkGroup) (hT : Touches L Z s) (hl : [.clk] ⊆ L) : Touches L Z (State.setClk s c) := by
  unfold State.setClk
  repeat' (first
    | with_reducible assumption
    | ((conv => pattern (State.mk ..)); (with_reducible apply Touches.of); case k => (intro p hp; cases p <;> first | exact absurd (hl (by decide)) hp | (dsimp only [SamePart]; done) | (dsimp only [SamePart]; with_reducible exact rfl))))

theorem execClkReturnTimeout_touches (at_ : Nat) {s : State} : Answers [.time, .clk] s (execClkReturnTimeout at_ s) := by
  have hl : ([.time, .clk] : List Part) ⊆ [.time, .clk] := fun _ h => h
  have hT := Touches.refl [.time, .clk] s
  unfold execClkReturnTimeout
  refine Answers.command ?_
  repeat' (first
    | with_reducible assumption
    | ((with_reducible refine List.Subset.trans ?_ hl); decide)
    | with_reducible apply Answers.next
    | with_reducible apply Answers.ite
    | with_reducible apply State.setClk_touches
    | with_reducible apply State.reach_touches)

theorem execClkEnWrite_touches (value : Nat) (secure : Bool) {s : State} : Answers [.regs, .objs, .sent, .log, .pwr] s (execClkEnWrite value secure s) := by
  have hl : ([.regs, .objs, .sent, .log, .pwr] : List Part) ⊆ [.regs, .objs, .sent, .log, .pwr] := fun _ h => h
  have hT := Touches.refl [.regs, .objs, .sent, .log, .pwr] s
  unfold execClkEnWrite
  refine Answers.command ?_
  repeat' (first
    | with_reducible assumption
    | with_reducible exact hl
    | ((with_reducible refine List.Subset.trans ?_ hl); decide)
    | intro _
    | with_reducible apply Answers.next
    | with_reducible apply Answers.ite
    | with_reducible apply Touches.ite
    | (extract_lets +onlyGivenNames u; refine (fun (hu : Touches _ _ u) => ?_) ?_; clear_value u; rotate_left; unfold u; clear u)
    | with_reducible apply Touches.foldl
    | with_reducible apply State.worldError_touches
    | with_reducible apply State.refused_touches
    | with_reducible apply State.pwrSync_touches
    | with_reducible apply State.setFld_touches
    | (split; all_goals first | (with_reducible have hx := congrArg Prod.snd ‹(_ : _ × State) = (_, _)›; dsimp only at hx; subst hx) | (with_reducible have hx := congrArg (fun x => x.2.2) ‹(_ : _ × _ × State) = (_, _, _)›; dsimp only at hx; subst hx) | skip)
    | dsimp only
    | ((conv => pattern (State.mk ..)); (with_reducible apply Touches.of); case k => (intro p hp; cases p <;> first | exact absurd (hl (by decide)) hp | (dsimp only [SamePart]; done) | (dsimp only [SamePart]; with_reducible exact rfl))))

theorem execHardwareThrottle_touches (highest : Int) (at_ : Nat) {s : State} : Answers [.time, .clk] s (execHardwareThrottle highest at_ s) := by
  have hl : ([.time, .clk] : List Part) ⊆ [.time, .clk] := fun _ h => h
  have hT := Touches.refl [.time, .clk] s
  unfold execHardwareThrottle
  refine Answers.command ?_
  repeat' (first
    | with_reducible assumption
    | ((with_reducible refine List.Subset.trans ?_ hl); decide)
    | with_reducible apply Answers.next
    | with_reducible apply Answers.ite
    | with_reducible apply State.setClk_touches
    | with_reducible apply State.reach_touches)

theorem State.setReeve_touches {L : List Part} {Z : State} {s : State} (x : ReeveGroup) (hT : Touches L Z s) (hl : [.reeve] ⊆ L) : Touches L Z (State.setReeve s x) := by
  unfold State.setReeve
  repeat' (first
    | with_reducible assumption
    | ((conv => pattern (State.mk ..)); (with_reducible apply Touches.of); case k => (intro p hp; cases p <;> first | exact absurd (hl (by decide)) hp | (dsimp only [SamePart]; done) | (dsimp only [SamePart]; with_reducible exact rfl))))

theorem execPmbusAlert_touches {s : State} : Answers [.reeve] s (execPmbusAlert s) := by
  have hl : ([.reeve] : List Part) ⊆ [.reeve] := fun _ h => h
  have hT := Touches.refl [.reeve] s
  unfold execPmbusAlert
  refine Answers.command ?_
  repeat' (first
    | with_reducible assumption
    | with_reducible apply Answers.next
    | with_reducible apply State.setReeve_touches)

theorem execLogFlush_touches (at_ : Nat) {s : State} : Answers [.time, .objs, .log] s (execLogFlush at_ s) := by
  have hl : ([.time, .objs, .log] : List Part) ⊆ [.time, .objs, .log] := fun _ h => h
  have hT := Touches.refl [.time, .objs, .log] s
  unfold execLogFlush
  refine Answers.command ?_
  repeat' (first
    | with_reducible assumption
    | ((with_reducible refine List.Subset.trans ?_ hl); decide)
    | with_reducible apply Answers.next
    | with_reducible apply Touches.ite
    | with_reducible apply State.reach_touches
    | with_reducible apply State.flushLog_touches)

theorem State.updFinish_touches {L : List Part} {Z : State} {s : State} (hT : Touches L Z s) (hl : [.regs] ⊆ L) : Touches L Z (State.updFinish s) := by
  unfold State.updFinish
  repeat' (first
    | with_reducible assumption
    | with_reducible apply Touches.ite
    | with_reducible apply State.setFld_touches)

theorem State.updWrite_touches {L : List Part} {Z : State} {s : State} (o : Obj) (secure : Bool) (f : State → State) (hT : Touches L Z s)
    (hl : [.objs, .log] ⊆ L) (hf : ∀ t, Touches L Z t → Touches L Z (f t)) : Touches L Z (s.updWrite o secure f) := by
  unfold State.updWrite
  split
  · exact hf _ hT
  · exact State.objRefused_touches _ _ hT (fun _ h => hl h)

theorem execUpdFinish_touches (secure : Bool) {s : State} : Answers [.regs, .objs, .log] s (execUpdFinish secure s) := by
  have hl : ([.regs, .objs, .log] : List Part) ⊆ [.regs, .objs, .log] := fun _ h => h
  have hT := Touches.refl [.regs, .objs, .log] s
  unfold execUpdFinish
  refine Answers.command ?_
  repeat' (first
    | with_reducible assumption
    | with_reducible exact hl
    | ((with_reducible refine List.Subset.trans ?_ hl); decide)
    | intro _
    | with_reducible apply Answers.next
    | with_reducible apply Answers.ite
    | with_reducible apply Touches.ite
    | (extract_lets +onlyGivenNames u; refine (fun (hu : Touches _ _ u) => ?_) ?_; clear_value u; rotate_left; unfold u; clear u)
    | with_reducible apply Touches.foldl
    | with_reducible apply State.updWrite_touches
    | with_reducible apply State.updFinish_touches
    | (split; all_goals first | (with_reducible have hx := congrArg Prod.snd ‹(_ : _ × State) = (_, _)›; dsimp only at hx; subst hx) | (with_reducible have hx := congrArg (fun x => x.2.2) ‹(_ : _ × _ × State) = (_, _, _)›; dsimp only at hx; subst hx) | skip)
    | dsimp only
    | ((conv => pattern (State.mk ..)); (with_reducible apply Touches.of); case k => (intro p hp; cases p <;> first | exact absurd (hl (by decide)) hp | (dsimp only [SamePart]; done) | (dsimp only [SamePart]; with_reducible exact rfl))))

theorem State.refused_touches {L : List Part} {Z : State} {s : State} (c : Code) (index sub : Nat) (hT : Touches L Z s) (hl : [.objs, .log] ⊆ L) : Touches L Z (State.refused s c index sub) := by
  unfold State.refused
  repeat' (first
    | with_reducible assumption
    | ((with_reducible refine List.Subset.trans ?_ hl); decide)
    | with_reducible apply Touches.ite
    | with_reducible apply State.bumpObj_touches
    | with_reducible apply State.objRefused_touches)

theorem State.showSave_touches {L : List Part} {Z : State} {s : State} (idle : Nat) (hT : Touches L Z s) (hl : [.objs] ⊆ L) : Touches L Z (State.showSave s idle) := by
  unfold State.showSave
  repeat' (first
    | with_reducible assumption
    | with_reducible apply State.setObj_touches)

theorem State.queueSave_touches {L : List Part} {Z : State} {s : State} (j : SaveJob) (hT : Touches L Z s) (hl : [.objs, .crier] ⊆ L) : Touches L Z (State.queueSave s j) := by
  unfold State.queueSave
  repeat' (first
    | with_reducible assumption
    | ((with_reducible refine List.Subset.trans ?_ hl); decide)
    | with_reducible apply State.setCrier_touches
    | with_reducible apply State.showSave_touches)

theorem State.saveObjects_touches {L : List Part} {Z : State} {s : State} (secure : Bool) (hT : Touches L Z s) (hl : [.objs, .crier] ⊆ L) : Touches L Z (State.saveObjects s secure) := by
  unfold State.saveObjects
  repeat' (first
    | with_reducible assumption
    | with_reducible apply State.queueSave_touches)

theorem execAlmanacSave_touches (secure : Bool) {s : State} : Answers [.objs, .crier] s (execAlmanacSave secure s) := by
  have hl : ([.objs, .crier] : List Part) ⊆ [.objs, .crier] := fun _ h => h
  have hT := Touches.refl [.objs, .crier] s
  unfold execAlmanacSave
  refine Answers.command ?_
  repeat' (first
    | with_reducible assumption
    | with_reducible apply Answers.next
    | with_reducible apply State.saveObjects_touches)

theorem State.openAt_touches {L : List Part} {Z : State} {s : State} (x : Session) (slot : Nat) (hT : Touches L Z s) (hl : [.objs, .ledger, .crier] ⊆ L) : Touches L Z (State.openAt s x slot).2 := by
  unfold State.openAt
  repeat' (first
    | with_reducible assumption
    | ((with_reducible refine List.Subset.trans ?_ hl); decide)
    | with_reducible apply State.setSession_touches
    | with_reducible apply State.countSessions_touches
    | with_reducible apply State.setRec_touches)

theorem execArpRequest_touches (target senderIp senderMac : Nat) {s : State} : Answers [.sent] s (execArpRequest target senderIp senderMac s) := by
  have hl : ([.sent] : List Part) ⊆ [.sent] := fun _ h => h
  have hT := Touches.refl [.sent] s
  unfold execArpRequest
  refine Answers.command ?_
  repeat' (first
    | with_reducible assumption
    | with_reducible apply Answers.next
    | with_reducible apply Touches.ite
    | with_reducible apply State.send_touches)

theorem execIcmpEcho_touches (target senderIp senderMac : Nat) (payload : List Byte) {s : State} : Answers [.sent] s (execIcmpEcho target senderIp senderMac payload s) := by
  have hl : ([.sent] : List Part) ⊆ [.sent] := fun _ h => h
  have hT := Touches.refl [.sent] s
  unfold execIcmpEcho
  refine Answers.command ?_
  repeat' (first
    | with_reducible assumption
    | with_reducible apply Answers.next
    | with_reducible apply Touches.ite
    | with_reducible apply State.send_touches)

theorem execLogRegisterClear_touches (which inst : Nat) (secure : Bool) {s : State} : Answers [.regs, .objs, .sent, .log] s (execLogRegisterClear which inst secure s) := by
  have hl : ([.regs, .objs, .sent, .log] : List Part) ⊆ [.regs, .objs, .sent, .log] := fun _ h => h
  have hT := Touches.refl [.regs, .objs, .sent, .log] s
  unfold execLogRegisterClear
  refine Answers.command ?_
  repeat' (first
    | with_reducible assumption
    | ((with_reducible refine List.Subset.trans ?_ hl); decide)
    | intro _
    | with_reducible apply Answers.next
    | with_reducible apply Answers.ite
    | with_reducible apply Touches.foldl
    | with_reducible apply State.setFld_touches
    | with_reducible apply State.worldError_touches
    | split)

theorem execDramRequest_touches (port off : Nat) (write : Bool) (deadline : Option Nat) (at_ : Nat) {s : State} : Answers [.time, .mc] s (execDramRequest port off write deadline at_ s) := by
  have hl : ([.time, .mc] : List Part) ⊆ [.time, .mc] := fun _ h => h
  have hT := Touches.refl [.time, .mc] s
  unfold execDramRequest
  refine Answers.command ?_
  repeat' (first
    | with_reducible assumption
    | ((with_reducible refine List.Subset.trans ?_ hl); decide)
    | with_reducible apply Answers.next
    | with_reducible apply Answers.ite
    | with_reducible apply State.reach_touches
    | with_reducible apply State.mcRequest_touches
    | dsimp only
    | ((conv => pattern (State.mk ..)); (with_reducible apply Touches.of); case k => (intro p hp; cases p <;> first | exact absurd (hl (by decide)) hp | (dsimp only [SamePart]; done) | (dsimp only [SamePart]; with_reducible exact rfl))))

theorem State.runUpdate_touches {L : List Part} {Z : State} {s : State} (c : Nat) (hT : Touches L Z s) (hl : [.mc] ⊆ L) : Touches L Z (State.runUpdate s c) := by
  unfold State.runUpdate
  repeat' (first
    | with_reducible assumption
    | with_reducible apply Touches.ite
    | dsimp only
    | ((conv => pattern (State.mk ..)); (with_reducible apply Touches.of); case k => (intro p hp; cases p <;> first | exact absurd (hl (by decide)) hp | (dsimp only [SamePart]; done) | (dsimp only [SamePart]; with_reducible exact rfl))))

theorem State.refreshBank_touches {L : List Part} {Z : State} {s : State} (key : Nat) (owed : Int) (hT : Touches L Z s) (hl : [.mc] ⊆ L) : Touches L Z (State.refreshBank s key owed) := by
  unfold State.refreshBank
  repeat' (first
    | with_reducible assumption
    | with_reducible exact hl
    | ((with_reducible refine List.Subset.trans ?_ hl); decide)
    | intro _
    | with_reducible apply Touches.ite
    | (extract_lets +onlyGivenNames u; refine (fun (hu : Touches _ _ u) => ?_) ?_; clear_value u; rotate_left; unfold u; clear u)
    | with_reducible apply Touches.foldl
    | split
    | dsimp only
    | ((conv => pattern (State.mk ..)); (with_reducible apply Touches.of); case k => (intro p hp; cases p <;> first | exact absurd (hl (by decide)) hp | (dsimp only [SamePart]; done) | (dsimp only [SamePart]; with_reducible exact rfl))))

theorem execPerBankRefresh_touches (channel rank bank : Nat) {s : State} : Answers [.free, .objs, .mc] s (execPerBankRefresh channel rank bank s) := by
  have hl : ([.free, .objs, .mc] : List Part) ⊆ [.free, .objs, .mc] := fun _ h => h
  have hT := Touches.refl [.free, .objs, .mc] s
  unfold execPerBankRefresh
  refine Answers.command ?_
  repeat' (first
    | with_reducible assumption
    | with_reducible exact hl
    | ((with_reducible refine List.Subset.trans ?_ hl); decide)
    | intro _
    | with_reducible apply Answers.next
    | with_reducible apply Answers.ite
    | with_reducible apply Touches.ite
    | (extract_lets +onlyGivenNames u; refine (fun (hu : Touches _ _ u) => ?_) ?_; clear_value u; rotate_left; unfold u; clear u)
    | with_reducible apply Touches.foldl
    | with_reducible apply State.fresh_touches
    | with_reducible apply State.mcSlot_touches
    | with_reducible apply State.refreshBank_touches
    | (split; all_goals first | (with_reducible have hx := congrArg Prod.snd ‹(_ : _ × State) = (_, _)›; dsimp only at hx; subst hx) | (with_reducible have hx := congrArg (fun x => x.2.2) ‹(_ : _ × _ × State) = (_, _, _)›; dsimp only at hx; subst hx) | skip)
    | dsimp only
    | ((conv => pattern (State.mk ..)); (with_reducible apply Touches.of); case k => (intro p hp; cases p <;> first | exact absurd (hl (by decide)) hp | (dsimp only [SamePart]; done) | (dsimp only [SamePart]; with_reducible exact rfl))))

theorem execActWindowClear_touches {s : State} : Answers [.mc] s (execActWindowClear s) := by
  have hl : ([.mc] : List Part) ⊆ [.mc] := fun _ h => h
  have hT := Touches.refl [.mc] s
  unfold execActWindowClear
  refine Answers.command ?_
  repeat' (first
    | with_reducible assumption
    | with_reducible apply Answers.next
    | dsimp only
    | ((conv => pattern (State.mk ..)); (with_reducible apply Touches.of); case k => (intro p hp; cases p <;> first | exact absurd (hl (by decide)) hp | (dsimp only [SamePart]; done) | (dsimp only [SamePart]; with_reducible exact rfl))))

theorem State.driftError_touches {L : List Part} {Z : State} {s : State} (channel : Nat) (hT : Touches L Z s) (hl : [.regs, .objs, .log] ⊆ L) : Touches L Z (State.driftError s channel) := by
  unfold State.driftError
  repeat' (first
    | with_reducible assumption
    | with_reducible exact hl
    | ((with_reducible refine List.Subset.trans ?_ hl); decide)
    | intro _
    | with_reducible apply Touches.ite
    | (extract_lets +onlyGivenNames u; refine (fun (hu : Touches _ _ u) => ?_) ?_; clear_value u; rotate_left; unfold u; clear u)
    | with_reducible apply Touches.foldl
    | with_reducible apply State.setFlds_touches
    | with_reducible apply State.logIt_touches
    | split
    | dsimp only
    | ((conv => pattern (State.mk ..)); (with_reducible apply Touches.of); case k => (intro p hp; cases p <;> first | exact absurd (hl (by decide)) hp | (dsimp only [SamePart]; done) | (dsimp only [SamePart]; with_reducible exact rfl))))

theorem execPeriodicRetrain_touches (channel drift : Nat) (at_ : Nat) {s : State} : Answers [.time, .regs, .objs, .mc, .log] s (execPeriodicRetrain channel drift at_ s) := by
  have hl : ([.time, .regs, .objs, .mc, .log] : List Part) ⊆ [.time, .regs, .objs, .mc, .log] := fun _ h => h
  have hT := Touches.refl [.time, .regs, .objs, .mc, .log] s
  unfold execPeriodicRetrain
  refine Answers.command ?_
  repeat' (first
    | with_reducible assumption
    | with_reducible exact hl
    | ((with_reducible refine List.Subset.trans ?_ hl); decide)
    | intro _
    | with_reducible apply Answers.next
    | with_reducible apply Answers.ite
    | with_reducible apply Touches.ite
    | (extract_lets +onlyGivenNames u; refine (fun (hu : Touches _ _ u) => ?_) ?_; clear_value u; rotate_left; unfold u; clear u)
    | with_reducible apply Touches.foldl
    | with_reducible apply State.runUpdate_touches
    | with_reducible apply State.reach_touches
    | with_reducible apply State.driftError_touches
    | (split; all_goals first | (with_reducible have hx := congrArg Prod.snd ‹(_ : _ × State) = (_, _)›; dsimp only at hx; subst hx) | (with_reducible have hx := congrArg (fun x => x.2.2) ‹(_ : _ × _ × State) = (_, _, _)›; dsimp only at hx; subst hx) | skip)
    | dsimp only
    | ((conv => pattern (State.mk ..)); (with_reducible apply Touches.of); case k => (intro p hp; cases p <;> first | exact absurd (hl (by decide)) hp | (dsimp only [SamePart]; done) | (dsimp only [SamePart]; with_reducible exact rfl))))

theorem execForcedRetrainUpdate_touches (channel : Nat) (at_ : Nat) {s : State} : Answers [.time, .mc] s (execForcedRetrainUpdate channel at_ s) := by
  have hl : ([.time, .mc] : List Part) ⊆ [.time, .mc] := fun _ h => h
  have hT := Touches.refl [.time, .mc] s
  unfold execForcedRetrainUpdate
  refine Answers.command ?_
  repeat' (first
    | with_reducible assumption
    | ((with_reducible refine List.Subset.trans ?_ hl); decide)
    | with_reducible apply Answers.next
    | with_reducible apply Answers.ite
    | with_reducible apply State.reach_touches
    | dsimp only
    | ((conv => pattern (State.mk ..)); (with_reducible apply Touches.of); case k => (intro p hp; cases p <;> first | exact absurd (hl (by decide)) hp | (dsimp only [SamePart]; done) | (dsimp only [SamePart]; with_reducible exact rfl))))

theorem execDramPowerDown_touches (at_ : Nat) {s : State} : Answers [.time, .mc] s (execDramPowerDown at_ s) := by
  have hl : ([.time, .mc] : List Part) ⊆ [.time, .mc] := fun _ h => h
  have hT := Touches.refl [.time, .mc] s
  unfold execDramPowerDown
  refine Answers.command ?_
  repeat' (first
    | with_reducible assumption
    | ((with_reducible refine List.Subset.trans ?_ hl); decide)
    | with_reducible apply Answers.next
    | with_reducible apply Answers.ite
    | with_reducible apply State.reach_touches
    | dsimp only
    | ((conv => pattern (State.mk ..)); (with_reducible apply Touches.of); case k => (intro p hp; cases p <;> first | exact absurd (hl (by decide)) hp | (dsimp only [SamePart]; done) | (dsimp only [SamePart]; with_reducible exact rfl))))

theorem execMcRegionWrite_touches (n word value : Nat) (secure : Bool) {s : State} : Answers [.regs, .objs, .sent, .log] s (execMcRegionWrite n word value secure s) := by
  have hl : ([.regs, .objs, .sent, .log] : List Part) ⊆ [.regs, .objs, .sent, .log] := fun _ h => h
  have hT := Touches.refl [.regs, .objs, .sent, .log] s
  unfold execMcRegionWrite
  refine Answers.command ?_
  repeat' (first
    | with_reducible assumption
    | ((with_reducible refine List.Subset.trans ?_ hl); decide)
    | with_reducible apply Answers.next
    | with_reducible apply Answers.ite
    | with_reducible apply Touches.ite
    | with_reducible apply State.worldError_touches
    | with_reducible apply State.setFlds_touches
    | with_reducible apply State.setFld_touches)

end Sys2Proof.Machine
end

