-- ==== Sys2Proof/Tests/Slice0.lean ====
section
/-!
SUPPORT. The model's own tests: the checks of WellFormed, the words of a few tract commands, values that the spec gives, single steps, and for
every statement with hypotheses a state and operands that meet all of them together, clause by clause.
-/
set_option maxRecDepth 20000
set_option Elab.async false
set_option linter.unusedVariables false
namespace Sys2Proof.Tests
open Sys2Proof.Machine

/-! ### Well-formed commands -/

def tc : TcCmd := ⟨0, 0, 0, 0, 0, 0, 0, false, false, false, false, 0, 0, 0⟩
def fr : CrierFrame := ⟨0, 0, 0, 0, false, 0, 0, 0, 0, 0, 0, [], [], 0⟩

theorem test_wf_accepts_1 : ∀ i ∈ [
      Instr.gemmNSplit 7 tc [], .gemmKSplit 7 tc [], .gemmBTransposed 7 tc [], .convDense 7 tc [], .convDiagonal 7 tc [],
      .attnForward 7 tc [] [], .attnBackward 7 tc [] [], .scanDiagonal 7 tc [], .scanMatrixValued 7 tc [], .scanStep 7 tc [], .vecCopy 7 tc [],
      .vecAdd 7 tc [], .vecMultiply 7 tc [], .vecFusedMultiplyAdd 7 tc [], .vecMaximum 7 tc [], .vecMinimum 7 tc [], .vecExp 7 tc [],
      .vecLog 7 tc [], .vecReciprocal 7 tc [], .vecSigmoid 7 tc [], .vecTanh 7 tc [], .vecSilu 7 tc [], .vecGelu 7 tc [],
      .vecSumAlongD0 7 tc [], .vecMaximumAlongD0 7 tc [], .vecRequantise 7 tc [], .poolMax 7 tc [], .poolAverage 7 tc [],
      .dmaUnifiedRangeToBin 7 tc [] [], .dmaBinToUnifiedRange 7 tc [] [], .dmaBinToBin 7 tc [], .dmaBinToRemoteGate 7 tc [], .waitTally 7 tc,
      .scalePerRowAbsoluteMaximum 7 tc [], .scaleLoad 7 tc [], .scaleAdapt 7 tc [], .spillOut 7 tc [], .spillIn 7 tc [], .stilePoint 7 0 tc [],
      .commandComplete 7 255 false 0, .waitTallyTimeout 7, .hearthSwapInComplete 7 3 false 0, .hearthSwapOutComplete 7 3,
      .hearthCfgWrite 7 3 false, .binPortAccess 7 15 255 false false 25165823 0 [] none [], .correctedWordWriteBack 7, .binInit 7 false,
      .binZeroingComplete 7, .patrolScrub 7 [], .slotMapWrite 7 2 (2 ^ 32 - 1) false, .binRepair 7 47 2047 false, .fieldRowRepair 7 47 2047,
      .gateOpen 7 63 false, .gateClose 7 63 false, .gateArrival 7 63 131071 1023 7 (List.replicate 256 0#8) 0#32,
      .tallyWrite 7 1023 (2 ^ 32 - 1) false, .unifiedRangeAccess 255 false false 0 0 [] [], .granaryFillComplete 3 none,
      .granaryWriteBackComplete 3 false, .migrationDecay 0],
    i.wf = true := by decide +kernel

theorem test_wf_accepts_2 : ∀ i ∈ [
      Instr.urPin (2 ^ 24 - 1) 15 8191 false, .urUnpin (2 ^ 24 - 1) 15 8191 false, .urQuotaWrite 15 65535 false,
      .urPstateWrite (2 ^ 24 - 1) false false false, .deadlineExpiry 7 63 0, .fallbackStart 7, .quarterRetireComplete 3, .quarterLoss 3,
      .dramRequest 15 0 false none 0, .dramRequestComplete 15 false false 0, .perBankRefresh 15 1 15, .mr4Read 15 0 false, .actWindowClear,
      .dramTrainingComplete 3 none 0, .periodicRetrain 15 2 0, .forcedRetrainUpdate 15 0, .dramPowerDown 0,
      .mcRegionWrite 7 1 (2 ^ 32 - 1) false, .ledgerOpen 15 15 (2 ^ 32 - 1) (2 ^ 32 - 1) (2 ^ 32 - 1) (2 ^ 32 - 1) false [],
      .ledgerClose (2 ^ 32 - 1) false [], .ledgerTruncate (2 ^ 32 - 1) (2 ^ 32 - 1) false [], .ledgerRead (2 ^ 32 - 1) false,
      .svLeaseWrite 7 false false, .svDoorbell (2 ^ 32 - 1) false, .sieveDecode [], .sieveCrop [], .sieveCallComplete, .partApply false,
      .partitionApplyResume 7, .submissionDoorbell 255 4095 0 false, .periodicRelease 7 63 0, .preEmptionSaveComplete 7 0,
      .switchRestoreComplete 7 false 0, .cqheadWrite 255 65535 false, .rotaAbort none 255 65535 false 0, .guardedRelease 15 0,
      .selftestSegmentEnd 7 [] [] 0, .hpFeedEnable 7 false, .hpFeedDisable 7 false, .hpDoorbell 7 (2 ^ 32 - 1) false, .laneSampleStart 15 0,
      .sampleFinish 15 [] 0, .sampleBudgetExpiry 15 0, .hpRelease 7 (2 ^ 32 - 1) false, .csiFrameStart 3 15 65535 2 false 0,
      .csiLongPacket 3 15 63 [] 2 false 0 0, .csiFrameEnd 3 15 2 0, .cameraHotplugLoss 3 0, .csiLossTimeout 3 0, .frameStartTimeout 15 0,
      .gapRecord 15 0, .osEnable 15, .osDisable 15, .osRelease 15 (2 ^ 32 - 1), .camColourWrite 15 [], .audioBlock [] [] false 0 0,
      .audStreamEnable false, .audioRelease, .vadFrame [] 0 0 0, .spanPush 0],
    i.wf = true := by decide +kernel

theorem test_wf_accepts_3 : ∀ i ∈ [
      Instr.spanPushComplete 0, .watchVerdictAccept 0, .watchVerdictReject, .verifyTimeout 0, .lockOpenExpiry 0, .erasingComplete,
      .watchPull 7 (2 ^ 17 - 1) 4095 1023 (2 ^ 32 - 1), .watchSpanWrite (2 ^ 32 - 1) false, .muteAssert 0, .muteRelease 0, .listenMicLost 0,
      .buttonChange 3 false 0 0, .buttonLong 3 0, .recoveryDecision 0, .touchScan [0, 0, 0, 0, 0, 0, 0, 0] 0, .hpdChange 5 false 0 0,
      .shutterChange 3 false 0 0, .doorLedWrite 5 (2 ^ 32 - 1) 0, .comparatorStart 15, .comparatorComplete 15 [] 0, .wwKickArm 31 0,
      .wwKick 31 0, .watchdogLimitExpiry 31 0, .safeFaultClear 31 false, .safeInjectCompare 15 false, .safeInjectWatchdog 31 false,
      .boundaryRegionWrite 255 3 false, .regionZeroingComplete 255, .secWmapWrite (2 ^ 32 - 1) false, .keySlotAgree 255 15 7 0 false,
      .keySlotDerive 255 15 255 (2 ^ 64 - 1) false, .keySlotClear 255 false, .secUnwrap (2 ^ 24 - 1) (2 ^ 24 - 1) false, .unwrapComplete [] 0,
      .attestNonceWrite [], .attestReportSigned 0, .secMeasWrite 15 (2 ^ 32 - 1) false, .deviceRootFormed false 0, .debugToken 3 [],
      .debugUnlock, .crierIdentify fr 0, .crierOpen fr 0, .crierClose fr 0, .objectRead (.frame fr) 0, .objectWrite (.frame fr) 0,
      .readBlock (.frame fr) 0, .writeBlock (.frame fr) 0, .crierSubscribe fr 0, .crierNotify 65535 1 65535 255 0, .crierPull (.frame fr) [] 0,
      .crierAck (.frame fr) 0, .sessionTimeout 65535 0, .resultPublish none (2 ^ 32 - 1) 65535 (2 ^ 64 - 1) 255 255 65535 [] 0,
      .almanacSave false, .almanacSaveComplete false, .almanacRestore false, .arpRequest (2 ^ 32 - 1) (2 ^ 32 - 1) (2 ^ 48 - 1),
      .icmpEcho (2 ^ 32 - 1) (2 ^ 32 - 1) (2 ^ 48 - 1) [], .tc10RemoteWake 0, .gptpMessage 7 0 0 0],
    i.wf = true := by decide +kernel

theorem test_wf_accepts_4 : ∀ i ∈ [
      Instr.hlPortUp 1 2 1, .hlPortDown 1, .hlRetrain 1, .hlHello 1 7 false [] 255 false,
      .hlData 1 7 7 4095 1023 63 131071 7 65535 (2 ^ 64 - 1) [] false, .hlReply 1 7 7 4095 65535 131071 255 false, .hlLinkack 1 4095,
      .hlReplay 1 4095, .hlReplyTimeout 65535 0 0, .hlSyncSend 0, .hlSync 1 7 4095 0 0 false 0, .hlSyncLoss 0, .nhlwakePulse 0,
      .hlMgmt false 1 7 7 4095 [] false, .governorPeriod [] [] [] 0 [] [] [] false 0, .pmbusAlert, .logFlush 0, .updBegin false,
      .updData [] false, .updFinish false, .updCancel false, .updActivate false 0, .updVerifyComplete 7, .updWriteComplete false,
      .updCommitComplete false, .idleEntry 0, .dozeEntry 0, .restEntry 0, .listenEntry false 0, .stateEntryComplete [] 0, .resumeComplete 0,
      .wakeAlarm 0, .domainStart 0, .domainPowerGood 49 0, .domainSwitchOff 49 0, .regOk 0, .regOkTimeout 0, .regRetry 0, .brownOut 0,
      .clkTcselSwitch 7 1 false, .tclkSwitchComplete, .pllLock 10, .clockSourceFailure 15 0, .clockSourceReturn 65535 0, .clkReturnTimeout 0,
      .clkEnWrite (2 ^ 32 - 1) false, .hardwareThrottle 0 0, .thermalTrip 0 0 0, .nporLow 0, .nporRelease false 7 15 0, .nrstLow 0,
      .rstCtrlWarm false 0, .rstCtrlPartition 7 false, .extestSelect 0, .warmResetZeroingComplete [] 0,
      .bootRomVerifyComplete 2 (2 ^ 32 - 1) (2 ^ 32 - 1) [] [] [] [] [] 0, .watchImageVerified false [] [] [] 0 0 0,
      .hostFirmwareVerified 2 (2 ^ 32 - 1) (2 ^ 18 - 1) [] [] 0, .tcCtrlHalt 7 false false, .logRegisterClear 5 0 false],
    i.wf = true := by decide +kernel

theorem test_wf_accepts_5 : ∀ i ∈ [
      Instr.registerWrite (2 ^ 32 - 1) (2 ^ 32 - 1) false false, .reservedClassCommand 7 tc, .unknownOperation 255 (.frame fr) 0,
      .hlUnknownPacket 1, .nrstRelease 0, .extestDeselect 0, .watchRegulatorOverload 0, .vddAonInRemoved 0, .agreeHandshakeEnd [] 0 false 0],
    i.wf = true := by decide +kernel

theorem test_wf_refuses_1 : ∀ i ∈ [
      Instr.gemmNSplit 8 tc [], .gemmNSplit 0 { tc with tag := 256 } [], .gemmNSplit 0 tc [.bin 8 0 .corrected], .gemmKSplit 8 tc [],
      .gemmKSplit 0 { tc with tag := 256 } [], .gemmKSplit 0 tc [.bin 8 0 .corrected], .gemmBTransposed 8 tc [],
      .gemmBTransposed 0 { tc with tag := 256 } [], .gemmBTransposed 0 tc [.bin 8 0 .corrected], .convDense 8 tc [],
      .convDense 0 { tc with tag := 256 } [], .convDense 0 tc [.bin 8 0 .corrected], .convDiagonal 8 tc [],
      .convDiagonal 0 { tc with tag := 256 } [], .convDiagonal 0 tc [.bin 8 0 .corrected], .attnForward 8 tc [] [],
      .attnForward 0 { tc with tag := 256 } [] [], .attnForward 0 tc [.bin 8 0 .corrected] [], .attnForward 0 tc [] [.bin 8 0 .corrected],
      .attnBackward 8 tc [] [], .attnBackward 0 { tc with tag := 256 } [] [], .attnBackward 0 tc [.bin 8 0 .corrected] [],
      .attnBackward 0 tc [] [.bin 8 0 .corrected], .scanDiagonal 8 tc [], .scanDiagonal 0 { tc with tag := 256 } [],
      .scanDiagonal 0 tc [.bin 8 0 .corrected], .scanMatrixValued 8 tc [], .scanMatrixValued 0 { tc with tag := 256 } [],
      .scanMatrixValued 0 tc [.bin 8 0 .corrected], .scanStep 8 tc [], .scanStep 0 { tc with tag := 256 } [],
      .scanStep 0 tc [.bin 8 0 .corrected], .vecCopy 8 tc [], .vecCopy 0 { tc with tag := 256 } [], .vecCopy 0 tc [.bin 8 0 .corrected],
      .vecAdd 8 tc [], .vecAdd 0 { tc with tag := 256 } [], .vecAdd 0 tc [.bin 8 0 .corrected], .vecMultiply 8 tc [],
      .vecMultiply 0 { tc with tag := 256 } [], .vecMultiply 0 tc [.bin 8 0 .corrected], .vecFusedMultiplyAdd 8 tc [],
      .vecFusedMultiplyAdd 0 { tc with tag := 256 } [], .vecFusedMultiplyAdd 0 tc [.bin 8 0 .corrected], .vecMaximum 8 tc [],
      .vecMaximum 0 { tc with tag := 256 } [], .vecMaximum 0 tc [.bin 8 0 .corrected], .vecMinimum 8 tc [],
      .vecMinimum 0 { tc with tag := 256 } [], .vecMinimum 0 tc [.bin 8 0 .corrected], .vecExp 8 tc [], .vecExp 0 { tc with tag := 256 } [],
      .vecExp 0 tc [.bin 8 0 .corrected], .vecLog 8 tc [], .vecLog 0 { tc with tag := 256 } [], .vecLog 0 tc [.bin 8 0 .corrected],
      .vecReciprocal 8 tc [], .vecReciprocal 0 { tc with tag := 256 } [], .vecReciprocal 0 tc [.bin 8 0 .corrected], .vecSigmoid 8 tc []],
    i.wf = false := by decide +kernel

theorem test_wf_refuses_2 : ∀ i ∈ [
      Instr.vecSigmoid 0 { tc with tag := 256 } [], .vecSigmoid 0 tc [.bin 8 0 .corrected], .vecTanh 8 tc [],
      .vecTanh 0 { tc with tag := 256 } [], .vecTanh 0 tc [.bin 8 0 .corrected], .vecSilu 8 tc [], .vecSilu 0 { tc with tag := 256 } [],
      .vecSilu 0 tc [.bin 8 0 .corrected], .vecGelu 8 tc [], .vecGelu 0 { tc with tag := 256 } [], .vecGelu 0 tc [.bin 8 0 .corrected],
      .vecSumAlongD0 8 tc [], .vecSumAlongD0 0 { tc with tag := 256 } [], .vecSumAlongD0 0 tc [.bin 8 0 .corrected], .vecMaximumAlongD0 8 tc [],
      .vecMaximumAlongD0 0 { tc with tag := 256 } [], .vecMaximumAlongD0 0 tc [.bin 8 0 .corrected], .vecRequantise 8 tc [],
      .vecRequantise 0 { tc with tag := 256 } [], .vecRequantise 0 tc [.bin 8 0 .corrected], .poolMax 8 tc [],
      .poolMax 0 { tc with tag := 256 } [], .poolMax 0 tc [.bin 8 0 .corrected], .poolAverage 8 tc [], .poolAverage 0 { tc with tag := 256 } [],
      .poolAverage 0 tc [.bin 8 0 .corrected], .dmaUnifiedRangeToBin 8 tc [] [], .dmaUnifiedRangeToBin 0 { tc with tag := 256 } [] [],
      .dmaUnifiedRangeToBin 0 tc [.bin 8 0 .corrected] [], .dmaUnifiedRangeToBin 0 tc [] [.bin 8 0 .corrected],
      .dmaBinToUnifiedRange 8 tc [] [], .dmaBinToUnifiedRange 0 { tc with tag := 256 } [] [],
      .dmaBinToUnifiedRange 0 tc [.bin 8 0 .corrected] [], .dmaBinToUnifiedRange 0 tc [] [.bin 8 0 .corrected], .dmaBinToBin 8 tc [],
      .dmaBinToBin 0 { tc with tag := 256 } [], .dmaBinToBin 0 tc [.bin 8 0 .corrected], .dmaBinToRemoteGate 8 tc [],
      .dmaBinToRemoteGate 0 { tc with tag := 256 } [], .dmaBinToRemoteGate 0 tc [.bin 8 0 .corrected], .waitTally 8 tc,
      .waitTally 0 { tc with tag := 256 }, .scalePerRowAbsoluteMaximum 8 tc [], .scalePerRowAbsoluteMaximum 0 { tc with tag := 256 } [],
      .scalePerRowAbsoluteMaximum 0 tc [.bin 8 0 .corrected], .scaleLoad 8 tc [], .scaleLoad 0 { tc with tag := 256 } [],
      .scaleLoad 0 tc [.bin 8 0 .corrected], .scaleAdapt 8 tc [], .scaleAdapt 0 { tc with tag := 256 } [],
      .scaleAdapt 0 tc [.bin 8 0 .corrected], .spillOut 8 tc [], .spillOut 0 { tc with tag := 256 } [], .spillOut 0 tc [.bin 8 0 .corrected],
      .spillIn 8 tc [], .spillIn 0 { tc with tag := 256 } [], .spillIn 0 tc [.bin 8 0 .corrected], .stilePoint 8 0 tc [],
      .stilePoint 0 0 { tc with tag := 256 } [], .stilePoint 0 0 tc [.bin 8 0 .corrected]],
    i.wf = false := by decide +kernel

theorem test_wf_refuses_3 : ∀ i ∈ [
      Instr.commandComplete 8 0 false 0, .commandComplete 0 256 false 0, .waitTallyTimeout 8, .hearthSwapInComplete 8 0 false 0,
      .hearthSwapInComplete 0 4 false 0, .hearthSwapOutComplete 8 0, .hearthSwapOutComplete 0 4, .hearthCfgWrite 8 0 false,
      .hearthCfgWrite 0 4 false, .binPortAccess 8 0 0 false false 0 0 [] none [], .binPortAccess 0 16 0 false false 0 0 [] none [],
      .binPortAccess 0 0 256 false false 0 0 [] none [], .binPortAccess 0 0 0 false false 0x1800000 0 [] none [],
      .binPortAccess 0 0 0 false false 0 0 [] none [.bin 8 0 .corrected], .correctedWordWriteBack 8, .binInit 8 false, .binZeroingComplete 8,
      .patrolScrub 8 [], .patrolScrub 0 [.bin 8 0 .corrected], .slotMapWrite 8 0 0 false, .slotMapWrite 0 3 0 false,
      .slotMapWrite 0 0 (2 ^ 32) false, .binRepair 8 0 0 false, .binRepair 0 48 0 false, .binRepair 0 0 2048 false, .fieldRowRepair 8 0 0,
      .fieldRowRepair 0 48 0, .fieldRowRepair 0 0 2048, .gateOpen 8 0 false, .gateOpen 0 64 false, .gateClose 8 0 false, .gateClose 0 64 false,
      .gateArrival 8 0 0 0 0 (List.replicate 256 0#8) 0#32, .gateArrival 0 64 0 0 0 (List.replicate 256 0#8) 0#32,
      .gateArrival 0 0 131072 0 0 (List.replicate 256 0#8) 0#32, .gateArrival 0 0 0 1024 0 (List.replicate 256 0#8) 0#32,
      .gateArrival 0 0 0 0 8 (List.replicate 256 0#8) 0#32, .tallyWrite 8 0 0 false, .tallyWrite 0 1024 0 false, .tallyWrite 0 0 (2 ^ 32) false,
      .unifiedRangeAccess 256 false false 0 0 [] [], .unifiedRangeAccess 0 false false 0 0 [] [.bin 8 0 .corrected],
      .granaryFillComplete 4 none, .granaryWriteBackComplete 4 false, .urPin (2 ^ 24) 0 0 false, .urPin 0 16 0 false, .urPin 0 0 8192 false,
      .urUnpin (2 ^ 24) 0 0 false, .urUnpin 0 16 0 false, .urUnpin 0 0 8192 false, .urQuotaWrite 16 0 false, .urQuotaWrite 0 65536 false,
      .urPstateWrite (2 ^ 24) false false false, .deadlineExpiry 8 0 0, .deadlineExpiry 0 64 0, .fallbackStart 8, .quarterRetireComplete 4,
      .quarterLoss 4, .dramRequest 16 0 false none 0, .dramRequestComplete 16 false false 0],
    i.wf = false := by decide +kernel

theorem test_wf_refuses_4 : ∀ i ∈ [
      Instr.perBankRefresh 16 0 0, .perBankRefresh 0 2 0, .perBankRefresh 0 0 16, .mr4Read 16 0 false, .dramTrainingComplete 4 none 0,
      .periodicRetrain 16 0 0, .periodicRetrain 0 3 0, .forcedRetrainUpdate 16 0, .mcRegionWrite 8 0 0 false, .mcRegionWrite 0 2 0 false,
      .mcRegionWrite 0 0 (2 ^ 32) false, .ledgerOpen 16 0 0 0 0 0 false [], .ledgerOpen 0 16 0 0 0 0 false [],
      .ledgerOpen 0 0 (2 ^ 32) 0 0 0 false [], .ledgerOpen 0 0 0 (2 ^ 32) 0 0 false [], .ledgerOpen 0 0 0 0 (2 ^ 32) 0 false [],
      .ledgerOpen 0 0 0 0 0 (2 ^ 32) false [], .ledgerOpen 0 0 0 0 0 0 false [.bin 8 0 .corrected], .ledgerClose (2 ^ 32) false [],
      .ledgerClose 0 false [.bin 8 0 .corrected], .ledgerTruncate (2 ^ 32) 0 false [], .ledgerTruncate 0 (2 ^ 32) false [],
      .ledgerTruncate 0 0 false [.bin 8 0 .corrected], .ledgerRead (2 ^ 32) false, .svLeaseWrite 8 false false, .svDoorbell (2 ^ 32) false,
      .sieveDecode [.bin 8 0 .corrected], .sieveCrop [.bin 8 0 .corrected], .partitionApplyResume 8, .submissionDoorbell 256 0 0 false,
      .submissionDoorbell 0 4096 0 false, .periodicRelease 8 0 0, .periodicRelease 0 64 0, .preEmptionSaveComplete 8 0,
      .switchRestoreComplete 8 false 0, .cqheadWrite 256 0 false, .cqheadWrite 0 65536 false, .rotaAbort none 256 0 false 0,
      .rotaAbort none 0 65536 false 0, .rotaAbort (some (.window 16 false false)) 0 0 false 0, .guardedRelease 16 0,
      .selftestSegmentEnd 8 [] [] 0, .hpFeedEnable 8 false, .hpFeedDisable 8 false, .hpDoorbell 8 0 false, .hpDoorbell 0 (2 ^ 32) false,
      .laneSampleStart 16 0, .sampleFinish 16 [] 0, .sampleFinish 0 [.bin 8 0 .corrected] 0, .sampleBudgetExpiry 16 0, .hpRelease 8 0 false,
      .hpRelease 0 (2 ^ 32) false, .csiFrameStart 4 0 0 0 false 0, .csiFrameStart 0 16 0 0 false 0, .csiFrameStart 0 0 65536 0 false 0,
      .csiFrameStart 0 0 0 3 false 0, .csiLongPacket 4 0 0 [] 0 false 0 0, .csiLongPacket 0 16 0 [] 0 false 0 0,
      .csiLongPacket 0 0 64 [] 0 false 0 0, .csiLongPacket 0 0 0 [] 3 false 0 0],
    i.wf = false := by decide +kernel

theorem test_wf_refuses_5 : ∀ i ∈ [
      Instr.csiFrameEnd 4 0 0 0, .csiFrameEnd 0 16 0 0, .csiFrameEnd 0 0 3 0, .cameraHotplugLoss 4 0, .csiLossTimeout 4 0,
      .frameStartTimeout 16 0, .gapRecord 16 0, .osEnable 16, .osDisable 16, .osRelease 16 0, .osRelease 0 (2 ^ 32), .camColourWrite 16 [],
      .watchPull 8 0 0 0 0, .watchPull 0 (2 ^ 17) 0 0 0, .watchPull 0 0 4096 0 0, .watchPull 0 0 0 1024 0, .watchPull 0 0 0 0 (2 ^ 32),
      .watchSpanWrite (2 ^ 32) false, .buttonChange 4 false 0 0, .buttonLong 4 0, .hpdChange 6 false 0 0, .shutterChange 4 false 0 0,
      .doorLedWrite 6 0 0, .doorLedWrite 0 (2 ^ 32) 0, .comparatorStart 16, .comparatorComplete 16 [] 0,
      .comparatorComplete 0 [.bin 8 0 .corrected] 0, .wwKickArm 32 0, .wwKick 32 0, .watchdogLimitExpiry 32 0, .safeFaultClear 32 false,
      .safeInjectCompare 16 false, .safeInjectWatchdog 32 false, .boundaryRegionWrite 256 0 false, .boundaryRegionWrite 0 4 false,
      .regionZeroingComplete 256, .secWmapWrite (2 ^ 32) false, .keySlotAgree 256 0 0 0 false, .keySlotAgree 0 16 0 0 false,
      .keySlotAgree 0 0 8 0 false, .keySlotDerive 256 0 0 0 false, .keySlotDerive 0 16 0 0 false, .keySlotDerive 0 0 256 0 false,
      .keySlotDerive 0 0 0 (2 ^ 64) false, .keySlotClear 256 false, .secUnwrap (2 ^ 24) 0 false, .secUnwrap 0 (2 ^ 24) false,
      .unwrapComplete [.bin 8 0 .corrected] 0, .secMeasWrite 16 0 false, .secMeasWrite 0 (2 ^ 32) false, .debugToken 4 [],
      .crierIdentify { fr with seq := 2 ^ 32 } 0, .crierOpen { fr with seq := 2 ^ 32 } 0, .crierClose { fr with seq := 2 ^ 32 } 0,
      .objectRead (.window 16 false false) 0, .objectWrite (.window 16 false false) 0, .readBlock (.window 16 false false) 0,
      .writeBlock (.window 16 false false) 0, .crierSubscribe { fr with seq := 2 ^ 32 } 0, .crierNotify 65536 0 0 0 0],
    i.wf = false := by decide +kernel

theorem test_wf_refuses_6 : ∀ i ∈ [
      Instr.crierNotify 0 2 0 0 0, .crierNotify 0 0 65536 0 0, .crierNotify 0 0 0 256 0, .crierPull (.window 16 false false) [] 0,
      .crierPull (.frame fr) [.bin 8 0 .corrected] 0, .crierAck (.window 16 false false) 0, .sessionTimeout 65536 0,
      .resultPublish none (2 ^ 32) 0 0 0 0 0 [] 0, .resultPublish none 0 65536 0 0 0 0 [] 0, .resultPublish none 0 0 (2 ^ 64) 0 0 0 [] 0,
      .resultPublish none 0 0 0 256 0 0 [] 0, .resultPublish none 0 0 0 0 256 0 [] 0, .resultPublish none 0 0 0 0 0 65536 [] 0,
      .arpRequest (2 ^ 32) 0 0, .arpRequest 0 (2 ^ 32) 0, .arpRequest 0 0 (2 ^ 48), .icmpEcho (2 ^ 32) 0 0 [], .icmpEcho 0 (2 ^ 32) 0 [],
      .icmpEcho 0 0 (2 ^ 48) [], .gptpMessage 8 0 0 0, .hlPortUp 2 0 0, .hlPortUp 0 3 0, .hlPortUp 0 0 2, .hlPortDown 2, .hlRetrain 2,
      .hlHello 2 0 false [] 0 false, .hlHello 0 8 false [] 0 false, .hlHello 0 0 false [] 256 false, .hlData 2 0 0 0 0 0 0 0 0 0 [] false,
      .hlData 0 8 0 0 0 0 0 0 0 0 [] false, .hlData 0 0 8 0 0 0 0 0 0 0 [] false, .hlData 0 0 0 4096 0 0 0 0 0 0 [] false,
      .hlData 0 0 0 0 1024 0 0 0 0 0 [] false, .hlData 0 0 0 0 0 64 0 0 0 0 [] false, .hlData 0 0 0 0 0 0 131072 0 0 0 [] false,
      .hlData 0 0 0 0 0 0 0 8 0 0 [] false, .hlData 0 0 0 0 0 0 0 0 65536 0 [] false, .hlData 0 0 0 0 0 0 0 0 0 (2 ^ 64) [] false,
      .hlReply 2 0 0 0 0 0 0 false, .hlReply 0 8 0 0 0 0 0 false, .hlReply 0 0 8 0 0 0 0 false, .hlReply 0 0 0 4096 0 0 0 false,
      .hlReply 0 0 0 0 65536 0 0 false, .hlReply 0 0 0 0 0 131072 0 false, .hlReply 0 0 0 0 0 0 256 false, .hlLinkack 2 0, .hlLinkack 0 4096,
      .hlReplay 2 0, .hlReplay 0 4096, .hlReplyTimeout 65536 0 0, .hlSync 2 0 0 0 0 false 0, .hlSync 0 8 0 0 0 false 0,
      .hlSync 0 0 4096 0 0 false 0, .hlMgmt false 2 0 0 0 [] false, .hlMgmt false 0 8 0 0 [] false, .hlMgmt false 0 0 8 0 [] false,
      .hlMgmt false 0 0 0 4096 [] false, .updVerifyComplete 8, .domainPowerGood 50 0, .domainSwitchOff 50 0],
    i.wf = false := by decide +kernel

theorem test_wf_refuses_7 : ∀ i ∈ [
      Instr.clkTcselSwitch 8 0 false, .clkTcselSwitch 0 2 false, .pllLock 11, .clockSourceFailure 16 0, .clockSourceReturn 65536 0,
      .clkEnWrite (2 ^ 32) false, .nporRelease false 8 0 0, .nporRelease false 0 16 0, .rstCtrlPartition 8 false,
      .bootRomVerifyComplete 3 0 0 [] [] [] [] [] 0, .bootRomVerifyComplete 0 (2 ^ 32) 0 [] [] [] [] [] 0,
      .bootRomVerifyComplete 0 0 (2 ^ 32) [] [] [] [] [] 0, .hostFirmwareVerified 3 0 0 [] [] 0, .hostFirmwareVerified 0 (2 ^ 32) 0 [] [] 0,
      .hostFirmwareVerified 0 0 (2 ^ 18) [] [] 0, .tcCtrlHalt 8 false false, .logRegisterClear 6 0 false, .registerWrite (2 ^ 32) 0 false false,
      .registerWrite 0 (2 ^ 32) false false, .reservedClassCommand 8 tc, .reservedClassCommand 0 { tc with tag := 256 },
      .unknownOperation 256 (.frame fr) 0, .unknownOperation 0 (.window 16 false false) 0, .hlUnknownPacket 2,
      .binPortAccess 0 0 0 false false 0 0 [] (some 1024) [], .binPortAccess 0 0 0 false true 0 2 [0#8] none [], .gateArrival 0 0 0 0 0 [] 0#32,
      .unifiedRangeAccess 0 false true 0 1 [] [], .touchScan [] 0],
    i.wf = false := by decide +kernel

theorem test_wf_refuses_command_fields : ∀ c ∈ [{ tc with hgen := 2 ^ 12 }, { tc with pb := 2 ^ 20 }, { tc with pa := 2 ^ 32 },
    { tc with opc := 1024 }, { tc with opb := 1024 }, { tc with opa := 1024 }, { tc with tag := 256 }, { tc with haux := 4 },
    { tc with hdst := 4 }, { tc with outfmt := 16 }], c.wf = false := by decide +kernel
theorem test_wf_refuses_errors : ∀ o ∈ [Obs.bin 8 0 .corrected, .bin 0 98304 .corrected, .ur (2 ^ 28) .corrected], o.wf = false := by decide +kernel
theorem test_wf_refuses_frames : ∀ f ∈ [{ fr with transport := 3 }, { fr with ip := 2 ^ 32 }, { fr with mac := 2 ^ 48 }, { fr with port := 65536 },
    { fr with magic := 65536 }, { fr with flags := 256 }, { fr with session := 65536 }, { fr with len := 65536 },
    { fr with seq := 2 ^ 32 }, { fr with ctr := 2 ^ 32 }, { fr with crc := 2 ^ 32 }], f.wf = false ∧ (Via.frame f).wf = false := by decide +kernel

/-! ### States -/

/-- A device that runs: every domain and every clock is on, start-up is over, and the memories are READY. -/
def up : State :=
  { State.reset with
    regs := [(Fld.binStatusReady.key 0, 1), (Fld.binStatusReady.key 1, 1), (Fld.urStatusReady.key 0, 1), (Fld.mcStatusReady.key 0, 1),
       (Fld.rtStatusReady.key 0, 1), (Fld.secStatusRootOk.key 0, 1), (Fld.rvStatusReady.key 0, 1), (Fld.pwrStatusRegOk.key 0, 1),
       (Fld.pwrPg0Pg.key 0, 0xFFFFFFFF), (Fld.pwrPg1Pg.key 0, 0x3FFFF), (Fld.clkStatusLock.key 0, 0x100),
       (Fld.clkEnEn.key 0, 0x7FFF)]
    boot := ⟨.run, 0, 0, false, false, false⟩ }

/-- Bytes with numbers at places, as (first byte, number). -/
def block (n : Nat) (fs : List (Nat × Nat)) : List Byte := natLe n (fs.foldl (fun a f => a + f.2 * 2 ^ (8 * f.1)) 0)

/-- The device with the secure partition 0 over the eight cores, which holds the lease of the Sieve. -/
def upPart : State :=
  { up with
    regs := [(Fld.binStatusReady.key 0, 1), (Fld.binStatusReady.key 1, 1), (Fld.urStatusReady.key 0, 1), (Fld.mcStatusReady.key 0, 1),
       (Fld.svRing0Bin.key 0, 1), (Fld.svRing1Depth.key 0, 8), (Fld.rtStatusActive.key 0, 1), (Fld.rtStatusReady.key 0, 1),
       (Fld.rtPartWorld.key 0, 1), (Fld.rtPartSize.key 0, 3), (Fld.secStatusRootOk.key 0, 1), (Fld.rvStatusReady.key 0, 1),
       (Fld.pwrStatusRegOk.key 0, 1), (Fld.pwrPg0Pg.key 0, 0xFFFFFFFF), (Fld.pwrPg1Pg.key 0, 0x3FFFF), (Fld.clkStatusLock.key 0, 0x100),
       (Fld.clkEnEn.key 0, 0x7FFF)]
    sv := ⟨some 0, none⟩ }

/-- The bytes of a DECODE call of one candidate of one class, with its output at grain 100 of Bin 1, that are not zero. -/
def decodeBytes : List (Nat × Nat) := [(0, 1), (4, 100), (6, 2), (8, 7), (12, 52), (16, 2), (18, 2), (26, 1), (28, 3), (30, 2), (40, 1), (44, 1),
  (76, 1), (78, 1), (80, 1), (84, 64), (86, 64), (88, 1), (90, 1), (92, 8)]

/-- The bytes of a CROP call of one box from a source of 2 x 2 bytes that are not zero. -/
def cropBytes : List (Nat × Nat) := [(0, 2), (4, 100), (6, 2), (8, 7), (12, 52), (17, 8), (24, 2), (25, 1), (28, 2), (30, 2), (32, 1), (36, 2),
  (42, 128), (43, 63), (48, 16), (50, 2), (54, 1), (56, 1), (58, 1), (60, 1), (66, 128), (67, 63)]

/-- That device with a call descriptor in the Sieve's ring, at grain 0 of Bin 1. -/
def withCall (d : List (Nat × Nat)) : State :=
  { upPart.raiseTally 1 0 1 with bin := { upPart.bin with mem := d.map (fun e => (0x2000000 + e.1, BitVec.ofNat 8 e.2)) } }

/-- The Sieve's call as it is taken: the start tally drawn and HEAD advanced. -/
def taken (s : State) : State := (s.setFld .binTallyCount 1024 0).setFld .svStatusHead 0 1

/-- What an answer that succeeds holds. -/
def okOf {ε α : Type} (d : α) (r : Except ε α) : α := match r with | .ok x => x | .error _ => d
def isOk {ε α : Type} (r : Except ε α) : Bool := match r with | .ok _ => true | .error _ => false
theorem ok_pair {ε α : Type} {r : Except ε α × State} {d : α} (h : isOk r.1 = true) : r = (.ok (okOf d r.1), r.2) := by
  obtain ⟨a, t⟩ := r; cases a with
  | ok x => rfl
  | error e => cases h
theorem ok_of {ε α : Type} {r : Except ε α} {d x : α} (h : isOk r = true) (h1 : okOf d r = x) : r = .ok x := by
  cases r with
  | ok y => cases h1; rfl
  | error e => cases h
theorem ok_pair_of {ε α β : Type} {r : Except ε α × β} {d x : α} {u : β} (h : isOk r.1 = true) (h1 : okOf d r.1 = x) (h2 : r.2 = u) :
    r = (.ok x, u) := by
  obtain ⟨a, t⟩ := r; cases a with
  | ok y => cases h1; cases h2; rfl
  | error e => cases h
theorem pair_of {α β : Type} {a : α × β} {x : α} (h : a.1 = x) : a = (x, a.2) := by cases h; rfl

/-! ### Jobs -/

def tract0 : Tract := ⟨0, 0, 4096, 8, 0, 0, 0, 0, 0⟩
def desc0 : JobDesc := ⟨0, 1, 0, 0, 0, 77, 0, 0, 0, 0, 0, 3, [], true⟩
def job0 : Job :=
  { ring := 0, index := 0, part := 0, slot := some 0, net := none, core := 0, desc := desc0, tract := tract0, fbTract := some tract0,
    submit := 0, release := 0, stage := none, switching := false, degraded := false, late := false, preempted := false,
    progress := 0, fetch := 0, since := 0, lastStile := 0, lastReady := none, pins := [], records := 0, recordLate := false }
/-- A command of one grain with tag 5. -/
def cmd0 : TcCmd := ⟨0, 0, 1, 0, 0, 0, 5, false, false, false, false, 0, 0, 0⟩
/-- A core of the device is as `x` says, and wheel slot 0 runs its job. -/
def withCore (c : Nat) (x : Core) : State :=
  { upPart with rota := { upPart.rota with cores := [(c, x)], wheel := [(0, { WheelSlot.empty with running := true })] } }
/-- Core 0 runs that job. -/
def runs0 : State := withCore 0 { Core.idle with job := some job0 }
def flight0 : InFlight := ⟨5, .vecCopy, [(0, 1)], [(4, 1)], 0, 0, none, false, [], 0, 0⟩
/-- The same, with a command in flight. -/
def flies0 : State := withCore 0 { Core.idle with job := some job0, inflight := [flight0] }
/-- Port 1 of the Hedgeline is UP towards device 2, and key slot 3 is loaded. -/
def linked (s : State) : State :=
  let s := s.setFlds 1 [(.hlStatusState, 2), (.hlCtrlEn, 1), (.hlStatusPeer, 2)]
  { s with
    hedge := { s.hedge with ports := [(1, ⟨0, [], [], 4, true⟩)] }
    sec := { s.sec with slots := [(3, ⟨true, false, List.replicate 32 1#8, 0, 0, 0⟩)] } }
/-- The lead's next self-test segment waits for a pinned plane. -/
def noTest (s : State) : State :=
  { s with
    hearth := { s.hearth with leases := [⟨.state, 0, 1, 2, 7, 0, 3, true, .resident, false, 9, false, 0⟩] }
    rota := { s.rota with tests := [(0, ⟨5, false⟩)] } }

/-! ### Streams -/

/-- The device with secure streams. -/
def heard : State :=
  { upPart with
    regs := [(Fld.binStatusReady.key 0, 1), (Fld.binStatusReady.key 1, 1), (Fld.urStatusReady.key 0, 1), (Fld.mcStatusReady.key 0, 1),
       (Fld.svRing0Bin.key 0, 1), (Fld.svRing1Depth.key 0, 8), (Fld.rtStatusActive.key 0, 1), (Fld.rtStatusReady.key 0, 1),
       (Fld.rtPartWorld.key 0, 1), (Fld.rtPartSize.key 0, 3), (Fld.secStatusRootOk.key 0, 1), (Fld.secWmapWatch.key 0, 1),
       (Fld.secWmapAud.key 0, 1), (Fld.secWmapOs.key 0, 0xFFFF), (Fld.rvStatusReady.key 0, 1), (Fld.pwrStatusRegOk.key 0, 1),
       (Fld.pwrPg0Pg.key 0, 0xFFFFFFFF), (Fld.pwrPg1Pg.key 0, 0x3FFFF), (Fld.clkStatusLock.key 0, 0x100),
       (Fld.clkEnEn.key 0, 0x7FFF)] }
/-- A feed record of feed 2: audio, FP32, 64 elements, one sample a batch. -/
def hpRec : Nat := recHeader 7 0 0 9 true + 2 * 2 ^ 88 + (5 * 2 ^ 20) * 2 ^ 128 + (2 * 2 ^ 19 + 4 * 2 ^ 10 + 6) * 2 ^ 160 +
  (4 * 2 ^ 24 + 3) * 2 ^ 192 + (7 * 2 ^ 26 + 2 ^ 25 + 1 * 2 ^ 8) * 2 ^ 224 + 64 * 2 ^ 256 + 1 * 2 ^ 288 + 0x3F800000 * 2 ^ 320
def hpState : State :=
  let s := (upPart.setRec 0 hpRec).setFld .hpFeedHandle 2 9
  { s with ur := { s.ur with home := [(12481, 0x50#8), (12484, 0x10#8), (12488, 4#8), (12514, 0xFF#8), (12515, 0xFF#8), (12524, 0x80#8), (12525, 0x3F#8)] } }
def feed0 : HpFeed := ⟨9, true, hpCfg hpRec [], 5, 3, 2, 1, [], [], true, none⟩
def feeds0 : State := { hpState with hp := ⟨[(2, some feed0)], [⟨4, 2, 3, 100⟩], 1⟩ }
/-- Link 1 with sensor 5 of 4 x 1 pixels on virtual channel 2. -/
def seen : State :=
  (heard.setFlds 5 [(.ispSensorEn, 1), (.ispSensorVc, 2), (.ispSensorDt, 0x2A), (.ispSensorWidth, 4), (.ispSensorHeight, 1),
    (.ispSensorPeriod, 33)]).setFlds 1 [(.csiCtrlEn, 1)]
def frame0 : CamFrame := ⟨100, 1, [], none, 0, 0, 0, false, false, false, false, []⟩
def open0 : State := { seen with cam := ⟨[(5, ⟨.present, some frame0, some 100, [], 0⟩)], []⟩ }
def stream0 : State :=
  seen.setFlds 3 [(.osSensor, 5), (.osFmt, 2), (.osCropw, 4), (.osCroph, 1), (.osOutw, 4), (.osOuth, 1), (.osNbuf, 1), (.osBin, 1)]
def osRun0 : OsRun := ⟨7, 2, 0, 0, 0, false, none, false, false⟩
def span0 : SpanPush := ⟨1, 9, 1, false, 0⟩
def aud0 : AudRun := ⟨1, 2, 1, 1, 0, 0, 0, false, false⟩

/-! ### The Crier and the Hedgeline -/

/-- A good frame of raw Ethernet for an operation. -/
def frameOf (op session seq : Nat) (payload : List Byte) : CrierFrame :=
  let f : CrierFrame := ⟨1, 0, 0xAB, 0, false, 0x4743, 0x40, session, payload.length, seq, 0, payload, [], 0⟩
  { f with crc := (crc32c (frameHeader f op ++ payload)).toNat }
def peer0 : Peer := ⟨1, 0, 0xAB, 0⟩
def sub0 : Subscription := ⟨0, 0x1005, 0, 10, [], 0⟩
def session0 : Session := ⟨false, peer0, 30, 0, 0, 0, 0, some 4, [⟨4, 4, none⟩], [sub0], none, 0⟩
/-- The device with session 3 and ring 5 open. -/
def heardBy : State :=
  let s := upPart.setRing 5 ⟨true, 9, false, 64, 6, 2, 0⟩
  { s with crier := { s.crier with sessions := [(3, some session0)] } }
def hlUp : State := linked upPart
def sent0 : HlPacket := ⟨2, 2, 0, 6, 0, 0, 3, 0, 1, 9, 0, []⟩
def transfer0 : Transfer := ⟨9, 0, 5, 1, 40, 2, 2, 0, 0, 32, 9, 3, 2, [⟨1, 0, 1, 100⟩], 1⟩

/-! ### Next states -/

def got (r : Host.Outcome State Fault Refusal) : State := match r with | .next t => t | _ => up
def isNext (r : Host.Outcome State Fault Refusal) : Bool := match r with | .next _ => true | _ => false
theorem next_of {r : Host.Outcome State Fault Refusal} (h : isNext r = true) : r = .next (got r) := by
  cases r with
  | next t => rfl
  | fault f => cases h
  | refused f => cases h
theorem some_pair_of {α : Type} {r : Option α × State} (h : r.1 = none) : r = (none, r.2) := by obtain ⟨a, t⟩ := r; cases h; rfl

/-! ### Rules -/

/-- Bin 7 is READY, and grain 98,303 of it is poisoned. -/
def bad0 : State := up.setFld .binStatusReady 7 1
def bad1 : State := { bad0 with bin := { bad0.bin with poison := [(grainKey 7 98303, true)] } }
/-- A non-secure region over grains 10 to 100 of Bin 1, and a MODEL region at pages 9 to 12. -/
def reg1 : State :=
  { up with sec := { up.sec with regions := [(0, ⟨true, false, false, 2, 10, 100⟩), (1, ⟨true, true, true, 0, 9, 12⟩)] } }

/-! ### Values that the spec gives, or that follow from it by hand -/

/-- R28: CLASS 4, SUBOP 1, OUTFMT 1, TAG 5, OPA 1, OPB 2, OPC 3. -/
theorem test_word_vec_add : Instr.ofTractWord 2 0 [] [] 0x00000000000000000030080105001014 =
    .vecAdd 2 ⟨0, 0, 0, 3, 2, 1, 5, false, false, false, false, 0, 0, 1⟩ [] := by decide +kernel
/-- R28, R102: CLASS 7, TAG 9, a target of 16 in PA and tally 7 in PB. -/
theorem test_word_wait_tally : Instr.ofTractWord 3 0 [] [] 0x00000007000000100000000009000007 =
    .waitTally 3 ⟨0, 7, 16, 0, 0, 0, 9, false, false, false, false, 0, 0, 0⟩ := by decide +kernel
/-- R28, R41: CLASS 0xA with FUR, bit 22, and TAG 2. -/
theorem test_word_stile : Instr.ofTractWord 0 77 [] [] 0x0000000000000000000000000240000A =
    .stilePoint 0 77 ⟨0, 0, 0, 0, 0, 0, 2, false, true, false, false, 0, 0, 0⟩ [] := by decide +kernel
/-- R29: CLASS 0xC is reserved; HGEN, bits [127:116], is 1. -/
theorem test_word_reserved : Instr.ofTractWord 1 0 [] [] 0x0010000000000000000000000000000C =
    .reservedClassCommand 1 ⟨1, 0, 0, 0, 0, 0, 0, false, false, false, false, 0, 0, 0⟩ := by decide +kernel

/-- R86, by hand: grain 256 has t 0 and row 16, fold 0 xor 1 xor 0, b16 1 and bank group 16 mod 3. -/
theorem test_place_grain_256 : placeGrain 256 = (17, 16) := by decide +kernel
/-- R49: the largest E4M3 value is 448, the largest E5M2 value 57,344, the largest FP16 value 65,504. -/
theorem test_largest_values : fmtE4M3.decode 0x7E = .fin false 14 5 ∧ fmtE5M2.decode 0x7B = .fin false 7 13 ∧
    fmtFP16.decode 0x7BFF = .fin false 2047 5 := by decide +kernel
/-- R50, by hand: 1 + 2^-8 lies half way between two BF16 numbers, and ties go away from zero. -/
theorem test_tie_away_from_zero : fmtBF16.narrow (.fin false 257 (-8)) = (0x3F81, false) ∧
    fmtBF16.narrow (.fin true 257 (-8)) = (0xBF81, false) := by decide +kernel
/-- R52: 1,000 saturates to 448 in E4M3. -/
theorem test_saturates_e4m3 : fmtE4M3.narrow (.fin false 1000 0) = (0x7E, true) := by decide +kernel
/-- R300: the check value of CRC-32C. -/
theorem test_crc_check_value : crc32c [0x31, 0x32, 0x33, 0x34, 0x35, 0x36, 0x37, 0x38, 0x39] = 0xE3069283#32 := by decide +kernel

/-! ### One step -/

/-- The bytes that a write leaves, across two grains, and those beside them. -/
theorem test_bin_write_lands : (got (exec (.binPortAccess 1 0 3 true true 254 4 [1, 2, 3, 4] none []) up)).binRead 1 253 6 = [0, 1, 2, 3, 4, 0] := by
  decide +kernel
/-- R101: a raise stops at 2^32 - 1. -/
theorem test_tally_saturates : ((up.raiseTally 1 600 0xFFFFFFFF).raiseTally 1 600 2).tally 1 600 = 0xFFFFFFFF := by decide +kernel
/-- R324: a non-secure access to space with no region is refused and counted. -/
theorem test_refused_read_is_counted : (got (exec (.binPortAccess 1 0 3 false false 0 4 [] none []) up)).obj .brFaults 3 = 1 := by decide +kernel
/-- R437: the straps are taken when nPOR is released. -/
theorem test_npor_release_samples_straps :
    (got (exec (.nporRelease false 5 0 10) State.reset)).fld .rstStatusCascadeId 0 = 5 := by decide +kernel
/-- The queue: the front command runs and the next one waits (assumption 1). -/
theorem test_step_takes_front : (got (step { up with pending := [.tallyWrite 1 600 7 true, .actWindowClear] })).tally 1 600 = 7 ∧
    (got (step { up with pending := [.tallyWrite 1 600 7 true, .actWindowClear] })).pending = [.actWindowClear] := by decide +kernel
/-- An idle step is one tick (assumption 1). -/
theorem test_idle_step : (got (step up)).time = 4 := by decide +kernel

/-! ### The hypotheses of the statements -/

theorem test_hyp_EmptyQueueStepIsOneTick_0 : ∃ s : State, (s.pending = []) :=
  ⟨up, by decide +kernel⟩

theorem test_hyp_QueuedCommandsRunInOrder_0 : ∃ k, ∃ s : State, (k ≤ s.pending.length) :=
  ⟨2, { up with pending := [.binInit 0 true, .actWindowClear, .nporLow 5] }, by decide +kernel⟩

theorem test_hyp_TractWordReadsBack_0 : ∃ i, ∃ core, ∃ x : Issue, ∃ cls, ∃ sub, ∃ cmd : TcCmd, (tractIssue i = some (core, x)) ∧
    (i.tract = some (cls, sub, cmd)) ∧ (cmd.wf = true) :=
  ⟨(.gemmNSplit 7 cmd0 []), 7, (⟨.gemmN, cmd0, []⟩ : Issue), 0, 0, cmd0, by decide +kernel, by decide +kernel, by decide +kernel⟩

theorem test_hyp_TractWordReadsBack_1 : ∃ w, (0xB ≤ w % 16) :=
  ⟨0xB, by decide +kernel⟩

theorem test_hyp_MemoriesKeepTheirForm_0 : ∃ s : State, ∃ t : State, (s.memWf = true) ∧ (step s = .next t) :=
  ⟨{ up with pending := [.binPortAccess 1 0 3 true true 250 12 (List.replicate 12 7#8) none []] }, (got (step { up with pending := [.binPortAccess 1 0 3 true true 250 12 (List.replicate 12 7#8) none []] })), by decide +kernel, by exact next_of (by decide +kernel)⟩

theorem test_hyp_BinCommandsComplete_0 : ∃ s : State, ∃ bin, ∃ init, ∃ secure : Bool, ∃ off,
    ∃ len, (BinServes s (unitReq init secure) false bin ((grainsOfRun off len).map (·.1))) ∧
    ((∀ g ∈ (grainsOfRun off len).map (·.1), GrainGood s bin g)) :=
  ⟨up, 1, 3, true, 250, 12, by unfold BinServes; decide +kernel, by unfold GrainGood; decide +kernel⟩

theorem test_hyp_BinCommandsComplete_1 : ∃ s : State, ∃ bin, ∃ init, ∃ secure : Bool, ∃ off,
    ∃ data : List Byte, (BinServes s (unitReq init secure) true bin ((grainsOfRun off data.length).map (·.1))) ∧
    ((∀ g ∈ (grainsOfRun off data.length).map (·.1), GrainGood s bin g)) :=
  ⟨up, 1, 3, true, 250, (List.replicate 300 7#8), by unfold BinServes; decide +kernel, by unfold GrainGood; decide +kernel⟩

theorem test_hyp_BinCommandsComplete_2 : ∃ s : State, ∃ bin, ∃ g, (s.bin.writeBacks.find? (fun w => w.1 == bin) = some (bin, g)) :=
  ⟨{ up with bin := { up.bin with writeBacks := [(1, 9)] } }, 1, 9, by decide +kernel⟩

theorem test_hyp_BinCommandsComplete_3 : ∃ s : State, ∃ bin, (s.binInUse bin = false) ∧ (s.binReady bin = true) :=
  ⟨up, 1, by decide +kernel, by decide +kernel⟩

theorem test_hyp_BinCommandsComplete_4 : ∃ s : State, ∃ bin, (s.flag .binStatusInitbusy bin = true) :=
  ⟨(up.setFld .binStatusInitbusy 2 1), 2, by decide +kernel⟩

theorem test_hyp_BinCommandsComplete_5 : ∃ s : State, ∃ bin, (s.binReady bin = true) ∧ (s.flag .binCtrlScrubEn bin = true) ∧
    ((∀ g ∈ rowGrains (SMap.get s.bin.patrol bin 0), GrainGood s bin g)) :=
  ⟨((up.setFld .binCtrlScrubEn 1 1)), 1, by decide +kernel, by decide +kernel, by unfold GrainGood; decide +kernel⟩

theorem test_hyp_BinCommandsComplete_6 : ∃ s : State, ∃ bin, ∃ value, (({ s.slotMap bin with en := value % 65536 } : SlotMap).ok = true) :=
  ⟨up, 1, 0x8001, by decide +kernel⟩

theorem test_hyp_BinCommandsComplete_7 : ∃ s : State, ∃ bin, ∃ value, (({ s.slotMap bin with map0 := value % 2 ^ 32 } : SlotMap).ok = true) :=
  ⟨up, 1, 0x76543210, by decide +kernel⟩

theorem test_hyp_BinCommandsComplete_8 : ∃ s : State, ∃ bin, ∃ value, (({ s.slotMap bin with map1 := value % 2 ^ 32 } : SlotMap).ok = true) :=
  ⟨up, 1, 0x12345678, by decide +kernel⟩

theorem test_hyp_BinCommandsComplete_9 : ∃ s : State, ∃ bin, ∃ bank, ∃ row, ∃ k, ∃ r, (bank < 48) ∧ (row < 2048) ∧ (s.binReady bin = true) ∧
    (s.sparesOf bin bank = k :: r) :=
  ⟨up, 1, 3, 77, 0, (List.range 15).map (· + 1), by decide +kernel, by decide +kernel, by decide +kernel, by decide +kernel⟩

theorem test_hyp_BinCommandsComplete_10 : ∃ s : State, ∃ bin, ∃ bank, ∃ row, ∃ k, ∃ r, (s.repairDue bin bank row = true) ∧ (row < 2048) ∧
    (s.binReady bin = true) ∧ (s.sparesOf bin bank = k :: r) :=
  ⟨{ up with bin := { up.bin with due := [(1, 3, 77)] } }, 1, 3, 77, 0, (List.range 15).map (· + 1), by decide +kernel, by decide +kernel,
    by decide +kernel, by decide +kernel⟩

theorem test_hyp_BinCommandsComplete_11 : ∃ s : State, ∃ bin, ∃ gate, ∃ secure : Bool, ((gateSecure gate = true → secure = true)) ∧
    (s.fld .binGateState (bin * 64 + gate) = 0) ∧ (s.gateOpens bin gate = true) :=
  ⟨(up.setFlds 127 [(.binGateLen, 2), (.binGateTally, 600), (.binGateBase, 5)]), 1, 63, true, by decide +kernel, by decide +kernel, by decide +kernel⟩

theorem test_hyp_BinCommandsComplete_12 : ∃ gate, ∃ secure : Bool, ((gateSecure gate = true → secure = true)) :=
  ⟨1, false, by decide +kernel⟩

theorem test_hyp_BinCommandsComplete_13 : ∃ s : State, ∃ bin, ∃ gate, ∃ off, ∃ tally, ∃ sender, ∃ data : List Byte,
    let i := bin * 64 + gate
    let g := s.fld .binGateBase i + off
    (s.fld .binGateState i = 1) ∧ (bit (s.fld .binGateSrcmask i) sender = true) ∧ (off < s.fld .binGateLen i) ∧ (tally = s.fld .binGateTally i) ∧
    (data.length = 256) ∧ (BinServes s (unitReq 0x13 (gateSecure gate)) true bin [g]) :=
  ⟨(up.setFlds 127 [(.binGateLen, 2), (.binGateTally, 600), (.binGateBase, 5), (.binGateState, 1), (.binGateSrcmask, 4)]), 1, 63, 1, 600, 2, (List.replicate 256 9#8), by decide +kernel, by decide +kernel, by decide +kernel, by decide +kernel, by decide +kernel, by unfold BinServes; decide +kernel⟩

theorem test_hyp_BinCommandsComplete_14 : ∃ tally, ∃ secure : Bool, (tally < 1024) ∧ ((tallySecure tally = true → secure = true)) :=
  ⟨600, true, by decide +kernel, by decide +kernel⟩

theorem test_hyp_UnifiedRangeCommandsComplete_0 : ∃ s : State, ∃ init, ∃ secure : Bool, ∃ off, ∃ len, ∃ obs : List Obs, ∃ bs,
    ∃ u, (s.urRead (unitReq init secure) off len obs = (.ok bs, u)) :=
  ⟨up, 3, true, 4090, 12, [], (List.replicate 12 0#8), (up.urRead (unitReq 3 true) 4090 12 []).2,
    by first | decide +kernel | exact ok_of (d := ([], [])) (by decide +kernel) (by decide +kernel) | exact ok_pair_of (d := []) (by decide +kernel) (by decide +kernel) (by decide +kernel) | exact ok_pair_of (d := (⟨[], 0, 0⟩ : HpSlot)) (by decide +kernel) (by decide +kernel) (by decide +kernel) | exact ok_pair (by decide +kernel) | rfl⟩

theorem test_hyp_UnifiedRangeCommandsComplete_1 : ∃ s : State, ∃ init, ∃ secure : Bool, ∃ off, ∃ data : List Byte, ∃ obs : List Obs,
    ∃ u, (s.urWrite (unitReq init secure) off data obs = (none, u)) :=
  ⟨up, 3, true, 4090, (List.replicate 12 7#8), [], (up.urWrite (unitReq 3 true) 4090 (List.replicate 12 7#8) []).2,
    by first | decide +kernel | exact pair_of (by decide +kernel) | rfl | exact pair_of rfl⟩

theorem test_hyp_UnifiedRangeCommandsComplete_2 : ∃ s : State, ∃ quarter, ∃ x, (s.ur.fills.find? (fun y => quarterOf y.page == quarter) = some x) :=
  ⟨{ up with ur := { up.ur with fills := [⟨4, 8, none, 8, true, false⟩], dir := [(8, ⟨4, .filling, true, 0⟩)] } }, quarterOf 4, ⟨4, 8, none, 8, true, false⟩, by decide +kernel⟩

theorem test_hyp_UnifiedRangeCommandsComplete_3 : ∃ s : State, ∃ quarter, ∃ w, (s.nextWriteBack quarter = some w) ∧
    ((∀ i < 16, SMap.get s.ur.frameSealX (w.frame * 16 + i) 0#32 = 0#32)) :=
  ⟨{ up with ur := { up.ur with writeBacks := [⟨8, 4, none, some ⟨12, 8, none, 8, true, false⟩⟩], dir := [(8, ⟨4, .writeback, false, 3⟩)] } }, quarterOf 4, ⟨8, 4, none, some ⟨12, 8, none, 8, true, false⟩⟩, by decide +kernel, by decide +kernel⟩

theorem test_hyp_UnifiedRangeCommandsComplete_5 : ∃ s : State, ∃ quota, ∃ count, (1 ≤ count) ∧ (count ≤ 4096) ∧ (quota ≤ 8) ∧ (s.pinBusy = false) :=
  ⟨up, 1, 2, by decide +kernel, by decide +kernel, by decide +kernel, by decide +kernel⟩

theorem test_hyp_UnifiedRangeCommandsComplete_6 : ∃ s : State, ∃ page, ∃ quota, ∃ count, (1 ≤ count) ∧ (count ≤ 4096) ∧ (quota ≤ 8) ∧
    (page + count ≤ s.urPages) ∧ (s.pinBusy = false) :=
  ⟨(up.setPin 0 0 0 0), 3, 1, 2, by decide +kernel, by decide +kernel, by decide +kernel, by decide +kernel, by decide +kernel⟩

theorem test_hyp_UnifiedRangeCommandsComplete_7 : ∃ s : State, ∃ quota,
    ∃ ways, ((∀ q < 9, q ≠ quota → ∀ w < 16, bit ways w = true → bit (s.fld .urQuotaWays q) w = false)) :=
  ⟨(up.setFld .urQuotaWays 0 0x00FF), 2, 0xFF00, by decide +kernel⟩

theorem test_hyp_UnifiedRangeCommandsComplete_8 : ∃ s : State, ∃ page, (page < s.urPages) :=
  ⟨up, 5, by decide +kernel⟩

theorem test_hyp_UnifiedRangeCommandsComplete_9 : ∃ s : State, ∃ quarter, (bit (s.fld .urStatusGqDrain 0) quarter = true) ∧
    (s.nextWriteBack quarter = none) :=
  ⟨({ up with ur := { up.ur with dir := [(8, ⟨4, .dirty, false, 3⟩)] } }.setFld .urStatusGqDrain 0 15), quarterOf 4, by decide +kernel,
    by decide +kernel⟩

theorem test_hyp_UnifiedRangeCommandsComplete_10 : ∃ s : State, ∃ quarter, (s.quarterIn quarter = true) :=
  ⟨{ up with ur := { up.ur with dir := [(8, ⟨4, .dirty, false, 3⟩)] } }, quarterOf 4, by decide +kernel⟩

theorem test_hyp_DramCommandsComplete_1 : ∃ s : State, ∃ port, ((∀ y ∈ s.mc.held, y.port ≠ port)) :=
  ⟨up, 3, by decide +kernel⟩

theorem test_hyp_DramCommandsComplete_2 : ∃ s : State, ∃ channel : Nat, ∃ at_ : Nat, ∃ r,
    let v := (s.reach at_).mcSlot channel
    let u : State := { v with mc := { v.mc with turned := SMap.put v.mc.turned channel (v.busTurn channel) false } }
    (u.mcPick channel = some r) ∧ (u.rowHit r = true) ∧ ((u.mcQueue channel).head? = some r) ∧ (u.time - r.arrival ≤ u.mcTarget r.port) :=
  ⟨{ up with mc := { up.mc with queue := [(2, [⟨3, false, 5, 600, 4096, 2, 0, 1, 40, 9, 2, 2, 5⟩])], opened := [(65, 41)] } }, 2, 700, ⟨3, false, 5, 600, 4096, 2, 0, 1, 40, 9, 2, 2, 5⟩, by decide +kernel, by decide +kernel, by decide +kernel, by decide +kernel⟩

theorem test_hyp_DramCommandsComplete_6 : ∃ s : State, ∃ quad : Nat, ∃ rfm : Nat, (s.flag .mcStatusTrainfail 0 = false) ∧
    (s.flag .mcStatusReady 0 = false) ∧ (quad < 4) ∧ (bit s.mc.trained quad = false) :=
  ⟨(up.setFld .mcStatusReady 0 0), 2, 9, by decide +kernel, by decide +kernel, by decide +kernel, by decide +kernel⟩

theorem test_hyp_DramCommandsComplete_7 : ∃ s : State, ∃ ch : Nat, (s.flag .mcStatusTrainfail 0 = false) ∧ (s.flag .mcStatusReady 0 = false) ∧
    (s.mc.kept = false) ∧ (bit s.mc.retried ch = false) ∧ (s.fld .mcStatusRate 0 ≠ 0) :=
  ⟨((up.setFld .mcStatusReady 0 0).setFld .mcStatusRate 0 3), 9, by decide +kernel, by decide +kernel, by decide +kernel, by decide +kernel,
    by decide +kernel⟩

theorem test_hyp_DramCommandsComplete_8 : ∃ s : State, ∃ channel : Nat, ∃ drift, (s.flag .mcCtrlRetrainEn 0 = true) ∧ (drift = 1 ∨ drift = 2) ∧
    (SMap.get s.mc.update channel 0 = 0) :=
  ⟨(up.setFld .mcCtrlRetrainEn 0 1), 2, 1, by decide +kernel, by decide +kernel, by decide +kernel⟩

theorem test_hyp_DramCommandsComplete_9 : ∃ s : State, ∃ channel : Nat, ∃ at_ : Nat, (SMap.get s.mc.update channel 0 ≠ 0) ∧
    (SMap.get s.mc.update channel 0 - 1 + 50000000 ≤ (s.reach at_).time) :=
  ⟨{ up with mc := { up.mc with update := [(2, 1)] } }, 2, 60000000, by decide +kernel, by decide +kernel⟩

theorem test_hyp_DramCommandsComplete_10 : ∃ s : State, ∃ at_ : Nat, (s.flag .mcStatusReady 0 = true) ∧ (s.mc.queue = []) ∧ (s.mc.held = []) ∧
    (s.mc.lastReq + 1000 ≤ (s.reach at_).time) :=
  ⟨up, 5000, by decide +kernel, by decide +kernel, by decide +kernel, by decide +kernel⟩

theorem test_hyp_DramCommandsComplete_11 : ∃ s : State, ∃ n, ∃ value, (s.flag .mcCtrlMaplock 0 = false) ∧
    let u := s.setFlds n [(.mcRegionEn, bits value 31 31), (.mcRegionBase, bits value 30 16), (.mcRegionChset, bits value 15 0)]
    (regionShape (u.fld .mcRegionChset n) (u.fld .mcRegionGrain n) = true) ∧ (u.mcLegal u.mcRegions = true) :=
  ⟨(up.setFld .mcRegionChset 0 0xFFFF), 0, 0x8000FFFF, by decide +kernel, by decide +kernel, by decide +kernel⟩

theorem test_hyp_DramCommandsComplete_12 : ∃ s : State, ∃ n, ∃ value, (s.flag .mcCtrlMaplock 0 = false) ∧
    let u := s.setFlds n [(.mcRegionGrain, bits value 19 16), (.mcRegionChbase, bits value 11 0)]
    (regionShape (u.fld .mcRegionChset n) (u.fld .mcRegionGrain n) = true) ∧ (u.mcLegal u.mcRegions = true) :=
  ⟨((up.setFld .mcRegionChset 0 0xFFFF)), 0, 0x00080000, by decide +kernel, by decide +kernel, by decide +kernel⟩

theorem test_hyp_LedgerCommandsComplete_0 : ∃ s : State, ∃ type, ∃ part, ∃ handle, ∃ a0, ∃ a1, ∃ a2, ∃ secure : Bool, ∃ obs : List Obs, ∃ m,
    ∃ slot, ∃ body, ∃ u,
    let w := (s.lgStart 0 type part handle a0 a1 a2).lgFetch
    (lgArgBits type = some m) ∧ (type ≠ 2) ∧ (onlyBits a0 m.1 = true) ∧ (onlyBits a1 m.2.1 = true) ∧ (onlyBits a2 m.2.2 = true) ∧
    (w.lgPartOk part secure = true) ∧ (w.freeRecord (bits handle 31 30) = some slot) ∧
    (w.lgBody type part (handleOf slot (w.nextRecGen slot)) a0 a1 a2 secure obs = (.ok body, u)) :=
  ⟨upPart, 4, 0, 0, 5, 7, 0, true, ([] : List Obs), (0xFFFF000F, 0x00FFFFFF, 0), 0, (5 + 7 * 2 ^ 32), ((upPart.lgStart 0 4 0 0 5 7 0).lgFetch), by decide +kernel, by decide +kernel, by decide +kernel, by decide +kernel, by decide +kernel, by decide +kernel, by decide +kernel, by first | decide +kernel | exact ok_of (d := ([], [])) (by decide +kernel) (by decide +kernel) | exact ok_pair_of (d := []) (by decide +kernel) (by decide +kernel) (by decide +kernel) | exact ok_pair_of (d := (⟨[], 0, 0⟩ : HpSlot)) (by decide +kernel) (by decide +kernel) (by decide +kernel) | exact ok_pair (by decide +kernel) | rfl⟩

theorem test_hyp_LedgerCommandsComplete_1 : ∃ s : State, ∃ handle, ∃ secure : Bool, ∃ obs : List Obs, ∃ u,
    let w := (s.lgStart 1 (s.fld .lgCmdType 0) (s.fld .lgCmdPart 0) handle (s.fld .lgArgValue 0) (s.fld .lgArgValue 1) (s.fld .lgArgValue 2)).lgFetch
    (recState (s.recOf handle) = 1) ∧ ((recWorld (s.recOf handle) = 1 → secure = true)) ∧ (recType (s.recOf handle) ≠ 8) ∧
    (s.stale handle = false) ∧ (w.lgRelease handle obs = (none, u)) :=
  ⟨((upPart.setRec 0 (recHeader 4 0 0 9 true))), 9, true, ([] : List Obs), (((((upPart.setRec 0 (recHeader 4 0 0 9 true))).lgStart 1 0 0 9 0 0 0).lgFetch).lgRelease 9 []).2, by decide +kernel, by decide +kernel, by decide +kernel, by decide +kernel, by first | decide +kernel | exact pair_of (by decide +kernel) | rfl | exact pair_of rfl⟩

theorem test_hyp_LedgerCommandsComplete_2 : ∃ s : State, ∃ handle, ∃ len, ∃ secure : Bool, ∃ obs : List Obs, ∃ v, ∃ u,
    let w := (s.lgStart 2 (s.fld .lgCmdType 0) (s.fld .lgCmdPart 0) handle len (s.fld .lgArgValue 1) (s.fld .lgArgValue 2)).lgFetch
    (recState (s.recOf handle) = 1) ∧ ((recWorld (s.recOf handle) = 1 → secure = true)) ∧ (recType (s.recOf handle) = 1) ∧
    (s.stale handle = false) ∧ (len ≤ kvLen (s.recOf handle)) ∧
    (w.admitEntries handle ((w.pagesOf handle).map (fun p => pgPidx (pageWord (w.recAt p)))) obs = (none, v)) ∧
    (v.truncatePages handle len (w.pagesOf handle) = (none, u)) :=
  ⟨(upPart.setRec 0 (setKvLen (recHeader 1 0 0 9 true) 700)), 9, 256, true, ([] : List Obs), ((((upPart.setRec 0 (setKvLen (recHeader 1 0 0 9 true) 700)).lgStart 2 0 0 9 256 0 0).lgFetch).admitEntries 9 (((((upPart.setRec 0 (setKvLen (recHeader 1 0 0 9 true) 700)).lgStart 2 0 0 9 256 0 0).lgFetch).pagesOf 9).map (fun p => pgPidx (pageWord ((((upPart.setRec 0 (setKvLen (recHeader 1 0 0 9 true) 700)).lgStart 2 0 0 9 256 0 0).lgFetch).recAt p)))) []).2, (((((upPart.setRec 0 (setKvLen (recHeader 1 0 0 9 true) 700)).lgStart 2 0 0 9 256 0 0).lgFetch).admitEntries 9 (((((upPart.setRec 0 (setKvLen (recHeader 1 0 0 9 true) 700)).lgStart 2 0 0 9 256 0 0).lgFetch).pagesOf 9).map (fun p => pgPidx (pageWord ((((upPart.setRec 0 (setKvLen (recHeader 1 0 0 9 true) 700)).lgStart 2 0 0 9 256 0 0).lgFetch).recAt p)))) []).2.truncatePages 9 256 ((((upPart.setRec 0 (setKvLen (recHeader 1 0 0 9 true) 700)).lgStart 2 0 0 9 256 0 0).lgFetch).pagesOf 9)).2, by decide +kernel, by decide +kernel, by decide +kernel, by decide +kernel, by decide +kernel, by first | decide +kernel | exact pair_of (by decide +kernel) | rfl | exact pair_of rfl, by first | decide +kernel | exact pair_of (by decide +kernel) | rfl | exact pair_of rfl⟩

theorem test_hyp_LedgerCommandsComplete_3 : ∃ s : State, ∃ handle, ∃ secure : Bool,
    let w := (s.lgStart 3 (s.fld .lgCmdType 0) (s.fld .lgCmdPart 0) handle (s.fld .lgArgValue 0) (s.fld .lgArgValue 1) (s.fld .lgArgValue 2)).lgFetch
    (recState (s.recOf handle) ≠ 0) ∧ ((recWorld (s.recOf handle) = 1 → secure = true)) ∧ ((recType (s.recOf handle) = 8 → secure = true)) ∧
    (s.stale handle = false) :=
  ⟨((upPart.setRec 0 (recHeader 4 0 0 9 true))), 9, true, by decide +kernel, by decide +kernel, by decide +kernel, by decide +kernel⟩

theorem test_hyp_SieveCommandsComplete_0 : ∃ s : State, (s.sv.run = none) :=
  ⟨upPart, by decide +kernel⟩

theorem test_hyp_SieveCommandsComplete_1 : ∃ s : State, ∃ c : SvCall, (s.sv.run = some c) :=
  ⟨{ upPart with sv := ⟨some 0, some (⟨2, [1], 1, 40, 7, 0x1234, 0, 1, 1, 3, List.replicate 256 5#8⟩ : SvCall)⟩ }, (⟨2, [1], 1, 40, 7, 0x1234, 0, 1, 1, 3, List.replicate 256 5#8⟩ : SvCall), by decide +kernel⟩

theorem test_hyp_SieveCommandsComplete_2 : ∃ s : State, ∃ secure : Bool, ((tallySecure (s.fld .svRing1Tally 0) = true → secure = true)) :=
  ⟨upPart, true, by decide +kernel⟩

theorem test_hyp_SieveCommandsComplete_3 : ∃ s : State, ∃ obs : List Obs, ∃ d, ∃ v, ∃ o, ∃ u,
    let b := s.fld .svRing0Bin 0
    let head := s.fld .svStatusHead 0
    let g := s.fld .svRing0Base 0 + head
    let t := s.fld .svRing1Tally 0
    let w := (s.setFld .binTallyCount (b * 1024 + t) (s.tally b t - 1)).setFld .svStatusHead 0 ((head + 1) % s.fld .svRing1Depth 0)
    (s.svCanTake = true) ∧ (svNat (s.binRead b (g * 256) 1) 0 1 = 1) ∧ (w.svBin b (g * 256) 256 obs = (.ok d, v)) ∧ (svNat d 0 1 = 1) ∧
    (v.svRunDecode d obs = (.ok o, u)) :=
  ⟨(withCall decodeBytes), ([] : List Obs), (block 256 decodeBytes), (taken (withCall decodeBytes)), (okOf (⟨0, 0, 0, [], 0, 0⟩ : SvOut) ((taken (withCall decodeBytes)).svRunDecode (block 256 decodeBytes) []).1), ((taken (withCall decodeBytes)).svRunDecode (block 256 decodeBytes) []).2, by decide +kernel, by decide +kernel, by first | decide +kernel | exact ok_of (d := ([], [])) (by decide +kernel) (by decide +kernel) | exact ok_pair_of (d := []) (by decide +kernel) (by decide +kernel) (by decide +kernel) | exact ok_pair_of (d := (⟨[], 0, 0⟩ : HpSlot)) (by decide +kernel) (by decide +kernel) (by decide +kernel) | exact ok_pair (by decide +kernel) | rfl, by decide +kernel, by first | decide +kernel | exact ok_of (d := ([], [])) (by decide +kernel) (by decide +kernel) | exact ok_pair_of (d := []) (by decide +kernel) (by decide +kernel) (by decide +kernel) | exact ok_pair_of (d := (⟨[], 0, 0⟩ : HpSlot)) (by decide +kernel) (by decide +kernel) (by decide +kernel) | exact ok_pair (by decide +kernel) | rfl⟩

theorem test_hyp_SieveCommandsComplete_4 : ∃ s : State, ∃ obs : List Obs, ∃ d, ∃ v, ∃ o, ∃ u,
    let b := s.fld .svRing0Bin 0
    let head := s.fld .svStatusHead 0
    let g := s.fld .svRing0Base 0 + head
    let t := s.fld .svRing1Tally 0
    let w := (s.setFld .binTallyCount (b * 1024 + t) (s.tally b t - 1)).setFld .svStatusHead 0 ((head + 1) % s.fld .svRing1Depth 0)
    (s.svCanTake = true) ∧ (svNat (s.binRead b (g * 256) 1) 0 1 = 2) ∧ (w.svBin b (g * 256) 256 obs = (.ok d, v)) ∧ (svNat d 0 1 = 2) ∧
    (v.svRunCrop d obs = (.ok o, u)) :=
  ⟨(withCall cropBytes), ([] : List Obs), (block 256 cropBytes), (taken (withCall cropBytes)), (okOf (⟨0, 0, 0, [], 0, 0⟩ : SvOut) ((taken (withCall cropBytes)).svRunCrop (block 256 cropBytes) []).1), ((taken (withCall cropBytes)).svRunCrop (block 256 cropBytes) []).2, by decide +kernel, by decide +kernel, by first | decide +kernel | exact ok_of (d := ([], [])) (by decide +kernel) (by decide +kernel) | exact ok_pair_of (d := []) (by decide +kernel) (by decide +kernel) (by decide +kernel) | exact ok_pair_of (d := (⟨[], 0, 0⟩ : HpSlot)) (by decide +kernel) (by decide +kernel) (by decide +kernel) | exact ok_pair (by decide +kernel) | rfl, by decide +kernel, by first | decide +kernel | exact ok_of (d := ([], [])) (by decide +kernel) (by decide +kernel) | exact ok_pair_of (d := []) (by decide +kernel) (by decide +kernel) (by decide +kernel) | exact ok_pair_of (d := (⟨[], 0, 0⟩ : HpSlot)) (by decide +kernel) (by decide +kernel) (by decide +kernel) | exact ok_pair (by decide +kernel) | rfl⟩

theorem test_hyp_SieveCommandsComplete_5 : ∃ s : State, ∃ c : SvCall,
    let n := 1 + c.body.length / 256
    let gs := (List.range n).map (c.grain + ·)
    (s.sv.run = some c) ∧ (c.status = 0) ∧ (s.flag .svLeasePending 0 = false) ∧ (s.svInside (c.bin, c.grain) (n * 256) = true) ∧
    (BinServes s s.svReq true c.bin gs) :=
  ⟨{ upPart with sv := ⟨some 0, some (⟨2, [1], 1, 40, 7, 0x1234, 0, 1, 1, 3, List.replicate 256 5#8⟩ : SvCall)⟩ }, (⟨2, [1], 1, 40, 7, 0x1234, 0, 1, 1, 3, List.replicate 256 5#8⟩ : SvCall), by decide +kernel, by decide +kernel, by decide +kernel, by decide +kernel, by unfold BinServes; decide +kernel⟩

theorem test_hyp_TractCommandsIssue_0 : ∃ i, ∃ core, ∃ x : Issue, ∃ s : State, ∃ j, ∃ us, ∃ t, ∃ u, (tractIssue i = some (core, x)) ∧
    (x.op ≠ .stile) ∧ (x.op ≠ .waitTally) ∧ (x.op ≠ .dmaGate) ∧ (s.runs core j) ∧
    let p := s.atIssue core j x
    let w := p.issueWidth core x.cmd
    (Issues p core { j with fetch := j.fetch + 16 } x us t) ∧
    ((x.op.isTier = true → t.lateAtIssue core (t.tierTotal x.op core w x.cmd) = false)) ∧
    (((t.updCore core (fun y => { y with wait := .none })).noteIssue x.op core w x.cmd).runWithin x.op core w x.cmd x.obs = (none, u)) :=
  ⟨(Instr.dmaBinToBin 0 cmd0 []), 0, (⟨.dmaBin, cmd0, []⟩ : Issue), runs0, job0, [(⟨[(0, 1)], [(0, 1)], [], [], 1⟩ : Uses)], ((runs0.atIssue 0 job0 (⟨.dmaBin, cmd0, []⟩ : Issue)).tcReads [] ((runs0.atIssue 0 job0 (⟨.dmaBin, cmd0, []⟩ : Issue)).issueReads .dmaBin 0 ((runs0.atIssue 0 job0 (⟨.dmaBin, cmd0, []⟩ : Issue)).issueWidth 0 cmd0) { job0 with fetch := job0.fetch + 16 } cmd0)).2, (((((runs0.atIssue 0 job0 (⟨.dmaBin, cmd0, []⟩ : Issue)).tcReads [] ((runs0.atIssue 0 job0 (⟨.dmaBin, cmd0, []⟩ : Issue)).issueReads .dmaBin 0 ((runs0.atIssue 0 job0 (⟨.dmaBin, cmd0, []⟩ : Issue)).issueWidth 0 cmd0) { job0 with fetch := job0.fetch + 16 } cmd0)).2.updCore 0 (fun y => { y with wait := .none })).noteIssue .dmaBin 0 1 cmd0).runWithin .dmaBin 0 1 cmd0 []).2, by decide +kernel, by decide +kernel, by decide +kernel, by decide +kernel, by unfold State.runs; decide +kernel, by exact ⟨by decide +kernel, by decide +kernel, pair_of (by decide +kernel), ok_of (d := []) (by decide +kernel) (by decide +kernel), by decide +kernel, by decide +kernel, by decide +kernel⟩, by decide +kernel, by first | decide +kernel | exact pair_of (by decide +kernel) | rfl | exact pair_of rfl⟩

theorem test_hyp_TractControlCommandsComplete_0 : ∃ s : State, ∃ core, ∃ cmd : TcCmd, ∃ j, ∃ us, ∃ t, (s.runs core j) ∧
    let x : Issue := ⟨.waitTally, cmd, []⟩
    let p := s.atIssue core j x
    let w := p.issueWidth core cmd
    let ms := (List.range w).map (core + ·)
    (Issues p core { j with fetch := j.fetch + 16 } x us t) ∧ (t.tallyMet ms cmd = true) :=
  ⟨(runs0.raiseTally 0 0 3), 0, cmd0, job0, [Uses.none], (((runs0.raiseTally 0 0 3).atIssue 0 job0 (⟨.waitTally, cmd0, []⟩ : Issue)).tcReads [] (((runs0.raiseTally 0 0 3).atIssue 0 job0 (⟨.waitTally, cmd0, []⟩ : Issue)).issueReads .waitTally 0 (((runs0.raiseTally 0 0 3).atIssue 0 job0 (⟨.waitTally, cmd0, []⟩ : Issue)).issueWidth 0 cmd0) { job0 with fetch := job0.fetch + 16 } cmd0)).2, by unfold State.runs; decide +kernel, by exact ⟨by decide +kernel, by decide +kernel, pair_of (by decide +kernel), ok_of (d := []) (by decide +kernel) (by decide +kernel), by decide +kernel, by decide +kernel, by decide +kernel⟩, by decide +kernel⟩

theorem test_hyp_TractControlCommandsComplete_1 : ∃ s : State, ∃ core, ∃ cmd : TcCmd, ∃ obs : List Obs, ∃ j, ∃ us, ∃ t, ∃ u, (s.runs core j) ∧
    let x : Issue := ⟨.dmaGate, cmd, obs⟩
    let p := s.atIssue core j x
    let w := p.issueWidth core cmd
    (Issues p core { j with fetch := j.fetch + 16 } x us t) ∧
    (((t.updCore core (fun y => { y with wait := .none })).noteIssue .dmaGate core w cmd).gateIssue core cmd obs = (.started, u)) :=
  ⟨(linked (runs0.binStore 0 [(35, 0x10#8), (60, 2#8)] [])), 0, ({ cmd0 with opc := 1, pb := 0x8000 } : TcCmd), ([] : List Obs), job0, [(⟨[(0, 1)], [], [], [], 1⟩ : Uses)], (((linked (runs0.binStore 0 [(35, 0x10#8), (60, 2#8)] [])).atIssue 0 job0 (⟨.dmaGate, ({ cmd0 with opc := 1, pb := 0x8000 } : TcCmd), []⟩ : Issue)).tcReads [] (((linked (runs0.binStore 0 [(35, 0x10#8), (60, 2#8)] [])).atIssue 0 job0 (⟨.dmaGate, ({ cmd0 with opc := 1, pb := 0x8000 } : TcCmd), []⟩ : Issue)).issueReads .dmaGate 0 (((linked (runs0.binStore 0 [(35, 0x10#8), (60, 2#8)] [])).atIssue 0 job0 (⟨.dmaGate, ({ cmd0 with opc := 1, pb := 0x8000 } : TcCmd), []⟩ : Issue)).issueWidth 0 ({ cmd0 with opc := 1, pb := 0x8000 } : TcCmd)) { job0 with fetch := job0.fetch + 16 } ({ cmd0 with opc := 1, pb := 0x8000 } : TcCmd))).2, ((((((linked (runs0.binStore 0 [(35, 0x10#8), (60, 2#8)] [])).atIssue 0 job0 (⟨.dmaGate, ({ cmd0 with opc := 1, pb := 0x8000 } : TcCmd), []⟩ : Issue)).tcReads [] (((linked (runs0.binStore 0 [(35, 0x10#8), (60, 2#8)] [])).atIssue 0 job0 (⟨.dmaGate, ({ cmd0 with opc := 1, pb := 0x8000 } : TcCmd), []⟩ : Issue)).issueReads .dmaGate 0 (((linked (runs0.binStore 0 [(35, 0x10#8), (60, 2#8)] [])).atIssue 0 job0 (⟨.dmaGate, ({ cmd0 with opc := 1, pb := 0x8000 } : TcCmd), []⟩ : Issue)).issueWidth 0 ({ cmd0 with opc := 1, pb := 0x8000 } : TcCmd)) { job0 with fetch := job0.fetch + 16 } ({ cmd0 with opc := 1, pb := 0x8000 } : TcCmd))).2.updCore 0 (fun y => { y with wait := .none })).noteIssue .dmaGate 0 1 (({ cmd0 with opc := 1, pb := 0x8000 } : TcCmd))).gateIssue 0 ({ cmd0 with opc := 1, pb := 0x8000 } : TcCmd) []).2, by unfold State.runs; decide +kernel, by exact ⟨by decide +kernel, by decide +kernel, pair_of (by decide +kernel), ok_of (d := []) (by decide +kernel) (by decide +kernel), by decide +kernel, by decide +kernel, by decide +kernel⟩, by first | decide +kernel | exact pair_of (by decide +kernel) | rfl | exact pair_of rfl⟩

theorem test_hyp_TractControlCommandsComplete_2 : ∃ s : State, ∃ core, ∃ at_ : Nat, ∃ cmd : TcCmd, ∃ obs : List Obs, ∃ j, ∃ us,
    ∃ t, ((s.reach at_).runs core j) ∧
    let x : Issue := ⟨.stile, cmd, obs⟩
    let p := (s.reach at_).atIssue core j x
    let w := p.issueWidth core cmd
    let u := (t.noteIssue .stile core w cmd).takeStile core cmd
    (Issues p core { j with fetch := j.fetch + 16 } x us t) ∧ ((∀ m ∈ (List.range w).map (core + ·), (t.core m).inflight = [])) ∧
    (((u.core core).queue = [x] ∨ (u.core core).queue = [])) ∧ ((u.issued core).calm = true) :=
  ⟨(noTest runs0), 0, 900, cmd0, ([] : List Obs), job0, [Uses.none], ((((noTest runs0).reach 900).atIssue 0 job0 (⟨.stile, cmd0, []⟩ : Issue)).tcReads [] ((((noTest runs0).reach 900).atIssue 0 job0 (⟨.stile, cmd0, []⟩ : Issue)).issueReads .stile 0 ((((noTest runs0).reach 900).atIssue 0 job0 (⟨.stile, cmd0, []⟩ : Issue)).issueWidth 0 cmd0) { job0 with fetch := job0.fetch + 16 } cmd0)).2, by unfold State.runs; decide +kernel, by exact ⟨by decide +kernel, by decide +kernel, pair_of (by decide +kernel), ok_of (d := []) (by decide +kernel) (by decide +kernel), by decide +kernel, by decide +kernel, by decide +kernel⟩, by decide +kernel, by decide +kernel, by decide +kernel⟩

theorem test_hyp_TractControlCommandsComplete_3 : ∃ s : State, ∃ core, ∃ cmd : TcCmd, ∃ j, ∃ t, (s.runs core j) ∧
    let p := s.atIssue core j ⟨.reserved, cmd, []⟩
    (p.issueStopped core 1 = false) ∧ (cmd.fur = false) ∧
    (p.tcReads [] (p.issueReads .reserved core 1 { j with fetch := j.fetch + 16 } cmd) = (none, t)) :=
  ⟨runs0, 0, cmd0, job0, ((runs0.atIssue 0 job0 (⟨.reserved, cmd0, []⟩ : Issue)).tcReads [] ((runs0.atIssue 0 job0 (⟨.reserved, cmd0, []⟩ : Issue)).issueReads .reserved 0 1 { job0 with fetch := job0.fetch + 16 } cmd0)).2, by unfold State.runs; decide +kernel, by decide +kernel, by decide +kernel, by first | decide +kernel | exact pair_of (by decide +kernel) | rfl | exact pair_of rfl⟩

theorem test_hyp_CoreEventsComplete_0 : ∃ s : State, ∃ core, ∃ tag, ∃ f, (s.calm = true) ∧
    ((s.core core).inflight.find? (fun x => x.tag == tag) = some f) ∧ (s.stillSends core f = false) :=
  ⟨flies0, 0, 5, flight0, by decide +kernel, by decide +kernel, by decide +kernel⟩

theorem test_hyp_CoreEventsComplete_1 : ∃ s : State, ∃ core, ∃ tag, ∃ at_ : Nat, ∃ f,
    let u := (s.reach at_).freeCommand core tag
    ((s.core core).inflight.find? (fun x => x.tag == tag) = some f) ∧ ((u.core core).queue = []) ∧ (u.quiet core = true) :=
  ⟨flies0, 0, 5, 700, flight0, by decide +kernel, by decide +kernel, by decide +kernel⟩

theorem test_hyp_CoreEventsComplete_2 : ∃ s : State, ∃ core, ∃ t, ∃ k, ((s.core core).tallyWait = some (t, k)) :=
  ⟨(withCore 0 { Core.idle with job := some job0, tallyWait := some (900, 4), wait := .tally }), 0, 900, 4, by decide +kernel⟩

theorem test_hyp_CoreEventsComplete_3 : ∃ s : State, ∃ core, ∃ hearth,
    ∃ l : Lease, ((s.leasesOn core hearth).find? (fun l => decide (l.phase = .movingIn) && !bit l.moved (core - l.core)) = some l) ∧
    (s.swapLost l false = false) :=
  ⟨(upPart.setLeases [(⟨.state, 1, 1, 2, 7, 0, 3, true, .movingIn, false, 9, false, 0⟩ : Lease)]), 1, 2, (⟨.state, 1, 1, 2, 7, 0, 3, true, .movingIn, false, 9, false, 0⟩ : Lease), by decide +kernel, by decide +kernel⟩

theorem test_hyp_CoreEventsComplete_4 : ∃ s : State, ∃ core, ∃ hearth,
    ∃ l : Lease, ((s.leasesOn core hearth).find? (fun l => decide (l.phase = .movingOut) && !bit l.moved (core - l.core)) = some l) :=
  ⟨(upPart.setLeases [(⟨.state, 1, 1, 2, 7, 0, 3, false, .movingOut, true, 9, false, 0⟩ : Lease)]), 1, 2, (⟨.state, 1, 1, 2, 7, 0, 3, false, .movingOut, true, 9, false, 0⟩ : Lease), by decide +kernel⟩

theorem test_hyp_CoreEventsComplete_5 : ∃ s : State, ∃ core, ∃ split, (split < 3) ∧
    ((∀ h ∈ splitChanges (s.fld .hearthCfgSplit core) split, s.leasesOn core h = [])) :=
  ⟨upPart, 3, 2, by decide +kernel, by decide +kernel⟩

theorem test_hyp_CoreEventsComplete_7 : ∃ s : State, ∃ core, ∃ at_ : Nat, ∃ j, ∃ d, ∃ f, ((s.core core).job = some j) ∧
    ((s.core core).ending = none) ∧ (f ∈ (s.core core).inflight) ∧ (f.deadline = some d) ∧ (d ≤ (s.reach at_).time) ∧ (j.fbTract ≠ none) ∧
    (j.degraded = false) ∧ (j.switching = false) ∧ (j.net = none) :=
  ⟨(withCore 0 { Core.idle with job := some job0, inflight := [{ flight0 with deadline := some 600 }] }), 0, 800, job0, 600, { flight0 with deadline := some 600 }, by decide +kernel, by decide +kernel, by decide +kernel, by decide +kernel, by decide +kernel, by decide +kernel, by decide +kernel, by decide +kernel, by decide +kernel⟩

theorem test_hyp_CoreEventsComplete_8 : ∃ s : State, ∃ core, ∃ j, ((s.core core).job = some j) ∧ (j.switching = true) ∧ (s.quiet core = true) ∧
    ((s.core core).ending = none) :=
  ⟨(withCore 0 { Core.idle with job := some { job0 with switching := true } }), 0, { job0 with switching := true }, by decide +kernel,
    by decide +kernel, by decide +kernel, by decide +kernel⟩

theorem test_hyp_CoreEventsComplete_9 : ∃ s : State, ∃ core, ∃ at_ : Nat, ((s.core core).switching = 1) ∧ ((s.reach at_).swapOn core = false) :=
  ⟨(withCore 0 { Core.idle with switching := 1, outgoing := some ⟨job0, ⟨[], [], [], [], false⟩⟩ }), 0, 900, by decide +kernel, by decide +kernel⟩

theorem test_hyp_CoreEventsComplete_10 : ∃ s : State, ∃ core, ∃ j, ∃ y : Suspended, ((s.core core).incoming = some j) ∧
    ((s.core core).switching = 2) ∧ ((s.wslot j.part (j.slot.getD 0)).suspended = some y) ∧ (y.save.bad = false) :=
  ⟨(let s := withCore 0 { Core.idle with switching := 2, incoming := some job0 }; { s with rota := { s.rota with wheel := [(0, { WheelSlot.empty with suspended := some (⟨job0, ⟨[], [(0, 0)], [(5, 7#8)], [(0, 0)], false⟩⟩ : Suspended) })] } }), 0, job0, (⟨job0, ⟨[], [(0, 0)], [(5, 7#8)], [(0, 0)], false⟩⟩ : Suspended), by decide +kernel, by decide +kernel, by decide +kernel, by decide +kernel⟩

theorem test_hyp_RotaCommandsComplete_0 : ∃ s : State, (s.applyOk = true) :=
  ⟨up, by decide +kernel⟩

theorem test_hyp_RotaCommandsComplete_1 : ∃ s : State, ∃ part, (bit s.rota.applying part = true) ∧
    (s.coresQuiet ((s.partNow part).cores ++ (s.partGoal part).cores) = true) ∧
    (((s.partGoal part).furrow = true → ∀ c ∈ (s.partGoal part).cores, s.powerGood (31 + c) = true ∧ s.powerGood (39 + c) = true ∧
    s.flag .clkStatusHeld 0 = false)) :=
  ⟨({ upPart with rota := { upPart.rota with applying := 1, plan := [(0, ⟨0, 4, 0, false, 0x00FF, [0, 1, 0, 2]⟩)] } }), 0, by decide +kernel,
    by decide +kernel, by decide +kernel⟩

theorem test_hyp_RotaCommandsComplete_2 : ∃ s : State, ∃ ring, ∃ secure : Bool, ((s.ringSecure ring = true → secure = true)) ∧
    (s.flag .rtRingEn ring = true) :=
  ⟨(upPart.setFlds 3 [(.rtRingEn, 1), (.rtRingDepth, 4), (.rtRingWorld, 1)]), 3, true, by decide +kernel, by decide +kernel⟩

theorem test_hyp_RotaCommandsComplete_3 : ∃ s : State, ∃ ring, ∃ secure : Bool, ((s.ringSecure ring = true → secure = true)) :=
  ⟨({ upPart.setFlds 3 [(.rtRingEn, 1), (.rtRingDepth, 4)] with rota := { upPart.rota with cqCount := [(3, 2)] } }), 3, false, by decide +kernel⟩

theorem test_hyp_RotaCommandsComplete_4 : ∃ s : State, ∃ part, ∃ slot, ∃ at_ : Nat,
    let k := part * 64 + slot
    let u := s.reach at_
    (s.flag .rtWheelEn k = true) ∧ (s.flag .rtWheelMode k = true) ∧ (u.atInstant (s.fld .rtWheelPeriod k) (s.fld .rtWheelOffset k) = true) ∧
    (s.sqLen (s.fld .rtWheelRing k) ≠ 0) ∧ (s.flag .rtRingEn (s.fld .rtWheelRing k) = true) :=
  ⟨({ upPart.setFlds 0 [(.rtCtrlEn, 1), (.rtRingEn, 1), (.rtRingDepth, 4), (.rtWheelEn, 1), (.rtWheelMode, 1), (.rtWheelPeriod, 10)] with rota := { upPart.rota with sqCount := [(0, 1)] } }), 0, 0, 20000, by decide +kernel, by decide +kernel, by decide +kernel, by decide +kernel, by decide +kernel⟩

theorem test_hyp_RotaCommandsComplete_5 : ∃ s : State, ∃ net, ∃ at_ : Nat,
    let u := s.reach at_
    let r := s.fld .rtGnetRing net
    (s.flag .rtGnetEn net = true) ∧ ((s.flag .rtGnetMode net = true → u.atInstant (s.fld .rtGnetPeriod net) (s.fld .rtGnetOffset net) = true ∧
    s.sqLen r ≠ 0 ∧ s.flag .rtRingEn r = true)) :=
  ⟨({ (upPart.setFlds 2 [(.rtGnetEn, 1), (.rtGnetRing, 1), (.cmpNetEn, 1)]).setFlds 1 [(.rtRingEn, 1), (.rtRingDepth, 4)] with rota := { upPart.rota with sqCount := [(1, 1)] } }.setFld .rtCtrlEn 0 1), 2, 20000, by decide +kernel, by decide +kernel⟩

theorem test_hyp_RotaCommandsComplete_6 : ∃ s : State, ∃ ring, ∃ index, ∃ secure : Bool, ∃ at_ : Nat, ∃ u, (ring < 256) ∧ (index < 4096) ∧
    ((s.ringSecure ring = true → secure = true)) ∧
    (((s.reach at_).setFlds 0 [(.rtAbortRing, ring), (.rtAbortIndex, index)]).withdraw ring index abortEnding = (true, u)) :=
  ⟨runs0, 0, 0, true, 600, (((runs0.reach 600).setFlds 0 [(.rtAbortRing, 0), (.rtAbortIndex, 0)]).withdraw 0 0 abortEnding).2,
    by decide +kernel, by decide +kernel, by decide +kernel, by decide +kernel⟩

theorem test_hyp_RotaCommandsComplete_7 : ∃ s : State, ∃ core, ∃ i, ((s.core core).selftest = some i) :=
  ⟨(withCore 2 { Core.idle with selftest := some 2 }), 2, 2, by decide +kernel⟩

theorem test_hyp_HopperCommandsComplete_0 : ∃ s : State, ∃ feed, ∃ secure : Bool, ∃ u,
    let h := s.fld .hpFeedHandle feed
    let r := s.recOf h
    let world := recWorld r == 1
    (s.clocked 11 = true) ∧ (s.hpFeed feed = none) ∧ (s.stale h = false) ∧ ((world = true → secure = true)) ∧ (recType r = 7) ∧
    (recField r 8 26 24 = feed) ∧ ∃ st, (s.lgFetch.hpStats (recField r 8 23 0) (bit (recField r 28 31 0) 25) world = (.ok st, u)) ∧
    (u.hpCfgOk (recPart r) (hpCfg r st) = true) :=
  ⟨hpState, 2, true, (hpState.lgFetch.hpStats 0 true true).2, by decide +kernel, by decide +kernel, by decide +kernel, by decide +kernel,
    by decide +kernel, by decide +kernel, [],
    by first | decide +kernel | exact ok_of (d := ([], [])) (by decide +kernel) (by decide +kernel) | exact ok_pair_of (d := []) (by decide +kernel) (by decide +kernel) (by decide +kernel) | exact ok_pair_of (d := (⟨[], 0, 0⟩ : HpSlot)) (by decide +kernel) (by decide +kernel) (by decide +kernel) | exact ok_pair (by decide +kernel) | rfl, by decide +kernel⟩

theorem test_hyp_HopperCommandsComplete_1 : ∃ s : State, ∃ feed, ∃ secure : Bool, ∃ f, (s.clocked 11 = true) ∧ (s.hpFeed feed = some f) ∧
    ((f.secure = true → secure = true)) :=
  ⟨feeds0, 2, true, feed0, by decide +kernel, by decide +kernel, by decide +kernel⟩

theorem test_hyp_HopperCommandsComplete_2 : ∃ s : State, ∃ feed, ∃ tail, ∃ secure : Bool, ∃ f,
    let size := 2 ^ f.cfg.depth
    let n := (tail % size + size - f.tail % size) % size
    (s.clocked 11 = true) ∧ (s.hpFeed feed = some f) ∧ ((f.secure = true → secure = true)) ∧ (f.tail + n - f.published * f.cfg.b ≤ size) :=
  ⟨feeds0, 2, 7, true, feed0, by decide +kernel, by decide +kernel, by decide +kernel, by decide +kernel⟩

theorem test_hyp_HopperCommandsComplete_3 : ∃ s : State, ∃ lane, ∃ n, ∃ f, (lane < 16) ∧ (s.hpReady = true) ∧
    ((∀ l ∈ s.hp.lanes, l.lane ≠ lane)) ∧
    (((List.range 8).map (fun i => (s.hp.turn + 1 + i) % 8)).find? (fun n => match s.hpFeed n with | some f => f.eligible | none => false) = some n) ∧ (s.hpFeed n = some f) :=
  ⟨feeds0, 5, 2, feed0, by decide +kernel, by decide +kernel, by decide +kernel, by decide +kernel, by decide +kernel⟩

theorem test_hyp_HopperCommandsComplete_4 : ∃ s : State, ∃ lane, ∃ obs : List Obs, ∃ at_ : Nat, ∃ l : HpLane, ∃ f, ∃ b,
    ∃ u, (s.hp.lanes.find? (fun l => l.lane == lane) = some l) ∧ (s.hpFeed l.feed = some f) ∧ ((s.reach at_).hpPrepare f l.sample obs = (.ok b, u)) :=
  ⟨feeds0, 4, ([] : List Obs), 900, (⟨4, 2, 3, 100⟩ : HpLane), feed0, (okOf (⟨[], 0, 0⟩ : HpSlot) ((feeds0.reach 900).hpPrepare feed0 3 []).1), ((feeds0.reach 900).hpPrepare feed0 3 []).2, by decide +kernel, by decide +kernel, by first | decide +kernel | exact ok_of (d := ([], [])) (by decide +kernel) (by decide +kernel) | exact ok_pair_of (d := []) (by decide +kernel) (by decide +kernel) (by decide +kernel) | exact ok_pair_of (d := (⟨[], 0, 0⟩ : HpSlot)) (by decide +kernel) (by decide +kernel) (by decide +kernel) | exact ok_pair (by decide +kernel) | rfl⟩

theorem test_hyp_HopperCommandsComplete_5 : ∃ s : State, ∃ lane, ∃ at_ : Nat, ∃ l : HpLane,
    ∃ f : HpFeed, (s.hp.lanes.find? (fun l => l.lane == lane) = some l) ∧ (s.hpFeed l.feed = some f) ∧ (2 ≤ f.cfg.budget) ∧
    (16 ≤ f.times.length) ∧ (f.cfg.budget * f.times.sum ≤ ((s.reach at_).time - l.start) * f.times.length) :=
  ⟨({ feeds0 with hp := { feeds0.hp with feeds := [(2, some { feed0 with times := List.replicate 16 100, cfg := { feed0.cfg with budget := 4 } })] } }), 4, 900, (⟨4, 2, 3, 100⟩ : HpLane), ({ feed0 with times := List.replicate 16 100, cfg := { feed0.cfg with budget := 4 } } : HpFeed), by decide +kernel, by decide +kernel, by decide +kernel, by decide +kernel, by decide +kernel⟩

theorem test_hyp_HopperCommandsComplete_6 : ∃ s : State, ∃ feed, ∃ add, ∃ secure : Bool, ∃ f, (s.clocked 11 = true) ∧ (s.hpFeed feed = some f) ∧
    ((f.secure = true → secure = true)) ∧ (1 ≤ add) ∧ (add ≤ 16) :=
  ⟨feeds0, 2, 1, true, feed0, by decide +kernel, by decide +kernel, by decide +kernel, by decide +kernel, by decide +kernel⟩

theorem test_hyp_CameraCommandsComplete_0 : ∃ s : State, ∃ link, ∃ vc, ∃ k, ∃ at_ : Nat, (s.csiOn link = true) ∧
    let u := ((s.reach at_).setFld .csiStatusHs link 1).countHeader link 0
    let v := u.truncateFrame k
    let x := v.sensor k
    let sof := u.time / 4 * 4
    (u.sensorOf link vc = some k) ∧ (x.phase = .unseen) :=
  ⟨seen, 1, 2, 5, 700, by decide +kernel, by decide +kernel, by decide +kernel⟩

theorem test_hyp_CameraCommandsComplete_1 : ∃ s : State, ∃ link, ∃ vc, ∃ dt, ∃ line : List Nat, ∃ k, ∃ f, ∃ at_ : Nat, (s.csiOn link = true) ∧
    let u := ((s.reach at_).setFld .csiStatusHs link 1).countHeader link 0
    (u.sensorOf link vc = some k) ∧ (dt = u.fld .ispSensorDt k) ∧ (dt ∈ rawTypes) ∧ ((u.sensor k).frame = some f) ∧ (f.dropped = false) ∧
    (line.length = u.fld .ispSensorWidth k) ∧ (f.lines.length < u.fld .ispSensorHeight k) :=
  ⟨open0, 1, 2, 0x2A, ([1, 2, 3, 4] : List Nat), 5, frame0, 700, by decide +kernel, by decide +kernel, by decide +kernel, by decide +kernel,
    by decide +kernel, by decide +kernel, by decide +kernel, by decide +kernel⟩

theorem test_hyp_CameraCommandsComplete_2 : ∃ s : State, ∃ link, ∃ vc, ∃ k, ∃ f : CamFrame, ∃ at_ : Nat, (s.csiOn link = true) ∧
    let u := ((s.reach at_).setFld .csiStatusHs link 1).countHeader link 0
    (u.sensorOf link vc = some k) ∧ ((u.sensor k).frame = some f) ∧ (f.dropped = false) ∧ (u.fld .ispSensorHeight k ≤ f.lines.length) :=
  ⟨({ seen with cam := ⟨[(5, ⟨.present, some { frame0 with lines := [[1, 2, 3, 4]] }, some 100, [], 0⟩)], []⟩ } : State), 1, 2, 5, ({ frame0 with lines := [[1, 2, 3, 4]] } : CamFrame), 700, by decide +kernel, by decide +kernel, by decide +kernel, by decide +kernel, by decide +kernel⟩

theorem test_hyp_CameraCommandsComplete_5 : ∃ s : State, ∃ sensor, ∃ at_ : Nat, ∃ t, ((s.sensor sensor).lastSof = some t) ∧
    ((s.sensor sensor).phase ≠ .lost) ∧ (s.flag .ispSensorEn sensor = true) ∧ (0 < s.framePeriod sensor) ∧
    (t + 2 * s.framePeriod sensor ≤ (s.reach at_).time) :=
  ⟨open0, 5, 70000, 100, by decide +kernel, by decide +kernel, by decide +kernel, by decide +kernel, by decide +kernel⟩

theorem test_hyp_CameraCommandsComplete_6 : ∃ s : State, ∃ sensor, ∃ at_ : Nat,
    let x := s.sensor sensor
    let p := s.framePeriod sensor
    (x.phase = .lost) ∧ (0 < p) ∧ (x.expected + p ≤ (s.reach at_).time) :=
  ⟨({ stream0 with cam := ⟨[(5, ⟨.lost, none, some 100, [], 33000⟩)], [(3, some osRun0)]⟩ } : State), 5, 70000, by decide +kernel,
    by decide +kernel, by decide +kernel⟩

theorem test_hyp_CameraCommandsComplete_7 : ∃ s : State, ∃ stream, (s.clocked 9 = true) ∧ (s.osRun stream = none) ∧ (s.osCheck stream = 0) :=
  ⟨stream0, 3, by decide +kernel, by decide +kernel, by decide +kernel⟩

theorem test_hyp_CameraCommandsComplete_8 : ∃ s : State, ∃ stream, ∃ r, (s.clocked 9 = true) ∧ (s.osRun stream = some r) ∧ (r.rows = none) :=
  ⟨({ stream0 with cam := ⟨[], [(3, some osRun0)]⟩ } : State), 3, osRun0, by decide +kernel, by decide +kernel, by decide +kernel⟩

theorem test_hyp_CameraCommandsComplete_9 : ∃ s : State, ∃ stream, ∃ add, ∃ r, (s.clocked 9 = true) ∧ (s.osRun stream = some r) ∧ (1 ≤ add) ∧
    (add ≤ r.occupied) :=
  ⟨({ stream0 with cam := ⟨[], [(3, some osRun0)]⟩ } : State), 3, 2, osRun0, by decide +kernel, by decide +kernel, by decide +kernel,
    by decide +kernel⟩

theorem test_hyp_AudioCommandsComplete_0 : ∃ s : State, ∃ at_ : Nat, ∃ a : AudRun,
    let w := (s.reach at_).audTake
    (w.aud.stream = some a) ∧ (a.off = false) ∧ (w.powerGood 4 = true) ∧ (w.clocked 2 = true) ∧ (w.flag .clkStatusHeld 0 = false) ∧
    (a.nbuf ≤ a.occupied) :=
  ⟨({ (heard.setFlds 0 [(.audStreamNbuf, 1), (.audStreamBin, 1), (.doorStatusMichpd, 1), (.audStreamTally, 9)]) with aud := ⟨some ({ aud0 with occupied := 2 } : AudRun)⟩ } : State), 600, ({ aud0 with occupied := 2 } : AudRun), by decide +kernel, by decide +kernel, by decide +kernel, by decide +kernel, by decide +kernel, by decide +kernel⟩

theorem test_hyp_AudioCommandsComplete_1 : ∃ s : State, ∃ mics : List (List Int), ∃ refs : List (List Int), ∃ stamp, ∃ at_ : Nat, ∃ a,
    let r := (s.reach at_).audTake
    let w := r.setFld .audStatusReflock 0 (b2n (bit (r.obj .audTdm 0) 9))
    let live := a.chans.filter (fun c => w.micPresent c && !w.muted)
    let data := a.chans.flatMap (fun c => pcmGrain (if live.contains c then w.trimmed c stamp (mics.getD c []) else [])) ++ a.refList.flatMap (fun r => pcmGrain (refs.getD r []))
    let h := natLe 8 a.blockNo ++ natLe 8 stamp ++ natLe 2 (live.foldl (fun m c => m + 2 ^ c) 0) ++ natLe 1 a.refs ++ natLe 1 (b2n w.muted + 2 * b2n a.resumed + 4 * b2n false) ++ natLe 2 a.skipped
    let base := (w.fld .audStreamBase 0 + a.blockNo % a.nbuf * a.grains) * 256
    (r.aud.stream = some a) ∧ (a.off = false) ∧ (r.powerGood 4 = true) ∧ (r.clocked 2 = true) ∧ (r.flag .clkStatusHeld 0 = false) ∧
    (a.occupied < a.nbuf) ∧ ∃ v, (w.binUnitWrite w.audReq 5 a.bin (base + 256) data = (none, v)) ∧
    ∃ u, (v.binUnitWrite w.audReq 5 a.bin base (h ++ List.replicate 234 0) = (none, u)) :=
  ⟨({ (heard.setFlds 0 [(.audStreamNbuf, 1), (.audStreamBin, 1), (.doorStatusMichpd, 1), (.audStreamTally, 9)]) with aud := ⟨some aud0⟩ } : State), ([[]] : List (List Int)), ([[]] : List (List Int)), 50, 600, aud0, by decide +kernel, by decide +kernel, by decide +kernel, by decide +kernel, by decide +kernel, by decide +kernel, _, pair_of (by decide +kernel), _, pair_of (by decide +kernel)⟩

theorem test_hyp_AudioCommandsComplete_2 : ∃ s : State,
    let a : AudRun := ⟨s.fld .audStreamBin 0, s.fld .audStreamNbuf 0 + 1, s.fld .audStreamRefs 0, s.fld .audStreamChmask 0, 0, 0, 0, false, false⟩
    (s.clocked 2 = true) ∧ (s.aud.stream = none) ∧ (s.audCheck a = 0) :=
  ⟨(heard.setFlds 0 [(.audStreamNbuf, 1), (.audStreamBin, 1), (.doorStatusMichpd, 1), (.audStreamTally, 9)]), by decide +kernel,
    by decide +kernel, by decide +kernel⟩

theorem test_hyp_AudioCommandsComplete_3 : ∃ s : State, ∃ a, (s.clocked 2 = true) ∧ (s.aud.stream = some a) :=
  ⟨({ (heard.setFlds 0 [(.audStreamNbuf, 1), (.audStreamBin, 1), (.doorStatusMichpd, 1), (.audStreamTally, 9)]) with aud := ⟨some aud0⟩ } : State), aud0, by decide +kernel, by decide +kernel⟩

theorem test_hyp_AudioCommandsComplete_4 : ∃ s : State, ∃ a : AudRun, (s.aud.stream = some a) :=
  ⟨({ (heard.setFlds 0 [(.audStreamNbuf, 1), (.audStreamBin, 1), (.doorStatusMichpd, 1), (.audStreamTally, 9)]) with aud := ⟨some ({ aud0 with occupied := 2 } : AudRun)⟩ } : State).raiseTally 1 0 1, ({ aud0 with occupied := 2 } : AudRun), by decide +kernel⟩

theorem test_hyp_AudioCommandsComplete_5 : ∃ s : State, ∃ vad, (s.micsStopped = false) ∧ (s.watch.mic ≠ none) ∧ ((vad ≤ s.obj .vadThreshold 0 ∧
    s.watch.voiceHold ≤ 1)) :=
  ⟨heard, 3, by decide +kernel, by decide +kernel, by decide +kernel⟩

theorem test_hyp_AudioCommandsComplete_6 : ∃ s : State, ∃ vad, ∃ score, (s.micsStopped = false) ∧ (s.watch.mic ≠ none) ∧
    (s.obj .vadThreshold 0 < vad) ∧ (s.obj .wakeThreshold 0 ≤ score) :=
  ⟨heard, 65535, 65535, by decide +kernel, by decide +kernel, by decide +kernel, by decide +kernel⟩

theorem test_hyp_AudioCommandsComplete_7 : ∃ s : State,
    let b := s.fld .watchSpanBin 0
    let base := s.fld .watchSpanBase 0
    (s.watch.lock = .span) ∧ (s.watch.span = none) ∧ (BinServes s s.watchReq true b ((List.range s.spanGrains).map (base + ·))) :=
  ⟨({ (heard.setFld .watchSpanBin 0 1) with watch := { heard.watch with lock := .span } } : State), by decide +kernel, by decide +kernel,
    by unfold BinServes; decide +kernel⟩

theorem test_hyp_AudioCommandsComplete_8 : ∃ s : State, ∃ at_ : Nat, ∃ x, ∃ u, (s.watch.span = some x) ∧ (x.done = false) ∧
    ((s.reach at_).binUnitWrite s.watchReq 5 x.bin (x.base * 256) (s.spanBytes x.grains) = (none, u)) :=
  ⟨({ (heard.setFld .watchSpanBin 0 1) with watch := { heard.watch with lock := .span, span := some span0 } } : State), 700, span0, ((({ (heard.setFld .watchSpanBin 0 1) with watch := { heard.watch with lock := .span, span := some span0 } } : State).reach 700).binUnitWrite ({ (heard.setFld .watchSpanBin 0 1) with watch := { heard.watch with lock := .span, span := some span0 } } : State).watchReq 5 1 2304 (({ (heard.setFld .watchSpanBin 0 1) with watch := { heard.watch with lock := .span, span := some span0 } } : State).spanBytes 1)).2, by decide +kernel, by decide +kernel, by first | decide +kernel | exact pair_of (by decide +kernel) | rfl | exact pair_of rfl⟩

theorem test_hyp_AudioCommandsComplete_9 : ∃ s : State, (s.watch.lock = .span) :=
  ⟨({ (heard.setFld .watchSpanBin 0 1) with watch := { heard.watch with lock := .span, span := some span0 } } : State), by decide +kernel⟩

theorem test_hyp_AudioCommandsComplete_10 : ∃ s : State, (s.watch.lock = .span) :=
  ⟨({ (heard.setFld .watchSpanBin 0 1) with watch := { heard.watch with lock := .span, span := some span0 } } : State), by decide +kernel⟩

theorem test_hyp_AudioCommandsComplete_11 : ∃ s : State, ∃ at_ : Nat, ∃ x : SpanPush, (s.watch.span = some x) ∧ (s.watch.lock = .span) ∧
    (x.done = true) ∧ (x.ended + s.obj .verifyMs 0 * 1000000 ≤ (s.reach at_).time) :=
  ⟨({ heard with watch := { heard.watch with lock := .span, span := some { span0 with done := true } } } : State), 60000000000, ({ span0 with done := true } : SpanPush), by decide +kernel, by decide +kernel, by decide +kernel, by decide +kernel⟩

theorem test_hyp_AudioCommandsComplete_12 : ∃ s : State, ∃ at_ : Nat, (s.watch.lock = .open) ∧ (s.watch.openAt + 10000000000 ≤ (s.reach at_).time) :=
  ⟨({ heard with watch := { heard.watch with lock := .open } } : State), 60000000000, by decide +kernel, by decide +kernel⟩

theorem test_hyp_AudioCommandsComplete_13 : ∃ s : State, (s.watch.lock = .erasing) :=
  ⟨({ heard with watch := { heard.watch with lock := .erasing } } : State), by decide +kernel⟩

theorem test_hyp_AudioCommandsComplete_14 : ∃ s : State, ∃ bin, ∃ base, ∃ count, ∃ tally, ∃ start, ∃ u, (bin < 8) ∧ (base < 2 ^ 17) ∧
    (count < 4096) ∧ (tally < 1024) ∧
    ((s.setFlds 0 [(.watchPullBin, bin), (.watchPullBase, base), (.watchPullCount, count), (.watchPullTally, tally), (.watchPullStart, start)]).watchPull bin base count tally (signed 21 start) = (0, u)) :=
  ⟨({ heard with watch := { heard.watch with lock := .open, silent := 1000, count := 1000, detIndex := 500 } } : State), 1, 6, 1, 3, 0, ((({ heard with watch := { heard.watch with lock := .open, silent := 1000, count := 1000, detIndex := 500 } } : State).setFlds 0 [(.watchPullBin, 1), (.watchPullBase, 6), (.watchPullCount, 1), (.watchPullTally, 3), (.watchPullStart, 0)]).watchPull 1 6 1 3 (signed 21 0)).2, by decide +kernel, by decide +kernel, by decide +kernel, by decide +kernel, by decide +kernel⟩

theorem test_hyp_AudioCommandsComplete_15 : ∃ s : State, ∃ secure : Bool, ((s.flag .secWmapWatch 0 = true → secure = true)) ∧
    (s.watch.lock = .locked) :=
  ⟨heard, true, by decide +kernel, by decide +kernel⟩

theorem test_hyp_AudioCommandsComplete_16 : ∃ s : State, (s.muted = false) :=
  ⟨heard, by decide +kernel⟩

theorem test_hyp_AudioCommandsComplete_17 : ∃ s : State, (s.muted = true) :=
  ⟨(heard.setFld .doorStatusMute 0 1), by decide +kernel⟩

theorem test_hyp_AudioCommandsComplete_18 : ∃ s : State, ∃ m, (s.muted = false) ∧ (s.watch.mic = some m) :=
  ⟨heard, 0, by decide +kernel, by decide +kernel⟩

theorem test_hyp_DoorCommandsComplete_0 : ∃ s : State, ∃ button, (bit (s.fld .doorStatusBtn 0) button = false) :=
  ⟨heard, 2, by decide +kernel⟩

theorem test_hyp_DoorCommandsComplete_1 : ∃ s : State, ∃ button, (bit (s.fld .doorStatusBtn 0) button = true) ∧ (2 ≤ button) :=
  ⟨(heard.setFld .doorStatusBtn 0 4), 2, by decide +kernel, by decide +kernel⟩

theorem test_hyp_DoorCommandsComplete_2 : ∃ s : State, ∃ button, ∃ at_ : Nat,
    let due := SMap.get s.door.pressedAt button 0 + s.obj .longpressMs 0 * 1000000
    (bit (s.fld .doorStatusBtn 0) button = true) ∧ (bit s.door.longDone button = false) ∧ (due ≤ (s.reach at_).time) :=
  ⟨(heard.setFld .doorStatusBtn 0 4), 2, 9000000000, by decide +kernel, by decide +kernel, by decide +kernel⟩

theorem test_hyp_DoorCommandsComplete_4 : ∃ s : State, ∃ input, (input < 4) ∧ (bit (s.fld .doorStatusCamhpd 0) input = false) :=
  ⟨heard, 1, by decide +kernel, by decide +kernel⟩

theorem test_hyp_DoorCommandsComplete_5 : ∃ s : State, ∃ input, (4 ≤ input) ∧ (bit (s.fld .doorStatusMichpd 0) (input - 4) = false) :=
  ⟨heard, 5, by decide +kernel, by decide +kernel⟩

theorem test_hyp_DoorCommandsComplete_6 : ∃ s : State, ∃ link, ∃ closed, (bit (s.fld .doorStatusShut 0) link ≠ closed) :=
  ⟨heard, 1, true, by decide +kernel⟩

theorem test_hyp_DoorCommandsComplete_7 : ∃ s : State, (s.clocked 1 = true) :=
  ⟨heard, by decide +kernel⟩

theorem test_hyp_SafetyCommandsComplete_0 : ∃ s : State, ∃ net, ((s.net net).comparing = true) :=
  ⟨(upPart.setNet 2 ({ GuardRun.idle with taken := some ⟨0, 0, 0, 0⟩, west := 0, east := 1, comparing := true, reading := false, ended := [(0, job0, ⟨0, 0, 0, 0, false⟩), (1, job0, ⟨0, 0, 0, 0, false⟩)] } : GuardRun)), 2, by decide +kernel⟩

theorem test_hyp_SafetyCommandsComplete_1 : ∃ s : State, ∃ net, ∃ obs : List Obs, ∃ at_ : Nat, ∃ x, ∃ y, ∃ v, ∃ u,
    let n := s.net net
    let base := s.fld .cmpNetBase net
    let count := s.fld .cmpNetCount net
    let injected := SMap.get u.safe.injectNet net false
    let d := disagreements ((Fmt.ofCode (u.fld .cmpNetFmt net)).getD .uint8) (u.fld .cmpNetTol net) x y
    let d := if injected then 0 :: d.filter (· != 0) else d
    (n.reading = true) ∧ ((s.reach at_).cmpRead n.west base count obs = (some x, v)) ∧ (v.cmpRead n.east base count obs = (some y, u)) :=
  ⟨(((upPart.setNet 2 ({ GuardRun.idle with taken := some ⟨0, 0, 0, 0⟩, west := 0, east := 1, comparing := true, reading := true, ended := [(0, job0, ⟨0, 0, 0, 0, false⟩), (1, job0, ⟨0, 0, 0, 0, false⟩)] } : GuardRun)).setFlds 2 [(.cmpNetCount, 1), (.cmpNetFmt, 1), (.cmpNetWindow, 8)])), 2, ([] : List Obs), 700, (List.replicate 256 0#8), (List.replicate 256 0#8), ((((upPart.setNet 2 ({ GuardRun.idle with taken := some ⟨0, 0, 0, 0⟩, west := 0, east := 1, comparing := true, reading := true, ended := [(0, job0, ⟨0, 0, 0, 0, false⟩), (1, job0, ⟨0, 0, 0, 0, false⟩)] } : GuardRun)).setFlds 2 [(.cmpNetCount, 1), (.cmpNetFmt, 1), (.cmpNetWindow, 8)])).reach 700), ((((upPart.setNet 2 ({ GuardRun.idle with taken := some ⟨0, 0, 0, 0⟩, west := 0, east := 1, comparing := true, reading := true, ended := [(0, job0, ⟨0, 0, 0, 0, false⟩), (1, job0, ⟨0, 0, 0, 0, false⟩)] } : GuardRun)).setFlds 2 [(.cmpNetCount, 1), (.cmpNetFmt, 1), (.cmpNetWindow, 8)])).reach 700), by decide +kernel, by decide +kernel, by decide +kernel⟩

theorem test_hyp_SafetyCommandsComplete_2 : ∃ s : State, ∃ ww, (s.fld .wwArm ww = 3) :=
  ⟨(upPart.setFlds 4 [(.wwArm, 3), (.wwOpen, 2), (.wwClose, 5), (.wwLimit, 9)]), 4, by decide +kernel⟩

theorem test_hyp_SafetyCommandsComplete_3 : ∃ s : State, ∃ ww, ∃ x : Window, ∃ r : List Window, (s.fld .wwArm ww = 3) ∧ (s.windowsOf ww = x :: r) :=
  ⟨({ upPart.setFlds 4 [(.wwArm, 3), (.wwOpen, 2), (.wwClose, 5), (.wwLimit, 9)] with safe := { upPart.safe with windows := [(4, [(⟨none, 100⟩ : Window)])] } }), 4, (⟨none, 100⟩ : Window), ([] : List Window), by decide +kernel, by decide +kernel⟩

theorem test_hyp_SafetyCommandsComplete_6 : ∃ net, (net < 32) :=
  ⟨4, by decide +kernel⟩

theorem test_hyp_SafetyCommandsComplete_7 : ∃ ww, (ww < 32) :=
  ⟨4, by decide +kernel⟩

theorem test_hyp_SecurityCommandsComplete_0 : ∃ s : State, ∃ n, ∃ word,
    let r : Region := ⟨bit word 31, bit word 30, bit word 29, bits word 27 24, s.fld .brBase n, s.fld .brLimit n⟩
    (s.flag .brBusy n = false) ∧ (r.en = true) ∧ (s.brCheck n r = 0) ∧ (s.brZeroes n r = []) :=
  ⟨(upPart.setFlds 3 [(.brBase, 8), (.brLimit, 9)]), 3, 0xC2000000, by decide +kernel, by decide +kernel, by decide +kernel, by decide +kernel⟩

theorem test_hyp_SecurityCommandsComplete_1 : ∃ s : State, ∃ n, ∃ word,
    let r : Region := ⟨bit word 31, bit word 30, bit word 29, bits word 27 24, s.fld .brBase n, s.fld .brLimit n⟩
    (s.flag .brBusy n = false) ∧ (r.en = true) ∧ (s.brCheck n r = 0) ∧ (s.brZeroes n r ≠ []) :=
  ⟨(upPart.setFlds 3 [(.brBase, 8), (.brLimit, 9)]), 3, 0x82000000, by decide +kernel, by decide +kernel, by decide +kernel, by decide +kernel⟩

theorem test_hyp_SecurityCommandsComplete_2 : ∃ s : State, ∃ n, ∃ c : BrChange, (SMap.get s.sec.changes n none = some c) :=
  ⟨({ upPart with sec := { upPart.sec with changes := [(3, some ⟨⟨true, false, false, 2, 8, 9⟩, [(2, 8), (2, 9)]⟩)] } }), 3, (⟨⟨true, false, false, 2, 8, 9⟩, [(2, 8), (2, 9)]⟩ : BrChange), by decide +kernel⟩

theorem test_hyp_SecurityCommandsComplete_3 : ∃ s : State, ((∀ n < 16, s.flag .osEn n = false)) ∧ (s.flag .audStreamEn 0 = false) ∧
    (s.fld .secWmapOs 0 < 65536) :=
  ⟨upPart, by decide +kernel, by decide +kernel, by decide +kernel⟩

theorem test_hyp_SecurityCommandsComplete_4 : ∃ s : State, ∃ slot, ∃ src, ∃ secure : Bool, (s.kslotBusy = false) ∧
    ((slotSecure slot = true → secure = true)) ∧ (src < 8) ∧ ((slot = 120 + src ∨ slot = 232 + src)) ∧ (src ∈ s.sec.peers) :=
  ⟨({ upPart with sec := { upPart.sec with peers := [2] } }), 122, 2, false, by decide +kernel, by decide +kernel, by decide +kernel,
    by decide +kernel, by decide +kernel⟩

theorem test_hyp_SecurityCommandsComplete_5 : ∃ s : State, ∃ at_ : Nat, ∃ a : AgreeRun, (s.sec.agree = some a) ∧
    ((s.reach at_).time ≤ a.start + 100000000) :=
  ⟨({ upPart.setFld .secKslotBusy 0 1 with sec := { upPart.sec with agree := some ⟨122, 1, 2, 100⟩ } }), 700, (⟨122, 1, 2, 100⟩ : AgreeRun),
    by decide +kernel, by decide +kernel⟩

theorem test_hyp_SecurityCommandsComplete_6 : ∃ s : State, ∃ slot, ∃ src, ∃ context : Nat, ∃ secure : Bool, (s.kslotBusy = false) ∧
    ((slotSecure slot = true → secure = true)) ∧ (slotSecure src = slotSecure slot) ∧ ((s.keySlot src).loaded = true) :=
  ⟨(linked upPart), 7, 3, 99, false, by decide +kernel, by decide +kernel, by decide +kernel, by decide +kernel⟩

theorem test_hyp_SecurityCommandsComplete_7 : ∃ s : State, ∃ slot, ∃ secure : Bool, (s.kslotBusy = false) ∧
    ((slotSecure slot = true → secure = true)) :=
  ⟨(linked upPart), 3, false, by decide +kernel, by decide +kernel⟩

theorem test_hyp_SecurityCommandsComplete_8 : ∃ s : State, (s.sec.unwrap = none) :=
  ⟨upPart, by decide +kernel⟩

theorem test_hyp_SecurityCommandsComplete_9 : ∃ s : State, ∃ obs : List Obs, ∃ at_ : Nat, ∃ src, ∃ dst, ∃ h, ∃ v,
    let chunks := leNat (hdrField h 12 4)
    let len := leNat (hdrField h 184 8)
    let pages := (List.range (ceilDiv len 4096)).map (dst + ·)
    (s.sec.unwrap = some (src, dst)) ∧ ((s.reach at_).urRead secReq (src * 4096) 384 obs = (.ok h, v)) :=
  ⟨({ upPart with sec := { upPart.sec with unwrap := some (5, 9) } }), ([] : List Obs), 700, 5, 9, (List.replicate 384 (0#8 : Byte)), ((({ upPart with sec := { upPart.sec with unwrap := some (5, 9) } }).reach 700).urRead secReq 20480 384 []).2, by decide +kernel, by first | decide +kernel | exact ok_of (d := ([], [])) (by decide +kernel) (by decide +kernel) | exact ok_pair_of (d := []) (by decide +kernel) (by decide +kernel) (by decide +kernel) | exact ok_pair_of (d := (⟨[], 0, 0⟩ : HpSlot)) (by decide +kernel) (by decide +kernel) (by decide +kernel) | exact ok_pair (by decide +kernel) | rfl⟩

theorem test_hyp_SecurityCommandsComplete_10 : ∃ nonce : List Byte, (nonce.length = 32) :=
  ⟨(List.replicate 32 7#8), by decide +kernel⟩

theorem test_hyp_SecurityCommandsComplete_11 : ∃ s : State, ∃ n, (s.sec.nonce = some n) :=
  ⟨({ upPart with sec := { upPart.sec with nonce := some (List.replicate 32 7#8) } }), (List.replicate 32 7#8), by decide +kernel⟩

theorem test_hyp_SecurityCommandsComplete_12 : ∃ s : State, ∃ index, (s.sec.measDone = false) ∧ (index < 15) :=
  ⟨upPart, 3, by decide +kernel, by decide +kernel⟩

theorem test_hyp_SecurityCommandsComplete_13 : ∃ s : State, (s.sec.measDone = false) :=
  ⟨upPart, by decide +kernel⟩

theorem test_hyp_SecurityCommandsComplete_14 : ∃ s : State, ∃ level, (s.sec.rejected < 3) ∧ (s.sec.unlocking = none) ∧ ((level = 1 ∨ level = 2)) :=
  ⟨upPart, 2, by decide +kernel, by decide +kernel, by decide +kernel⟩

theorem test_hyp_SecurityCommandsComplete_15 : ∃ s : State, ∃ level, (s.sec.unlocking = some level) ∧ (s.sec.unwrap = none) :=
  ⟨({ upPart with sec := { upPart.sec with unlocking := some 2 } }), 2, by decide +kernel, by decide +kernel⟩

theorem test_hyp_ObjectCommandsComplete_0 : ∃ i, ∃ op, ∃ obs : List Obs, ∃ s : State, ∃ at_ : Nat, ∃ ch : Nat, ∃ last,
    ∃ secure : Bool, ((i, op, obs) ∈ [(Instr.objectRead (.window ch last secure) at_, 4, ([] : List Obs)), (.objectWrite (.window ch last secure) at_, 5, []), (.readBlock (.window ch last secure) at_, 6, []), (.writeBlock (.window ch last secure) at_, 7, []), (.crierPull (.window ch last secure) obs at_, 10, obs), (.crierAck (.window ch last secure) at_, 11, []), (.rotaAbort (some (.window ch last secure)) 0 0 secure at_, 12, [])]) ∧ (ch < 16) ∧ ((8 ≤ ch → secure = true)) ∧ ∃ u, (((s.reach at_).setFlds ch [(.chCmdOp, op), (.chCmdLast, b2n last)]).windowOp ch op last obs = (.ok, u)) :=
  ⟨(Instr.objectRead (.window 8 true true) 700), 4, ([] : List Obs), (upPart.setFld .chObjIndex 8 (Obj.desc .cascadeId).index), 700, 8, true, true, by decide +kernel, by decide +kernel, by decide +kernel, _, pair_of (by decide +kernel)⟩

theorem test_hyp_ObjectCommandsComplete_1 : ∃ i, ∃ op, ∃ obs : List Obs, ∃ s : State, ∃ at_ : Nat, ∃ f,
    ∃ x, ((i, op, obs) ∈ [(Instr.crierClose f at_, 3, ([] : List Obs)), (.objectRead (.frame f) at_, 4, []), (.objectWrite (.frame f) at_, 5, []), (.readBlock (.frame f) at_, 6, []), (.writeBlock (.frame f) at_, 7, []), (.crierSubscribe f at_, 8, []), (.crierPull (.frame f) obs at_, 10, obs), (.crierAck (.frame f) at_, 11, []), (.rotaAbort (some (.frame f)) 0 0 false at_, 12, [])]) ∧ (SessionServes (s.reach at_) op f x) :=
  ⟨(Instr.crierAck (.frame (frameOf 11 3 9 (natLe 2 0x1005 ++ natLe 8 3))) 700), 11, ([] : List Obs), heardBy, 700, (frameOf 11 3 9 (natLe 2 0x1005 ++ natLe 8 3)), session0, by decide +kernel, by unfold SessionServes FrameArrives; decide +kernel⟩

theorem test_hyp_ObjectCommandsComplete_2 : ∃ op, ∃ ch : Nat, ∃ secure : Bool, (ch < 16) ∧ ((8 ≤ ch → secure = true)) ∧ (op < 256) ∧
    (op ∉ [4, 5, 6, 7, 10, 11, 12]) :=
  ⟨200, 8, true, by decide +kernel, by decide +kernel, by decide +kernel, by decide +kernel⟩

theorem test_hyp_CrierCommandsComplete_0 : ∃ s : State, ∃ f, ∃ at_ : Nat, (FrameArrives (s.reach at_) 1 f) ∧ (frameSecure f = false) :=
  ⟨upPart, (frameOf 1 0 9 []), 700, by unfold FrameArrives; decide +kernel, by decide +kernel⟩

theorem test_hyp_CrierCommandsComplete_1 : ∃ s : State, ∃ f, ∃ at_ : Nat, ∃ n, ∃ rest, ∃ u, (FrameArrives (s.reach at_) 2 f) ∧
    (frameSecure f = false) ∧ ((s.reach at_).openSession (framePeer f) f.payload = (.ok, n, rest, u)) :=
  ⟨((upPart.setObj .crierOpenEn 0 1).setObj .sessionMax 0 4), (frameOf 2 0 9 (natLe 1 0 ++ natLe 2 30)), 700, ((((upPart.setObj .crierOpenEn 0 1).setObj .sessionMax 0 4).reach 700).openSession (framePeer (frameOf 2 0 9 (natLe 1 0 ++ natLe 2 30))) (frameOf 2 0 9 (natLe 1 0 ++ natLe 2 30)).payload).2.1, ((((upPart.setObj .crierOpenEn 0 1).setObj .sessionMax 0 4).reach 700).openSession (framePeer (frameOf 2 0 9 (natLe 1 0 ++ natLe 2 30))) (frameOf 2 0 9 (natLe 1 0 ++ natLe 2 30)).payload).2.2.1, ((((upPart.setObj .crierOpenEn 0 1).setObj .sessionMax 0 4).reach 700).openSession (framePeer (frameOf 2 0 9 (natLe 1 0 ++ natLe 2 30))) (frameOf 2 0 9 (natLe 1 0 ++ natLe 2 30)).payload).2.2.2, by unfold FrameArrives; decide +kernel, by decide +kernel, by decide +kernel⟩

theorem test_hyp_CrierCommandsComplete_2 : ∃ s : State, ∃ f, ∃ at_ : Nat, ∃ x, (SessionServes (s.reach at_) 3 f x) :=
  ⟨heardBy, (frameOf 3 3 9 []), 700, session0, by unfold SessionServes FrameArrives; decide +kernel⟩

theorem test_hyp_CrierCommandsComplete_3 : ∃ s : State, ∃ f, ∃ at_ : Nat, ∃ x, (SessionServes (s.reach at_) 8 f x) :=
  ⟨heardBy, (frameOf 8 3 9 (natLe 6 0)), 700, session0, by unfold SessionServes FrameArrives; decide +kernel⟩

theorem test_hyp_CrierCommandsComplete_4 : ∃ s : State, ∃ session, ∃ kind, ∃ index, ∃ sub, ∃ at_ : Nat, ∃ x, ∃ y, ∃ a, ∃ b,
    let u := s.reach at_
    (u.crierUp = true) ∧ (s.session session = some x) ∧ (x.subs.find? (fun y => decide (y.kind = kind ∧ y.index = index ∧
    y.sub = sub)) = some y) ∧ (u.watched kind index sub x.secure = .ok (a, b)) ∧ (b ≠ y.shown) ∧
    ((y.at_ ≠ 0 → y.at_ - 1 + y.interval * 1000000 ≤ u.time)) :=
  ⟨heardBy, 3, 0, 0x1005, 0, 700, session0, sub0, (natLe 8 6), (natLe 8 6), by decide +kernel, by decide +kernel, by decide +kernel,
    by first | decide +kernel | exact ok_of (d := ([], [])) (by decide +kernel) (by decide +kernel) | exact ok_pair_of (d := []) (by decide +kernel) (by decide +kernel) (by decide +kernel) | exact ok_pair_of (d := (⟨[], 0, 0⟩ : HpSlot)) (by decide +kernel) (by decide +kernel) (by decide +kernel) | exact ok_pair (by decide +kernel) | rfl, by decide +kernel, by decide +kernel⟩

theorem test_hyp_CrierCommandsComplete_5 : ∃ s : State, ∃ session, ∃ at_ : Nat, ∃ x, (s.session session = some x) ∧
    (x.lastFrame + x.timeout * 1000000000 ≤ (s.reach at_).time) :=
  ⟨heardBy, 3, 31000000000, session0, by decide +kernel, by decide +kernel⟩

theorem test_hyp_CrierCommandsComplete_9 : ∃ s : State, ∃ j : SaveJob, ∃ r : List SaveJob, (s.crier.saves = j :: r) :=
  ⟨({ heardBy with crier := { heardBy.crier with saves := [(⟨false, [3], [(3, .num 7)]⟩ : SaveJob)] } }), (⟨false, [3], [(3, .num 7)]⟩ : SaveJob), ([] : List SaveJob), by decide +kernel⟩

theorem test_hyp_CrierCommandsComplete_10 : ∃ s : State, ∃ target, (s.ipUp target = true) :=
  ⟨({ heardBy with crier := { heardBy.crier with net := ⟨0xC0A80001, 0, 0, 47310, 0, 0⟩ } }), 0xC0A80001, by decide +kernel⟩

theorem test_hyp_CrierCommandsComplete_11 : ∃ s : State, ∃ target, (s.ipUp target = true) :=
  ⟨({ heardBy with crier := { heardBy.crier with net := ⟨0xC0A80001, 0, 0, 47310, 0, 0⟩ } }), 0xC0A80001, by decide +kernel⟩

theorem test_hyp_CrierCommandsComplete_12 : ∃ s : State, (s.pwr.tc10Refused = false) :=
  ⟨heardBy, by decide +kernel⟩

theorem test_hyp_CrierCommandsComplete_13 : ∃ s : State, ∃ at_ : Nat, ((s.reach at_).crierUp = true) :=
  ⟨(heardBy.setObj .timeMode 0 1), 700, by decide +kernel⟩

theorem test_hyp_HedgelineCommandsComplete_0 : ∃ s : State, ∃ port, (s.portPowered port = true) ∧ (s.fld .hlStatusState port ≠ 2) :=
  ⟨(upPart.setFld .hlCtrlEn 1 1), 1, by decide +kernel, by decide +kernel⟩

theorem test_hyp_HedgelineCommandsComplete_1 : ∃ s : State, ∃ port, (s.portUp port = true) :=
  ⟨hlUp, 1, by decide +kernel⟩

theorem test_hyp_HedgelineCommandsComplete_2 : ∃ s : State, ∃ port, (s.portPowered port = true) ∧ (s.fld .hlStatusState port = 0) :=
  ⟨(upPart.setFld .hlCtrlEn 1 1), 1, by decide +kernel, by decide +kernel⟩

theorem test_hyp_HedgelineCommandsComplete_3 : ∃ s : State, ∃ port, ∃ id, ∃ master, ∃ digest : List Byte, ∃ ring, (s.portUp port = true) ∧
    (digest.length = 64) ∧
    let u := s.setFlds port [(.hlStatusPeer, id), (.hlStatusPeermaster, b2n master)]
    (u.wired port id master ring = true) :=
  ⟨hlUp, 1, 1, false, (List.replicate 64 0#8), false, by decide +kernel, by decide +kernel, by decide +kernel⟩

theorem test_hyp_HedgelineCommandsComplete_4 : ∃ s : State, ∃ port, ∃ dst, ∃ src, ∃ lseq, ∃ tally, ∃ gate, ∃ offset, ∃ bin, ∃ xfer, ∃ ctr,
    ∃ body : List Byte, ∃ q,
    let x : HlPacket := ⟨1, dst % 8, src % 8, lseq, tally % 1024, gate % 64, offset, bin % 8, 0, xfer, ctr, body⟩
    ∃ u, (s.arrive port x true = (.consume, u)) ∧ ∃ r, (u.takeGrain port x = r) ∧ (r.2.route (src % 8) = some q) :=
  ⟨hlUp, 1, 0, 2, 7, 9, 32, 3, 1, 4, 1, ([] : List Byte), 1, _, pair_of (by decide +kernel), _, rfl, by decide +kernel⟩

theorem test_hyp_HedgelineCommandsComplete_5 : ∃ s : State, ∃ port, ∃ dst, ∃ src, ∃ lseq, ∃ xfer, ∃ offset, ∃ code,
    ∃ u, (s.arrive port ⟨2, dst % 8, src % 8, lseq, 0, 0, offset, 0, code, xfer, 0, []⟩ true = (.consume, u)) :=
  ⟨hlUp, 1, 0, 2, 7, 9, 3, 1, _, pair_of (by decide +kernel)⟩

theorem test_hyp_HedgelineCommandsComplete_6 : ∃ s : State, ∃ port, (s.portUp port = true) :=
  ⟨hlUp, 1, by decide +kernel⟩

theorem test_hyp_HedgelineCommandsComplete_7 : ∃ s : State, ∃ port, ∃ lseq, ∃ x, ∃ n, (s.portUp port = true) ∧
    ((s.hlPort port).replay.find? (fun e => decide (e.1.lseq = lseq)) = some (x, n)) ∧ (n < 16) :=
  ⟨({ hlUp with hedge := { hlUp.hedge with ports := [(1, ⟨0, [(sent0, 2)], [], 4, true⟩)] } }), 1, 6, sent0, 2, by decide +kernel,
    by decide +kernel, by decide +kernel⟩

theorem test_hyp_HedgelineCommandsComplete_8 : ∃ s : State, ∃ xfer, ∃ grain, ∃ at_ : Nat, ∃ t,
    ∃ o : OutGrain, (s.hedge.transfers.find? (fun t => decide (t.xfer = xfer)) = some t) ∧
    (t.out.find? (fun o => decide (o.grain = grain)) = some o) ∧ (o.at_ + s.obj .hlReplyTimeout 0 * 1000 ≤ (s.reach at_).time) :=
  ⟨({ hlUp with hedge := { hlUp.hedge with transfers := [transfer0] } }), 9, 1, 50000000, transfer0, (⟨1, 0, 1, 100⟩ : OutGrain),
    by decide +kernel, by decide +kernel, by decide +kernel⟩

theorem test_hyp_HedgelineCommandsComplete_9 : ∃ s : State, (s.isMaster = true) :=
  ⟨(hlUp.setObj .master 0 1), by decide +kernel⟩

theorem test_hyp_HedgelineCommandsComplete_10 : ∃ s : State, ∃ port, ∃ src, ∃ lseq, ∃ stamp, ∃ at_ : Nat, (s.isMaster = false) ∧
    let x : HlPacket := ⟨4, s.cascadeId, src % 8, lseq, 0, 0, 0, 0, 0, 0, 0, natLe 8 stamp⟩
    ∃ u, ((s.reach at_).arrive port x true = (.consume, u)) ∧ (u.isMaster = false) :=
  ⟨hlUp, 1, 2, 7, 5000, 700, by decide +kernel, _, pair_of (by decide +kernel), by decide +kernel⟩

theorem test_hyp_HedgelineCommandsComplete_11 : ∃ s : State, ∃ at_ : Nat, (s.isMaster = false) ∧ (s.hedge.lastSync + 10000000 ≤ (s.reach at_).time) :=
  ⟨hlUp, 20000000, by decide +kernel, by decide +kernel⟩

theorem test_hyp_HedgelineCommandsComplete_12 : ∃ s : State, ((s.isMaster = true → s.obj .cascadeWakeAll 0 = 1)) :=
  ⟨hlUp, by decide +kernel⟩

theorem test_hyp_HedgelineCommandsComplete_13 : ∃ s : State, ∃ dst, (s.isMaster = true) ∧ (1 ≤ dst) ∧ (dst ≤ 7) :=
  ⟨(hlUp.setObj .master 0 1), 3, by decide +kernel, by decide +kernel, by decide +kernel⟩

theorem test_hyp_HedgelineCommandsComplete_14 : ∃ s : State, ∃ port, ∃ dst, ∃ src, ∃ lseq, ∃ frame : List Byte,
    ∃ u, (s.arrive port ⟨5, dst % 8, src % 8, lseq, 0, 0, 0, 0, 0, 0, 0, frame⟩ true = (.consume, u)) ∧ (u.isMaster = true) :=
  ⟨(hlUp.setObj .master 0 1), 1, 0, 2, 7, ([1#8] : List Byte), _, pair_of (by decide +kernel), by decide +kernel⟩

theorem test_hyp_HedgelineCommandsComplete_15 : ∃ s : State, ∃ port, (s.portCarries port = true) :=
  ⟨hlUp, 1, by decide +kernel⟩

theorem test_hyp_ReeveCommandsComplete_0 : ∃ s : State, ∃ temps : List (Option Int), ∃ pouts : List (Option Nat), ∃ status : List Nat,
    ∃ vout : Nat, ∃ margins : List Nat, ∃ ces : List Nat, ∃ ues : List Nat, ∃ at_ : Nat, (s.flag .rvStatusReady 0 = true) :=
  ⟨up, ([some 300, none] : List (Option Int)), ([some 1000] : List (Option Nat)), ([] : List Nat), 0, ([] : List Nat), ([] : List Nat), ([] : List Nat), 700, by decide +kernel⟩

theorem test_hyp_ReeveCommandsComplete_2 : ∃ s : State, (s.flag .rvStatusReady 0 = true) :=
  ⟨({ up with log := { up.log with buf := [⟨1, 2, 3, 4, 5, 6, 7, 8⟩] } }), by decide +kernel⟩

theorem test_hyp_ReeveCommandsComplete_3 : ∃ s : State, (s.updStage = 0) ∧ (1 ≤ s.obj .updKind 0) ∧ (s.obj .updKind 0 ≤ 4) ∧
    (s.obj .updLen 0 ≤ slotSize (s.obj .updKind 0)) :=
  ⟨((up.setObj .updKind 0 2).setObj .updLen 0 4096), by decide +kernel, by decide +kernel, by decide +kernel, by decide +kernel⟩

theorem test_hyp_ReeveCommandsComplete_4 : ∃ s : State, ∃ bytes : List Byte, (s.updStage = 1) ∧ (bytes.length ≤ 65536) ∧
    (s.upd.staged.length + bytes.length ≤ 32 * 2 ^ 20) :=
  ⟨({ up.setFld .rvStatusUpd 0 1 with upd := ⟨2, 4096, [1#8]⟩ }), ([2#8, 3#8] : List Byte), by decide +kernel, by decide +kernel, by decide +kernel⟩

theorem test_hyp_ReeveCommandsComplete_5 : ∃ s : State, (s.updStage = 1) :=
  ⟨(up.setFld .rvStatusUpd 0 1), by decide +kernel⟩

theorem test_hyp_ReeveCommandsComplete_6 : ∃ s : State, (s.updStage ≠ 0) :=
  ⟨({ up.setFld .rvStatusUpd 0 1 with upd := ⟨2, 4096, [1#8]⟩ }), by decide +kernel⟩

theorem test_hyp_ReeveCommandsComplete_8 : ∃ s : State, (s.updStage = 2) ∧ (s.upd.staged.length = s.upd.len) :=
  ⟨({ up.setFld .rvStatusUpd 0 2 with upd := ⟨2, 1, [1#8]⟩ }), by decide +kernel, by decide +kernel⟩

theorem test_hyp_ReeveCommandsComplete_9 : ∃ s : State, (s.updStage = 3) :=
  ⟨({ up.setFld .rvStatusUpd 0 3 with upd := ⟨2, 1, [1#8]⟩ }), by decide +kernel⟩

theorem test_hyp_ReeveCommandsComplete_10 : ∃ s : State, (s.updStage = 4) :=
  ⟨({ up.setFld .rvStatusUpd 0 4 with upd := ⟨2, 1, [1#8]⟩ }), by decide +kernel⟩

theorem test_hyp_PowerCommandsComplete_0 : ∃ s : State, (s.mayDeepen 0 = true) ∧ (s.pwrState = 0) ∧ ((∀ c < 8, (s.core c).inflight = [])) ∧
    (s.hedge.transfers = []) :=
  ⟨((up.setObj .pwrDeepest 0 3)), by decide +kernel, by decide +kernel, by decide +kernel, by decide +kernel⟩

theorem test_hyp_PowerCommandsComplete_1 : ∃ s : State, (s.mayDeepen 1 = true) ∧ (s.pwrState ≤ 1) ∧ (s.obj .dozeTimerMs 0 ≠ 0) ∧ (s.noWork = true) :=
  ⟨((up.setObj .pwrDeepest 0 3).setObj .dozeTimerMs 0 5), by decide +kernel, by decide +kernel, by decide +kernel, by decide +kernel⟩

theorem test_hyp_PowerCommandsComplete_2 : ∃ s : State, (s.mayDeepen 2 = true) ∧ (s.pwrState = 2) ∧ (s.obj .restTimerS 0 ≠ 0) ∧
    (s.noWork = true) ∧ (s.keepsUp = false) ∧ (s.pwr.wakes = []) ∧ (s.updHolds = false) :=
  ⟨((up.setObj .pwrDeepest 0 3).setObj .restTimerS 0 5 |>.setFld .pwrStatusState 0 2), by decide +kernel, by decide +kernel,
    by decide +kernel, by decide +kernel, by decide +kernel, by decide +kernel, by decide +kernel⟩

theorem test_hyp_PowerCommandsComplete_3 : ∃ s : State, (s.mayDeepen 3 = true) ∧ (s.pwrState = 3) ∧ (s.obj .listenTimerS 0 ≠ 0) ∧
    (s.nfault = false) ∧ (s.fld .secStatusLevel 0 = 0) ∧ (s.pwr.wakes = []) ∧ (s.updHolds = false) :=
  ⟨((up.setObj .pwrDeepest 0 3).setObj .listenTimerS 0 5 |>.setFld .pwrStatusState 0 3), by decide +kernel, by decide +kernel,
    by decide +kernel, by decide +kernel, by decide +kernel, by decide +kernel, by decide +kernel⟩

theorem test_hyp_PowerCommandsComplete_4 : ∃ s : State, (s.entering = true) ∧ ((s.pwr.target = 3 → s.frameOpen = false)) :=
  ⟨({ up.setFld .pwrStatusEntering 0 1 with pwr := { up.pwr with target := 3 } }), by decide +kernel, by decide +kernel⟩

theorem test_hyp_PowerCommandsComplete_5 : ∃ s : State, (s.resuming = true) ∧ (s.resumed = true) :=
  ⟨(up.setFld .pwrStatusResuming 0 1), by decide +kernel, by decide +kernel⟩

theorem test_hyp_PowerCommandsComplete_6 : ∃ s : State, ∃ at_ : Nat, (s.pwr.alarmSet = true) ∧ (s.obj .wakeAlarm 0 ≠ 0) ∧
    (s.obj .wakeAlarm 0 ≤ (s.reach at_).time) :=
  ⟨({ up.setObj .wakeAlarm 0 500 with pwr := { up.pwr with alarmSet := true } }), 700, by decide +kernel, by decide +kernel, by decide +kernel⟩

theorem test_hyp_PowerCommandsComplete_7 : ∃ s : State, ∃ at_ : Nat, ∃ d, ∃ r : List Nat,
    let u := s.reach at_
    (s.pwr.queue = d :: r) ∧ (s.flag .pwrStatusRegOk 0 = true) ∧ (weightOf d * 10000 ≤ u.bucket) ∧
    ((s.pwr.lastStart = 0 ∨ s.pwr.lastStart - 1 + 2000 ≤ u.time)) :=
  ⟨({ up with pwr := { up.pwr with queue := [31, 32], level := 1000000 } }), 7000000, 31, ([32] : List Nat), by decide +kernel,
    by decide +kernel, by decide +kernel, by decide +kernel⟩

theorem test_hyp_PowerCommandsComplete_8 : ∃ s : State, ∃ domain, (s.pwr.started.contains domain = true) :=
  ⟨({ up.setFld .pwrPg1Pg 0 0 with pwr := { up.pwr with started := [40] } }), 40, by decide +kernel⟩

theorem test_hyp_PowerCommandsComplete_9 : ∃ s : State, ∃ domain, ∃ at_ : Nat,
    let since := SMap.get s.pwr.leaving domain 0
    (since ≠ 0) ∧ (since - 1 + 1000000 ≤ (s.reach at_).time) ∧ (s.resuming = false) ∧ (s.wanted s.pwrState domain = false) :=
  ⟨({ up with pwr := { up.pwr with leaving := [(12, 1)], allNeeds := false } }), 12, 2000000, by decide +kernel, by decide +kernel,
    by decide +kernel, by decide +kernel⟩

theorem test_hyp_PowerCommandsComplete_10 : ∃ s : State, (s.pwr.regTry = true) ∧ (s.boot.stage ≠ .powering) :=
  ⟨({ up with pwr := { up.pwr with regTry := true } }), by decide +kernel, by decide +kernel⟩

theorem test_hyp_PowerCommandsComplete_11 : ∃ s : State, (s.pwr.regTry = true) :=
  ⟨({ up with pwr := { up.pwr with regTry := true } }), by decide +kernel⟩

theorem test_hyp_PowerCommandsComplete_12 : ∃ s : State, (s.resuming = true) ∧ (s.pwr.wakes ≠ []) :=
  ⟨({ up.setFlds 0 [(.pwrStatusResuming, 1), (.pwrStatusRegOk, 0)] with pwr := { up.pwr with wakes := [⟨2, 5, 1⟩] } }), by decide +kernel,
    by decide +kernel⟩

theorem test_hyp_ClockCommandsComplete_0 : ∃ s : State, ∃ core, ∃ src,
    let u := s.setFlds 0 [(.clkTcselCore, core), (.clkTcselSrc, src)]
    (core < 8) ∧ (src < 2) ∧ (u.locked src = true) ∧ ((∀ x ∈ s.clk.switches, x.1 ≠ core)) :=
  ⟨((up.setLock 1 true)), 2, 1, by decide +kernel, by decide +kernel, by decide +kernel, by decide +kernel⟩

theorem test_hyp_ClockCommandsComplete_1 : ∃ s : State, ∃ c, ∃ src, (s.flag .clkStatusHeld 0 = false) ∧ (s.nextSwitch = some (c, src)) :=
  ⟨({ up with clk := { up.clk with switches := [(2, 1)] } }), 2, 1, by decide +kernel, by decide +kernel⟩

theorem test_hyp_ClockCommandsComplete_2 : ∃ s : State, ∃ pll, ((pllDomains pll).any s.powerGood = true) ∧ (pll < 11) ∧
    (bit s.clk.failing (5 + pll) = false) :=
  ⟨up, 3, by decide +kernel, by decide +kernel, by decide +kernel⟩

theorem test_hyp_ClockCommandsComplete_3 : ∃ s : State, ∃ source, (source < 3) ∧ (s.boot.stage ≠ .off) ∧ (s.flag .clkStatusHeld 0 = false) ∧
    (s.pwrState ≠ 4) :=
  ⟨up, 1, by decide +kernel, by decide +kernel, by decide +kernel, by decide +kernel⟩

theorem test_hyp_ClockCommandsComplete_4 : ∃ s : State, ∃ sources, ∃ at_ : Nat,
    let left := (List.range 16).foldl (fun m i => if bit sources i then setBits m i i 0 else m) s.clk.failing
    (s.flag .clkStatusHeld 0 = true) ∧ (left = 0) ∧ (s.clk.gaveUp = false) ∧ (s.flag .rvStatusReady 0 = true) ∧
    ((s.reach at_).time ≤ s.clk.heldAt + s.obj .clkReturnMs 0 * 1000000) :=
  ⟨({ up.setFld .clkStatusHeld 0 1 with clk := { up.clk with failing := 2 } }), 2, 700, by decide +kernel, by decide +kernel,
    by decide +kernel, by decide +kernel, by decide +kernel⟩

theorem test_hyp_ClockCommandsComplete_5 : ∃ s : State, ∃ at_ : Nat, (s.flag .clkStatusHeld 0 = true) ∧ (s.clk.failing ≠ 0) ∧
    (s.clk.heldAt + s.obj .clkReturnMs 0 * 1000000 ≤ (s.reach at_).time) :=
  ⟨({ up.setFld .clkStatusHeld 0 1 with clk := { up.clk with failing := 2 } }), 70000000000, by decide +kernel, by decide +kernel, by decide +kernel⟩

theorem test_hyp_ClockCommandsComplete_6 : ∃ s : State,
    ∃ value, ((∀ b < 15, bit (s.fld .clkEnEn 0) b = true → bit value b = false → ∀ d, enableDomain b = some d → s.needOf d = false)) :=
  ⟨up, 0xFFFF, by decide +kernel⟩

theorem test_hyp_ClockCommandsComplete_7 : ∃ highest, (420 ≤ highest) :=
  ⟨430, by decide +kernel⟩

theorem test_hyp_ClockCommandsComplete_8 : ∃ s : State, ∃ reading, ∃ since, ∃ at_ : Nat, (460 ≤ reading) ∧ (since + 10000 ≤ (s.reach at_).time) ∧
    (s.boot.stage ≠ .off) :=
  ⟨up, 470, 100, 70000, by decide +kernel, by decide +kernel, by decide +kernel⟩

theorem test_hyp_ResetCommandsComplete_1 : ∃ s : State, ∃ buttons, (s.boot.stage = .held) ∧ (s.boot.holds = 1) ∧ (buttons % 4 ≠ 3) :=
  ⟨State.reset, 5, by decide +kernel, by decide +kernel, by decide +kernel⟩

theorem test_hyp_ResetCommandsComplete_2 : ∃ s : State, ∃ at_ : Nat, (s.boot.stage = .buttons) ∧ (s.fld .doorStatusBtn 0 % 4 = 3) ∧
    (s.boot.startAt + 8000000000 ≤ (s.reach at_).time) :=
  ⟨({ (up.setFld .doorStatusBtn 0 3) with boot := { up.boot with stage := .buttons } }), 9000000000, by decide +kernel, by decide +kernel,
    by decide +kernel⟩

theorem test_hyp_ResetCommandsComplete_8 : ∃ s : State, ∃ part, (part < 8) ∧ (s.partActive part = true) :=
  ⟨upPart, 0, by decide +kernel, by decide +kernel⟩

theorem test_hyp_ResetCommandsComplete_9 : ∃ s : State, (s.boot.stage = .warm) :=
  ⟨({ up with boot := { up.boot with stage := .warm } }), by decide +kernel⟩

theorem test_hyp_ResetCommandsComplete_10 : ∃ s : State, (s.boot.stage ≠ .off) ∧ (s.flag .pwrStatusRegOk 0 = true) ∧ (s.boot.holds = 0) :=
  ⟨up, by decide +kernel, by decide +kernel, by decide +kernel⟩

theorem test_hyp_ResetCommandsComplete_12 : ∃ s : State, (s.boot.stage = .powering) ∧ (s.powerGood 47 = true) ∧ (s.flag .secStatusRootOk 0 = false) :=
  ⟨({ up.setFld .secStatusRootOk 0 0 with boot := { up.boot with stage := .powering } }), by decide +kernel, by decide +kernel, by decide +kernel⟩

theorem test_hyp_ResetCommandsComplete_13 : ∃ s : State, ∃ slot, (s.boot.stage = .rom) ∧ (s.boot.recovery = false) ∧ (slot < 2) ∧
    (s.boot.tripLog = false) :=
  ⟨({ up.setFld .rvStatusReady 0 0 with boot := { up.boot with stage := .rom } }), 1, by decide +kernel, by decide +kernel, by decide +kernel,
    by decide +kernel⟩

theorem test_hyp_ResetCommandsComplete_14 : ∃ s : State, (s.flag .rvStatusReady 0 = true) :=
  ⟨up, by decide +kernel⟩

theorem test_hyp_ResetCommandsComplete_15 : ∃ s : State, ∃ slot, (s.boot.stage = .reeve) ∧ (s.flag .mcStatusReady 0 = true) ∧
    ((s.ring 0).isOpen = true) ∧ (slot < 2) :=
  ⟨({ up.setRing 0 ⟨true, 0, true, 9, 1, 1, 0⟩ with boot := { up.boot with stage := .reeve } }), 1, by decide +kernel, by decide +kernel,
    by decide +kernel, by decide +kernel⟩

theorem test_hyp_RegisterCommandsComplete_0 : ∃ s : State, ∃ addr, ∃ value, ∃ secure : Bool, ∃ x : RegAt,
    let fs := Fld.all.filter (fun f => f.inWord x.reg x.word)
    let t := fs.foldl (fun (t : State) f => t.writeFld f x.inst x.word value) s
    (s.addrReserved addr = false) ∧ (addr % 4 = 0) ∧ (windowAt addr = none) ∧ (regAt addr = some x) ∧
    ((∀ f ∈ fs, worldAllows (s.fldWorld f x.inst value) true secure = true)) ∧ ((∀ b, x.reg.block x.inst = some b → s.clocked b = true)) ∧
    (t.cfgRefused x = false) ∧ (¬ (x.reg = .lgCmd ∧ bit value 31 = true ∧ 4 ≤ bits value 19 16)) :=
  ⟨up, 0x0330004C, 5, false, (⟨.audTrim, 3, 0⟩ : RegAt), by decide +kernel, by decide +kernel, by decide +kernel, by decide +kernel,
    by decide +kernel, by decide +kernel, by decide +kernel, by decide +kernel⟩

theorem test_hyp_RegisterCommandsComplete_1 : ∃ s : State, ∃ addr, ∃ secure : Bool, ∃ x : RegAt, (s.addrReserved addr = false) ∧ (addr % 4 = 0) ∧
    (windowAt addr = none) ∧ (regAt addr = some x) ∧ (s.refusedFld x (s.wordNow x) false secure = none) ∧
    ((∀ b, x.reg.block x.inst = some b → s.clocked b = true)) :=
  ⟨up, 0x0330004C, false, (⟨.audTrim, 3, 0⟩ : RegAt), by decide +kernel, by decide +kernel, by decide +kernel, by decide +kernel,
    by decide +kernel, by decide +kernel⟩

theorem test_hyp_RegisterCommandsComplete_2 : ∃ addr, ∃ secure : Bool, ∃ ch : Nat, ∃ i, (addr % 4 = 0) ∧ (windowAt addr = some (ch, i)) ∧
    ((8 ≤ ch → secure = true)) :=
  ⟨0x01008044, true, 8, 4, by decide +kernel, by decide +kernel, by decide +kernel⟩

theorem test_hyp_RegisterCommandsComplete_3 : ∃ s : State, ∃ addr, (s.addrReserved addr = true) :=
  ⟨up, 0x05000000, by decide +kernel⟩

theorem test_hyp_RegisterCommandsComplete_4 : ∃ which, (which < 6) :=
  ⟨1, by decide +kernel⟩

theorem test_hyp_GrainPlacementIsBijective_0 : ∃ g, (g < binGrains) :=
  ⟨98303, by decide +kernel⟩

theorem test_hyp_GrainPlacementIsBijective_1 : ∃ g, (g < binGrains) :=
  ⟨98303, by decide +kernel⟩

theorem test_hyp_GrainPlacementIsBijective_2 : ∃ g, (g < binGrains) ∧ ∃ h, (h < binGrains) ∧ (placeGrain g = placeGrain h) :=
  ⟨98303, by decide +kernel, 98303, by decide +kernel, by decide +kernel⟩

theorem test_hyp_GrainPlacementIsBijective_3 : ∃ bank, (bank < 48) ∧ ∃ row, (row < 2048) :=
  ⟨47, by decide +kernel, 2047, by decide +kernel⟩

theorem test_hyp_GrainPlacementIsBijective_4 : ∃ a, (16 * a + 48 ≤ binGrains) ∧ ∃ i, (i < 48) ∧ ∃ j, (j < 48) ∧
    ((placeGrain (16 * a + i)).1 = (placeGrain (16 * a + j)).1) :=
  ⟨6141, by decide +kernel, 47, by decide +kernel, 47, by decide +kernel, by decide +kernel⟩

theorem test_hyp_GrainPlacementIsBijective_5 : ∃ g, (g < 32768) ∧ ∃ i, (i < 3) ∧ ∃ j, (j < 3) ∧
    ((placeGrain (i * 32768 + g)).1 / 16 = (placeGrain (j * 32768 + g)).1 / 16) :=
  ⟨32767, by decide +kernel, 2, by decide +kernel, 2, by decide +kernel, by decide +kernel⟩

theorem test_hyp_GrainPlacementIsBijective_6 : ∃ k, (k < 16) :=
  ⟨15, by decide +kernel⟩

theorem test_hyp_GrainPlacementIsBijective_7 : ∃ k, (k < 16) ∧ ∃ l, (l < 16) ∧ ((placeGrain (256 * k)).1 = (placeGrain (256 * l)).1) :=
  ⟨15, by decide +kernel, 15, by decide +kernel, by decide +kernel⟩

theorem test_hyp_SlotMapKeepsFourSlotsFree_0 : ∃ s : State, ∃ bin, ∃ word, ∃ value,
    let old := s.slotMap bin
    let m : SlotMap := if word = 0 then { old with en := value % 65536 } else if word = 1 then { old with map0 := value % 2 ^ 32 } else { old with map1 := value % 2 ^ 32 }
    (m.ok = false) :=
  ⟨up, 7, 0, 0x1FFF, by decide +kernel⟩

theorem test_hyp_SlotMapKeepsFourSlotsFree_1 : ∃ s : State, ∃ bin, ∃ word, ∃ value, ∃ secure : Bool, ∃ t : State, (bin < 8) ∧
    ((s.slotMap bin).ok = true) ∧ (s.fld .binSlotenEn bin < 2 ^ 16) ∧ ((∀ k < 2, s.fld .binSlotmapSlot (bin * 2 + k) < 2 ^ 32)) ∧
    (exec (.slotMapWrite bin word value secure) s = .next t) :=
  ⟨up, 7, 1, 0x98765432, true, (got (exec (.slotMapWrite 7 1 0x98765432 true) up)), by decide +kernel, by decide +kernel, by decide +kernel,
    by decide +kernel, by exact next_of (by decide +kernel)⟩

theorem test_hyp_BinWriteReadsBack_0 : ∃ s : State, ∃ bin, ∃ init, ∃ secure : Bool, ∃ off, ∃ data : List Byte, (s.calm = true) ∧
    (BinServes s (unitReq init secure) true bin ((grainsOfRun off data.length).map (·.1))) ∧
    ((∀ g ∈ (grainsOfRun off data.length).map (·.1), GrainGood s bin g)) :=
  ⟨bad0, 7, 3, true, 25165700, (List.replicate 124 7#8), by decide +kernel, by unfold BinServes; decide +kernel, by unfold GrainGood; decide +kernel⟩

theorem test_hyp_BinAccessFrame_0 : ∃ s : State, ∃ bin, ∃ port, ∃ init, ∃ secure : Bool, ∃ write, ∃ off, ∃ len, ∃ data : List Byte, ∃ tally,
    ∃ obs : List Obs, ∃ t : State, (s.calm = true) ∧ (bin < 8) ∧ ((∀ k ∈ tally, k < 1024)) ∧
    (exec (.binPortAccess bin port init secure write off len data tally obs) s = .next t) :=
  ⟨bad0, 7, 0, 3, true, true, 25165700, 124, (List.replicate 124 7#8), (some 1023), ([] : List Obs), (got (exec (.binPortAccess 7 0 3 true true 25165700 124 (List.replicate 124 7#8) (some 1023) []) bad0)), by decide +kernel, by decide +kernel, by decide +kernel, by exact next_of (by decide +kernel)⟩

theorem test_hyp_RefusedBinAccessChangesNoBin_0 : ∃ s : State, ∃ bin, ∃ init, ∃ secure : Bool, ∃ write, ∃ off, ∃ data : List Byte, ∃ g,
    let gs := (grainsOfRun off data.length).map (·.1)
    (bin < 8) ∧ (s.binReady bin = true) ∧ ((∀ x ∈ gs, x < binGrains)) ∧ (g ∈ gs) ∧ (s.allowed (unitReq init secure) write (bin + 1) g = false) :=
  ⟨bad0, 7, 3, false, true, 25165700, (List.replicate 124 7#8), 98303, by decide +kernel, by decide +kernel, by decide +kernel,
    by decide +kernel, by decide +kernel⟩

theorem test_hyp_PoisonedGrainFailsUntilWholeWrite_0 : ∃ s : State, ∃ bin, ∃ init, ∃ secure : Bool, ∃ off, ∃ len, ∃ g, (bin < 8) ∧
    (BinServes s (unitReq init secure) false bin ((grainsOfRun off len).map (·.1))) ∧ (g ∈ (grainsOfRun off len).map (·.1)) ∧
    (s.poisoned bin g = true) :=
  ⟨bad1, 7, 3, true, 25165700, 124, 98303, by decide +kernel, by unfold BinServes; decide +kernel, by decide +kernel, by decide +kernel⟩

theorem test_hyp_PoisonedGrainFailsUntilWholeWrite_1 : ∃ s : State, ∃ bin, ∃ init, ∃ secure : Bool, ∃ off, ∃ data : List Byte, ∃ g, (bin < 8) ∧
    (BinServes s (unitReq init secure) true bin ((grainsOfRun off data.length).map (·.1))) ∧ ((g, false) ∈ grainsOfRun off data.length) ∧
    (s.poisoned bin g = true) :=
  ⟨bad1, 7, 3, true, 25165700, (List.replicate 124 7#8), 98303, by decide +kernel, by unfold BinServes; decide +kernel, by decide +kernel,
    by decide +kernel⟩

theorem test_hyp_PoisonedGrainFailsUntilWholeWrite_2 : ∃ s : State, ∃ bin, ∃ init, ∃ secure : Bool, ∃ data : List Byte, ∃ g, (s.calm = true) ∧
    (data.length = 256) ∧ (BinServes s (unitReq init secure) true bin [g]) :=
  ⟨bad1, 7, 3, true, (List.replicate 256 7#8), 98303, by decide +kernel, by decide +kernel, by unfold BinServes; decide +kernel⟩

theorem test_hyp_TalliesCountAndSaturate_1 : ∃ bin, ∃ tally, ∃ b, ∃ k, (b * 1024 + k ≠ bin * 1024 + tally) :=
  ⟨0, 1023, 1, 0, by decide +kernel⟩

theorem test_hyp_TalliesCountAndSaturate_2 : ∃ s : State, ∃ tally, ∃ secure : Bool, (s.calm = true) ∧ (tally < 1024) ∧
    ((tallySecure tally = true → secure = true)) :=
  ⟨up, 1023, true, by decide +kernel, by decide +kernel, by decide +kernel⟩

theorem test_hyp_TalliesCountAndSaturate_3 : ∃ tally, (512 ≤ tally) ∧ (tally < 1024) :=
  ⟨512, by decide +kernel, by decide +kernel⟩

theorem test_hyp_RegionsDecideAccess_0 : ∃ s : State, ∃ space, ∃ unit, ((∀ e ∈ s.sec.regions, ¬ (e.2.en = true ∧ e.2.space = space ∧
    e.2.base ≤ unit ∧ unit ≤ e.2.limit))) :=
  ⟨reg1, 2, 101, by decide +kernel⟩

theorem test_hyp_RegionsDecideAccess_1 : ∃ s : State, ∃ q, ∃ write, ∃ space, ∃ unit, (q.secure = false) ∧ (s.unitModel space unit = false) ∧
    (s.allowed q write space unit = true) :=
  ⟨reg1, (unitReq 3 false), true, 2, 100, by decide +kernel, by decide +kernel, by decide +kernel⟩

theorem test_hyp_RegionsDecideAccess_2 : ∃ s : State, ∃ q : Requester, ∃ write, ∃ space, ∃ unit, (s.unitModel space unit = true) ∧
    (s.allowed q write space unit = true) :=
  ⟨reg1, ({ unitReq 0x16 true with fromModel := false } : Requester), true, 0, 9, by decide +kernel, by decide +kernel⟩

theorem test_hyp_RegionsDecideAccess_3 : ∃ s : State, ∃ q : Requester, ∃ space, ∃ unit, (q.fromModel = true) ∧ (s.allowed q true space unit = true) :=
  ⟨reg1, ({ unitReq 4 true with fromModel := true } : Requester), 0, 9, by decide +kernel, by decide +kernel⟩

theorem test_hyp_KeySlotsAreZeroed_1 : ∃ s : State, (s.boot.stage = .run) :=
  ⟨(linked up), by decide +kernel⟩

theorem test_hyp_KeySlotsAreZeroed_2 : ∃ s : State, (s.boot.stage = .run) :=
  ⟨(linked up), by decide +kernel⟩

theorem test_hyp_KeySlotsAreZeroed_3 : ∃ s : State, (s.mayDeepen 3 = true) ∧ (s.pwrState = 3) ∧ (s.obj .listenTimerS 0 ≠ 0) ∧
    (s.nfault = false) ∧ (s.fld .secStatusLevel 0 = 0) ∧ (s.pwr.wakes = []) ∧ (s.updHolds = false) :=
  ⟨((linked up).setFld .pwrStatusState 0 3), by decide +kernel, by decide +kernel, by decide +kernel, by decide +kernel, by decide +kernel,
    by decide +kernel, by decide +kernel⟩

theorem test_hyp_KeySlotsAreZeroed_4 : ∃ s : State, ∃ level, (s.sec.unlocking = some level) ∧ (s.sec.unwrap = none) :=
  ⟨{ linked up with sec := { (linked up).sec with unlocking := some 2 } }, 2, by decide +kernel, by decide +kernel⟩

theorem test_hyp_NarrowingReadsBack_0 : ∃ f, (f ∈ [fmtE4M3, fmtE5M2, fmtBF16, fmtFP16, fmtFP32]) ∧ ∃ w, (w < 2 ^ (1 + f.ebits + f.mbits)) ∧
    (f.decode w ≠ .nan) :=
  ⟨fmtFP32, by decide +kernel, 0xFF800000, by decide +kernel, by decide +kernel⟩

theorem test_hyp_LeaseGenerationIsNextFree_0 : ∃ used : List Nat, (used.length < 4095) :=
  ⟨([1, 2] : List Nat), by decide +kernel⟩

theorem test_hyp_LeaseGenerationIsNextFree_1 : ∃ cells : List (Nat × Nat), ∃ hearth, ((∀ x ∈ cells, x.2 < 4)) ∧ (hearth < 4) :=
  ⟨([(7, 3)] : List (Nat × Nat)), 3, by decide +kernel, by decide +kernel⟩

theorem test_hyp_AckSetsRetired_0 : ∃ s : State, ∃ r, ∃ a, (a < (s.ring r).nextSeq) :=
  ⟨heardBy, 5, 5, by decide +kernel⟩

theorem test_hyp_AckSetsRetired_1 : ∃ s : State, ∃ r, ∃ a, ((s.ring r).nextSeq ≤ a) :=
  ⟨heardBy, 5, 6, by decide +kernel⟩

theorem test_hyp_AckSetsRetired_2 : ∃ s : State, ∃ r, (r < 4096) ∧ ((s.ring r).isOpen = true) :=
  ⟨heardBy, 5, by decide +kernel, by decide +kernel⟩

theorem test_hyp_AckSetsRetired_3 : ∃ s : State, ∃ ch : Nat, ∃ last, ∃ secure : Bool, ∃ at_ : Nat, (ch < 16) ∧ ((8 ≤ ch → secure = true)) ∧
    let u := (s.reach at_).setFlds ch [(.chCmdOp, 11), (.chCmdLast, b2n last)]
    ∃ r, (u.ringAt (u.fld .chObjIndex ch) (decide (8 ≤ ch)) = .ok r) :=
  ⟨((heardBy.setFld .chObjIndex 15 0x1005).setFld .chSeqSeq 15 3), 15, true, true, 600, by decide +kernel, by decide +kernel, 5,
    by first | decide +kernel | exact ok_of (d := ([], [])) (by decide +kernel) (by decide +kernel) | exact ok_pair_of (d := []) (by decide +kernel) (by decide +kernel) (by decide +kernel) | exact ok_pair_of (d := (⟨[], 0, 0⟩ : HpSlot)) (by decide +kernel) (by decide +kernel) (by decide +kernel) | exact ok_pair (by decide +kernel) | rfl⟩

theorem test_hyp_PublicationAdvancesTheRing_0 : ∃ s : State, ∃ r, ∃ subject, ∃ evidence, ∃ cls, ∃ flags, ∃ code, ∃ payload : List Byte, ∃ due,
    let x := s.ring r
    let late := match due with | some d => b2n (decide (d < s.time)) | none => 0
    let bs := resultBytes x.nextSeq subject evidence s.time cls (flags / 2 * 2 + late) code payload
    (x.isOpen = true) ∧ ∃ u, (s.urWrite (unitReq 0x17 (x.secure || r == 0)) (x.store * 4096 + x.nextSeq % 4096 * 64) bs [] = (none, u)) :=
  ⟨(up.setRing 5 ⟨true, 9, true, 64, 6, 2, 0⟩), 5, 0, 0, 1, 0, 7, [], (some 3), by decide +kernel, _, pair_of (by decide +kernel)⟩

theorem test_hyp_PublicationAdvancesTheRing_1 : ∃ s : State, ∃ r, ((s.ring r).isOpen = false) :=
  ⟨heardBy, 6, by decide +kernel⟩

theorem test_hyp_HandlesNameTheirRecord_0 : ∃ s : State, ∃ slot, ∃ type, ∃ part, ∃ secure : Bool, ∃ body : Nat, (type < 256) ∧ (part < 8) ∧
    (slot < 4 * 65536) :=
  ⟨up, 262143, 255, 7, true, (12345 : Nat), by decide +kernel, by decide +kernel, by decide +kernel⟩

theorem test_hyp_GovernorIndexMovesOneStep_0 : ∃ index : Nat, ∃ riseAt : Nat, ∃ run : Nat, ∃ now : Nat, ∃ rise : Bool, ∃ fall : Bool,
    ∃ hold : Bool, (index ≤ 3) ∧ (run ≤ 100) :=
  ⟨(3 : Nat), (1 : Nat), (100 : Nat), (20000000 : Nat), (true : Bool), (false : Bool), (false : Bool), by decide +kernel, by decide +kernel⟩

theorem test_hyp_StartsKeepToTheInrushBudget_1 : ∃ s : State, ∃ t : State, ∃ at_ : Nat, (exec (.domainStart at_) s = .next t) ∧
    (t.pwr.started ≠ s.pwr.started) :=
  ⟨({ up with pwr := { up.pwr with queue := [3, 4] } } : State), (got (exec (.domainStart 90000000) ({ up with pwr := { up.pwr with queue := [3, 4] } } : State))), 90000000, by exact next_of (by decide +kernel), by decide +kernel⟩

theorem test_hyp_StartsKeepToTheInrushBudget_2 : ∃ s : State, ∃ t : State, ∃ at_ : Nat, (exec (.domainStart at_) s = .next t) :=
  ⟨({ up with pwr := { up.pwr with queue := [3, 4] } } : State), (got (exec (.domainStart 90000000) ({ up with pwr := { up.pwr with queue := [3, 4] } } : State))), 90000000, by exact next_of (by decide +kernel)⟩

theorem test_hyp_AnsweredRequestsAreNotRunAgain_0 : ∃ i, ∃ op, ∃ obs : List Obs, ∃ s : State, ∃ at_ : Nat, ∃ f, ∃ x : Session,
    ∃ a : Answer, ((i, op, obs) ∈ [(Instr.objectRead (.frame f) at_, 4, ([] : List Obs)), (.objectWrite (.frame f) at_, 5, []), (.readBlock (.frame f) at_, 6, []), (.writeBlock (.frame f) at_, 7, []), (.crierSubscribe f at_, 8, []), (.crierPull (.frame f) obs at_, 10, obs), (.crierAck (.frame f) at_, 11, []), (.crierClose f at_, 3, [])]) ∧ (FrameArrives (s.reach at_) op f) ∧ (s.session f.session = some x) ∧ (x.peer = framePeer f) ∧ (x.secure = false) ∧ (frameSecure f = false) ∧ (x.maxSeq.getD 0 ≤ f.seq + 64) ∧ (x.answers.find? (fun y => decide (y.seq = f.seq)) = some a) :=
  ⟨(.objectRead (.frame (frameOf 4 3 100 [5#8, 0#8, 0#8, 0#8])) 900), 4, ([] : List Obs), ({ heardBy with crier := { heardBy.crier with sessions := [(3, some { session0 with maxSeq := some 164, answers := [⟨100, 4, some [1#8]⟩] })] } } : State), 900, (frameOf 4 3 100 [5#8, 0#8, 0#8, 0#8]), ({ session0 with maxSeq := some 164, answers := [⟨100, 4, some [1#8]⟩] } : Session), (⟨100, 4, some [1#8]⟩ : Answer), by decide +kernel, by unfold FrameArrives; decide +kernel, by decide +kernel, by decide +kernel, by decide +kernel, by decide +kernel, by decide +kernel, by decide +kernel⟩

theorem test_hyp_AnsweredRequestsAreNotRunAgain_1 : ∃ s : State, ∃ at_ : Nat, ∃ f, ∃ x : Session, (FrameArrives (s.reach at_) 4 f) ∧
    (s.session f.session = some x) ∧ (x.peer = framePeer f) ∧ (x.secure = false) ∧ (frameSecure f = false) ∧ (f.seq + 64 < x.maxSeq.getD 0) :=
  ⟨({ heardBy with crier := { heardBy.crier with sessions := [(3, some { session0 with maxSeq := some 164, answers := [⟨100, 4, some [1#8]⟩] })] } } : State), 900, (frameOf 4 3 99 [5#8, 0#8, 0#8, 0#8]), ({ session0 with maxSeq := some 164, answers := [⟨100, 4, some [1#8]⟩] } : Session), by unfold FrameArrives; decide +kernel, by decide +kernel, by decide +kernel, by decide +kernel, by decide +kernel, by decide +kernel⟩

theorem test_hyp_StrapsAreSampledAtNporRelease_0 : ∃ s : State, (s.boot.stage = .held) ∧ (bit s.boot.holds 0 = true) :=
  ⟨State.reset, by decide +kernel, by decide +kernel⟩

theorem test_hyp_StrapsAreSampledAtNporRelease_1 : ∃ s : State, (bit s.boot.holds 0 = false) :=
  ⟨up, by decide +kernel⟩

theorem test_hyp_StrapsAreSampledAtNporRelease_2 : ∃ i, ∃ at_ : Nat, (i ∈ [Instr.nporLow at_, .vddAonInRemoved at_]) :=
  ⟨(.vddAonInRemoved 5), 5, by decide +kernel⟩

theorem test_hyp_ErrorLogKeepsTheFirst_0 : ∃ s : State, ∃ b, ∃ type, ∃ bank, ∃ row, ∃ port, (b < 8) ∧ (type < 8) ∧ (bank < 48) ∧ (row < 2048) ∧
    (port < 16) ∧ (s.flag .binErrlogValid b = false) :=
  ⟨up, 7, 7, 47, 2047, 15, by decide +kernel, by decide +kernel, by decide +kernel, by decide +kernel, by decide +kernel, by decide +kernel⟩

theorem test_hyp_ErrorLogKeepsTheFirst_1 : ∃ b, (b < 8) :=
  ⟨7, by decide +kernel⟩

/-! ### Clauses within a statement -/

/-- Gate 63 of Bin 1 is OPEN for the senders of SRCMASK 4, with 2 grains from grain 5 on and tally 600. -/
def gate0 : State :=
  up.setFlds 127 [(.binGateLen, 2), (.binGateTally, 600), (.binGateBase, 5), (.binGateState, 1), (.binGateSrcmask, 4)]
/-- The same for gate 1, a gate of the non-secure world, with tally 0. -/
def gate1 : State :=
  up.setFlds 65 [(.binGateLen, 2), (.binGateBase, 5), (.binGateState, 1), (.binGateSrcmask, 4)]

theorem test_hyp_GateArrivalChecksInOrder_a : up.fld .binGateState 127 ≠ 1 := by decide +kernel
theorem test_hyp_GateArrivalChecksInOrder_b : gate0.fld .binGateState 127 = 1 ∧ bit (gate0.fld .binGateSrcmask 127) 1 = false := by
  decide +kernel
theorem test_hyp_GateArrivalChecksInOrder_c :
    gate0.fld .binGateState 127 = 1 ∧ bit (gate0.fld .binGateSrcmask 127) 2 = true ∧ gate0.fld .binGateLen 127 ≤ 2 := by decide +kernel
theorem test_hyp_GateArrivalChecksInOrder_d :
    gate0.fld .binGateState 127 = 1 ∧ bit (gate0.fld .binGateSrcmask 127) 2 = true ∧ 1 < gate0.fld .binGateLen 127 ∧
      601 ≠ gate0.fld .binGateTally 127 := by decide +kernel
theorem test_hyp_GateArrivalChecksInOrder_e :
    (gate1.fld .binGateState 65 = 1 ∧ bit (gate1.fld .binGateSrcmask 65) 2 = true ∧ 1 < gate1.fld .binGateLen 65 ∧
      0 = gate1.fld .binGateTally 65) ∧ gate1.binReady 1 = true ∧ gate1.fld .binGateBase 65 + 1 < binGrains ∧
      gate1.allowed (unitReq 0x13 (gateSecure 1)) true (1 + 1) (gate1.fld .binGateBase 65 + 1) = false := by decide +kernel
theorem test_hyp_GateArrivalChecksInOrder_f :
    (gate0.fld .binGateState 127 = 1 ∧ bit (gate0.fld .binGateSrcmask 127) 2 = true ∧ 1 < gate0.fld .binGateLen 127 ∧
      600 = gate0.fld .binGateTally 127) ∧ BinServes gate0 (unitReq 0x13 (gateSecure 63)) true 1 [gate0.fld .binGateBase 127 + 1] ∧
      crc32c (List.replicate 256 9#8) ≠ crc32c (List.replicate 256 9#8) + 1#32 := by
  unfold BinServes; exact ⟨by decide +kernel, by decide +kernel, by generalize crc32c _ = c; bv_omega⟩
theorem test_hyp_GateArrivalChecksInOrder_g :
    (gate0.fld .binGateState 127 = 1 ∧ bit (gate0.fld .binGateSrcmask 127) 2 = true ∧ 0 < gate0.fld .binGateLen 127 ∧
      600 = gate0.fld .binGateTally 127) ∧ BinServes gate0 (unitReq 0x13 (gateSecure 63)) true 1 [gate0.fld .binGateBase 127 + 0] ∧
      ∃ w, crc32c (List.replicate 256 9#8) = w := by
  unfold BinServes; exact ⟨by decide +kernel, by decide +kernel, _, rfl⟩

/-- Watchdog window 31 opens 5 µs, closes 9 µs and ends 12 µs after it is armed; `t` ns have passed since then. -/
def window0 (t : Nat) : State := { up.setFlds 31 [(.wwOpen, 5), (.wwClose, 9), (.wwLimit, 12)] with time := 100 + t }

theorem test_hyp_KicksAreJudgedByTheWindow_a : ∀ t ∈ [5000, 9000], SMap.get (window0 t).safe.injectWw 31 false = false ∧
    (window0 t).fld .wwOpen 31 * 1000 ≤ (window0 t).time - 100 ∧ (window0 t).time - 100 ≤ (window0 t).fld .wwClose 31 * 1000 := by decide +kernel
theorem test_hyp_KicksAreJudgedByTheWindow_b : SMap.get (window0 4999).safe.injectWw 31 false = false ∧
    (window0 4999).time - 100 < (window0 4999).fld .wwOpen 31 * 1000 := by decide +kernel
theorem test_hyp_KicksAreJudgedByTheWindow_c : ∀ t ∈ [9001, 12000], SMap.get (window0 t).safe.injectWw 31 false = false ∧
    (window0 t).fld .wwOpen 31 * 1000 ≤ (window0 t).time - 100 ∧ (window0 t).fld .wwClose 31 * 1000 < (window0 t).time - 100 ∧
    (window0 t).time - 100 ≤ (window0 t).fld .wwLimit 31 * 1000 := by decide +kernel
theorem test_hyp_KicksAreJudgedByTheWindow_d :
    SMap.get ({ window0 6000 with safe := { up.safe with injectWw := [(31, true)] } } : State).safe.injectWw 31 false = true := by decide +kernel

theorem test_hyp_SecWmapFollowsOnlyDisabledUnits_a :
    ∃ n < 16, (up.setFlds 15 [(.osEn, 1)]).flag .osEn n = true ∧ bit ((up.setFlds 15 [(.osEn, 1)]).fld .secWmapOs 0) n ≠ bit 0x8000 n :=
  ⟨15, by decide, by decide +kernel, by decide +kernel⟩
theorem test_hyp_SecWmapFollowsOnlyDisabledUnits_b :
    (up.setFlds 0 [(.audStreamEn, 1)]).flag .audStreamEn 0 = true ∧ bit ((up.setFlds 0 [(.audStreamEn, 1)]).fld .secWmapAud 0) 0 ≠ bit 0x10000 16 := by
  decide +kernel
theorem test_hyp_SecWmapFollowsOnlyDisabledUnits_c :
    (∀ n < 16, up.flag .osEn n = false) ∧ up.flag .audStreamEn 0 = false ∧ up.fld .secWmapOs 0 < 2 ^ 16 := by decide +kernel

theorem test_hyp_RefusedAccessIsCounted_a : (up.setFld .brErrlogValid 0 1).flag .brErrlogValid 0 = true := by decide +kernel
theorem test_hyp_MigrationLoopSetsPromote_a :
    up.obj .migPromoteMin 0 ≤ up.obj .migPromote 0 ∧ up.obj .migPromote 0 ≤ up.obj .migPromoteMax 0 := by decide +kernel
theorem test_hyp_GovernorIndexMovesOneStep_a : 0 < (loopIndex 0 0 7 20000000 true false false).1 := by decide +kernel
theorem test_hyp_GovernorIndexMovesOneStep_b : (loopIndex 3 1 99 20000000 false true false).1 < 3 := by decide +kernel

/-! ### Frames -/

theorem test_hyp_MemoryCommandsFrame_a :
    ∀ i ∈ [
      Instr.correctedWordWriteBack 1,
      .binInit 1 true,
      .slotMapWrite 1 1 1 true,
      .gateOpen 1 1 true,
      .gateClose 1 1 true,
      .migrationDecay 900,
      .urQuotaWrite 1 1 true,
      .urPstateWrite 1 true false true,
      .dramRequest 1 4096 true (some 5000) 900,
      .perBankRefresh 1 1 1,
      .actWindowClear,
      .periodicRetrain 1 1 900],
    ∃ t, exec i up = .next t := by
  intro i hi; exact ⟨_, next_of ((by decide +kernel : ∀ i ∈ _, isNext (exec i up) = true) i hi)⟩

theorem test_hyp_MemoryCommandsFrame_b :
    ∀ i ∈ [
      Instr.forcedRetrainUpdate 1 900,
      .dramPowerDown 900,
      .mcRegionWrite 1 1 1 true,
      .ledgerRead 1 true,
      .hearthCfgWrite 1 1 true],
    ∃ t, exec i up = .next t := by
  intro i hi; exact ⟨_, next_of ((by decide +kernel : ∀ i ∈ _, isNext (exec i up) = true) i hi)⟩

theorem test_hyp_StreamCommandsFrame_a :
    ∀ i ∈ [
      Instr.hpDoorbell 1 1 true,
      .laneSampleStart 1 900,
      .osRelease 1 1,
      .camColourWrite 1 [],
      .audioRelease,
      .audStreamEnable true,
      .erasingComplete,
      .lockOpenExpiry 900,
      .watchSpanWrite 1 true,
      .doorLedWrite 1 1 900,
      .svLeaseWrite 1 true true,
      .comparatorStart 1],
    ∃ t, exec i up = .next t := by
  intro i hi; exact ⟨_, next_of ((by decide +kernel : ∀ i ∈ _, isNext (exec i up) = true) i hi)⟩

theorem test_hyp_StreamCommandsFrame_b :
    ∀ i ∈ [
      Instr.safeFaultClear 1 true,
      .safeInjectCompare 1 true,
      .safeInjectWatchdog 1 true],
    ∃ t, exec i up = .next t := by
  intro i hi; exact ⟨_, next_of ((by decide +kernel : ∀ i ∈ _, isNext (exec i up) = true) i hi)⟩

theorem test_hyp_SystemCommandsFrame_a :
    ∀ i ∈ [
      Instr.attestNonceWrite [7#8],
      .secMeasWrite 1 1 true,
      .boundaryRegionWrite 1 1 true,
      .secWmapWrite 1 true,
      .secUnwrap 1 1 true,
      .keySlotClear 1 true,
      .debugToken 3 [],
      .almanacSave true,
      .arpRequest 1 0x0A000002 5,
      .icmpEcho 1 0x0A000002 5 [],
      .hlLinkack 1 1,
      .hlRetrain 1],
    ∃ t, exec i up = .next t := by
  intro i hi; exact ⟨_, next_of ((by decide +kernel : ∀ i ∈ _, isNext (exec i up) = true) i hi)⟩

theorem test_hyp_SystemCommandsFrame_b :
    ∀ i ∈ [
      Instr.hlSyncLoss 900,
      .hlSyncSend 900,
      .pmbusAlert,
      .logFlush 900,
      .updFinish true,
      .idleEntry 900,
      .clkReturnTimeout 900,
      .hardwareThrottle 90 900,
      .clkEnWrite 1 true,
      .regOk 900,
      .regRetry 900,
      .logRegisterClear 1 1 true],
    ∃ t, exec i up = .next t := by
  intro i hi; exact ⟨_, next_of ((by decide +kernel : ∀ i ∈ _, isNext (exec i up) = true) i hi)⟩

theorem test_hyp_TractCommandsFrame_0 : ∃ i, ∃ core, ∃ x : Issue, ∃ s : State, ∃ j, ∃ us, ∃ v, ∃ u, tractIssue i = some (core, x) ∧ x.op ≠ .stile ∧
    x.op ≠ .waitTally ∧ x.op ≠ .dmaGate ∧ s.runs core j ∧
    let p := s.atIssue core j x
    let w := p.issueWidth core x.cmd
    Issues p core { j with fetch := j.fetch + 16 } x us v ∧
    (x.op.isTier = true → v.lateAtIssue core (v.tierTotal x.op core w x.cmd) = false) ∧
    ((v.updCore core (fun y => { y with wait := .none })).noteIssue x.op core w x.cmd).runWithin x.op core w x.cmd x.obs = (none, u) :=
  test_hyp_TractCommandsIssue_0

/-! ### Clauses of the memories -/

theorem test_hyp_UnifiedRangeCommandsComplete_2a : ∀ i < 16,
    ({ up with ur := { up.ur with fills := [⟨4, 8, none, 8, true, false⟩], dir := [(8, ⟨4, .filling, true, 0⟩)] } } : State).grainFails
      (4 * 16 + i) true [] = none := by decide +kernel

/-- One request of level 5 or 6 for rank 0, bank 1 of channel 2, or none. -/
def refresh0 (owed : Int) (l0 : Option Nat) : State :=
  { up with mc := { up.mc with
      owed := [(bankKeyOf 2 0 1, owed)]
      queue := match l0 with | some l => [(2, [⟨3, false, l, 0, 4096, 2, 0, 1, 40, 9, 2, 2, l⟩])] | none => [] } }
def refreshReqs (s : State) : List McReq := ((s.mcSlot 2).mcQueue 2).filter (fun r => r.bankKey == bankKeyOf 2 0 1)

theorem test_hyp_DramCommandsComplete_3a : SMap.get ((refresh0 (-3) none).mcSlot 2).mc.owed (bankKeyOf 2 0 1) 0 + 1 ≤ 0 := by decide +kernel
theorem test_hyp_DramCommandsComplete_3b :
    (refreshReqs (refresh0 7 (some 5))).any (fun r => decide (5 ≤ ((refresh0 7 (some 5)).mcSlot 2).levelOf r)) = true ∧
    SMap.get ((refresh0 7 (some 5)).mcSlot 2).mc.owed (bankKeyOf 2 0 1) 0 + 1 ≤ 8 := by decide +kernel
theorem test_hyp_DramCommandsComplete_3c :
    0 < SMap.get ((refresh0 8 (some 5)).mcSlot 2).mc.owed (bankKeyOf 2 0 1) 0 + 1 ∧ refreshReqs (refresh0 8 (some 5)) ≠ [] ∧
    8 < SMap.get ((refresh0 8 (some 5)).mcSlot 2).mc.owed (bankKeyOf 2 0 1) 0 + 1 := by decide +kernel
theorem test_hyp_DramCommandsComplete_3d :
    0 < SMap.get ((refresh0 0 none).mcSlot 2).mc.owed (bankKeyOf 2 0 1) 0 + 1 ∧ refreshReqs (refresh0 0 none) = [] := by decide +kernel
theorem test_hyp_DramCommandsComplete_6a : up.mc.trained + 2 ^ 2 ≠ 15 := by decide +kernel
theorem test_hyp_DramCommandsComplete_6b : ({ up with mc := { up.mc with trained := 11 } } : State).mc.trained + 2 ^ 2 = 15 := by decide +kernel
theorem test_hyp_RegisterCommandsComplete_2a : up.flag .chCmdBusy 8 = false := by decide +kernel

end Sys2Proof.Tests
end

/-!
PROOFS. The commands that write registers (spec 00, R8, R9, R110, R461): what a register access completes with, what a refused write
leaves, and the log register of a Bin.
-/
namespace Sys2Proof.Machine

/-! ## Completion and frames -/

/-- Two states that agree in every part are equal. -/
theorem State.eq_of_sameParts {s t : State} (h : ∀ p, SamePart p s t) : t = s := by
  cases s
  cases t
  simp only [State.mk.injEq]
  exact ⟨h .pending, h .time, h .free, h .regs, h .objs, h .sent, h .bin, h .ur, h .mc, h .hearth, h .rota, h .ledger, h .log, h .safe,
    h .sec, h .hedge, h .sv, h .hp, h .cam, h .aud, h .watch, h .door, h .pwr, h .clk, h .reeve, h .upd, h .crier, h .boot⟩

/-- A log entry changes the objects and the log alone. -/
theorem State.logIt_frame (s : State) (tag : LogTag) (source flags a0 a1 a2 : Nat) :
    s.logIt tag source flags a0 a1 a2 =
      { s with objs := (s.logIt tag source flags a0 a1 a2).objs, log := (s.logIt tag source flags a0 a1 a2).log } := by
  have kept := State.logIt_touches tag source flags a0 a1 a2 (Touches.refl [.objs, .log] s) (List.Subset.refl _)
  refine State.eq_of_sameParts fun p => ?_
  have keep := kept.keep p
  cases p
  case objs => rfl
  case log => rfl
  all_goals exact keep (by decide)

@[simp] theorem State.logIt_regs (s : State) (tag : LogTag) (source flags a0 a1 a2 : Nat) :
    (s.logIt tag source flags a0 a1 a2).regs = s.regs := by
  rw [State.logIt_frame]

/-- A refused access leaves its bus error, and what its log entry changes. -/
theorem State.worldError_frame (s : State) (f : Fld) (i : Nat) :
    s.worldError f i =
      { s with
        sent := s.sent ++ [⟨.bus, 0, [f.ctorIdx, i], []⟩]
        objs := (s.worldError f i).objs
        log := (s.worldError f i).log } :=
  State.logIt_frame (s.send ⟨.bus, 0, [f.ctorIdx, i], []⟩) _ _ _ _ _ _

/-! ## Several fields with one index -/

/-- A one-bit field that reads 0 is not set. -/
theorem State.flag_of_fld_zero {s : State} {f : Fld} {i : Nat} (h : s.fld f i = 0) : s.flag f i = false := by
  simp [State.flag, h]

/-- Fields that are not the same have, at one index, keys of their own. -/
theorem Fld.key_ne_of_ctorIdx {f g : Fld} (i : Nat) (h : f.ctorIdx ≠ g.ctorIdx) : f.key i ≠ g.key i := by
  unfold Fld.key
  omega

/-- A field that is not among those written reads as before. -/
theorem State.fld_setFlds_of_notMem {f : Fld} {i : Nat} {l : List (Fld × Nat)} (s : State) (h : ∀ e ∈ l, f.ctorIdx ≠ e.1.ctorIdx) :
    (s.setFlds i l).fld f i = s.fld f i := by
  induction l generalizing s with
  | nil => rfl
  | cons e r ih =>
    obtain ⟨he, hr⟩ := List.forall_mem_cons.mp h
    calc ((s.setFld e.1 i e.2).setFlds i r).fld f i
        = (s.setFld e.1 i e.2).fld f i := ih _ hr
      _ = s.fld f i := State.fld_setFld_ne s (Fld.key_ne_of_ctorIdx i he)

/-- A field written once among several reads back the low bits of its value. -/
theorem State.fld_setFlds_of_mem {f : Fld} {i v : Nat} {l : List (Fld × Nat)} (s : State) (hl : (l.map (·.1.ctorIdx)).Nodup)
    (h : (f, v) ∈ l) : (s.setFlds i l).fld f i = v % 2 ^ f.width := by
  induction l generalizing s with
  | nil => cases h
  | cons e r ih =>
    obtain ⟨he, hr⟩ := List.nodup_cons.mp hl
    rcases List.mem_cons.mp h with rfl | h
    · calc ((s.setFld f i v).setFlds i r).fld f i
          = (s.setFld f i v).fld f i :=
            State.fld_setFlds_of_notMem _ fun e' he' hc => he (List.mem_map.mpr ⟨e', he', hc.symm⟩)
        _ = v % 2 ^ f.width := State.fld_setFld_same s f i v
    · exact ih _ hr h

/-- A field written 0 among several, each at most once, reads 0. -/
theorem State.fld_clear_of_mem {f : Fld} {i : Nat} {l : List Fld} (s : State) (hl : (l.map Fld.ctorIdx).Nodup) (h : f ∈ l) :
    (l.foldl (fun (s : State) g => s.setFld g i 0) s).fld f i = 0 := by
  have same : l.foldl (fun (s : State) g => s.setFld g i 0) s = s.setFlds i (l.map (·, 0)) := by
    rw [State.setFlds, List.foldl_map]
  have written : (f, 0) ∈ l.map (·, 0) := List.mem_map.mpr ⟨f, h, rfl⟩
  rw [same, State.fld_setFlds_of_mem s (by simpa [Function.comp_def] using hl) written, Nat.zero_mod]

/-! ## Log registers (R461) -/

/-- The clearing of a log register by the secure world sets each of its fields to 0; a number that names none changes nothing. -/
theorem logRegisterClear_after (s : State) (which inst : Nat) :
    After (.logRegisterClear which inst true) s ((logRegFlds which).foldl (fun (s' : State) f => s'.setFld f inst 0) s) := by
  change execLogRegisterClear which inst true s = _
  refine State.command_next ?_
  cases logRegFlds which <;> rfl

/-- A log register that the secure world clears reads as zero. -/
theorem logRegisterClear_reads_zero (s : State) {which : Nat} (inst : Nat) (hl : ((logRegFlds which).map Fld.ctorIdx).Nodup) :
    ∃ t, exec (.logRegisterClear which inst true) s = .next t ∧ ∀ f ∈ logRegFlds which, t.fld f inst = 0 :=
  ⟨_, logRegisterClear_after s which inst, fun f hf => (State.fld_congr rfl f inst).trans (State.fld_clear_of_mem s hl hf)⟩

/-- The fields of BIN_ERRLOG are told apart (R108). -/
theorem binErrlogFlds_nodup : ((logRegFlds 1).map Fld.ctorIdx).Nodup := by decide

/-- While an entry is held, a later error captures nothing. -/
theorem State.binCapture_held {s : State} {b : Nat} (h : s.flag .binErrlogValid b = true) (type bank row port : Nat) :
    s.binCapture b type bank row port = s := by
  simp [State.binCapture, h]

/-- While none is held, an error sets the fields of the register. -/
theorem State.binCapture_free {s : State} {b : Nat} (h : s.flag .binErrlogValid b = false) (type bank row port : Nat) :
    s.binCapture b type bank row port = s.setFlds b [(.binErrlogValid, 1), (.binErrlogType, type), (.binErrlogBank, bank),
      (.binErrlogRow, row), (.binErrlogPort, port)] := by
  simp [State.binCapture, h]

/-- The capture alone changes the registers: the entry in the Reeve's log does not. -/
theorem State.binErrlog_regs (s : State) (b type bank row port : Nat) :
    (s.binErrlog b type bank row port).regs = (s.binCapture b type bank row port).regs := by
  unfold State.binErrlog
  split
  · rfl
  · exact State.logIt_regs ..

/-- The capture of an error: each field of BIN_ERRLOG takes the low bits of what the error gives it. -/
theorem State.fld_binErrlog_of_mem {s : State} {b type bank row port : Nat} (h : s.flag .binErrlogValid b = false) {f : Fld} {v : Nat}
    (hf : (f, v) ∈ [(Fld.binErrlogValid, 1), (.binErrlogType, type), (.binErrlogBank, bank), (.binErrlogRow, row),
      (.binErrlogPort, port)]) : (s.binErrlog b type bank row port).fld f b = v % 2 ^ f.width := by
  rw [State.fld_congr (State.binErrlog_regs ..), State.binCapture_free h]
  exact State.fld_setFlds_of_mem s binErrlogFlds_nodup hf

/-- The widths of the fields of BIN_ERRLOG (R108). -/
theorem binErrlog_widths : Fld.width .binErrlogValid = 1 ∧ Fld.width .binErrlogType = 3 ∧ Fld.width .binErrlogBank = 6 ∧
    Fld.width .binErrlogRow = 11 ∧ Fld.width .binErrlogPort = 4 := by decide

/-- After an error is captured, a later one changes no register. -/
theorem State.binErrlog_regs_held {s : State} {b : Nat} (h : s.flag .binErrlogValid b = true) (type bank row port : Nat) :
    (s.binErrlog b type bank row port).regs = s.regs := by
  rw [State.binErrlog_regs, State.binCapture_held h]

/-! ## Register accesses (R8, R9, R110) -/

/-- Every address of the window's data area is one that the map lists. -/
theorem State.addrReserved_of_windowAt {s : State} {addr : Nat} {p : Nat × Nat} (h : windowAt addr = some p) :
    s.addrReserved addr = false := by
  have inside : 0x01000000 ≤ addr ∧ addr < 0x01010000 := by
    unfold windowAt at h
    split at h
    · next hw => exact ⟨hw.1, hw.2.1⟩
    · cases h
  have listed : 0x01000000 ≤ addr ∧ addr < 0x01100000 := by omega
  simp [State.addrReserved, listed]

/-- What an access to a reserved address answers. -/
theorem registerWrite_after_reserved {s : State} {addr : Nat} (hr : s.addrReserved addr = true) (value : Nat) (secure read : Bool) :
    After (.registerWrite addr value secure read) s (s.reservedAccess addr) := by
  change execRegisterWrite addr value secure s read = _
  exact State.command_next (by simp only [hr, if_true])

/-- What an access to the data area of the window completes with. -/
theorem registerWrite_after_window {addr ch i : Nat} (ha : addr % 4 = 0) (hw : windowAt addr = some (ch, i)) (s : State) (value : Nat)
    (secure read : Bool) :
    After (.registerWrite addr value secure read) s (if read then s.readWindow addr ch i secure else s.writeWindow ch i value secure) := by
  change execRegisterWrite addr value secure s read = _
  exact State.command_next (by simp [State.addrReserved_of_windowAt hw, ha, hw])

/-- What an access to a register completes with. -/
theorem registerWrite_after_reg {s : State} {addr : Nat} {x : RegAt} (hr : s.addrReserved addr = false) (ha : addr % 4 = 0)
    (hw : windowAt addr = none) (hx : regAt addr = some x) (value : Nat) (secure read : Bool) :
    After (.registerWrite addr value secure read) s (if read then s.readReg addr x secure else s.writeReg x value secure) := by
  change execRegisterWrite addr value secure s read = _
  exact State.command_next (by simp [hr, ha, hw, hx])

/-- No field of a word refuses an access that the world of each allows. -/
theorem State.refusedFld_eq_none {s : State} {x : RegAt} {value : Nat} {write secure : Bool}
    (h : ∀ f ∈ Fld.all.filter (fun f => f.inWord x.reg x.word), worldAllows (s.fldWorld f x.inst value) write secure = true) :
    s.refusedFld x value write secure = none :=
  List.find?_eq_none.mpr fun f hf => by simp [h f hf]

/-- A register of a block whose clock runs, or of none, is not gated. -/
theorem State.regGated_eq_false {s : State} {x : RegAt} (h : ∀ b, x.reg.block x.inst = some b → s.clocked b = true) :
    s.regGated x = false := by
  unfold State.regGated
  split
  · next b hb => simp [h b hb]
  · rfl

/-- A word that may be written takes the value, field by field, and what follows the register follows. -/
theorem State.writeReg_taken {s t : State} {x : RegAt} {value : Nat} {secure : Bool} (hf : s.refusedFld x value true secure = none)
    (hg : s.regGated x = false)
    (ht : t = (Fld.all.filter (fun f => f.inWord x.reg x.word)).foldl (fun (t : State) f => t.writeFld f x.inst x.word value) s)
    (hc : t.cfgRefused x = false) (hl : ¬ (x.reg = .lgCmd ∧ bit value 31 = true ∧ 4 ≤ bits value 19 16)) :
    s.writeReg x value secure = s.afterWrite t x := by
  subst ht
  simp only [State.writeReg, hf, hg, hc, if_neg hl, Bool.false_eq_true, if_false]

/-- A word that may be read is answered. -/
theorem State.readReg_answered {s : State} {x : RegAt} {secure : Bool} (addr : Nat)
    (hf : s.refusedFld x (s.wordNow x) false secure = none) (hg : s.regGated x = false) :
    s.readReg addr x secure = s.send ⟨.bus, 1, [addr], natLe 4 (s.wordNow x)⟩ := by
  simp [State.readReg, hf, hg]

/-- The world of a channel lets the access pass. -/
theorem channel_allowed {ch : Nat} {secure : Bool} (h : 8 ≤ ch → secure = true) : ¬ (8 ≤ ch ∧ secure = false) :=
  fun ⟨hch, hs⟩ => by simp [h hch] at hs

/-- The data area of a channel that runs no operation takes the bytes written. -/
theorem State.writeWindow_taken {s : State} {ch : Nat} {secure : Bool} (h : 8 ≤ ch → secure = true) (hb : s.flag .chCmdBusy ch = false)
    (i value : Nat) : s.writeWindow ch i value secure =
      s.setCrier { s.crier with window := SMap.putRun s.crier.window (chKey ch i) (natLe 4 value) 0 } := by
  simp [State.writeWindow, channel_allowed h, hb]

/-- The data area of a channel answers its bytes. -/
theorem State.readWindow_answered {ch : Nat} {secure : Bool} (h : 8 ≤ ch → secure = true) (s : State) (addr i : Nat) :
    s.readWindow addr ch i secure = s.send ⟨.bus, 1, [addr], SMap.getRun s.crier.window (chKey ch i) 4 0⟩ := by
  simp [State.readWindow, channel_allowed h]

/-! ## The statements -/

/-- Settles O29: one rule for each kind of address, and the clearing of a log register. -/
theorem registerCommandsComplete : Obligations.RegisterCommandsComplete := by
  refine ⟨?writeReg, ?readReg, ?window, ?reserved, ?clear⟩
  case writeReg =>
    intro s addr value secure x fs t hr ha hw hx hworld hclock hcfg hlg
    have taken : s.writeReg x value secure = s.afterWrite t x :=
      State.writeReg_taken (State.refusedFld_eq_none hworld) (State.regGated_eq_false hclock) rfl hcfg hlg
    exact taken ▸ registerWrite_after_reg hr ha hw hx value secure false
  case readReg =>
    intro s addr value secure x hr ha hw hx hworld hclock
    exact State.readReg_answered addr hworld (State.regGated_eq_false hclock) ▸ registerWrite_after_reg hr ha hw hx value secure true
  case window =>
    intro s addr value secure ch i ha hw hworld
    refine ⟨fun hbusy => ?_, ?_⟩
    · exact State.writeWindow_taken hworld hbusy i value ▸ registerWrite_after_window ha hw s value secure false
    · exact State.readWindow_answered hworld s addr i ▸ registerWrite_after_window ha hw s value secure true
  case reserved =>
    intro s addr value secure read hr
    exact registerWrite_after_reserved hr value secure read
  case clear =>
    intro s which inst _
    exact logRegisterClear_after s which inst

/-- Settles O40: each command of the list asks for the world before anything else and answers a non-secure write with `worldError`, so its
effect is that refusal by evaluation; what the refusal leaves is `State.worldError_frame`. -/
theorem nonSecureWritesAreRefused : Obligations.NonSecureWritesAreRefused := by
  refine ⟨State.worldError_frame, fun s a b c m x hx => ?_⟩
  simp only [List.mem_cons, List.not_mem_nil, or_false] at hx
  rcases hx with rfl | rfl | rfl | rfl | rfl | rfl | rfl | rfl | rfl | rfl | rfl | rfl | rfl | rfl | rfl | rfl | rfl | rfl | rfl | rfl |
    rfl | rfl <;> rfl

/-- Settles O55: capture, hold and clear of BIN_ERRLOG, each read field by field. -/
theorem errorLogKeepsTheFirst : Obligations.ErrorLogKeepsTheFirst := by
  obtain ⟨wValid, wType, wBank, wRow, wPort⟩ := binErrlog_widths
  constructor
  · intro s b type bank row port hb htype hbank hrow hport hfree t
    have field {f v} (hf) : t.fld f b = v % 2 ^ f.width := State.fld_binErrlog_of_mem hfree (f := f) (v := v) hf
    have hvalid : t.flag .binErrlogValid b = true := by simp [State.flag, field (f := .binErrlogValid) (v := 1), wValid]
    refine ⟨hvalid, ?_, ?_, ?_, ?_, State.binErrlog_regs_held hvalid⟩
    · rw [field (v := type) (by simp), wType]; exact Nat.mod_eq_of_lt htype
    · rw [field (v := bank) (by simp), wBank]; omega
    · rw [field (v := row) (by simp), wRow]; exact Nat.mod_eq_of_lt hrow
    · rw [field (v := port) (by simp), wPort]; exact Nat.mod_eq_of_lt hport
  · intro s b _
    obtain ⟨t, ht, zero⟩ := logRegisterClear_reads_zero s b binErrlogFlds_nodup
    exact ⟨t, ht, State.flag_of_fld_zero (zero .binErrlogValid (by decide)), zero .binErrlogType (by decide),
      zero .binErrlogBank (by decide), zero .binErrlogRow (by decide)⟩

end Sys2Proof.Machine

/-!
PROOFS. The 128-bit word of a tract command (spec 02, R28, R29): its fields side by side, and the command read back from them.
-/
namespace Sys2Proof.Machine

/-! ## Fields side by side -/

/-- Fields, each a width and a value, packed from the lowest bit up. -/
def packed : List (Nat × Nat) → Nat
  | [] => 0
  | f :: r => f.2 + 2 ^ f.1 * packed r

/-- The bits that fields take together. -/
def widthOf (l : List (Nat × Nat)) : Nat := (l.map Prod.fst).sum

/-- Fields that fit their widths pack into a number of as many bits. -/
theorem packed_lt {l : List (Nat × Nat)} (h : ∀ f ∈ l, f.2 < 2 ^ f.1) : packed l < 2 ^ widthOf l := by
  induction l with
  | nil => exact Nat.one_pos
  | cons f r ih =>
    obtain ⟨hf, hr⟩ := List.forall_mem_cons.mp h
    have hw : 2 ^ widthOf (f :: r) = 2 ^ f.1 * 2 ^ widthOf r := by simp [widthOf, Nat.pow_add]
    calc packed (f :: r) < 2 ^ f.1 + 2 ^ f.1 * packed r := Nat.add_lt_add_right hf _
      _ = 2 ^ f.1 * (packed r + 1) := by rw [Nat.mul_add, Nat.mul_one, Nat.add_comm]
      _ ≤ 2 ^ f.1 * 2 ^ widthOf r := Nat.mul_le_mul_left _ (ih hr)
      _ = 2 ^ widthOf (f :: r) := hw.symm

/-- Past the fields below it stand the field and those above. -/
theorem packed_div_widthOf {pre l : List (Nat × Nat)} (h : ∀ f ∈ pre, f.2 < 2 ^ f.1) : packed (pre ++ l) / 2 ^ widthOf pre = packed l := by
  induction pre with
  | nil => simp [widthOf]
  | cons f r ih =>
    obtain ⟨hf, hr⟩ := List.forall_mem_cons.mp h
    have hw : 2 ^ widthOf (f :: r) = 2 ^ f.1 * 2 ^ widthOf r := by simp [widthOf, Nat.pow_add]
    calc packed (f :: r ++ l) / 2 ^ widthOf (f :: r)
        = (f.2 + 2 ^ f.1 * packed (r ++ l)) / 2 ^ f.1 / 2 ^ widthOf r := by rw [hw, Nat.div_div_eq_div_mul]; rfl
      _ = packed (r ++ l) / 2 ^ widthOf r := by
        rw [Nat.add_mul_div_left _ _ (Nat.two_pow_pos _), Nat.div_eq_of_lt hf, Nat.zero_add]
      _ = packed l := ih hr

/-- The bits at the place of a field among packed ones are its value. -/
theorem bits_packed {l : List (Nat × Nat)} (h : ∀ f ∈ l, f.2 < 2 ^ f.1) (k : Nat) {hi lo v : Nat} (hf : l[k]? = some (hi + 1 - lo, v))
    (hlo : widthOf (l.take k) = lo) : bits (packed l) hi lo = v := by
  obtain ⟨hk, hv⟩ := List.getElem?_eq_some_iff.mp hf
  have hdiv : packed l / 2 ^ lo = packed ((hi + 1 - lo, v) :: l.drop (k + 1)) := by
    have past := packed_div_widthOf (pre := l.take k) (l := l.drop k) fun f hf => h f (List.mem_of_mem_take hf)
    rwa [List.take_append_drop, List.drop_eq_getElem_cons hk, hv, hlo] at past
  have fits : v < 2 ^ (hi + 1 - lo) := h (hi + 1 - lo, v) (List.mem_of_getElem? hf)
  rw [bits, hdiv, packed, Nat.add_mul_mod_self_left, Nat.mod_eq_of_lt fits]

/-- The bit at the place of a two-valued field among packed ones is its value. -/
theorem bit_packed {l : List (Nat × Nat)} (h : ∀ f ∈ l, f.2 < 2 ^ f.1) (k : Nat) {i : Nat} {b : Bool} (hf : l[k]? = some (1, b2n b))
    (hi : widthOf (l.take k) = i) : bit (packed l) i = b := by
  have one : i + 1 - i = 1 := Nat.add_sub_cancel_left i 1
  have hbits : bits (packed l) i i = b2n b := bits_packed h k (one.symm ▸ hf) hi
  rw [bits, one, Nat.pow_one] at hbits
  rw [bit, hbits]
  cases b <;> rfl

/-- A two-valued field fits one bit. -/
theorem b2n_lt (b : Bool) : b2n b < 2 ^ 1 := by cases b <;> decide

end Sys2Proof.Machine

namespace Sys2Proof
open Machine

/-! ## The layout of R28 -/

/-- The fields of R28 from bit 0 up; bits 62 and 63 are reserved. -/
def TcCmd.fields (c : TcCmd) (cls sub : Nat) : List (Nat × Nat) :=
  [(4, cls), (8, sub), (4, c.outfmt), (2, c.hdst), (2, c.haux), (1, b2n c.acc), (1, b2n c.fin), (1, b2n c.fur), (1, b2n c.ser),
    (8, c.tag), (10, c.opa), (10, c.opb), (10, c.opc), (2, 0), (32, c.pa), (20, c.pb), (12, c.hgen)]

/-- The widths of the fields of R28 from bit 0 up. -/
def tcWidths : List Nat := [4, 8, 4, 2, 2, 1, 1, 1, 1, 8, 10, 10, 10, 2, 32, 20, 12]

/-- A field of R28 begins where the fields below it end. -/
theorem TcCmd.widthOf_take_fields (c : TcCmd) (cls sub k : Nat) : widthOf ((c.fields cls sub).take k) =
    (tcWidths.take k).sum := by
  rw [widthOf, List.map_take]
  rfl

/-- The word of a command is its fields side by side. -/
theorem TcCmd.word_eq_packed (c : TcCmd) (cls sub : Nat) : c.word cls sub = packed (c.fields cls sub) := by
  simp only [TcCmd.word, TcCmd.fields, packed]
  omega

section
variable {c : TcCmd} {cls sub : Nat} (hc : c.wf = true) (hcls : cls < 16) (hsub : sub < 256)
include hc hcls hsub

/-- The fields of a well-formed command fit their places. -/
theorem TcCmd.fields_fit : ∀ f ∈ c.fields cls sub, f.2 < 2 ^ f.1 := by
  obtain ⟨hgen, pb, pa, opc, opb, opa, tag, haux, hdst, outfmt⟩ := of_decide_eq_true hc
  simp only [TcCmd.fields, List.forall_mem_cons, b2n_lt, true_and]
  exact ⟨hcls, hsub, outfmt, hdst, haux, tag, opa, opb, opc, by decide, pa, pb, hgen, List.forall_mem_nil _⟩

/-- The word of a well-formed command has 128 bits. -/
theorem TcCmd.word_lt : c.word cls sub < 2 ^ 128 := by
  have hw : widthOf (c.fields cls sub) = 128 := c.widthOf_take_fields cls sub 17
  rw [TcCmd.word_eq_packed, ← hw]
  exact packed_lt (TcCmd.fields_fit hc hcls hsub)

/-- The bits of a word at the place of a field are the field. -/
theorem TcCmd.bits_word (k : Nat) {hi lo v : Nat} (hf : (c.fields cls sub)[k]? = some (hi + 1 - lo, v))
    (hlo : (tcWidths.take k).sum = lo) : bits (c.word cls sub) hi lo = v :=
  c.word_eq_packed cls sub ▸ bits_packed (TcCmd.fields_fit hc hcls hsub) k hf ((c.widthOf_take_fields cls sub k).trans hlo)

/-- The bit of a word at the place of a two-valued field is the field. -/
theorem TcCmd.bit_word (k : Nat) {i : Nat} {b : Bool} (hf : (c.fields cls sub)[k]? = some (1, b2n b))
    (hi : (tcWidths.take k).sum = i) : bit (c.word cls sub) i = b :=
  c.word_eq_packed cls sub ▸ bit_packed (TcCmd.fields_fit hc hcls hsub) k hf ((c.widthOf_take_fields cls sub k).trans hi)

/-- CLASS and SUBOP are read back from a word. -/
theorem TcCmd.code_word : bits (c.word cls sub) 3 0 = cls ∧ bits (c.word cls sub) 11 4 = sub :=
  ⟨TcCmd.bits_word hc hcls hsub 0 rfl rfl, TcCmd.bits_word hc hcls hsub 1 rfl rfl⟩

/-- The fields of a command are read back from its word. -/
theorem TcCmd.ofWord_word : TcCmd.ofWord (c.word cls sub) = c := by
  have field (k : Nat) {hi lo v : Nat} := TcCmd.bits_word hc hcls hsub k (hi := hi) (lo := lo) (v := v)
  have flag (k : Nat) {i : Nat} {b : Bool} := TcCmd.bit_word hc hcls hsub k (i := i) (b := b)
  rw [TcCmd.ofWord, TcCmd.mk.injEq]
  exact ⟨field 16 rfl rfl, field 15 rfl rfl, field 14 rfl rfl, field 12 rfl rfl, field 11 rfl rfl, field 10 rfl rfl, field 9 rfl rfl,
    flag 8 rfl rfl, flag 7 rfl rfl, flag 6 rfl rfl, flag 5 rfl rfl, field 4 rfl rfl, field 3 rfl rfl, field 2 rfl rfl⟩

end

/-! ## The codes of R29 -/

/-- What the arrival of a tract command adds to its word: the instant of a STILE, and the errors it meets, those of the Unified Range
apart where the command lists them apart. -/
def Instr.arrival (i : Instr) : Nat × List Obs × List Obs :=
  match i with
  | .attnForward _ _ ur obs | .attnBackward _ _ ur obs | .dmaUnifiedRangeToBin _ _ ur obs | .dmaBinToUnifiedRange _ _ ur obs => (0, ur, obs)
  | .stilePoint _ at_ _ obs => (at_, [], obs)
  | i => (0, [], ((tractIssue i).map (·.2.obs)).getD [])

/-- A tract command is the command of its CLASS, SUBOP and fields on its core, with what its arrival adds. -/
theorem Instr.ofCode_tract {i : Instr} {core cls sub : Nat} {x : Issue} {c : TcCmd} (hx : tractIssue i = some (core, x))
    (ht : i.tract = some (cls, sub, c)) :
    Instr.ofCode cls sub core i.arrival.1 i.arrival.2.1 i.arrival.2.2 c = i ∧ x.obs = i.arrival.2.1 ++ i.arrival.2.2 ∧
    cls < 16 ∧ sub < 256 := by
  unfold tractIssue at hx
  split at hx <;> cases hx <;> cases ht <;> exact ⟨rfl, rfl, by decide, by decide⟩

/-- A CLASS from 0xB on is reserved, whatever its SUBOP. -/
theorem Instr.ofCode_reserved {cls : Nat} (h : 0xB ≤ cls) (sub core time : Nat) (ur obs : List Obs) (c : TcCmd) :
    Instr.ofCode cls sub core time ur obs c = .reservedClassCommand core c := by
  obtain ⟨n, rfl⟩ := Nat.exists_eq_add_of_le' h
  rfl

/-- A well-formed tract command is read back from its word. -/
theorem Instr.ofTractWord_word {i : Instr} {core cls sub : Nat} {x : Issue} {c : TcCmd} (hx : tractIssue i = some (core, x))
    (ht : i.tract = some (cls, sub, c)) (hc : c.wf = true) :
    Instr.ofTractWord core i.arrival.1 i.arrival.2.1 i.arrival.2.2 (c.word cls sub) = i := by
  obtain ⟨same, -, hcls, hsub⟩ := Instr.ofCode_tract hx ht
  obtain ⟨readCls, readSub⟩ := TcCmd.code_word hc hcls hsub
  rw [Instr.ofTractWord, readCls, readSub, TcCmd.ofWord_word hc hcls hsub, same]

/-- Settles O6: the fields of R28 lie side by side, so that each is read back, and R29 gives each command a code of its own. -/
theorem tractWordReadsBack : Obligations.TractWordReadsBack := by
  constructor
  · intro i core x cls sub cmd hx ht hwf
    obtain ⟨-, hobs, hcls, hsub⟩ := Instr.ofCode_tract hx ht
    exact ⟨cmd.word cls sub, i.arrival.1, i.arrival.2.1, i.arrival.2.2, hobs, by rw [Instr.tractWord, ht]; rfl,
      TcCmd.word_lt hwf hcls hsub, Instr.ofTractWord_word hx ht hwf⟩
  · intro core time ur obs w hw
    have hcls : 0xB ≤ bits w 3 0 := by simpa [bits] using hw
    exact Instr.ofCode_reserved hcls (bits w 11 4) core time ur obs (TcCmd.ofWord w)

end Sys2Proof

/-!
PROOFS. Tract commands at the issue unit (spec 02, R28 to R31, R46, R48): what issue leaves of what waits at the cores, and the command that
passes its checks.
-/
namespace Sys2Proof.Machine

/-! ## What waits at the cores -/

/-- Every core keeps the commands that wait at its issue unit and the ending of its job. -/
def SameQueues (s t : State) : Prop := ∀ d, (t.core d).queue = (s.core d).queue ∧ (t.core d).ending = (s.core d).ending

theorem SameQueues.trans {s t u : State} (h : SameQueues s t) (k : SameQueues t u) : SameQueues s u :=
  fun d => ⟨(k d).1.trans (h d).1, (k d).2.trans (h d).2⟩

/-- The cores stand in the Rota's part of the state. -/
theorem SameQueues.of_rota {s t : State} (h : t.rota = s.rota) : SameQueues s t := fun d => by simp [State.core_congr h d]

theorem SameQueues.of_touches {l : List Part} {s t : State} (h : Touches l s t) (hl : .rota ∉ l) : SameQueues s t :=
  .of_rota (h.keep .rota hl)

/-- An update of a core that keeps its queue and its ending. -/
theorem SameQueues.updCore (s : State) (c : Nat) {f : Core → Core} (hq : ∀ x, (f x).queue = x.queue) (he : ∀ x, (f x).ending = x.ending) :
    SameQueues s (s.updCore c f) := by
  intro d
  by_cases h : d = c
  · subst h; simp [hq, he]
  · simp [State.core_updCore_ne _ _ h]

theorem SameQueues.foldl {α : Type} {F : State → α → State} (hF : ∀ s x, SameQueues s (F s x)) (l : List α) (s : State) :
    SameQueues s (l.foldl F s) := by
  induction l generalizing s with
  | nil => exact .of_rota rfl
  | cons a r ih => exact (hF s a).trans (ih _)

/-- A state whose cores keep what waits is calm with them. -/
theorem SameQueues.calm {s t : State} (h : SameQueues s t) (hs : s.calm = true) : t.calm = true := by
  simpa [State.calm, fun d => (h d).1, fun d => (h d).2] using hs

/-! ## What the operations of issue change -/

/-- What holds of the state that an operation answers. -/
theorem Touches.of_answer {α : Type} {L : List Part} {Z t : State} {r : α × State} {a : α} (h : Touches L Z r.2) (hr : r = (a, t)) :
    Touches L Z t := by
  rw [hr] at h
  exact h

/-- The reads of a member's Bin (R92, R93, R98). -/
theorem State.tcRead_touches {L : List Part} {Z s : State} (c port b : Nat) (runs : List (Nat × Nat)) (obs : List Obs) (hT : Touches L Z s)
    (hl : [.regs, .objs, .bin, .log, .sec] ⊆ L) : Touches L Z (s.tcRead c port b runs obs).2 := by
  simp only [State.tcRead]
  generalize (if b = c then port else 3) = p
  split
  · exact hT
  · have worldOk := State.binAdmit_touches (s.coreReq c none) false p b ((grainsOfRuns runs).map (·.1)) hT (List.Subset.trans (by decide) hl)
    split
    · next h => exact worldOk.of_answer h
    · next u h =>
      have check := State.checkGrains_touches p b (grainsOfRuns runs) obs (worldOk.of_answer h) (List.Subset.trans (by decide) hl)
      split
      · next k => exact check.of_answer k
      · next k => exact check.of_answer k

/-- Several reads in order. -/
theorem State.tcReads_touches {L : List Part} {Z s : State} (obs : List Obs) (l : List (Nat × Nat × Nat × List (Nat × Nat)))
    (hT : Touches L Z s) (hl : [.regs, .objs, .bin, .log, .sec] ⊆ L) : Touches L Z (s.tcReads obs l).2 := by
  induction l generalizing s with
  | nil => exact hT
  | cons e r ih =>
    obtain ⟨c, port, b, runs⟩ := e
    have read := State.tcRead_touches c port b runs obs hT hl
    rw [State.tcReads]
    split
    · next h => exact read.of_answer h
    · next h => exact ih (read.of_answer h)

/-- The note of an issue: its tag and its trace message (R48). -/
theorem State.noteIssue_touches {L : List Part} {Z s : State} (op : TcOp) (lead width : Nat) (cmd : TcCmd) (hT : Touches L Z s)
    (hl : [.regs, .sent] ⊆ L) : Touches L Z (s.noteIssue op lead width cmd) :=
  Touches.foldl _ _ hT fun _ i h =>
    have tagged := State.setFld_touches .tcStatusLasttag (lead + i) cmd.tag h (List.Subset.trans (by decide) hl)
    Touches.ite (State.send_touches _ tagged (List.Subset.trans (by decide) hl)) tagged

/-- A new state of the Hedgeline. -/
theorem Touches.hedge {L : List Part} {Z s : State} (x : HedgeGroup) (hT : Touches L Z s) (hl : [.hedge] ⊆ L) :
    Touches L Z { s with hedge := x } := by
  refine hT.of fun p hp => ?_
  cases p
  case hedge => exact absurd (hl (by decide)) hp
  all_goals rfl

/-- The sending of a grain of a transfer (R371, R378). -/
theorem State.sendGrain_touches {L : List Part} {Z s : State} (t : Transfer) (g p resends : Nat) (hT : Touches L Z s)
    (hl : [.sent, .sec, .hedge] ⊆ L) : Touches L Z (s.sendGrain t g p resends) :=
  have keyed := State.setKeySlot_touches t.slot { s.keySlot t.slot with ctr := (s.keySlot t.slot).ctr + 1 } hT
    (List.Subset.trans (by decide) hl)
  have noted := Touches.hedge _ keyed (List.Subset.trans (by decide) hl)
  State.sendPacket_touches p _ noted (List.Subset.trans (by decide) hl)

/-- The grains that a transfer may send (R372). -/
theorem State.pumpTransfer_touches {L : List Part} {Z s : State} (n xfer : Nat) (hT : Touches L Z s)
    (hl : [.sent, .sec, .hedge] ⊆ L) : Touches L Z (s.pumpTransfer n xfer) := by
  induction n generalizing s with
  | zero => exact hT
  | succ n ih =>
    rw [State.pumpTransfer]
    split
    · exact hT
    · split
      · exact hT
      · refine Touches.ite (ih (State.sendGrain_touches _ _ _ _ ?_ hl)) hT
        exact Touches.hedge _ hT (List.Subset.trans (by decide) hl)

/-- The start of a transfer into a gate of another device (R378). -/
theorem State.gateIssue_touches {L : List Part} {Z s : State} (c : Nat) (cmd : TcCmd) (obs : List Obs) (hT : Touches L Z s)
    (hl : [.regs, .objs, .sent, .bin, .log, .sec, .hedge] ⊆ L) : Touches L Z (s.gateIssue c cmd obs).2 := by
  simp only [State.gateIssue]
  split
  · next b g dst dbin off _ _ =>
    split
    · exact hT
    · split
      · exact hT
      · split
        · exact hT
        · have read := State.tcRead_touches c 2 b (State.wholeGrains g cmd.pa) obs hT (List.Subset.trans (by decide) hl)
          split
          · next h => exact read.of_answer h
          · next u h =>
            have read := read.of_answer h
            split
            · exact State.refuseAccess_touches _ _ _ _ read (List.Subset.trans (by decide) hl)
            · exact State.pumpTransfer_touches _ _ (Touches.hedge _ read (List.Subset.trans (by decide) hl))
                (List.Subset.trans (by decide) hl)
  · exact hT

theorem State.noteIssue_keeps (s : State) (op : TcOp) (lead width : Nat) (cmd : TcCmd) : SameQueues s (s.noteIssue op lead width cmd) :=
  .of_touches (State.noteIssue_touches op lead width cmd (.refl [.regs, .sent] s) (List.Subset.refl _)) (by decide)

theorem State.tcReads_keeps {s t : State} {obs : List Obs} {l : List (Nat × Nat × Nat × List (Nat × Nat))} {e : Option Fail}
    (h : s.tcReads obs l = (e, t)) : SameQueues s t :=
  have reads := State.tcReads_touches obs l (.refl [.regs, .objs, .bin, .log, .sec] s) (List.Subset.refl _)
  .of_touches (reads.of_answer h) (by decide)

/-- An operation does not reach the Rota. -/
theorem State.runWithin_keeps {s t : State} {op : TcOp} {lead width : Nat} {cmd : TcCmd} {obs : List Obs} {e : Option Fail}
    (h : s.runWithin op lead width cmd obs = (e, t)) : SameQueues s t :=
  .of_rota (congrArg (·.2.rota) h).symm

/-- The scoreboards are not the queues. -/
theorem State.enterFlight_keeps (s : State) (op : TcOp) (lead : Nat) (cmd : TcCmd) (us : List Uses) :
    SameQueues s (s.enterFlight op lead cmd us) := by
  refine SameQueues.foldl (fun s u => ?_) _ s
  exact SameQueues.updCore s _ (fun _ => rfl) (fun _ => rfl)

/-! ## A command that issues -/

/-- A command of a core that issues and is not stopped goes to its issue unit, alone, and whatever can issue does. -/
theorem State.tractCommand_runs {s : State} {c : Nat} {j : Job} (hr : s.runs c j) (x : Issue) :
    s.tractCommand c x = (s.atIssue c j x).settle := by
  obtain ⟨job, switching, calm, hc⟩ := hr
  obtain ⟨queue, ending⟩ := State.calm_core calm hc
  simp [State.tractCommand, State.atIssue, State.updCore, job, ending, switching, queue]

theorem State.core_atIssue (s : State) (c : Nat) (j : Job) (x : Issue) :
    (s.atIssue c j x).core c = { s.core c with job := some { j with fetch := j.fetch + 16 }, queue := [x] } := by
  simp [State.atIssue]

theorem State.core_atIssue_ne (s : State) {c d : Nat} (j : Job) (x : Issue) (h : d ≠ c) : (s.atIssue c j x).core d = s.core d := by
  simp [State.atIssue, State.core_updCore_ne _ _ h]

theorem State.core_issued_ne (s : State) {c d : Nat} (h : d ≠ c) : (s.issued c).core d = s.core d := by
  simp [State.issued, State.core_updCore_ne _ _ h]

/-- The only command of the cores is tried, and leaves its issue unit; what was due then happens. -/
theorem State.tractCommand_tried {s u : State} {c : Nat} {j : Job} {x : Issue} (hr : s.runs c j)
    (ht : (s.atIssue c j x).tryIssue c x = (true, u)) (hu : (u.core c).queue = [x] ∨ (u.core c).queue = [])
    (ho : ∀ d < 8, d ≠ c → (u.core d).queue = []) : s.tractCommand c x = (u.issued c).finishAll := by
  have ⟨_, _, calm, hc⟩ := hr
  rw [State.tractCommand_runs hr]
  refine State.settle_one hc (by simp [State.core_atIssue]) (fun d hd h => ?_) ht hu ho
  rw [State.core_atIssue_ne _ _ _ h]
  exact (State.calm_core calm hd).1

/-- The only command of the cores issues, and nothing that waits elsewhere has changed: nothing else happens. -/
theorem State.tractCommand_issued {s u : State} {c : Nat} {j : Job} {x : Issue} (hr : s.runs c j)
    (ht : (s.atIssue c j x).tryIssue c x = (true, u)) (hk : SameQueues (s.atIssue c j x) u) : s.tractCommand c x = u.issued c := by
  have ⟨_, _, calm, hc⟩ := hr
  have own : (u.core c).queue = [x] ∧ (u.core c).ending = none := by
    simpa [State.core_atIssue, (State.calm_core calm hc).2] using hk c
  have other (d : Nat) (hd : d < 8) (h : d ≠ c) : (u.core d).queue = [] ∧ (u.core d).ending = none := by
    simpa [State.core_atIssue_ne _ _ _ h, State.calm_core calm hd] using hk d
  rw [State.tractCommand_tried hr ht (.inl own.1) fun d hd h => (other d hd h).1]
  refine State.finishAll_none fun d hd => ?_
  by_cases h : d = c
  · subst h; simp [State.issued, own.2]
  · rw [State.core_issued_ne _ h]; exact (other d hd h).2

/-! ## The checks of issue -/

/-- A command that passes its checks issues, a STILE when nothing is in flight on its members. -/
theorem Issues.verdict {s t : State} {c : Nat} {j : Job} {i : Issue} {us : List Uses} (h : Issues s c j i us t)
    (hs : i.op = .stile → ∀ k < s.issueWidth c i.cmd, (t.core (c + k)).inflight = []) :
    t.verdict i.op c (s.issueWidth c i.cmd) j.part i.cmd = .issues us := by
  have gens : ∀ g ∈ us.zipIdx.flatMap (fun u => (t.genChecks i.op (c + u.2) j.part i.cmd u.1.named).map (fun g => (u.2, g))),
      g.2 = .issues := by
    intro g hg
    obtain ⟨u, hu, hg⟩ := List.mem_flatMap.mp hg
    obtain ⟨g', hg', rfl⟩ := List.mem_map.mp hg
    exact h.gens u hu g' hg'
  have noBoard : us.zipIdx.any (fun u => t.boardWaits (c + u.2) i.cmd.ser u.1) = false := by simpa using fun u k hu => h.board (u, k) hu
  have noDma : us.zipIdx.any (fun u => t.dmaWaits i.op (c + u.2) u.1) = false := by simpa using fun u k hu => h.dma (u, k) hu
  simp only [State.verdict, h.uses]
  rw [List.find?_eq_none.mpr fun g hg => by simp [gens g hg]]
  dsimp only
  rw [List.findSome?_eq_none_iff.mpr fun g hg => by simp [gens g hg]]
  simpa [noBoard, noDma] using hs

section
variable {s t : State} {c : Nat} {j : Job} {i : Issue} {us : List Uses} (h : Issues s c j i us t) (hj : (s.core c).job = some j)
include h hj

/-- A command that passes its checks and is neither a STILE nor a WAIT_TALLY goes on with its data. -/
theorem Issues.tryIssue_data (hs : i.op ≠ .stile) (ht : i.op ≠ .waitTally) :
    s.tryIssue c i = t.issueData c (s.issueWidth c i.cmd) i us := by
  simp [State.tryIssue, hj, h.runs, h.fur, h.reads, h.verdict (absurd · hs)]

/-- A WAIT_TALLY that passes its checks looks at its tally. -/
theorem Issues.tryIssue_tally (ht : i.op = .waitTally) : s.tryIssue c i = t.issueTally c (s.issueWidth c i.cmd) i.cmd := by
  have pass := h.verdict fun hs => by simp [ht] at hs
  simp only [State.tryIssue, hj, h.runs, h.fur, h.reads, pass]
  simp [ht]

/-- A STILE that passes its checks, with nothing in flight on its members, is taken. -/
theorem Issues.tryIssue_stile (hs : i.op = .stile) (hf : ∀ k < s.issueWidth c i.cmd, (t.core (c + k)).inflight = []) :
    s.tryIssue c i = (true, (t.noteIssue .stile c (s.issueWidth c i.cmd) i.cmd).takeStile c i.cmd) := by
  have pass := h.verdict fun _ => hf
  simp only [State.tryIssue, hj, h.runs, h.fur, h.reads, pass]
  simp [hs]

end

/-! ## The effect of a command -/

/-- A command whose requests are in time and whose operation meets no error is in flight. -/
theorem State.issueData_inFlight {t u : State} {c width : Nat} {i : Issue} {us : List Uses} (hg : i.op ≠ .dmaGate)
    (hlate : i.op.isTier = true → t.lateAtIssue c (t.tierTotal i.op c width i.cmd) = false)
    (hrun : ((t.updCore c (fun y => { y with wait := .none })).noteIssue i.op c width i.cmd).runWithin i.op c width i.cmd i.obs = (none, u)) :
    t.issueData c width i us = (true, u.enterFlight i.op c i.cmd us) := by
  have inTime : (i.op.isTier && t.lateAtIssue c (t.tierTotal i.op c width i.cmd)) = false := by simpa using hlate
  simp [State.issueData, inTime, hg, hrun]

/-- A transfer into a gate of another device that starts is in flight. -/
theorem State.issueData_started {t u : State} {c width : Nat} {cmd : TcCmd} {obs : List Obs} {us : List Uses}
    (hg : ((t.updCore c (fun y => { y with wait := .none })).noteIssue .dmaGate c width cmd).gateIssue c cmd obs = (.started, u)) :
    t.issueData c width ⟨.dmaGate, cmd, obs⟩ us = (true, u.enterFlight .dmaGate c cmd us) := by
  simp [State.issueData, TcOp.isTier, hg]

/-- A command that passes its checks keeps what waits at the cores, up to its operation. -/
theorem Issues.keeps_noted {s t : State} {c : Nat} {j : Job} {i : Issue} {us : List Uses} (h : Issues s c j i us t) (width : Nat) :
    SameQueues s ((t.updCore c (fun y => { y with wait := .none })).noteIssue i.op c width i.cmd) :=
  have unheld := SameQueues.updCore t c (f := fun y => { y with wait := .none }) (fun _ => rfl) (fun _ => rfl)
  (State.tcReads_keeps h.reads).trans (unheld.trans (State.noteIssue_keeps _ i.op c width i.cmd))

/-! ## Tract commands and the issue unit -/

/-- A tract command other than a STILE is brought to the issue unit of its core. -/
theorem exec_tract {i : Instr} {c : Nat} {x : Issue} (hx : tractIssue i = some (c, x)) (hs : x.op ≠ .stile) (s : State) :
    exec i s = s.command fun s => .next (s.tractCommand c x) := by
  unfold tractIssue at hx
  split at hx <;> cases hx
  case h_39 => exact absurd rfl hs
  all_goals rfl

/-- What a tract command other than a STILE completes with. -/
theorem after_tract {i : Instr} {c : Nat} {x : Issue} {s t : State} (hx : tractIssue i = some (c, x)) (hs : x.op ≠ .stile)
    (ht : s.tractCommand c x = t) : After i s t := by
  rw [After, exec_tract hx hs]
  exact State.command_next (congrArg _ ht)

/-- Settles O12: what passes its checks reaches its operation; reads, note, operation and flight leave the queues, so no other command or job
moves. -/
theorem tractCommandsIssue : Obligations.TractCommandsIssue := by
  intro i core x s j us t u hx hstile htally hgate hr p w h hlate hrun
  have job : (p.core core).job = some { j with fetch := j.fetch + 16 } := by simp [p, State.core_atIssue]
  have issue : p.tryIssue core x = (true, u.enterFlight x.op core x.cmd us) :=
    (h.tryIssue_data job hstile htally).trans (State.issueData_inFlight hgate hlate hrun)
  have keep : SameQueues p (u.enterFlight x.op core x.cmd us) :=
    (h.keeps_noted w).trans ((State.runWithin_keeps hrun).trans (State.enterFlight_keeps u x.op core x.cmd us))
  exact after_tract hx hstile (State.tractCommand_issued hr issue keep)

/-! ## Control commands -/

theorem State.gateIssue_keeps {s t : State} {c : Nat} {cmd : TcCmd} {obs : List Obs} {e : GateIssue} (h : s.gateIssue c cmd obs = (e, t)) :
    SameQueues s t :=
  have start := State.gateIssue_touches c cmd obs (.refl [.regs, .objs, .sent, .bin, .log, .sec, .hedge] s) (List.Subset.refl _)
  .of_touches (start.of_answer h) (by decide)

/-- The end of a job empties the queue of its core alone. -/
theorem State.queue_endJob (s : State) (c : Nat) (e : Ending) :
    (((s.endJob c e).core c).queue = (s.core c).queue ∨ ((s.endJob c e).core c).queue = []) ∧
    ∀ d ≠ c, (s.endJob c e).core d = s.core d := by
  have stops (l : List Nat) (u : State) : (l.foldl (fun s m => s.setFld .tcCtrlRun m 0) u).rota = u.rota :=
    (Touches.foldl (l := [.regs]) _ l (.refl _ u) fun _ m h => State.setFld_touches .tcCtrlRun m 0 h (List.Subset.refl _)).keep .rota (by decide)
  unfold State.endJob
  split
  · exact ⟨.inl rfl, fun _ _ => rfl⟩
  · split
    · exact ⟨.inl rfl, fun _ _ => rfl⟩
    · refine ⟨.inr ?_, fun d h => ?_⟩
      · rw [State.core_congr (stops _ _), State.core_updCore]
      · rw [State.core_congr (stops _ _), State.core_updCore_ne _ _ h]

theorem State.logIt_rota (s : State) (tag : LogTag) (source flags a0 a1 a2 : Nat) : (s.logIt tag source flags a0 a1 a2).rota = s.rota :=
  (State.logIt_touches tag source flags a0 a1 a2 (.refl [.objs, .log] s) (List.Subset.refl _)).keep .rota (by decide)

/-- A fault is recorded in the registers alone. -/
theorem State.recordFault_rota (s : State) (c code tag member mcode wher : Nat) :
    (s.recordFault c code tag member mcode wher).rota = s.rota := by
  unfold State.recordFault
  split
  · rfl
  · simp

/-- A fault ends the job of its core, once it is recorded and logged. -/
theorem State.tcFault_eq_endJob (s : State) (c i : Nat) (fur misuse : Bool) (tag code wher : Nat) (own : Bool) :
    ∃ (u : State) (e : Ending), s.tcFault c i fur misuse tag code wher own = u.endJob c e ∧ u.rota = s.rota := by
  refine ⟨_, _, rfl, ?_⟩
  simp only [apply_ite State.rota, State.logIt_rota, State.recordFault_rota, ite_self]

/-- A fault empties the queue of its core alone. -/
theorem State.queue_tcFault (s : State) (c i : Nat) (fur misuse : Bool) (tag code wher : Nat) (own : Bool) :
    (((s.tcFault c i fur misuse tag code wher own).core c).queue = (s.core c).queue ∨
      ((s.tcFault c i fur misuse tag code wher own).core c).queue = []) ∧
    ∀ d ≠ c, (s.tcFault c i fur misuse tag code wher own).core d = s.core d := by
  obtain ⟨u, e, hu, rota⟩ := State.tcFault_eq_endJob s c i fur misuse tag code wher own
  rw [hu]
  simpa only [State.core_congr rota] using State.queue_endJob u c e

/-- Draw `n` from a tally of each member (R102). -/
def State.drawTallies (s : State) (ms : List Nat) (k n : Nat) : State :=
  ms.foldl (fun s m => s.setFld .binTallyCount (m * 1024 + k) (s.tally m k - n)) s

theorem State.drawTallies_keeps (s : State) (ms : List Nat) (k n : Nat) : SameQueues s (s.drawTallies ms k n) :=
  SameQueues.foldl (fun s _ => SameQueues.of_rota (t := s.setFld _ _ _) rfl) ms s

/-- The state that a WAIT_TALLY leaves whose tally has reached its target (R48, R102). -/
def State.tallyIssued (s : State) (c width : Nat) (cmd : TcCmd) : State :=
  (((s.drawTallies ((List.range width).map (c + ·)) (bits cmd.pb 9 0) cmd.pa).noteIssue .waitTally c width cmd).updCore c
    (fun y => { y with wait := .none, tallyWait := none }))

theorem State.issueTally_met {s : State} {c width : Nat} {cmd : TcCmd} (h : s.tallyMet ((List.range width).map (c + ·)) cmd = true) :
    s.issueTally c width cmd = (true, s.tallyIssued c width cmd) :=
  if_pos h

theorem State.tallyIssued_keeps (s : State) (c width : Nat) (cmd : TcCmd) : SameQueues s (s.tallyIssued c width cmd) := by
  have drawn := State.drawTallies_keeps s ((List.range width).map (c + ·)) (bits cmd.pb 9 0) cmd.pa
  have noted := drawn.trans (State.noteIssue_keeps _ .waitTally c width cmd)
  exact noted.trans (SameQueues.updCore _ c (fun _ => rfl) (fun _ => rfl))

/-- A command of a reserved class reads only itself, and its check is a fault. -/
theorem State.tryIssue_reserved {s t : State} {c : Nat} {cmd : TcCmd} {j : Job} (hj : (s.core c).job = some j)
    (hstop : s.issueStopped c 1 = false) (hfur : cmd.fur = false)
    (hreads : s.tcReads [] (s.issueReads .reserved c 1 j cmd) = (none, t)) :
    s.tryIssue c ⟨.reserved, cmd, []⟩ = (true, t.tcFault c 0 false false cmd.tag 1 0 false) := by
  have width : s.issueWidth c cmd = 1 := by simp [State.issueWidth, hfur]
  have noMisuse (inFurrow : Bool) : furMisuse .reserved inFurrow false = false := by cases inFurrow <;> rfl
  have illegal : t.verdict .reserved c 1 j.part cmd = .fault 0 1 0 := rfl
  simp [State.tryIssue, hj, width, hstop, hfur, noMisuse, hreads, illegal]

/-- A STILE is brought to the issue unit of its core at its instant. -/
theorem after_stile {c at_ : Nat} {cmd : TcCmd} {obs : List Obs} {s t : State}
    (ht : (s.reach at_).tractCommand c ⟨.stile, cmd, obs⟩ = t) : After (.stilePoint c at_ cmd obs) s t := by
  change execStilePoint c at_ cmd s obs = _
  exact State.command_next (congrArg _ ht)

/-- Settles O13: a WAIT_TALLY and a gate transfer leave what waits at the cores, a STILE leaves a calm state by hypothesis, and a
reserved class faults, which empties the queue of its own core alone. -/
theorem tractControlCommandsComplete : Obligations.TractControlCommandsComplete := by
  refine ⟨?tally, ?gate, ?stile, ?reserved⟩
  case tally =>
    intro s core cmd j us t hr x p w ms h hmet
    have job : (p.core core).job = some { j with fetch := j.fetch + 16 } := by simp [p, State.core_atIssue]
    have issue := (h.tryIssue_tally job rfl).trans (State.issueTally_met hmet)
    have keep := (State.tcReads_keeps h.reads).trans (State.tallyIssued_keeps t core w cmd)
    exact after_tract rfl nofun (State.tractCommand_issued hr issue keep)
  case gate =>
    intro s core cmd obs j us t u hr x p w h hgate
    have job : (p.core core).job = some { j with fetch := j.fetch + 16 } := by simp [p, State.core_atIssue]
    have issue := (h.tryIssue_data job nofun nofun).trans (State.issueData_started hgate)
    have keep := (h.keeps_noted w).trans ((State.gateIssue_keeps hgate).trans (State.enterFlight_keeps u .dmaGate core cmd us))
    exact after_tract rfl nofun (State.tractCommand_issued hr issue keep)
  case stile =>
    intro s core at_ cmd obs j us t hr x p w u h hquiet hqueue hcalm
    have ⟨_, _, _, hc⟩ := hr
    have job : (p.core core).job = some { j with fetch := j.fetch + 16 } := by simp [p, State.core_atIssue]
    have issue := h.tryIssue_stile job rfl fun k hk => hquiet _ (List.mem_map.mpr ⟨k, List.mem_range.mpr hk, rfl⟩)
    refine after_stile ((State.tractCommand_tried hr issue hqueue fun d hd hne => ?_).trans ?_)
    · exact State.core_issued_ne u hne ▸ (State.calm_core hcalm hd).1
    · exact State.finishAll_none fun d hd => (State.calm_core hcalm hd).2
  case reserved =>
    intro s core cmd j t hr p hstop hfur hreads
    have ⟨_, _, calm, hc⟩ := hr
    have job : (p.core core).job = some { j with fetch := j.fetch + 16 } := by simp [p, State.core_atIssue]
    obtain ⟨own, other⟩ := State.queue_tcFault t core 0 false false cmd.tag 1 0 false
    have reads := State.tcReads_keeps hreads
    refine after_tract rfl nofun (State.tractCommand_tried hr (State.tryIssue_reserved job hstop hfur hreads) ?_ fun d hd hne => ?_)
    · simpa [(reads core).1, p, State.core_atIssue] using own
    · rw [other d hne, (reads d).1, State.core_atIssue_ne _ _ _ hne]
      exact (State.calm_core calm hd).1


/-! ## Core events -/

/-- The passing of time changes no core. -/
@[simp] theorem State.core_reach (s : State) (t c : Nat) : (s.reach t).core c = s.core c := rfl

/-- The oldest command of a tag, once it sends no more, leaves the scoreboards of its members. -/
theorem State.freeCommand_found {s : State} {c tag : Nat} {f : InFlight} (hf : (s.core c).inflight.find? (fun x => x.tag == tag) = some f)
    (hs : s.stillSends c f = false) :
    s.freeCommand c tag = (if f.fur then s.members c else [c]).foldl
      (fun s' m => (s'.delivers m tag f.fur).updCore m (fun x => { x with inflight := dropTag tag f.fur x.inflight })) s := by
  simp [State.freeCommand, hf, hs]

/-- What DRAM has delivered is noted in the Unified Range alone. -/
theorem State.delivers_rota (s : State) (m tag : Nat) (fur : Bool) : (s.delivers m tag fur).rota = s.rota := by
  unfold State.delivers
  split
  · unfold State.noteDelivered; split <;> rfl
  · rfl

/-- The end of a command in flight leaves what waits at the cores. -/
theorem State.freeCommand_keeps (s : State) (c tag : Nat) : SameQueues s (s.freeCommand c tag) := by
  unfold State.freeCommand
  split
  · exact .of_rota rfl
  · next f _ =>
    split
    · exact .of_rota rfl
    · refine SameQueues.foldl (fun s m => ?_) _ s
      exact (SameQueues.of_rota (State.delivers_rota s m tag f.fur)).trans (SameQueues.updCore _ m (fun _ => rfl) (fun _ => rfl))

/-- A tract with no command that waits or is in flight ends its job well (R221). -/
theorem State.endTract_idle {s : State} {c : Nat} (hq : (s.core c).queue = []) (hf : s.quiet c = true) :
    s.endTract c = s.endJob c ⟨0, 0, 0, 0, false⟩ := by
  simp [State.endTract, hq, hf]

/-- A split mode below 3 is taken when no lease is held on a hearth whose kind would change (R69). -/
theorem State.setSplit_legal {s : State} {core split : Nat} (hm : split < 3)
    (hl : ∀ h ∈ splitChanges (s.fld .hearthCfgSplit core) split, s.leasesOn core h = []) :
    s.setSplit core split = s.setFld .hearthCfgSplit core split := by
  have free : (splitChanges (s.fld .hearthCfgSplit core) split).any (fun h => !(s.leasesOn core h).isEmpty) = false := by
    simpa using fun h hh => hl h hh
  simp [State.setSplit, free, Nat.not_le.mpr hm]

/-- A job outside a guarded network that has a fallback and is not on it switches to it (R126). -/
theorem State.switchFallback_switches {s : State} {c : Nat} {j : Job} (hj : (s.core c).job = some j) (hf : j.fbTract ≠ none)
    (hd : j.degraded = false) (hs : j.switching = false) (hn : j.net = none) :
    s.switchFallback c = (true, ((s.updCore c (fun x =>
      { x with
        job := some { j with switching := true }
        queue := []
        wait := .none
        tallyWait := none })).bumpFld .urCntCount 4 1).bumpObj .fallbacks (j.part + 1) 1) := by
  simp [State.switchFallback, hj, hf, hd, hs, hn]

/-- Settles O14: each event's guard holds by the hypotheses, so that its meaning is the effect stated; a command that completes leaves what waits
at the cores, so a calm state stays settled. -/
theorem coreEventsComplete : Obligations.CoreEventsComplete := by
  refine ⟨?complete, ?last, ?timeout, ?swapIn, ?swapOut, ?split, ?halt, ?deadline, ?fallback, ?save, ?restore⟩
  case complete =>
    intro s core tag at_ f calm hf hs
    have kept : SameQueues s ((s.reach at_).freeCommand core tag) :=
      (SameQueues.of_rota rfl).trans (State.freeCommand_keeps (s.reach at_) core tag)
    have freed : (s.reach at_).freeCommand core tag = _ := State.freeCommand_found hf hs
    change execCommandComplete core tag false at_ s = _
    refine State.command_next ?_
    simp only [Bool.false_eq_true, if_false, State.settle_calm (kept.calm calm)]
    rw [freed]
    rfl
  case last =>
    intro s core tag at_ f u _ hq hquiet
    change execCommandComplete core tag true at_ s = _
    refine State.command_next ?_
    simp only [if_true]
    rw [State.endTract_idle hq hquiet]
  case timeout =>
    intro s core t k h
    change execWaitTallyTimeout core s = _
    refine State.command_next ?_
    simp only [h]
  case swapIn =>
    intro s core hearth at_ l hl hlost
    have found : ((s.reach at_).leasesOn core hearth).find? _ = some l := hl
    have readBack : (s.reach at_).swapLost l false = false := hlost
    change execHearthSwapInComplete core hearth false at_ s = _
    refine State.command_next ?_
    simp only [found, readBack]
    rfl
  case swapOut =>
    intro s core hearth l hl
    change execHearthSwapOutComplete core hearth s = _
    refine State.command_next ?_
    simp only [hl]
  case split =>
    intro s core split hm hl
    change execHearthCfgWrite core split true s = _
    refine State.command_next ?_
    simp only [if_true, State.setSplit_legal hm hl]
  case halt =>
    intro s core halt
    change execTcCtrlHalt core halt true s = _
    refine State.command_next ?_
    rfl
  case deadline =>
    intro s core slot at_ j d f hj he hf hd hlate hfb hdeg hsw hn
    have switched : (s.reach at_).switchFallback core = _ := State.switchFallback_switches hj hfb hdeg hsw hn
    change execDeadlineExpiry core slot at_ s = _
    refine State.command_next ?_
    rw [if_pos, switched]
    simp only [Bool.and_eq_true, Bool.or_eq_true, List.any_eq_true]
    exact ⟨⟨.inl ⟨f, hf, by simp [hd, hlate]⟩, Option.isSome_of_eq_some hj⟩, Option.isNone_iff_eq_none.mpr he⟩
  case fallback =>
    intro s core j hj hsw hq he
    change execFallbackStart core s = _
    refine State.command_next ?_
    simp [hj, hsw, hq, he]
  case save =>
    intro s core at_ hsw hswap
    change execPreEmptionSaveComplete core at_ s = _
    refine State.command_next ?_
    rw [if_neg (by simpa [hswap] using hsw)]
    rfl
  case restore =>
    intro s core at_ j y hin hsw hy hbad
    change execSwitchRestoreComplete core false at_ s = _
    refine State.command_next ?_
    have suspended : ((s.reach at_).wslot j.part (j.slot.getD 0)).suspended = some y := hy
    simp only [State.core_reach, hin]
    rw [if_neg (by simpa using hsw)]
    simp only [suspended, hbad, Bool.or_self, Bool.false_eq_true, if_false]
    rfl

end Sys2Proof.Machine

/-!
PROOFS. The floating-point formats (spec 03, R49 to R52): the fields of a code, the value they stand for, and the code that the value narrows to.
-/
namespace Sys2Proof.Machine

/-! ## Fields of a floating-point code -/

/-- The fields of a code lie side by side, the mantissa lowest (R49). -/
theorem FpFmt.pack_eq_packed (f : FpFmt) (neg : Bool) (ex ma : Nat) :
    f.pack neg ex ma = packed [(f.mbits, ma), (f.ebits, ex), (1, b2n neg)] := by
  simp only [FpFmt.pack, packed, Nat.pow_add, Nat.mul_zero, Nat.add_zero, Nat.mul_add]
  rw [Nat.mul_comm (b2n neg), Nat.mul_comm ex, Nat.mul_comm (2 ^ f.ebits), Nat.mul_assoc]
  omega

/-- A number below 2 is read as a truth value and back. -/
theorem b2n_decide_eq_one {n : Nat} (hn : n < 2) : b2n (decide (n = 1)) = n := by
  match n, hn with
  | 0, _ => rfl
  | 1, _ => rfl

/-- Every code of a format is packed from a sign, an exponent field and a mantissa field. -/
theorem FpFmt.exists_pack {f : FpFmt} {w : Nat} (hw : w < 2 ^ (1 + f.ebits + f.mbits)) :
    ∃ neg, ∃ ex < 2 ^ f.ebits, ∃ ma < 2 ^ f.mbits, w = f.pack neg ex ma := by
  have top : w / 2 ^ f.mbits / 2 ^ f.ebits < 2 := by
    rw [Nat.div_lt_iff_lt_mul (Nat.two_pow_pos _), Nat.div_lt_iff_lt_mul (Nat.two_pow_pos _)]
    rwa [Nat.mul_assoc, ← Nat.pow_add, ← Nat.pow_succ', Nat.succ_eq_add_one, Nat.add_right_comm, Nat.add_comm f.ebits 1]
  refine ⟨decide (w / 2 ^ f.mbits / 2 ^ f.ebits = 1), w / 2 ^ f.mbits % 2 ^ f.ebits, Nat.mod_lt _ (Nat.two_pow_pos _),
    w % 2 ^ f.mbits, Nat.mod_lt _ (Nat.two_pow_pos _), ?_⟩
  rw [FpFmt.pack_eq_packed]
  simp only [packed, b2n_decide_eq_one top, Nat.mul_zero, Nat.add_zero, Nat.mod_add_div]

/-- Every floating-point format of R49 has a mantissa field. -/
theorem FpFmt.one_le_mbits : ∀ f ∈ [fmtE4M3, fmtE5M2, fmtBF16, fmtFP16, fmtFP32], 1 ≤ f.mbits := by decide

/-- A significand that fits the precision, and is normal or at the smallest quantum, is not rounded (R50). -/
theorem roundDyadic_exact {p m : Nat} {qmin e : Int} (hm : m < 2 ^ p) (he : qmin ≤ e) (hq : e = qmin ∨ 2 ^ (p - 1) ≤ m) :
    roundDyadic p qmin m e = (m, e) := by
  unfold roundDyadic
  split
  next zero =>
    have small : ¬ 2 ^ (p - 1) ≤ m := zero ▸ Nat.not_le.mpr (Nat.two_pow_pos _)
    rw [zero, hq.resolve_right small]
  next nonzero =>
    have upper : m.log2 < p := (Nat.log2_lt nonzero).mpr hm
    have quantum : max (e + (m.log2 + 1 : Nat) - p) qmin = e := by
      rcases hq with rfl | normal
      · omega
      · have lower : p - 1 ≤ m.log2 := (Nat.le_log2 nonzero).mpr normal
        omega
    simp only [quantum, Int.le_refl, if_true, Int.sub_self, Int.toNat_zero, Nat.pow_zero, Nat.mul_one, if_neg (Nat.ne_of_lt hm)]

/-- An infinity stays infinite in a format that encodes it (R51). -/
theorem FpFmt.narrow_inf {f : FpFmt} (neg : Bool) (hf : f.hasInf = true) : f.narrow (.inf neg) = (f.pack neg (2 ^ f.ebits - 1) 0, false) :=
  if_pos hf

/-- A finite number within the range of the format narrows to its fields (R52). -/
theorem FpFmt.narrow_fin {f : FpFmt} {m ex ma : Nat} {e : Int} (neg : Bool) (hf : f.fields m e = (ex, ma)) (hr : f.tooBig (ex, ma) = false) :
    f.narrow (.fin neg m e) = (f.pack neg ex ma, false) := by
  simp only [FpFmt.narrow, hf, hr, Bool.false_eq_true, if_false]

section
variable {f : FpFmt} {neg : Bool} {ex ma : Nat} (hma : ma < 2 ^ f.mbits)
include hma

/-! ## Numbers that a format holds -/

/-- A subnormal number keeps its mantissa, under the exponent field 0. -/
theorem FpFmt.fields_subnormal : f.fields ma (1 - (f.bias : Int) - f.mbits) = (0, ma) := by
  have precise : ma < 2 ^ (f.mbits + 1) := by rw [Nat.pow_succ]; omega
  rw [FpFmt.fields, roundDyadic_exact precise (Int.le_refl _) (.inl rfl)]
  exact if_pos hma

/-- A normal number keeps its exponent and its mantissa. -/
theorem FpFmt.fields_normal (hex : ex ≠ 0) : f.fields (2 ^ f.mbits + ma) ((ex : Int) - f.bias - f.mbits) = (ex, ma) := by
  have precise : 2 ^ f.mbits + ma < 2 ^ (f.mbits + 1) := by rw [Nat.pow_succ]; omega
  have leading : 2 ^ f.mbits ≤ 2 ^ f.mbits + ma := Nat.le_add_right _ _
  rw [FpFmt.fields, roundDyadic_exact precise (by omega) (.inr leading), if_neg (Nat.not_lt.mpr leading)]
  exact Prod.ext (show ((ex : Int) - f.bias - f.mbits + f.bias + f.mbits).toNat = ex by omega) (Nat.add_sub_cancel_left _ _)

/-- Fields that encode neither an infinity nor a NaN are within the range of their format. -/
theorem FpFmt.tooBig_finite (hex : ex < 2 ^ f.ebits) (hfin : ¬ (ex = 2 ^ f.ebits - 1 ∧ (f.hasInf = true ∨ ma = 2 ^ f.mbits - 1))) :
    f.tooBig (ex, ma) = false := by
  simp only [FpFmt.tooBig, Bool.or_eq_false_iff, Bool.and_eq_false_imp, decide_eq_false_iff_not, decide_eq_true_eq, Nat.not_lt]
  cases hinf : f.hasInf with
  | true =>
    have below : ex ≠ 2 ^ f.ebits - 1 := fun top => hfin ⟨top, .inl hinf⟩
    simp only [FpFmt.maxExp, FpFmt.maxMant, hinf, if_true]
    omega
  | false =>
    have apart : ex = 2 ^ f.ebits - 1 → ma ≠ 2 ^ f.mbits - 1 := fun top ones => hfin ⟨top, .inr ones⟩
    simp only [FpFmt.maxExp, FpFmt.maxMant, hinf, Bool.false_eq_true, if_false]
    omega

/-! ## The code read back -/

/-- The value of a code in its fields (R49). -/
theorem FpFmt.decode_pack (hm : 1 ≤ f.mbits) (hex : ex < 2 ^ f.ebits) :
    f.decode (f.pack neg ex ma) =
      if ex = 2 ^ f.ebits - 1 ∧ (f.hasInf = true ∨ ma = 2 ^ f.mbits - 1) then
        (if f.hasInf = true ∧ ma = 0 then .inf neg else .nan)
      else if ex = 0 then .fin neg ma (1 - (f.bias : Int) - f.mbits)
      else .fin neg (2 ^ f.mbits + ma) ((ex : Int) - f.bias - f.mbits) := by
  have fit : ∀ x ∈ [(f.mbits, ma), (f.ebits, ex), (1, b2n neg)], x.2 < 2 ^ x.1 := by
    simp only [List.forall_mem_cons, hma, hex, b2n_lt, List.not_mem_nil, false_implies, implies_true, and_self]
  have mant : bits (f.pack neg ex ma) (f.mbits - 1) 0 = ma := by
    have width : f.mbits - 1 + 1 - 0 = f.mbits := by omega
    rw [FpFmt.pack_eq_packed]
    exact bits_packed fit 0 (by rw [width]; rfl) rfl
  have expo : bits (f.pack neg ex ma) (f.ebits + f.mbits - 1) f.mbits = ex := by
    have width : f.ebits + f.mbits - 1 + 1 - f.mbits = f.ebits := by omega
    rw [FpFmt.pack_eq_packed]
    exact bits_packed fit 1 (by rw [width]; rfl) rfl
  have sign : bit (f.pack neg ex ma) (f.ebits + f.mbits) = neg := by
    rw [FpFmt.pack_eq_packed]
    exact bit_packed fit 2 rfl (Nat.add_comm f.mbits f.ebits)
  simp only [FpFmt.decode, mant, expo, sign]

end

/-- Settles O44: a code is its sign, exponent and mantissa, and each kind of value that they can stand for, an infinity, a subnormal or a normal
number, narrows to the fields that it came from. -/
theorem narrowingReadsBack : Obligations.NarrowingReadsBack := by
  intro f hf w hw hnan
  obtain ⟨neg, ex, hex, ma, hma, rfl⟩ := FpFmt.exists_pack hw
  rw [FpFmt.decode_pack hma (FpFmt.one_le_mbits f hf) hex] at hnan ⊢
  split at hnan
  next special =>
    rw [if_pos special]
    split at hnan
    next infinite =>
      rw [if_pos infinite, FpFmt.narrow_inf neg infinite.1, special.1, infinite.2]
    next => exact absurd rfl hnan
  next finite =>
    rw [if_neg finite]
    have within := FpFmt.tooBig_finite hma hex finite
    split
    next subnormal =>
      subst subnormal
      exact FpFmt.narrow_fin neg (FpFmt.fields_subnormal hma) within
    next normal => exact FpFmt.narrow_fin neg (FpFmt.fields_normal hma normal) within

end Sys2Proof.Machine

/-!
PROOFS. The generation of a lease (spec 04, R72): the value that the counter steps to, and the hearths that take it.
-/
namespace Sys2Proof.Machine

/-! ## The next free value -/

/-- The value that a counter at `g` reaches when it passes over `i` values: from 1 to 4,095 and round again. -/
def genAfter (g i : Nat) : Nat := (g + i) % 4095 + 1

/-- The generation is the first value, in the counter's order, that is not used. -/
theorem nextGen_eq_genAfter {used : List Nat} {g i : Nat}
    (hi : (List.range 4095).find? (fun i => !used.contains (genAfter g i)) = some i) : nextGen used g = genAfter g i := by
  change (((List.range 4095).map (genAfter g)).find? (fun x => !used.contains x)).getD 1 = _
  have found : (List.range 4095).find? ((fun x => !used.contains x) ∘ genAfter g) = some i := hi
  rw [List.find?_map, found]
  rfl

/-- A counter meets 4,095 different values before it comes round. -/
theorem nodup_genAfter (g : Nat) : ((List.range 4095).map (genAfter g)).Nodup := by
  refine List.pairwise_map.mpr (List.Pairwise.imp_of_mem (fun hi hj apart same => apart ?_) List.nodup_range)
  rw [List.mem_range] at hi hj
  unfold genAfter at same
  omega

/-- Fewer than 4,095 values leave one free. -/
theorem exists_genAfter_not_mem {used : List Nat} (g : Nat) (hu : used.length < 4095) : ∃ i < 4095, genAfter g i ∉ used := by
  refine Classical.byContradiction fun none => ?_
  have taken : ∀ i ∈ List.range 4095, genAfter g i ∈ used := fun i hi =>
    Classical.byContradiction fun free => none ⟨i, List.mem_range.mp hi, free⟩
  have sub : (List.range 4095).map (genAfter g) ⊆ used := List.forall_mem_map.mpr taken
  have long := List.Nodup.length_le_of_subset (nodup_genAfter g) sub
  rw [List.length_map, List.length_range] at long
  omega

/-- With fewer than 4,095 values used, the counter passes over used values alone and stops at a free one. -/
theorem nextGen_first_free {used : List Nat} (g : Nat) (hu : used.length < 4095) :
    ∃ i < 4095, nextGen used g = genAfter g i ∧ nextGen used g ∉ used ∧ ∀ j < i, genAfter g j ∈ used := by
  obtain ⟨k, hk, free⟩ := exists_genAfter_not_mem g hu
  have someFree : ((List.range 4095).find? (fun i => !used.contains (genAfter g i))).isSome := by
    rw [List.find?_isSome]
    exact ⟨k, List.mem_range.mpr hk, by simpa using free⟩
  obtain ⟨i, hi⟩ := Option.isSome_iff_exists.mp someFree
  have value := nextGen_eq_genAfter hi
  obtain ⟨freeAt, inRange, before⟩ := List.find?_range_eq_some.mp hi
  refine ⟨i, List.mem_range.mp inRange, value, ?_, fun j hj => ?_⟩
  · rw [value]
    simpa using freeAt
  · simpa using before j hj

/-! ## The hearths of a set -/

/-- One value put at the keys of a list is read at those keys, and every other key reads as before. -/
theorem SMap.get_foldl_put {α β : Type} [DecidableEq α] (key : β → Nat) (v d : α) (xs : List β) (m : SMap α) (k : Nat) :
    SMap.get (xs.foldl (fun m x => SMap.put m (key x) v d) m) k d = if k ∈ xs.map key then v else SMap.get m k d := by
  induction xs generalizing m with
  | nil => simp
  | cons x xs ih =>
    rw [List.foldl_cons, ih, List.map_cons]
    by_cases later : k ∈ xs.map key
    · rw [if_pos later, if_pos (List.mem_cons_of_mem _ later)]
    · rw [if_neg later]
      by_cases here : k = key x
      · rw [here, SMap.get_put_same, if_pos List.mem_cons_self]
      · rw [SMap.get_put_ne here, if_neg (List.not_mem_cons_of_ne_of_not_mem here later)]

/-- A hearth has a generation counter of its own: its key tells it among hearths numbered below 4. -/
theorem mem_map_genKey {cells : List (Nat × Nat)} {core hearth : Nat} (hc : ∀ x ∈ cells, x.2 < 4) (hh : hearth < 4) :
    core * 4 + hearth ∈ cells.map (fun x => x.1 * 4 + x.2) ↔ (core, hearth) ∈ cells := by
  rw [List.mem_map]
  refine ⟨fun ⟨x, hx, same⟩ => ?_, fun h => ⟨_, h, rfl⟩⟩
  have bound := hc x hx
  have place : x = (core, hearth) := Prod.ext (by omega) (by omega)
  exact place ▸ hx

/-- A step of the counter stores the new generation at every hearth of the set. -/
theorem State.stepGen_gen (s : State) (cells : List (Nat × Nat)) :
    (s.stepGen cells).2.hearth.gen =
      cells.foldl (fun m x => SMap.put m (x.1 * 4 + x.2) (s.stepGen cells).1 0) s.hearth.gen := by
  rw [State.stepGen]

/-- After a step of the counter every hearth of the set has the new generation, and the others keep theirs (R72). -/
theorem State.stepGen_genOf (s : State) {cells : List (Nat × Nat)} {hearth : Nat} (core : Nat) (hc : ∀ x ∈ cells, x.2 < 4)
    (hh : hearth < 4) :
    (s.stepGen cells).2.genOf core hearth = if (core, hearth) ∈ cells then (s.stepGen cells).1 else s.genOf core hearth := by
  simp only [State.genOf, State.stepGen_gen, SMap.get_foldl_put, mem_map_genKey hc hh]

/-- Settles O45: the search meets each of the 4,095 values once, so fewer used ones leave a first that is free, and the set's hearths
have keys that no other hearth shares. -/
theorem leaseGenerationIsNextFree : Obligations.LeaseGenerationIsNextFree :=
  ⟨fun _ g hu => nextGen_first_free g hu, fun s _ core _ hc hh => ⟨s.stepGen_genOf core hc hh, rfl, rfl⟩⟩

end Sys2Proof.Machine

/-!
PROOFS. The canonical form of the addressed memories (assumption 4): every command and every tick keeps it. Most meanings have their lemma in
Laws/; here stand those that have none, and the one for all commands.
-/
namespace Sys2Proof.Machine

/-- A tract command keeps the form: its issue does. -/
theorem MemNext.tractCommand {s : State} (c : Nat) (x : Issue) (hM : MemOk s) : MemNext (s.command fun s => .next (s.tractCommand c x)) :=
  .command (.next (State.tractCommand_mem c x hM))

theorem execStilePoint_mem (core at_ : Nat) (cmd : TcCmd) (obs : List Obs) {s : State} (hM : MemOk s) :
    MemNext (execStilePoint core at_ cmd s obs) :=
  .command (.next (State.tractCommand_mem core _ (State.reach_mem at_ hM)))

theorem execLedgerOpen_mem (type part handle a0 a1 a2 : Nat) (secure : Bool) (obs : List Obs) {s : State} (hM : MemOk s) :
    MemNext (execLedgerOpen type part handle a0 a1 a2 secure s obs) :=
  have started := State.lgFetch_mem (State.lgStart_mem 0 type part handle a0 a1 a2 hM)
  .command (.next (State.lgEnd_mem _ (State.lgOpen_mem _ _ _ _ _ _ _ _ started)))

theorem execLedgerClose_mem (handle : Nat) (secure : Bool) (obs : List Obs) {s : State} (hM : MemOk s) :
    MemNext (execLedgerClose handle secure s obs) :=
  have started := State.lgFetch_mem (State.lgStart_mem 1 _ _ handle _ _ _ hM)
  .command (.next (State.settle_mem (State.lgEnd_mem _ (State.lgClose_mem _ _ _ started))))

theorem execLedgerTruncate_mem (handle len : Nat) (secure : Bool) (obs : List Obs) {s : State} (hM : MemOk s) :
    MemNext (execLedgerTruncate handle len secure s obs) :=
  have started := State.lgFetch_mem (State.lgStart_mem 2 _ _ handle len _ _ hM)
  .command (.next (State.lgEnd_mem _ (State.lgTruncate_mem _ _ _ _ started)))

theorem execRegisterWrite_mem (addr value : Nat) (secure read : Bool) {s : State} (hM : MemOk s) :
    MemNext (execRegisterWrite addr value secure s read) := by
  refine .command (.ite (.next (State.reservedAccess_mem addr hM)) (.ite (.next hM) ?_))
  split
  · exact .next (.ite (State.readWindow_mem _ _ _ _ hM) (State.writeWindow_mem _ _ _ _ hM))
  · exact .next (.ite (State.readReg_mem _ _ _ hM) (State.writeReg_mem _ _ _ hM))
  · exact .next (.ite (State.send_mem _ hM) hM)

theorem execDramTrainingComplete_mem (quad : Nat) (failed : Option Nat) (rfm : Nat) {s : State} (hM : MemOk s) :
    MemNext (execDramTrainingComplete quad failed s rfm) := by
  refine .command (.ite (.next hM) ?_)
  split
  · have trained : MemOk ({ s with mc := { s.mc with
        trained := if bit s.mc.trained quad then s.mc.trained else s.mc.trained + 2 ^ quad, rfmLimit := rfm } }.setFld
        .mcStatusRfmAvail 0 (b2n (decide (rfm ≠ 0)))) := State.setFld_mem _ _ _ (hM.same rfl)
    exact .next (.ite (State.mcAdmit_mem ((State.setFlds_mem 0 _ trained).same rfl)) trained)
  · refine .ite (.next ?_) (.ite (.next ?_) (.next ?_))
    · exact State.setFld_mem _ _ _ (hM.same rfl)
    · exact State.logIt_mem _ _ _ _ _ _ (State.setFld_mem _ _ _ (State.setFld_mem _ _ _ hM))
    · exact State.setFld_mem _ _ _ (hM.same rfl)

/-- Every command keeps the form of the memories: each meaning does. -/
theorem exec_mem (i : Instr) {s : State} (hM : MemOk s) : MemNext (exec i s) := by
  cases i with
  | gemmNSplit | gemmKSplit | gemmBTransposed | convDense | convDiagonal | attnForward | attnBackward | scanDiagonal
  | scanMatrixValued | scanStep | vecCopy | vecAdd | vecMultiply | vecFusedMultiplyAdd | vecMaximum | vecMinimum | vecExp
  | vecLog | vecReciprocal | vecSigmoid | vecTanh | vecSilu | vecGelu | vecSumAlongD0 | vecMaximumAlongD0 | vecRequantise
  | poolMax | poolAverage | dmaUnifiedRangeToBin | dmaBinToUnifiedRange | dmaBinToBin | dmaBinToRemoteGate | waitTally
  | scalePerRowAbsoluteMaximum | scaleLoad | scaleAdapt | spillOut | spillIn | reservedClassCommand => exact MemNext.tractCommand _ _ hM
  | stilePoint => exact execStilePoint_mem (hM := hM) ..
  | commandComplete => exact execCommandComplete_mem (hM := hM) ..
  | waitTallyTimeout => exact execWaitTallyTimeout_mem (hM := hM) ..
  | hearthSwapInComplete => exact execHearthSwapInComplete_mem (hM := hM) ..
  | hearthSwapOutComplete => exact execHearthSwapOutComplete_mem (hM := hM) ..
  | hearthCfgWrite => exact execHearthCfgWrite_mem (hM := hM) ..
  | binPortAccess => exact execBinPortAccess_mem (hM := hM) ..
  | correctedWordWriteBack => exact execCorrectedWordWriteBack_mem (hM := hM) ..
  | binInit => exact execBinInit_mem (hM := hM) ..
  | binZeroingComplete => exact execBinZeroingComplete_mem (hM := hM) ..
  | patrolScrub => exact execPatrolScrub_mem (hM := hM) ..
  | slotMapWrite => exact execSlotMapWrite_mem (hM := hM) ..
  | binRepair => exact execBinRepair_mem (hM := hM) ..
  | fieldRowRepair => exact execFieldRowRepair_mem (hM := hM) ..
  | gateOpen => exact execGateOpen_mem (hM := hM) ..
  | gateClose => exact execGateClose_mem (hM := hM) ..
  | gateArrival => exact execGateArrival_mem (hM := hM) ..
  | tallyWrite => exact execTallyWrite_mem (hM := hM) ..
  | unifiedRangeAccess => exact execUnifiedRangeAccess_mem (hM := hM) ..
  | granaryFillComplete => exact execGranaryFillComplete_mem (hM := hM) ..
  | granaryWriteBackComplete => exact execGranaryWriteBackComplete_mem (hM := hM) ..
  | migrationDecay => exact execMigrationDecay_mem (hM := hM) ..
  | urPin => exact execUrPin_mem (hM := hM) ..
  | urUnpin => exact execUrUnpin_mem (hM := hM) ..
  | urQuotaWrite => exact execUrQuotaWrite_mem (hM := hM) ..
  | urPstateWrite => exact execUrPstateWrite_mem (hM := hM) ..
  | deadlineExpiry => exact execDeadlineExpiry_mem (hM := hM) ..
  | fallbackStart => exact execFallbackStart_mem (hM := hM) ..
  | quarterRetireComplete => exact execQuarterRetireComplete_mem (hM := hM) ..
  | quarterLoss => exact execQuarterLoss_mem (hM := hM) ..
  | dramRequest => exact execDramRequest_mem (hM := hM) ..
  | dramRequestComplete => exact execDramRequestComplete_mem (hM := hM) ..
  | perBankRefresh => exact execPerBankRefresh_mem (hM := hM) ..
  | mr4Read => exact execMr4Read_mem (hM := hM) ..
  | actWindowClear => exact execActWindowClear_mem (hM := hM) ..
  | dramTrainingComplete => exact execDramTrainingComplete_mem (hM := hM) ..
  | periodicRetrain => exact execPeriodicRetrain_mem (hM := hM) ..
  | forcedRetrainUpdate => exact execForcedRetrainUpdate_mem (hM := hM) ..
  | dramPowerDown => exact execDramPowerDown_mem (hM := hM) ..
  | mcRegionWrite => exact execMcRegionWrite_mem (hM := hM) ..
  | ledgerOpen => exact execLedgerOpen_mem (hM := hM) ..
  | ledgerClose => exact execLedgerClose_mem (hM := hM) ..
  | ledgerTruncate => exact execLedgerTruncate_mem (hM := hM) ..
  | ledgerRead => exact execLedgerRead_mem (hM := hM) ..
  | svLeaseWrite => exact execSvLeaseWrite_mem (hM := hM) ..
  | svDoorbell => exact execSvDoorbell_mem (hM := hM) ..
  | sieveDecode => exact execSieveDecode_mem (hM := hM) ..
  | sieveCrop => exact execSieveCrop_mem (hM := hM) ..
  | sieveCallComplete => exact execSieveCallComplete_mem (hM := hM) ..
  | partApply => exact execPartApply_mem (hM := hM) ..
  | partitionApplyResume => exact execPartitionApplyResume_mem (hM := hM) ..
  | submissionDoorbell => exact execSubmissionDoorbell_mem (hM := hM) ..
  | periodicRelease => exact execPeriodicRelease_mem (hM := hM) ..
  | preEmptionSaveComplete => exact execPreEmptionSaveComplete_mem (hM := hM) ..
  | switchRestoreComplete => exact execSwitchRestoreComplete_mem (hM := hM) ..
  | cqheadWrite => exact execCqheadWrite_mem (hM := hM) ..
  | rotaAbort => exact execRotaAbort_mem (hM := hM) ..
  | guardedRelease => exact execGuardedRelease_mem (hM := hM) ..
  | selftestSegmentEnd => exact execSelftestSegmentEnd_mem (hM := hM) ..
  | hpFeedEnable => exact execHpFeedEnable_mem (hM := hM) ..
  | hpFeedDisable => exact execHpFeedDisable_mem (hM := hM) ..
  | hpDoorbell => exact execHpDoorbell_mem (hM := hM) ..
  | laneSampleStart => exact execLaneSampleStart_mem (hM := hM) ..
  | sampleFinish => exact execSampleFinish_mem (hM := hM) ..
  | sampleBudgetExpiry => exact execSampleBudgetExpiry_mem (hM := hM) ..
  | hpRelease => exact execHpRelease_mem (hM := hM) ..
  | csiFrameStart => exact execCsiFrameStart_mem (hM := hM) ..
  | csiLongPacket => exact execCsiLongPacket_mem (hM := hM) ..
  | csiFrameEnd => exact execCsiFrameEnd_mem (hM := hM) ..
  | cameraHotplugLoss => exact execCameraHotplugLoss_mem (hM := hM) ..
  | csiLossTimeout => exact execCsiLossTimeout_mem (hM := hM) ..
  | frameStartTimeout => exact execFrameStartTimeout_mem (hM := hM) ..
  | gapRecord => exact execGapRecord_mem (hM := hM) ..
  | osEnable => exact execOsEnable_mem (hM := hM) ..
  | osDisable => exact execOsDisable_mem (hM := hM) ..
  | osRelease => exact execOsRelease_mem (hM := hM) ..
  | camColourWrite => exact execCamColourWrite_mem (hM := hM) ..
  | audioBlock => exact execAudioBlock_mem (hM := hM) ..
  | audStreamEnable => exact execAudStreamEnable_mem (hM := hM) ..
  | audioRelease => exact execAudioRelease_mem (hM := hM) ..
  | vadFrame => exact execVadFrame_mem (hM := hM) ..
  | spanPush => exact execSpanPush_mem (hM := hM) ..
  | spanPushComplete => exact execSpanPushComplete_mem (hM := hM) ..
  | watchVerdictAccept => exact execWatchVerdictAccept_mem (hM := hM) ..
  | watchVerdictReject => exact execWatchVerdictReject_mem (hM := hM) ..
  | verifyTimeout => exact execVerifyTimeout_mem (hM := hM) ..
  | lockOpenExpiry => exact execLockOpenExpiry_mem (hM := hM) ..
  | erasingComplete => exact execErasingComplete_mem (hM := hM) ..
  | watchPull => exact execWatchPull_mem (hM := hM) ..
  | watchSpanWrite => exact execWatchSpanWrite_mem (hM := hM) ..
  | muteAssert => exact execMuteAssert_mem (hM := hM) ..
  | muteRelease => exact execMuteRelease_mem (hM := hM) ..
  | listenMicLost => exact execListenMicLost_mem (hM := hM) ..
  | buttonChange => exact execButtonChange_mem (hM := hM) ..
  | buttonLong => exact execButtonLong_mem (hM := hM) ..
  | recoveryDecision => exact execRecoveryDecision_mem (hM := hM) ..
  | touchScan => exact execTouchScan_mem (hM := hM) ..
  | hpdChange => exact execHpdChange_mem (hM := hM) ..
  | shutterChange => exact execShutterChange_mem (hM := hM) ..
  | doorLedWrite => exact execDoorLedWrite_mem (hM := hM) ..
  | comparatorStart => exact execComparatorStart_mem (hM := hM) ..
  | comparatorComplete => exact execComparatorComplete_mem (hM := hM) ..
  | wwKickArm => exact execWwKickArm_mem (hM := hM) ..
  | wwKick => exact execWwKick_mem (hM := hM) ..
  | watchdogLimitExpiry => exact execWatchdogLimitExpiry_mem (hM := hM) ..
  | safeFaultClear => exact execSafeFaultClear_mem (hM := hM) ..
  | safeInjectCompare => exact execSafeInjectCompare_mem (hM := hM) ..
  | safeInjectWatchdog => exact execSafeInjectWatchdog_mem (hM := hM) ..
  | boundaryRegionWrite => exact execBoundaryRegionWrite_mem (hM := hM) ..
  | regionZeroingComplete => exact execRegionZeroingComplete_mem (hM := hM) ..
  | secWmapWrite => exact execSecWmapWrite_mem (hM := hM) ..
  | keySlotAgree => exact execKeySlotAgree_mem (hM := hM) ..
  | keySlotDerive => exact execKeySlotDerive_mem (hM := hM) ..
  | keySlotClear => exact execKeySlotClear_mem (hM := hM) ..
  | secUnwrap => exact execSecUnwrap_mem (hM := hM) ..
  | unwrapComplete => exact execUnwrapComplete_mem (hM := hM) ..
  | attestNonceWrite => exact execAttestNonceWrite_mem (hM := hM) ..
  | attestReportSigned => exact execAttestReportSigned_mem (hM := hM) ..
  | secMeasWrite => exact execSecMeasWrite_mem (hM := hM) ..
  | deviceRootFormed => exact execDeviceRootFormed_mem (hM := hM) ..
  | debugToken => exact execDebugToken_mem (hM := hM) ..
  | debugUnlock => exact execDebugUnlock_mem (hM := hM) ..
  | crierIdentify => exact execCrierIdentify_mem (hM := hM) ..
  | crierOpen => exact execCrierOpen_mem (hM := hM) ..
  | crierClose => exact execCrierClose_mem (hM := hM) ..
  | objectRead => exact execObjectRead_mem (hM := hM) ..
  | objectWrite => exact execObjectWrite_mem (hM := hM) ..
  | readBlock => exact execReadBlock_mem (hM := hM) ..
  | writeBlock => exact execWriteBlock_mem (hM := hM) ..
  | crierSubscribe => exact execCrierSubscribe_mem (hM := hM) ..
  | crierNotify => exact execCrierNotify_mem (hM := hM) ..
  | crierPull => exact execCrierPull_mem (hM := hM) ..
  | crierAck => exact execCrierAck_mem (hM := hM) ..
  | sessionTimeout => exact execSessionTimeout_mem (hM := hM) ..
  | resultPublish => exact execResultPublish_mem (hM := hM) ..
  | almanacSave => exact execAlmanacSave_mem (hM := hM) ..
  | almanacSaveComplete => exact execAlmanacSaveComplete_mem (hM := hM) ..
  | almanacRestore => exact execAlmanacRestore_mem (hM := hM) ..
  | arpRequest => exact execArpRequest_mem (hM := hM) ..
  | icmpEcho => exact execIcmpEcho_mem (hM := hM) ..
  | tc10RemoteWake => exact execTc10RemoteWake_mem (hM := hM) ..
  | gptpMessage => exact execGptpMessage_mem (hM := hM) ..
  | hlPortUp => exact execHlPortUp_mem (hM := hM) ..
  | hlPortDown => exact execHlPortDown_mem (hM := hM) ..
  | hlRetrain => exact execHlRetrain_mem (hM := hM) ..
  | hlHello => exact execHlHello_mem (hM := hM) ..
  | hlData => exact execHlData_mem (hM := hM) ..
  | hlReply => exact execHlReply_mem (hM := hM) ..
  | hlLinkack => exact execHlLinkack_mem (hM := hM) ..
  | hlReplay => exact execHlReplay_mem (hM := hM) ..
  | hlReplyTimeout => exact execHlReplyTimeout_mem (hM := hM) ..
  | hlSyncSend => exact execHlSyncSend_mem (hM := hM) ..
  | hlSync => exact execHlSync_mem (hM := hM) ..
  | hlSyncLoss => exact execHlSyncLoss_mem (hM := hM) ..
  | nhlwakePulse => exact execNhlwakePulse_mem (hM := hM) ..
  | hlMgmt => exact execHlMgmt_mem (hM := hM) ..
  | governorPeriod => exact execGovernorPeriod_mem (hM := hM) ..
  | pmbusAlert => exact execPmbusAlert_mem (hM := hM) ..
  | logFlush => exact execLogFlush_mem (hM := hM) ..
  | updBegin => exact execUpdBegin_mem (hM := hM) ..
  | updData => exact execUpdData_mem (hM := hM) ..
  | updFinish => exact execUpdFinish_mem (hM := hM) ..
  | updCancel => exact execUpdCancel_mem (hM := hM) ..
  | updActivate => exact execUpdActivate_mem (hM := hM) ..
  | updVerifyComplete => exact execUpdVerifyComplete_mem (hM := hM) ..
  | updWriteComplete => exact execUpdWriteComplete_mem (hM := hM) ..
  | updCommitComplete => exact execUpdCommitComplete_mem (hM := hM) ..
  | idleEntry => exact execIdleEntry_mem (hM := hM) ..
  | dozeEntry => exact execDozeEntry_mem (hM := hM) ..
  | restEntry => exact execRestEntry_mem (hM := hM) ..
  | listenEntry => exact execListenEntry_mem (hM := hM) ..
  | stateEntryComplete => exact execStateEntryComplete_mem (hM := hM) ..
  | resumeComplete => exact execResumeComplete_mem (hM := hM) ..
  | wakeAlarm => exact execWakeAlarm_mem (hM := hM) ..
  | domainStart => exact execDomainStart_mem (hM := hM) ..
  | domainPowerGood => exact execDomainPowerGood_mem (hM := hM) ..
  | domainSwitchOff => exact execDomainSwitchOff_mem (hM := hM) ..
  | regOk => exact execRegOk_mem (hM := hM) ..
  | regOkTimeout => exact execRegOkTimeout_mem (hM := hM) ..
  | regRetry => exact execRegRetry_mem (hM := hM) ..
  | brownOut => exact execBrownOut_mem (hM := hM) ..
  | clkTcselSwitch => exact execClkTcselSwitch_mem (hM := hM) ..
  | tclkSwitchComplete => exact execTclkSwitchComplete_mem (hM := hM) ..
  | pllLock => exact execPllLock_mem (hM := hM) ..
  | clockSourceFailure => exact execClockSourceFailure_mem (hM := hM) ..
  | clockSourceReturn => exact execClockSourceReturn_mem (hM := hM) ..
  | clkReturnTimeout => exact execClkReturnTimeout_mem (hM := hM) ..
  | clkEnWrite => exact execClkEnWrite_mem (hM := hM) ..
  | hardwareThrottle => exact execHardwareThrottle_mem (hM := hM) ..
  | thermalTrip => exact execThermalTrip_mem (hM := hM) ..
  | nporLow => exact execNporLow_mem (hM := hM) ..
  | nporRelease => exact execNporRelease_mem (hM := hM) ..
  | nrstLow => exact execNrstLow_mem (hM := hM) ..
  | rstCtrlWarm => exact execRstCtrlWarm_mem (hM := hM) ..
  | rstCtrlPartition => exact execRstCtrlPartition_mem (hM := hM) ..
  | extestSelect => exact execExtestSelect_mem (hM := hM) ..
  | warmResetZeroingComplete => exact execWarmResetZeroingComplete_mem (hM := hM) ..
  | bootRomVerifyComplete => exact execBootRomVerifyComplete_mem (hM := hM) ..
  | watchImageVerified => exact execWatchImageVerified_mem (hM := hM) ..
  | hostFirmwareVerified => exact execHostFirmwareVerified_mem (hM := hM) ..
  | tcCtrlHalt => exact execTcCtrlHalt_mem (hM := hM) ..
  | logRegisterClear => exact execLogRegisterClear_mem (hM := hM) ..
  | registerWrite => exact execRegisterWrite_mem (hM := hM) ..
  | unknownOperation => exact execUnknownOperation_mem (hM := hM) ..
  | hlUnknownPacket => exact execHlUnknownPacket_mem (hM := hM) ..
  | nrstRelease => exact execNrstRelease_mem (hM := hM) ..
  | extestDeselect => exact execExtestDeselect_mem (hM := hM) ..
  | watchRegulatorOverload => exact execWatchRegulatorOverload_mem (hM := hM) ..
  | vddAonInRemoved => exact execVddAonInRemoved_mem (hM := hM) ..
  | agreeHandshakeEnd => exact execAgreeHandshakeEnd_mem (hM := hM) ..

/-- Settles O60: the command at the front keeps the form, and so does a tick. -/
theorem memoriesKeepTheirForm : Obligations.MemoriesKeepTheirForm := by
  intro s t hwf ht
  have hM : MemOk s := (MemOk.iff s).mpr hwf
  refine (MemOk.iff t).mp ?_
  unfold step at ht
  split at ht
  next =>
    cases ht
    exact State.tick_mem hM
  next c r _ =>
    have taken : MemOk { s with pending := r } := hM.same rfl
    exact (exec_mem c taken).ok t ht

end Sys2Proof.Machine

/-!
PROOFS. The placement of grains (spec 05, R86): the bank group and the place in it that a row and a grain's low bits give, and back.
-/
namespace Sys2Proof.Machine

/-! ## Row, group and place -/

/-- The fold of a row (R86): the exclusive or of its digits in base 16. -/
def rowFold (row : Nat) : Nat := (row % 16) ^^^ (row / 16 % 16) ^^^ (row / 256)

theorem rowFold_lt {row : Nat} (h : row < 2048) : rowFold row < 16 :=
  Nat.xor_lt_two_pow (n := 4) (Nat.xor_lt_two_pow (n := 4) (by omega) (by omega)) (by omega)

theorem placeGrain_row (g : Nat) : (placeGrain g).2 = g / 16 % 2048 := rfl

theorem placeGrain_row_lt (g : Nat) : (placeGrain g).2 < 2048 := Nat.mod_lt _ (by decide)

theorem placeGrain_fold_lt (g : Nat) : (g % 16) ^^^ rowFold (placeGrain g).2 < 16 :=
  Nat.xor_lt_two_pow (n := 4) (Nat.mod_lt g (by decide)) (rowFold_lt (placeGrain_row_lt g))

/-- A bank is the group that the third of the Bin and the row give, and the place that the fold gives. -/
theorem placeGrain_bank (g : Nat) :
    (placeGrain g).1 = 16 * ((2 * (g / 32768) + (placeGrain g).2) % 3) + ((g % 16) ^^^ rowFold (placeGrain g).2) := rfl

/-- The place in a bank's group. -/
theorem placeGrain_bank_mod (g : Nat) : (placeGrain g).1 % 16 = (g % 16) ^^^ rowFold (placeGrain g).2 := by
  rw [placeGrain_bank, Nat.mul_add_mod, Nat.mod_eq_of_lt (placeGrain_fold_lt g)]

/-- The group of a bank. -/
theorem placeGrain_bank_div (g : Nat) : (placeGrain g).1 / 16 = (2 * (g / 32768) + (placeGrain g).2) % 3 := by
  have fold := placeGrain_fold_lt g
  have bank := placeGrain_bank g
  omega

theorem placeGrain_bank_lt (g : Nat) : (placeGrain g).1 < 48 := by
  have group := placeGrain_bank_div g
  omega

/-- The group is the number of the grain's 16, modulo 3. -/
theorem placeGrain_group (g : Nat) : (2 * (g / 32768) + (placeGrain g).2) % 3 = g / 16 % 3 := by
  rw [placeGrain_row]
  omega

/-- The place in the group tells the low bits of the grains of a row. -/
theorem low_eq_of_place {g h : Nat} (row : (placeGrain g).2 = (placeGrain h).2) (bank : (placeGrain g).1 = (placeGrain h).1) :
    g % 16 = h % 16 := by
  have place := congrArg (· % 16) bank
  simp only [placeGrain_bank_mod, row] at place
  have unfolded := congrArg (· ^^^ rowFold (placeGrain h).2) place
  simpa only [Nat.xor_assoc, Nat.xor_self, Nat.xor_zero] using unfolded

/-- Grains of the Bin with one bank and one row are the same. -/
theorem placeGrain_inj {g h : Nat} (hg : g < binGrains) (hh : h < binGrains) (same : placeGrain g = placeGrain h) : g = h := by
  obtain ⟨bank, row⟩ := Prod.ext_iff.mp same
  have low := low_eq_of_place row bank
  have group := congrArg (· / 16) bank
  simp only [placeGrain_bank_div, placeGrain_group] at group
  rw [placeGrain_row, placeGrain_row] at row
  unfold binGrains at hg hh
  omega

/-- The grain that a bank and a row place. -/
def grainAt (bank row : Nat) : Nat := (2 * (bank / 16) + row) % 3 * 32768 + row * 16 + ((bank % 16) ^^^ rowFold row)

theorem placeGrain_grainAt {bank row : Nat} (hb : bank < 48) (hr : row < 2048) : placeGrain (grainAt bank row) = (bank, row) := by
  have low : (bank % 16) ^^^ rowFold row < 16 := Nat.xor_lt_two_pow (n := 4) (Nat.mod_lt _ (by decide)) (rowFold_lt hr)
  have sameRow : (placeGrain (grainAt bank row)).2 = row := by
    rw [placeGrain_row, grainAt]
    omega
  have lowBits : grainAt bank row % 16 = (bank % 16) ^^^ rowFold row := by
    rw [grainAt]
    omega
  have third : grainAt bank row / 32768 = (2 * (bank / 16) + row) % 3 := by
    rw [grainAt]
    omega
  refine Prod.ext ?_ sameRow
  rw [placeGrain_bank, sameRow, lowBits, third, Nat.xor_assoc, Nat.xor_self, Nat.xor_zero]
  omega

/-- The function of R86 in shifts and masks. -/
theorem placeGrain_eq_masks (g : Nat) :
    let row := (g >>> 4) &&& 0x7FF
    let fold := ((row &&& 0xF) ^^^ ((row >>> 4) &&& 0xF)) ^^^ (row >>> 8)
    placeGrain g = (16 * ((2 * (g >>> 15) + row) % 3) + ((g &&& 0xF) ^^^ fold), row) := by
  have low (n : Nat) : n &&& 0xF = n % 16 := Nat.and_two_pow_sub_one_eq_mod n 4
  have row (n : Nat) : n &&& 0x7FF = n % 2048 := Nat.and_two_pow_sub_one_eq_mod n 11
  simp only [Nat.shiftRight_eq_div_pow, low, row]
  rfl

/-- Settles O30: group and place of a bank give back, with the row, the third of the Bin and the low bits of the grain. -/
theorem grainPlacementIsBijective : Obligations.GrainPlacementIsBijective := by
  refine ⟨?function, ?bounds, ?injective, ?onto, ?run, ?groups, ?rows, ?banks⟩
  case function =>
    intro g hg t row fold b16 bg
    have thirds : t < 3 := by
      simp only [t, Nat.shiftRight_eq_div_pow]
      unfold binGrains at hg
      omega
    have masks : placeGrain g = (16 * bg + b16, row) := placeGrain_eq_masks g
    refine ⟨masks, ?_, thirds⟩
    have group := placeGrain_group g
    rw [masks] at group
    simpa only [bg, t, Nat.shiftRight_eq_div_pow] using group
  case bounds => exact fun g _ => ⟨placeGrain_bank_lt g, placeGrain_row_lt g⟩
  case injective => exact fun g hg h hh => placeGrain_inj hg hh
  case onto =>
    intro bank hb row hr
    have low : (bank % 16) ^^^ rowFold row < 16 := Nat.xor_lt_two_pow (n := 4) (Nat.mod_lt _ (by decide)) (rowFold_lt hr)
    refine ⟨grainAt bank row, ?_, placeGrain_grainAt hb hr⟩
    unfold grainAt binGrains
    omega
  case run =>
    intro a _ i hi j hj bank
    have group := congrArg (· / 16) bank
    simp only [placeGrain_bank_div, placeGrain_group] at group
    have sixteen : i / 16 = j / 16 := by omega
    have low : (16 * a + i) % 16 = (16 * a + j) % 16 := by
      refine low_eq_of_place ?_ bank
      rw [placeGrain_row, placeGrain_row]
      omega
    omega
  case groups =>
    intro g _ i hi j hj group
    simp only [placeGrain_bank_div, placeGrain_group] at group
    omega
  case rows => decide
  case banks => decide

end Sys2Proof.Machine

/-!
PROOFS. The operations of a Bin (spec 05, R91 to R101, R108): what a report of an error leaves, what the checks of an access find, and the bytes,
seals and poison bits after a store.
-/
namespace Sys2Proof.Machine

/-! ## Fields of different registers -/

/-- Fields of different registers are not the same field. -/
theorem Fld.ctorIdx_ne_of_reg {f g : Fld} (h : f.desc.reg ≠ g.desc.reg) : f.ctorIdx ≠ g.ctorIdx :=
  fun same => h (by rw [Fld.desc, Fld.desc, same])

/-- A write leaves the fields of other registers as they were. -/
theorem State.fld_setFld_of_reg (s : State) {f g : Fld} {i j : Nat} (v : Nat) (h : f.desc.reg ≠ g.desc.reg) (hi : i < 65536) (hj : j < 65536) :
    (s.setFld g j v).fld f i = s.fld f i :=
  State.fld_setFld_ne s (Fld.key_ne (Fld.ctorIdx_ne_of_reg h) hi hj)

/-- A write of fields of one register leaves those of the others as they were. -/
theorem State.fld_setFlds_of_reg (s : State) {f : Fld} {i j : Nat} {r : Reg} {l : List (Fld × Nat)}
    (hl : l.map (·.1.desc.reg) = List.replicate l.length r) (h : f.desc.reg ≠ r) (hi : i < 65536) (hj : j < 65536) :
    (s.setFlds j l).fld f i = s.fld f i := by
  induction l generalizing s with
  | nil => rfl
  | cons e l ih =>
    obtain ⟨he, hl⟩ := List.cons.inj hl
    exact (ih (s.setFld e.1 j e.2) hl).trans (State.fld_setFld_of_reg s e.2 (fun same => h (same.trans he)) hi hj)

/-- A log entry changes no field. -/
@[simp] theorem State.fld_logIt (s : State) (tag : LogTag) (source flags a0 a1 a2 : Nat) (f : Fld) (i : Nat) :
    (s.logIt tag source flags a0 a1 a2).fld f i = s.fld f i :=
  State.fld_congr (State.logIt_regs ..) f i

/-- A raise changes no other tally, and no field of another register. -/
theorem State.fld_raiseTally_ne (s : State) {f : Fld} {b t i : Nat} (n : Nat) (h : f.key i ≠ Fld.key .binTallyCount (b * 1024 + t)) :
    (s.raiseTally b t n).fld f i = s.fld f i :=
  State.fld_setFld_ne s h

/-- A tally saturates (R101). -/
theorem State.tally_raiseTally_same (s : State) (b t n : Nat) : (s.raiseTally b t n).tally b t = min (s.tally b t + n) (2 ^ 32 - 1) := by
  have wide : Fld.width .binTallyCount = 32 := by decide
  rw [State.tally, State.raiseTally, State.fld_setFld_same, wide, ← State.tally]
  omega

/-! ## Reports of errors -/

/-- An entry of BIN_ERRLOG changes the fields of that register alone. -/
theorem State.fld_binErrlog_of_reg (s : State) {f : Fld} {b i : Nat} (type bank row port : Nat) (h : f.desc.reg ≠ .binErrlog) (hb : b < 65536)
    (hi : i < 65536) : (s.binErrlog b type bank row port).fld f i = s.fld f i := by
  rw [State.fld_congr (State.binErrlog_regs ..), State.binCapture]
  split
  · rfl
  · exact State.fld_setFlds_of_reg s rfl h hi hb

/-- A refused access changes the fields of BR_ERRLOG alone. -/
theorem State.fld_refuseAccess_of_reg (s : State) {f : Fld} {i : Nat} (q : Requester) (write : Bool) (space unit : Nat)
    (h : f.desc.reg ≠ .brErrlog) (hi : i < 65536) : (s.refuseAccess q write space unit).fld f i = s.fld f i := by
  simp only [State.refuseAccess]
  split
  · rfl
  · rw [State.fld_logIt]
    split
    · rfl
    · rw [State.fld_setFlds_of_reg _ rfl h hi (by decide)]
      rfl

/-- The registers that a report is made in (R108, R324). -/
def reportRegs : List Reg := [.binErrcnt, .binErrlog, .brErrlog]

/-- What reports of errors leave of a state: every byte of the Bins, every poison bit set, the regions, and every field outside the registers that
the reports are made in. -/
structure Reported (s t : State) : Prop where
  mem : t.bin.mem = s.bin.mem
  poisoned : ∀ b g, s.poisoned b g = true → t.poisoned b g = true
  sec : t.sec = { s.sec with lastRefusal := t.sec.lastRefusal }
  fld : ∀ f, ∀ i < 65536, f.desc.reg ∉ reportRegs → t.fld f i = s.fld f i

theorem Reported.refl (s : State) : Reported s s := ⟨rfl, fun _ _ h => h, rfl, fun _ _ _ _ => rfl⟩

theorem Reported.trans {s t u : State} (h : Reported s t) (k : Reported t u) : Reported s u where
  mem := k.mem.trans h.mem
  poisoned b g p := k.poisoned b g (h.poisoned b g p)
  sec := by rw [k.sec, h.sec]
  fld f i hi hf := (k.fld f i hi hf).trans (h.fld f i hi hf)

/-- What changes the registers of the reports alone, of the registers, the Bins and the regions. -/
theorem Reported.of_fields {s t : State} (hb : t.bin = s.bin) (hs : t.sec = s.sec)
    (hf : ∀ f, ∀ i < 65536, f.desc.reg ∉ reportRegs → t.fld f i = s.fld f i) : Reported s t :=
  ⟨by rw [hb], fun b g p => by rwa [State.poisoned, hb], by rw [hs], hf⟩

/-- An update of the Bins that keeps every byte and every poison bit set. -/
theorem Reported.of_bin {s : State} (x : BinGroup) (hm : x.mem = s.bin.mem)
    (hp : ∀ b g, s.poisoned b g = true → SMap.get x.poison (grainKey b g) false = true) : Reported s { s with bin := x } :=
  ⟨hm, hp, rfl, fun _ _ _ _ => rfl⟩

section
variable (s : State) {b : Nat} (hb : b < 8) (g port : Nat)

theorem Reported.setPoison (b g : Nat) : Reported s (s.setPoison b g true) := by
  refine Reported.of_bin _ rfl fun b' g' p => ?_
  by_cases same : grainKey b' g' = grainKey b g
  · rw [same, SMap.get_put_same]
  · rwa [SMap.get_put_ne same]

theorem Reported.bumpErrcnt {i : Nat} (hi : i < 65536) : Reported s (s.bumpFld .binErrcntCount i 1) :=
  .of_fields rfl rfl fun _ _ hj hf => State.fld_setFld_of_reg s _ (fun h => hf (h ▸ by decide)) hj hi

theorem State.refuseAccess_bin (q : Requester) (write : Bool) (space unit : Nat) : (s.refuseAccess q write space unit).bin = s.bin :=
  (State.refuseAccess_touches q write space unit (.refl [.regs, .objs, .log, .sec] s) (List.Subset.refl _)).keep .bin (by decide)

theorem Reported.refuseAccess (q : Requester) (write : Bool) (space unit : Nat) : Reported s (s.refuseAccess q write space unit) where
  mem := by rw [State.refuseAccess_bin]
  poisoned _ _ p := by rwa [State.poisoned, State.refuseAccess_bin]
  sec := by
    simp only [State.refuseAccess]
    split
    · rfl
    · rw [State.logIt_frame]
      split <;> simp
  fld _ _ hi hf := State.fld_refuseAccess_of_reg s q write space unit (fun h => hf (h ▸ by decide)) hi

include hb

theorem Reported.binErrlog (type bank row : Nat) : Reported s (s.binErrlog b type bank row port) :=
  have same := State.binErrlog_touches b type bank row port (.refl [.regs, .objs, .log] s) (List.Subset.refl _)
  .of_fields (same.keep .bin (by decide)) (same.keep .sec (by decide)) fun _ _ hi hf =>
    State.fld_binErrlog_of_reg s type bank row port (fun h => hf (h ▸ by decide)) (by omega) hi

theorem Reported.binCorrected : Reported s (s.binCorrected b g port) := by
  have counted := Reported.bumpErrcnt s (i := b * 5) (by omega)
  have logged := counted.trans (Reported.binErrlog _ hb port 1 (placeGrain g).1 (placeGrain g).2)
  unfold State.binCorrected
  dsimp only
  generalize State.binErrlog _ b 1 _ _ port = u at logged ⊢
  exact logged.trans (Reported.of_bin _ rfl fun _ _ p => p)

theorem Reported.binUncorrectable : Reported s (s.binUncorrectable b g port) := by
  have counted := (Reported.setPoison s b g).trans (Reported.bumpErrcnt _ (i := b * 5 + 1) (by omega))
  have logged := counted.trans (Reported.binErrlog _ hb port 2 (placeGrain g).1 (placeGrain g).2)
  unfold State.binUncorrectable
  dsimp only
  generalize State.binErrlog _ b 2 _ _ port = u at logged ⊢
  split
  · exact logged
  · exact logged.trans (Reported.of_bin _ rfl fun _ _ p => p)

theorem Reported.binSealBad : Reported s (s.binSealBad b g port) := by
  unfold State.binSealBad
  dsimp only
  refine Reported.trans (Reported.trans (Reported.setPoison s b g) ?counted) (Reported.binErrlog _ hb port 3 _ _)
  case counted => exact Reported.bumpErrcnt _ (by omega)

theorem Reported.binPoisonHit : Reported s (s.binPoisonHit b g port) := by
  unfold State.binPoisonHit
  exact Reported.binErrlog s hb port 5 _ _

theorem Reported.binWorldError (q : Requester) (write : Bool) : Reported s (s.binWorldError q write b g port) := by
  unfold State.binWorldError
  dsimp only
  refine Reported.trans (Reported.trans (Reported.refuseAccess s q write (b + 1) g) ?counted) (Reported.binErrlog _ hb port 4 _ _)
  case counted => exact Reported.bumpErrcnt _ (by omega)

theorem Reported.checkGrain (whole : Bool) (obs : List Obs) : Reported s (s.checkGrain port b g whole obs).2 := by
  unfold State.checkGrain
  split
  next =>
    dsimp only
    exact Reported.binPoisonHit s hb g port
  next =>
    split
    next =>
      dsimp only
      exact Reported.binUncorrectable s hb g port
    next =>
      extract_lets u
      have corrected : Reported s u := by
        unfold u
        split
        · exact Reported.binCorrected s hb g port
        · exact .refl s
      clear_value u
      split
      · dsimp only
        exact corrected.trans (Reported.binSealBad u hb g port)
      · exact corrected

theorem Reported.checkGrains (gs : List (Nat × Bool)) (obs : List Obs) : Reported s (s.checkGrains port b gs obs).2 := by
  induction gs generalizing s with
  | nil => exact .refl s
  | cons e r ih =>
    obtain ⟨g, whole⟩ := e
    have first := Reported.checkGrain s hb g port whole obs
    rw [State.checkGrains]
    split
    next h => rwa [h] at first
    next u h => exact Reported.trans (by rwa [h] at first) (ih u)

theorem Reported.binAdmit (q : Requester) (write : Bool) (gs : List Nat) : Reported s (s.binAdmit q write port b gs).2 := by
  unfold State.binAdmit
  split
  · exact .refl s
  · split
    · exact .refl s
    · split
      next g _ => exact Reported.binWorldError s hb g port q write
      next => exact .refl s

end

/-! ## The checks of an access -/

/-- A grain stays good where the Bins stay as they were. -/
theorem GrainGood.congr {s t : State} (h : t.bin = s.bin) {b g : Nat} (k : GrainGood s b g) : GrainGood t b g := by
  rwa [GrainGood, State.poisoned, h]

/-- A good grain, with no error observed, passes its check. -/
theorem State.checkGrain_good {s : State} {b g : Nat} (h : GrainGood s b g) (port : Nat) (whole : Bool) :
    s.checkGrain port b g whole [] = (none, s) := by
  obtain ⟨clean, sealed⟩ := h
  simp [State.checkGrain, clean, sealed, obsBin]

theorem State.checkGrains_good {s : State} {b : Nat} {gs : List (Nat × Bool)} (h : ∀ g ∈ gs.map (·.1), GrainGood s b g) (port : Nat) :
    s.checkGrains port b gs [] = (none, s) := by
  induction gs with
  | nil => rfl
  | cons e r ih =>
    obtain ⟨good, rest⟩ := List.forall_mem_cons.mp h
    rw [State.checkGrains, State.checkGrain_good good]
    exact ih rest

/-- The check of a write asks for the grains that it covers in part. -/
theorem State.mergeCheck_good {s : State} {b : Nat} {gs : List (Nat × Bool)} (h : ∀ g ∈ gs.map (·.1), GrainGood s b g) (port : Nat) :
    s.mergeCheck port b gs [] = (none, s) := by
  refine State.checkGrains_good (fun g hg => h g ?_) port
  simp only [List.map_map, List.mem_map, List.mem_filter] at hg ⊢
  obtain ⟨e, ⟨he, -⟩, rfl⟩ := hg
  exact ⟨e, he, rfl⟩

/-- A write of whole grains needs no check. -/
theorem State.mergeCheck_whole (s : State) {gs : List (Nat × Bool)} (h : ∀ g ∈ gs, g.2 = true) (port b : Nat) (obs : List Obs) :
    s.mergeCheck port b gs obs = (none, s) := by
  have none : gs.filter (fun g => !g.2) = [] := List.filter_eq_nil_iff.mpr fun g hg => by simp [h g hg]
  rw [State.mergeCheck, none]
  rfl

/-- Checks that meet a poisoned grain fail, at it or before. -/
theorem State.checkGrains_poisoned {s : State} {port b : Nat} (hb : b < 8) {gs : List (Nat × Bool)} {obs : List Obs} {g : Nat}
    (hg : g ∈ gs.map (·.1)) (h : s.poisoned b g = true) : ∃ e u, s.checkGrains port b gs obs = (some e, u) := by
  induction gs generalizing s with
  | nil => cases hg
  | cons e r ih =>
    obtain ⟨g', whole⟩ := e
    rw [State.checkGrains]
    split
    next e u _ => exact ⟨e, u, rfl⟩
    next u passed =>
      have reported := Reported.checkGrain s hb g' port whole obs
      rw [passed] at reported
      rcases List.mem_cons.mp hg with rfl | later
      · simp [State.checkGrain, h] at passed
      · exact ih later (reported.poisoned b g h)

/-- Grains that serve are admitted. -/
theorem State.binAdmit_serves {s : State} {q : Requester} {write : Bool} {b : Nat} {gs : List Nat} (h : BinServes s q write b gs) (port : Nat) :
    s.binAdmit q write port b gs = (none, s) := by
  obtain ⟨ready, grains⟩ := h
  have inRange : gs.any (fun g => decide (binGrains ≤ g)) = false := by simpa using fun g hg => (grains g hg).1
  have allowed : gs.find? (fun g => !s.allowed q write (b + 1) g) = none := List.find?_eq_none.mpr fun g hg => by simp [(grains g hg).2]
  simp only [State.binAdmit, ready, inRange, allowed, Bool.not_true, Bool.false_eq_true, if_false]

/-- A grain that the regions refuse refuses the access. -/
theorem State.binAdmit_refused {s : State} {q : Requester} {write : Bool} {b g : Nat} {gs : List Nat} (ready : s.binReady b = true)
    (inRange : ∀ g ∈ gs, g < binGrains) (hg : g ∈ gs) (refused : s.allowed q write (b + 1) g = false) (port : Nat) :
    ∃ g', s.binAdmit q write port b gs = (some .world, s.binWorldError q write b g' port) := by
  have inRange : gs.any (fun g => decide (binGrains ≤ g)) = false := by simpa using inRange
  obtain ⟨g', found⟩ := Option.isSome_iff_exists.mp (List.find?_isSome.mpr ⟨g, hg, by simpa using refused⟩ :
    (gs.find? (fun g => !s.allowed q write (b + 1) g)).isSome)
  refine ⟨g', ?_⟩
  simp only [State.binAdmit, ready, inRange, found, Bool.not_true, Bool.false_eq_true, if_false]

/-! ## Stores -/

/-- The bytes of a run are written at keys that follow each other. -/
theorem foldl_put_placed (b off : Nat) (bs : List Byte) (m : SMap Byte) :
    (placed off bs).foldl (fun m w => SMap.put m (binAddr b w.1) w.2 0) m = SMap.putRun m (binAddr b off) bs 0 := by
  induction bs generalizing off m with
  | nil => rfl
  | cons v r ih =>
    have rest : placed off (v :: r) = (off, v) :: placed (off + 1) r := by
      simp [placed, List.mapIdx_cons, Nat.add_comm, Nat.add_left_comm]
    have next : binAddr b (off + 1) = binAddr b off + 1 := (Nat.add_assoc ..).symm
    rw [rest, List.foldl_cons, ih, next]
    rfl

/-- A run that has been written reads back. -/
theorem SMap.getRun_putRun {α : Type} [DecidableEq α] (m : SMap α) (a : Nat) (vs : List α) (d : α) :
    SMap.getRun (SMap.putRun m a vs d) a vs.length d = vs := by
  refine List.ext_getElem (by simp [SMap.getRun]) fun i hi hv => ?_
  simp [SMap.getRun, SMap.get_putRun_in hv]

section
variable (s : State) (b off : Nat) (bs : List Byte) (gs : List (Nat × Bool))

/-- A store of a run reads back. -/
theorem State.binRead_binStore : (s.binStore b (placed off bs) gs).binRead b off bs.length = bs := by
  simp only [State.binRead, State.binStore, foldl_put_placed]
  exact SMap.getRun_putRun ..

/-- A store leaves every byte outside its run. -/
theorem State.mem_binStore_out {a : Nat} (h : ¬ (binAddr b off ≤ a ∧ a < binAddr b off + bs.length)) :
    SMap.get (s.binStore b (placed off bs) gs).bin.mem a 0 = SMap.get s.bin.mem a 0 := by
  simp only [State.binStore, foldl_put_placed]
  exact SMap.get_putRun_out (by omega)

/-- A grain that a store covers whole has lost its poison, and its seal matches (R93). -/
theorem State.grainGood_binStore (ws : List (Nat × Byte)) {g : Nat} (h : (g, true) ∈ gs) : GrainGood (s.binStore b ws gs) b g := by
  have listed : grainKey b g ∈ gs.map (fun e => grainKey b e.1) := List.mem_map.mpr ⟨_, h, rfl⟩
  have whole : grainKey b g ∈ (gs.filter (·.2)).map (fun e => grainKey b e.1) :=
    List.mem_map.mpr ⟨_, List.mem_filter.mpr ⟨h, rfl⟩, rfl⟩
  constructor
  · simp only [State.poisoned, State.binStore, ← List.foldl_filter, SMap.get_foldl_put, if_pos whole]
  · simp only [State.binStore, SMap.get_foldl_put, if_pos listed]

end

/-- A poisoned grain reads as poisoned. -/
theorem State.poisoned_setPoison (s : State) (b g : Nat) (v : Bool) : (s.setPoison b g v).poisoned b g = v := SMap.get_put_same

/-- A run that is a grain. -/
theorem grainsOfRun_whole (g : Nat) : grainsOfRun (g * 256) 256 = [(g, true)] := by
  have start : g * 256 / 256 = g := Nat.mul_div_cancel g (by decide)
  have one : (g * 256 + 255) / 256 + 1 - g = 1 := by omega
  simp [grainsOfRun, start, one]

/-! ## Port accesses -/

/-- The checks of an access to grains of a Bin: the worlds, then what R92 and R93 find in the grains read, or R94 in those that a write covers in
part. -/
def State.portChecks (s : State) (q : Requester) (write : Bool) (port b : Nat) (gs : List (Nat × Bool)) (obs : List Obs) : Option BinErr × State :=
  match s.binAdmit q write port b (gs.map (·.1)) with
  | (some e, u) => (some e, u)
  | (none, u) => if write then u.mergeCheck port b gs obs else u.checkGrains port b gs obs

/-- The effect of an access that passes its checks. -/
def State.portEffect (s : State) (bin init : Nat) (write : Bool) (off len : Nat) (data : List Byte) (tally : Option Nat) : State :=
  if write then
    (((s.binStore bin (placed off data) (grainsOfRun off data.length)).countWhole bin off data.length tally).answer init true []).settle
  else s.answer init true (s.binRead bin off len)

section
variable {s u : State} {bin port init : Nat} {secure write : Bool} {off len : Nat} {data : List Byte} {obs : List Obs}

/-- Checks of an access make reports alone. -/
theorem Reported.portChecks (hb : bin < 8) (s : State) (q : Requester) (write : Bool) (port : Nat) (gs : List (Nat × Bool)) (obs : List Obs) :
    Reported s (s.portChecks q write port bin gs obs).2 := by
  have admission := Reported.binAdmit s hb port q write (gs.map (·.1))
  unfold State.portChecks
  split
  next h => rwa [h] at admission
  next u h =>
    rw [h] at admission
    split
    · exact admission.trans (Reported.checkGrains u hb port _ obs)
    · exact admission.trans (Reported.checkGrains u hb port gs obs)

theorem State.portChecks_touches {L : List Part} {Z s : State} (q : Requester) (write : Bool) (port b : Nat) (gs : List (Nat × Bool))
    (obs : List Obs) (hT : Touches L Z s) (hl : [.regs, .objs, .bin, .log, .sec] ⊆ L) : Touches L Z (s.portChecks q write port b gs obs).2 := by
  have admission := State.binAdmit_touches q write port b (gs.map (·.1)) hT (List.Subset.trans (by decide) hl)
  unfold State.portChecks
  split
  next h => exact admission.of_answer h
  next u h =>
    split
    · exact State.mergeCheck_touches port b gs obs (admission.of_answer h) (List.Subset.trans (by decide) hl)
    · exact State.checkGrains_touches port b gs obs (admission.of_answer h) (List.Subset.trans (by decide) hl)

/-- Checks answer nothing on the bus. -/
theorem State.portChecks_sent (s : State) (q : Requester) (write : Bool) (port b : Nat) (gs : List (Nat × Bool)) (obs : List Obs) :
    (s.portChecks q write port b gs obs).2.sent = s.sent :=
  (State.portChecks_touches q write port b gs obs (.refl [.regs, .objs, .bin, .log, .sec] s) (List.Subset.refl _)).keep .sent (by decide)

/-- Grains that serve and are good pass. -/
theorem State.portChecks_good {q : Requester} {gs : List (Nat × Bool)} (serves : BinServes s q write bin (gs.map (·.1)))
    (good : ∀ g ∈ gs.map (·.1), GrainGood s bin g) (port : Nat) : s.portChecks q write port bin gs [] = (none, s) := by
  simp only [State.portChecks, State.binAdmit_serves serves, State.mergeCheck_good good, State.checkGrains_good good, ite_self]

/-- A write of whole grains that serve passes. -/
theorem State.portChecks_whole {q : Requester} {gs : List (Nat × Bool)} (serves : BinServes s q true bin (gs.map (·.1)))
    (whole : ∀ g ∈ gs, g.2 = true) (port : Nat) (obs : List Obs) : s.portChecks q true port bin gs obs = (none, s) := by
  simp only [State.portChecks, State.binAdmit_serves serves, State.mergeCheck_whole s whole, if_true]

/-- An access that reads a poisoned grain, whole or in part, or writes a part of it, fails. -/
theorem State.portChecks_poisoned {q : Requester} {gs : List (Nat × Bool)} {g : Nat} {w : Bool} (hb : bin < 8)
    (serves : BinServes s q write bin (gs.map (·.1))) (hg : (g, w) ∈ gs) (part : write = true → w = false) (h : s.poisoned bin g = true)
    (port : Nat) (obs : List Obs) : ∃ e u, s.portChecks q write port bin gs obs = (some e, u) := by
  simp only [State.portChecks, State.binAdmit_serves serves]
  cases write with
  | false => exact State.checkGrains_poisoned hb (List.mem_map.mpr ⟨_, hg, rfl⟩) h
  | true =>
    have merged : (g, true) ∈ (gs.filter (fun g => !g.2)).map (fun g => (g.1, true)) :=
      List.mem_map.mpr ⟨_, List.mem_filter.mpr ⟨hg, by simp [part rfl]⟩, rfl⟩
    exact State.checkGrains_poisoned hb (List.mem_map.mpr ⟨_, merged, rfl⟩) h

/-- An access to a grain that the regions refuse fails with the report of that. -/
theorem State.portChecks_refused {q : Requester} {gs : List (Nat × Bool)} {g : Nat} (ready : s.binReady bin = true)
    (inRange : ∀ g ∈ gs.map (·.1), g < binGrains) (hg : g ∈ gs.map (·.1)) (refused : s.allowed q write (bin + 1) g = false) (port : Nat)
    (obs : List Obs) : ∃ g', s.portChecks q write port bin gs obs = (some .world, s.binWorldError q write bin g' port) := by
  obtain ⟨g', admission⟩ := State.binAdmit_refused ready inRange hg refused port
  exact ⟨g', by simp only [State.portChecks, admission]⟩

/-- A read that fails its checks, or a write, is answered with a bus error. -/
theorem binPortAccess_fails {e : BinErr}
    (h : s.portChecks (unitReq init secure) write port bin (grainsOfRun off (if write then data.length else len)) obs = (some e, u))
    (tally : Option Nat) : After (.binPortAccess bin port init secure write off len data tally obs) s (u.answer init false []) := by
  change execBinPortAccess bin port init secure write off len data tally obs s = _
  refine State.command_next ?_
  cases write with
  | false =>
    simp only [State.portChecks, Bool.false_eq_true, if_false] at h ⊢
    rcases admission : s.binAdmit (unitReq init secure) false port bin ((grainsOfRun off len).map (·.1)) with ⟨_ | refusal, v⟩ <;>
      simp only [admission] at h ⊢
    · simp only [h]
    · cases h; rfl
  | true =>
    simp only [State.portChecks, if_true] at h ⊢
    rcases admission : s.binAdmit (unitReq init secure) true port bin ((grainsOfRun off data.length).map (·.1)) with ⟨_ | refusal, v⟩ <;>
      simp only [admission] at h ⊢
    · simp only [State.binWriteRun, h]
    · cases h; rfl

/-- An access that passes its checks has its effect. -/
theorem binPortAccess_passes
    (h : s.portChecks (unitReq init secure) write port bin (grainsOfRun off (if write then data.length else len)) obs = (none, u))
    (tally : Option Nat) :
    After (.binPortAccess bin port init secure write off len data tally obs) s (u.portEffect bin init write off len data tally) := by
  change execBinPortAccess bin port init secure write off len data tally obs s = _
  refine State.command_next ?_
  cases write with
  | false =>
    simp only [State.portChecks, Bool.false_eq_true, if_false] at h ⊢
    rcases admission : s.binAdmit (unitReq init secure) false port bin ((grainsOfRun off len).map (·.1)) with ⟨_ | refusal, v⟩ <;>
      simp only [admission] at h ⊢
    · simp only [h, State.portEffect, Bool.false_eq_true, if_false]
    · cases h
  | true =>
    simp only [State.portChecks, if_true] at h ⊢
    rcases admission : s.binAdmit (unitReq init secure) true port bin ((grainsOfRun off data.length).map (·.1)) with ⟨_ | refusal, v⟩ <;>
      simp only [admission] at h ⊢
    · simp only [State.binWriteRun, h, State.portEffect, if_true]
    · cases h

end

section
variable (s : State) (b off n : Nat) (tally : Option Nat)

/-- The count of the whole grains written changes a tally alone. -/
theorem State.countWhole_touches {L : List Part} {Z : State} (hT : Touches L Z s) (hl : [.regs] ⊆ L) : Touches L Z (s.countWhole b off n tally) := by
  cases tally with
  | none => exact hT
  | some t => exact State.raiseTally_touches b t _ hT hl

theorem State.countWhole_bin : (s.countWhole b off n tally).bin = s.bin := by cases tally <;> rfl

theorem State.countWhole_sent : (s.countWhole b off n tally).sent = s.sent := by cases tally <;> rfl

theorem State.fld_countWhole_of_reg {f : Fld} {i : Nat} (h : f.desc.reg ≠ .binTally) (hi : i < 65536) (hb : b < 8) (ht : ∀ k ∈ tally, k < 1024) :
    (s.countWhole b off n tally).fld f i = s.fld f i := by
  cases tally with
  | none => rfl
  | some t =>
    have inRange := ht t rfl
    exact State.fld_setFld_of_reg s _ h hi (by omega)

end

/-- The effect of a write on a calm state: no command that waits is there to be tried. -/
theorem State.portEffect_write {s : State} (h : s.calm = true) (bin init off len : Nat) (data : List Byte) (tally : Option Nat) :
    s.portEffect bin init true off len data tally =
      ((s.binStore bin (placed off data) (grainsOfRun off data.length)).countWhole bin off data.length tally).answer init true [] := by
  have stored := State.binStore_touches bin (placed off data) (grainsOfRun off data.length) (.refl [.bin, .regs, .sent] s) (by decide)
  have counted := State.countWhole_touches _ bin off data.length tally stored (by decide)
  have answered := State.answer_touches init true [] counted (by decide)
  rw [State.portEffect, if_pos rfl, State.settle_calm ((SameQueues.of_touches answered (by decide)).calm h)]

/-- What a port access can come to: its checks make reports, and an answer follows, or, of a write that passes them, the store, its count and the
answer. -/
theorem binPortAccess_cases {s t : State} {bin port init : Nat} {secure write : Bool} {off len : Nat} {data : List Byte} {tally : Option Nat}
    {obs : List Obs} (calm : s.calm = true) (hb : bin < 8)
    (run : exec (.binPortAccess bin port init secure write off len data tally obs) s = .next t) :
    ∃ u v ok d, Reported s u ∧ Touches [.regs, .objs, .bin, .log, .sec] s u ∧ t = { v.answer init ok d with pending := s.pending } ∧
      (v = u ∨ write = true ∧
        v = (u.binStore bin (placed off data) (grainsOfRun off data.length)).countWhole bin off data.length tally) := by
  have reported := Reported.portChecks hb s (unitReq init secure) write port (grainsOfRun off (if write then data.length else len)) obs
  have touched := State.portChecks_touches (unitReq init secure) write port bin (grainsOfRun off (if write then data.length else len)) obs
    (.refl [.regs, .objs, .bin, .log, .sec] s) (List.Subset.refl _)
  cases checks : s.portChecks (unitReq init secure) write port bin (grainsOfRun off (if write then data.length else len)) obs with
  | mk e u =>
    rw [checks] at reported touched
    cases e with
    | some e =>
      have left := Host.Outcome.next.inj ((binPortAccess_fails checks tally).symm.trans run)
      exact ⟨u, u, false, [], reported, touched, left.symm, .inl rfl⟩
    | none =>
      have left := Host.Outcome.next.inj ((binPortAccess_passes checks tally).symm.trans run)
      cases write with
      | false => exact ⟨u, u, true, u.binRead bin off len, reported, touched, left.symm, .inl rfl⟩
      | true =>
        have still : u.calm = true := (SameQueues.of_touches touched (by decide)).calm calm
        rw [State.portEffect_write still] at left
        exact ⟨u, _, true, [], reported, touched, left.symm, .inr ⟨rfl, rfl⟩⟩

/-- Only the parts of an access change, whatever its answer. -/
theorem State.eq_of_answered {s v : State} (h : Touches [.regs, .objs, .bin, .log, .sec] s v) (init : Nat) (ok : Bool) (d : List Byte) :
    let t := { v.answer init ok d with pending := s.pending }
    t = { s with bin := t.bin, regs := t.regs, objs := t.objs, log := t.log, sec := t.sec, sent := t.sent } := by
  refine (State.eq_of_sameParts fun p => ?_).symm
  have keep := h.keep p
  cases p
  case pending => rfl
  case regs => rfl
  case objs => rfl
  case sent => rfl
  case bin => rfl
  case log => rfl
  case sec => rfl
  all_goals exact (keep (by decide)).symm

/-! ## What a refusal counts -/

/-- A number stored in another object leaves an object as it was. -/
theorem State.obj_setObj_ne (s : State) {o p : Obj} {i j : Nat} (v : Nat) (h : p.key j ≠ o.key i) : (s.setObj o i v).obj p j = s.obj p j :=
  congrArg Val.toNat (State.objVal_setObjVal_ne s h)

/-- Objects read from their map alone. -/
theorem State.obj_congr {s t : State} (h : s.objs = t.objs) (o : Obj) (i : Nat) : s.obj o i = t.obj o i := by
  rw [State.obj, State.objVal, h, ← State.objVal, ← State.obj]

/-- A log entry changes the objects of the log alone. -/
theorem State.obj_logIt (s : State) (tag : LogTag) (source flags a0 a1 a2 : Nat) {o : Obj} {i : Nat}
    (h : ∀ p ∈ [Obj.logNext, .logSuppressed, .logOldest], o.key i ≠ p.key 0) :
    (s.logIt tag source flags a0 a1 a2).obj o i = s.obj o i := by
  obtain ⟨next, suppressed, oldest⟩ : o.key i ≠ Obj.key .logNext 0 ∧ o.key i ≠ Obj.key .logSuppressed 0 ∧ o.key i ≠ Obj.key .logOldest 0 := by
    simpa using h
  have event : (s.logEvent tag source flags a0 a1 a2).obj o i = s.obj o i := by
    unfold State.logEvent
    split
    · exact State.obj_setObj_ne s _ next
    · exact State.obj_setObj_ne s _ suppressed
  unfold State.logIt
  generalize s.logEvent tag source flags a0 a1 a2 = u at event ⊢
  dsimp only
  split
  · exact (State.obj_setObj_ne u _ oldest).trans event
  · exact event

/-- BR_FAULTS counts a refusal once (R324). -/
theorem State.obj_refuseAccess (s : State) (q : Requester) (write : Bool) (space unit : Nat) :
    (s.refuseAccess q write space unit).obj .brFaults 3 = (s.obj .brFaults 3 + 1) % 2 ^ 64 := by
  have counted := State.obj_bumpObj_same s .brFaults 3 1
  unfold State.refuseAccess
  dsimp only
  split
  · exact (State.obj_setObj_ne _ _ (by decide)).trans counted
  · rw [State.obj_logIt _ _ _ _ _ _ _ (by decide)]
    split
    · exact counted
    · exact (State.obj_congr (by simp) _ _).trans counted

section
variable (s : State) (q : Requester) (write : Bool) (b g port : Nat)

theorem State.binWorldError_bin : (s.binWorldError q write b g port).bin = s.bin :=
  (State.binWorldError_touches q write b g port (.refl [.regs, .objs, .log, .sec] s) (List.Subset.refl _)).keep .bin (by decide)

/-- BR_FAULTS counts a refusal at a Bin. -/
theorem State.obj_binWorldError : (s.binWorldError q write b g port).obj .brFaults 3 = (s.obj .brFaults 3 + 1) % 2 ^ 64 := by
  have logged := State.binCapture_touches b 4 (placeGrain g).1 (placeGrain g).2 port
    (.refl [.regs] ((s.refuseAccess q write (b + 1) g).bumpFld .binErrcntCount (b * 5 + 3) 1)) (List.Subset.refl _)
  have same : (s.binWorldError q write b g port).objs = (s.refuseAccess q write (b + 1) g).objs := logged.keep .objs (by decide)
  exact (State.obj_congr same _ _).trans (State.obj_refuseAccess s q write (b + 1) g)

/-- BIN_ERRCNT3 counts it too (R98). -/
theorem State.errcnt_binWorldError (hb : b < 8) :
    (s.binWorldError q write b g port).fld .binErrcntCount (b * 5 + 3) = (s.fld .binErrcntCount (b * 5 + 3) + 1) % 2 ^ 64 := by
  have wide : Fld.width .binErrcntCount = 64 := by decide
  unfold State.binWorldError
  dsimp only
  rw [State.fld_binErrlog_of_reg _ _ _ _ _ (by decide) (by omega) (by omega), State.fld_bumpFld_same, wide,
    State.fld_refuseAccess_of_reg s q write _ g (by decide) (by omega)]

end

/-! ## The statements on port accesses -/

/-- Settles O32: good grains pass the checks, and what a store leaves is read back. -/
theorem binWriteReadsBack : Obligations.BinWriteReadsBack := by
  intro s bin port init secure off data tally calm serves good
  have passes := State.portChecks_good serves good port
  have after := binPortAccess_passes (len := data.length) passes tally
  rw [State.portEffect_write calm] at after
  have bin_eq := State.countWhole_bin (s.binStore bin (placed off data) (grainsOfRun off data.length)) bin off data.length tally
  refine ⟨_, after, ?_, fun g hg => ?_, ?_⟩
  · have stored := State.binRead_binStore s bin off data (grainsOfRun off data.length)
    rw [State.binRead, ← bin_eq] at stored
    exact stored
  · exact GrainGood.congr bin_eq (State.grainGood_binStore s bin _ _ hg)
  · exact congrArg (· ++ _) (State.countWhole_sent (s.binStore bin (placed off data) (grainsOfRun off data.length)) bin off data.length tally)

/-- Settles O33: the checks make reports alone, a read adds its answer, and a write its bytes and its tally. -/
theorem binAccessFrame : Obligations.BinAccessFrame := by
  intro s bin port init secure write off len data tally obs t calm hb ht run
  obtain ⟨u, v, ok, d, reported, touched, rfl, rfl | ⟨rfl, hv⟩⟩ := binPortAccess_cases calm hb run
  case inl =>
    refine ⟨fun a _ => congrArg (SMap.get · a 0) reported.mem, State.eq_of_answered touched init ok d, reported.sec, ?_⟩
    intro f i hi errcnt errlog _ brErrlog
    exact reported.fld f i hi (by simp [reportRegs, errcnt, errlog, brErrlog])
  case inr =>
    have stored := State.binStore_touches bin (placed off data) (grainsOfRun off data.length) (.refl [.regs, .bin] u) (by decide)
    have counted : Touches [.regs, .bin] u v := hv ▸ State.countWhole_touches _ bin off data.length tally stored (by decide)
    have mem : v.bin.mem = (u.binStore bin (placed off data) (grainsOfRun off data.length)).bin.mem := by rw [hv, State.countWhole_bin]
    have sec : v.sec = u.sec := counted.keep .sec (by decide)
    refine ⟨fun a outside => ?_, State.eq_of_answered (touched.trans (counted.mono (by decide))) init ok d, ?_,
      fun f i hi errcnt errlog tally brErrlog => ?_⟩
    · calc SMap.get v.bin.mem a 0
          = SMap.get u.bin.mem a 0 := by rw [mem, State.mem_binStore_out u bin off data _ fun within => outside ⟨rfl, within⟩]
        _ = SMap.get s.bin.mem a 0 := by rw [reported.mem]
    · change v.sec = { s.sec with lastRefusal := v.sec.lastRefusal }
      rw [sec]
      exact reported.sec
    · calc v.fld f i
          = u.fld f i := hv ▸ State.fld_countWhole_of_reg _ bin off data.length _ tally hi hb ht
        _ = s.fld f i := reported.fld f i hi (by simp [reportRegs, errcnt, errlog, brErrlog])

/-- Settles O34: the regions are asked before any grain is read or written, and a refusal is one count in each place. -/
theorem refusedBinAccessChangesNoBin : Obligations.RefusedBinAccessChangesNoBin := by
  intro s bin port init secure write off data obs g gs hb ready inRange hg refused
  obtain ⟨g', checks⟩ := State.portChecks_refused ready inRange hg refused port obs
  have sent := State.portChecks_sent s (unitReq init secure) write port bin (grainsOfRun off data.length) obs
  rw [checks] at sent
  have bins := State.binWorldError_bin s (unitReq init secure) write bin g' port
  have faults := State.obj_binWorldError s (unitReq init secure) write bin g' port
  have errcnt := State.errcnt_binWorldError s (unitReq init secure) write bin g' port hb
  generalize s.binWorldError (unitReq init secure) write bin g' port = u at checks sent bins faults errcnt
  exact ⟨_, binPortAccess_fails (by rwa [ite_self]) none, bins, congrArg (· ++ _) sent, faults, errcnt⟩

/-- Settles O35: a poisoned grain fails the checks that read it, reports take no poison away, and a store of the whole grain does. -/
theorem poisonedGrainFailsUntilWholeWrite : Obligations.PoisonedGrainFailsUntilWholeWrite := by
  refine ⟨?read, ?part, ?whole⟩
  case read =>
    intro s bin port init secure off len obs g hb serves hg poisoned
    obtain ⟨⟨_, w⟩, touched, rfl⟩ := List.mem_map.mp hg
    obtain ⟨e, u, checks⟩ := State.portChecks_poisoned hb serves touched nofun poisoned port obs
    have reported := Reported.portChecks hb s (unitReq init secure) false port (grainsOfRun off len) obs
    have sent := State.portChecks_sent s (unitReq init secure) false port bin (grainsOfRun off len) obs
    rw [checks] at reported sent
    exact ⟨_, binPortAccess_fails checks none, reported.poisoned _ _ poisoned, congrArg (· ++ _) sent, reported.mem⟩
  case part =>
    intro s bin port init secure off data obs g hb serves hg poisoned
    obtain ⟨e, u, checks⟩ := State.portChecks_poisoned hb serves hg (fun _ => rfl) poisoned port obs
    have reported := Reported.portChecks hb s (unitReq init secure) true port (grainsOfRun off data.length) obs
    have sent := State.portChecks_sent s (unitReq init secure) true port bin (grainsOfRun off data.length) obs
    rw [checks] at reported sent
    exact ⟨_, binPortAccess_fails (len := data.length) checks none, reported.poisoned _ _ poisoned, congrArg (· ++ _) sent, reported.mem⟩
  case whole =>
    intro s bin port init secure data obs g calm hlen serves
    have one : grainsOfRun (g * 256) data.length = [(g, true)] := hlen ▸ grainsOfRun_whole g
    have checks := State.portChecks_whole (gs := [(g, true)]) serves (by simp) port obs
    rw [← one] at checks
    have after := binPortAccess_passes (len := 256) checks none
    rw [State.portEffect_write calm] at after
    refine ⟨_, after, ?_, ?_⟩
    · exact State.grainGood_binStore s bin _ _ (one ▸ List.mem_singleton_self _)
    · have stored := State.binRead_binStore s bin (g * 256) data (grainsOfRun (g * 256) data.length)
      rw [hlen] at stored
      exact stored

end Sys2Proof.Machine

/-!
PROOFS. Slot maps, tallies and gates (spec 05, R88, R99 to R101): what a write or an arrival comes to.
-/
namespace Sys2Proof.Machine

/-! ## Slot maps -/

/-- The map that a write of a word gives (R88). -/
def SlotMap.written (m : SlotMap) (word value : Nat) : SlotMap :=
  if word = 0 then { m with en := value % 65536 } else if word = 1 then { m with map0 := value % 2 ^ 32 }
  else { m with map1 := value % 2 ^ 32 }

/-- A map whose words have their widths. -/
def SlotMap.fits (m : SlotMap) : Prop := m.en < 2 ^ 16 ∧ m.map0 < 2 ^ 32 ∧ m.map1 < 2 ^ 32

theorem SlotMap.fits_written {m : SlotMap} (h : m.fits) (word value : Nat) : (m.written word value).fits := by
  obtain ⟨en, map0, map1⟩ := h
  unfold SlotMap.written SlotMap.fits
  split
  · exact ⟨Nat.mod_lt _ (by decide), map0, map1⟩
  · split
    · exact ⟨en, Nat.mod_lt _ (by decide), map1⟩
    · exact ⟨en, map0, Nat.mod_lt _ (by decide)⟩

/-- What a write by the secure world completes with. -/
theorem slotMapWrite_after (s : State) (bin word value : Nat) : After (.slotMapWrite bin word value true) s
    (if ((s.slotMap bin).written word value).ok then s.setSlotMap bin ((s.slotMap bin).written word value)
     else s.bumpFld .binErrcntCount (bin * 5 + 4) 1) := by
  change execSlotMapWrite bin word value true s = _
  exact State.command_next rfl

theorem slotMapWrite_refused (s : State) (bin word value : Nat) :
    After (.slotMapWrite bin word value false) s (s.worldError .binSlotenEn bin) := by
  change execSlotMapWrite bin word value false s = _
  exact State.command_next rfl

/-- A map written within its widths reads back. -/
theorem State.slotMap_setSlotMap (s : State) {b : Nat} {m : SlotMap} (hb : b < 8) (h : m.fits) : (s.setSlotMap b m).slotMap b = m := by
  obtain ⟨en, map0, map1⟩ := h
  have wEn : Fld.width .binSlotenEn = 16 := by decide
  have wMap : Fld.width .binSlotmapSlot = 32 := by decide
  unfold State.slotMap State.setSlotMap
  rw [State.fld_setFld_of_reg _ _ (by decide) (by omega) (by omega), State.fld_setFld_of_reg _ _ (by decide) (by omega) (by omega),
    State.fld_setFld_same, wEn, Nat.mod_eq_of_lt en, State.fld_setFld_ne _ (Fld.key_ne_inst (by omega)), State.fld_setFld_same,
    State.fld_setFld_same, wMap, Nat.mod_eq_of_lt map0, Nat.mod_eq_of_lt map1]

/-- The map in force stays until the next slot 0. -/
theorem State.slotNow_setSlotMap (s : State) (b : Nat) (m : SlotMap) :
    SMap.get (s.setSlotMap b m).bin.slotNow b m = SMap.get s.bin.slotNow b (s.slotMap b) := SMap.get_put_same

/-- A count of BIN_ERRCNT leaves the map as it was. -/
theorem State.slotMap_bumpErrcnt (s : State) {b i : Nat} (hb : b < 8) (hi : i < 65536) :
    (s.bumpFld .binErrcntCount i 1).slotMap b = s.slotMap b := by
  unfold State.slotMap State.bumpFld
  rw [State.fld_setFld_of_reg _ _ (by decide) (by omega) hi, State.fld_setFld_of_reg _ _ (by decide) (by omega) hi,
    State.fld_setFld_of_reg _ _ (by decide) (by omega) hi]

/-- What a write can come to: the map stays, or it is the new one, and the map in force stays. -/
theorem slotMapWrite_cases {s t : State} {bin word value : Nat} {secure : Bool} (hb : bin < 8) (fits : (s.slotMap bin).fits)
    (run : exec (.slotMapWrite bin word value secure) s = .next t) :
    (t.slotMap bin = s.slotMap bin ∨ (t.slotMap bin).ok = true) ∧
    SMap.get t.bin.slotNow bin (t.slotMap bin) = SMap.get s.bin.slotNow bin (s.slotMap bin) := by
  cases secure with
  | false =>
    have left := Host.Outcome.next.inj ((slotMapWrite_refused s bin word value).symm.trans run)
    rw [State.worldError_frame] at left
    cases left
    exact ⟨.inl rfl, rfl⟩
  | true =>
    have after := slotMapWrite_after s bin word value
    split at after
    next legal =>
      have reads := State.slotMap_setSlotMap s hb (SlotMap.fits_written fits word value)
      have inForce := State.slotNow_setSlotMap s bin ((s.slotMap bin).written word value)
      generalize s.setSlotMap bin ((s.slotMap bin).written word value) = u at after reads inForce
      cases Host.Outcome.next.inj (after.symm.trans run)
      exact ⟨.inr ((congrArg SlotMap.ok reads).trans legal), (congrArg (SMap.get u.bin.slotNow bin) reads).trans inForce⟩
    next =>
      have kept := State.slotMap_bumpErrcnt s hb (i := bin * 5 + 4) (by omega)
      cases Host.Outcome.next.inj (after.symm.trans run)
      exact ⟨.inl kept, congrArg (SMap.get s.bin.slotNow bin) kept⟩

/-- Settles O31: a map that breaks the rules is counted and dropped, and one that keeps them waits for the next slot 0. -/
theorem slotMapKeepsFourSlotsFree : Obligations.SlotMapKeepsFourSlotsFree := by
  constructor
  · intro s bin word value old m broken
    have broken : ((s.slotMap bin).written word value).ok = false := broken
    have after := slotMapWrite_after s bin word value
    rwa [if_neg (ne_true_of_eq_false broken)] at after
  · intro s bin word value secure t hb legal wEn wMap run
    obtain ⟨map, inForce⟩ := slotMapWrite_cases hb ⟨wEn, wMap 0 (by decide), wMap 1 (by decide)⟩ run
    exact ⟨map.elim (fun same => same ▸ legal) id, inForce, rfl⟩

/-! ## Tallies -/

/-- Settles O36: a tally is a field of its own; a calm state has no WAIT_TALLY that a write could release. -/
theorem talliesCountAndSaturate : Obligations.TalliesCountAndSaturate := by
  refine ⟨State.tally_raiseTally_same, ?others, ?write, ?refused⟩
  case others =>
    intro s bin tally n b k apart
    exact State.fld_raiseTally_ne s n (Fld.key_ne_inst apart)
  case write =>
    intro s bin tally value secure calm inRange world
    have wide : Fld.width .binTallyCount = 32 := by decide
    have still : (s.setFld .binTallyCount (bin * 1024 + tally) value).calm = true := (SameQueues.of_rota rfl).calm calm
    have after : After (.tallyWrite bin tally value secure) s (s.setFld .binTallyCount (bin * 1024 + tally) value) := by
      change execTallyWrite bin tally value secure s = _
      refine State.command_next ?_
      rw [Nat.mod_eq_of_lt inRange, if_neg (by simpa using world), State.settle_calm still]
    refine ⟨_, after, ?_, fun b k apart => State.fld_setFld_ne s (Fld.key_ne_inst apart)⟩
    exact (State.fld_setFld_same s .binTallyCount _ value).trans (by rw [wide])
  case refused =>
    intro s bin tally value secureTally inRange
    have after : After (.tallyWrite bin tally value false) s (s.worldError .binTallyCount (bin * 1024 + tally)) := by
      change execTallyWrite bin tally value false s = _
      refine State.command_next ?_
      rw [Nat.mod_eq_of_lt inRange, if_pos (by simpa [tallySecure] using secureTally)]
    rw [State.worldError_frame] at after
    exact ⟨_, after, fun b k => rfl, rfl⟩

/-! ## Gates -/

/-- An arrival brings 256 bytes. -/
theorem arrival_data {data : List Byte} (h : data.length = 256) : (data ++ List.replicate 256 0).take 256 = data := by
  rw [← h, List.take_left]

section
variable {s : State} {bin gate off tally sender : Nat} {data : List Byte} {w : Word}

/-- A gate that is not OPEN rejects (R100). -/
theorem State.gateArrival_closed (h : s.fld .binGateState (bin * 64 + gate) ≠ 1) :
    s.gateArrival bin gate off tally sender data w = s.rejectGate bin gate 1 := by
  rw [State.gateArrival]
  exact if_pos h

variable (opened : s.fld .binGateState (bin * 64 + gate) = 1)
include opened

/-- A sender outside SRCMASK is rejected. -/
theorem State.gateArrival_sender (h : bit (s.fld .binGateSrcmask (bin * 64 + gate)) sender = false) :
    s.gateArrival bin gate off tally sender data w = s.rejectGate bin gate 2 := by
  simp [State.gateArrival, opened, h]

variable (sends : bit (s.fld .binGateSrcmask (bin * 64 + gate)) sender = true)
include sends

/-- An offset not below LEN is rejected. -/
theorem State.gateArrival_range (h : s.fld .binGateLen (bin * 64 + gate) ≤ off) :
    s.gateArrival bin gate off tally sender data w = s.rejectGate bin gate 3 := by
  simp [State.gateArrival, opened, sends, h]

variable (inRange : off < s.fld .binGateLen (bin * 64 + gate))
include inRange

/-- Another tally is rejected. -/
theorem State.gateArrival_tally (h : tally ≠ s.fld .binGateTally (bin * 64 + gate)) :
    s.gateArrival bin gate off tally sender data w = s.rejectGate bin gate 4 := by
  simp [State.gateArrival, opened, sends, Nat.not_le.mpr inRange, h]

variable (same : tally = s.fld .binGateTally (bin * 64 + gate))
include same

/-- An arrival that the regions refuse is rejected. -/
theorem State.gateArrival_world {u : State}
    (h : s.binAdmit (unitReq 0x13 (gateSecure gate)) true 3 bin [s.fld .binGateBase (bin * 64 + gate) + off] = (some .world, u)) :
    s.gateArrival bin gate off tally sender data w = u.rejectGate bin gate 7 := by
  simp [State.gateArrival, opened, sends, Nat.not_le.mpr inRange, ← same, h]

/-- An arrival that serves is written, and counted if its seal matches, or poisoned and rejected. -/
theorem State.gateArrival_written (hd : data.length = 256)
    (serves : BinServes s (unitReq 0x13 (gateSecure gate)) true bin [s.fld .binGateBase (bin * 64 + gate) + off]) :
    s.gateArrival bin gate off tally sender data w =
      let g := s.fld .binGateBase (bin * 64 + gate) + off
      let u := s.binStore bin (placed (g * 256) data) [(g, true)]
      if crc32c data = w then (0, u.raiseTally bin tally 1) else (u.setPoison bin g true).rejectGate bin gate 5 := by
  simp only [State.gateArrival, ne_eq, opened, sends, Nat.not_le.mpr inRange, ← same, State.binAdmit_serves serves, arrival_data hd,
    not_true_eq_false, Bool.not_true, Bool.false_eq_true, if_false]

end

/-- A rejection is one count, and no tally's. -/
theorem State.tally_rejectGate (s : State) {bin gate b k : Nat} (code : Nat) (hbin : bin < 8) (hgate : gate < 64) (hb : b < 8) (hk : k < 1024) :
    (s.rejectGate bin gate code).2.tally b k = s.tally b k :=
  State.fld_setFld_of_reg s _ (by decide) (by omega) (by omega)

theorem State.reject_rejectGate (s : State) (bin gate code : Nat) :
    (s.rejectGate bin gate code).2.fld .binGateReject (bin * 64 + gate) = (s.fld .binGateReject (bin * 64 + gate) + 1) % 2 ^ 32 := by
  have wide : Fld.width .binGateReject = 32 := by decide
  exact (State.fld_bumpFld_same s .binGateReject _ 1).trans (by rw [wide])

/-- Settles O37: each check answers before the next is asked. -/
theorem gateArrivalChecksInOrder : Obligations.GateArrivalChecksInOrder := by
  intro s bin gate off tally sender data w i g r rejected passes hbin hgate htally hd
  refine ⟨fun h => State.gateArrival_closed h, fun o h => State.gateArrival_sender o h, fun o m h => State.gateArrival_range o m h,
    fun o m l h => State.gateArrival_tally o m l h, ?world, ?badSeal, ?counted⟩
  case world =>
    rintro ⟨opened, sends, inRange, same⟩ ready below refused
    obtain ⟨g', admitted⟩ := State.binAdmit_refused ready (gs := [g]) (by simpa using below) (List.mem_singleton_self g) refused 3
    have hr : r = _ := State.gateArrival_world opened sends inRange same admitted
    have reported := Reported.binWorldError s hbin g' 3 (unitReq 0x13 (gateSecure gate)) true
    have bins := State.binWorldError_bin s (unitReq 0x13 (gateSecure gate)) true bin g' 3
    have faults := State.obj_binWorldError s (unitReq 0x13 (gateSecure gate)) true bin g' 3
    have errcnt := State.errcnt_binWorldError s (unitReq 0x13 (gateSecure gate)) true bin g' 3 hbin
    rw [hr]
    generalize s.binWorldError (unitReq 0x13 (gateSecure gate)) true bin g' 3 = u at reported bins faults errcnt
    refine ⟨rfl, bins, fun b hb k hk => ?_, ?_, ?_, faults⟩
    · exact (State.tally_rejectGate u 7 hbin hgate hb hk).trans (reported.fld _ _ (by omega) (by decide))
    · rw [State.reject_rejectGate, reported.fld _ _ (by omega) (by decide)]
    · exact (State.fld_setFld_of_reg u _ (by decide) (by omega) (by omega)).trans errcnt
  case badSeal =>
    rintro ⟨opened, sends, inRange, same⟩ serves mismatch
    have hr : r = _ := State.gateArrival_written opened sends inRange same hd serves
    rw [if_neg mismatch] at hr
    have stored := State.binRead_binStore s bin (g * 256) data [(g, true)]
    rw [hd] at stored
    rw [hr]
    refine ⟨rfl, State.poisoned_setPoison .., stored, fun b hb k hk => ?_, State.reject_rejectGate ..⟩
    exact State.tally_rejectGate _ 5 hbin hgate hb hk
  case counted =>
    rintro ⟨opened, sends, inRange, same⟩ serves good
    have hr : r = _ := State.gateArrival_written opened sends inRange same hd serves
    rw [if_pos good] at hr
    have stored := State.binRead_binStore s bin (g * 256) data [(g, true)]
    rw [hd] at stored
    rw [hr]
    refine ⟨rfl, ?_, stored, State.tally_raiseTally_same .., ?_⟩
    · exact State.grainGood_binStore s bin [(g, true)] _ (List.mem_singleton_self _)
    · exact State.fld_setFld_of_reg _ _ (by decide) (by omega) (by omega)

/-! ## A gate that opens after a refused open -/

/-- Right after reset gate 32 of Bin 0, set to one grain and a tally of its world, with the refusal of an earlier open still shown in OPENFAIL. -/
def gateAfterFailedOpen : State := State.reset.setFlds 32 [(.binGateLen, 1), (.binGateTally, 512), (.binGateOpenfail, 1)]

/-- The gate is CLOSED and may open: its grain is in no region, so secure, as is its tally (R99, R101, R321). -/
theorem gateAfterFailedOpen_opens : gateAfterFailedOpen.fld .binGateState 32 = 0 ∧ gateAfterFailedOpen.gateOpens 0 32 = true := by
  decide

/-- A secure open of a gate that may open clears OPENFAIL. -/
theorem gateOpen_next {s : State} {bin gate : Nat} (hs : s.fld .binGateState (bin * 64 + gate) = 0) (ho : s.gateOpens bin gate = true) :
    After (.gateOpen bin gate true) s (s.setFlds (bin * 64 + gate) [(.binGateOpen, 1), (.binGateState, 1), (.binGateOpenfail, 0)]) := by
  change execGateOpen bin gate true s = _
  exact State.command_next (by simp [hs, ho])

/-- Refutes O7: its clause on GATE_OPEN leaves OPENFAIL as it was, and a gate that opens after a refused open clears it. -/
theorem not_binCommandsComplete : ¬ Obligations.BinCommandsComplete := by
  unfold Obligations.BinCommandsComplete
  rintro ⟨-, -, -, -, -, -, -, -, -, -, -, opens, -⟩
  obtain ⟨closed, mayOpen⟩ := gateAfterFailedOpen_opens
  have stated := opens gateAfterFailedOpen 0 32 true (fun _ => rfl) closed mayOpen
  have runs := gateOpen_next (bin := 0) (gate := 32) closed mayOpen
  have same := Host.Outcome.next.inj (runs.symm.trans stated)
  have openfail := congrArg (State.fld · .binGateOpenfail 32) same
  exact absurd openfail (by decide)

end Sys2Proof.Machine

/-!
PROOFS. The commands of the Unified Range and the Granary (spec 06, R114 to R119, R127 to R129): what each completes with where its checks pass.
-/
namespace Sys2Proof.Machine

/-! ## Seals (R127) -/

/-- A page none of whose grains fails meets no cause that UR_QLOG would hold. -/
theorem State.noCause_of_grainsGood {s : State} {p : Nat} (h : ∀ i < 16, s.grainFails (p * 16 + i) true [] = none) :
    ((List.range 16).findSome? fun i => s.grainFails (p * 16 + i) true []).map (·.2) = none := by
  rw [List.findSome?_eq_none_iff.mpr fun i hi => h i (List.mem_range.mp hi), Option.map_none]

/-- A frame whose sixteen seals match holds no bad grain. -/
theorem State.noBadGrain_of_sealsMatch {s : State} {f : Nat} (h : ∀ i < 16, SMap.get s.ur.frameSealX (f * 16 + i) 0#32 = 0#32) :
    ((List.range 16).any fun i => SMap.get s.ur.frameSealX (f * 16 + i) 0#32 != 0#32) = false := by
  simpa using h

/-! ## Runs of pages (R116, R130) -/

/-- A run of 1 to 4,096 pages and a quota up to 8 names its pages in order. -/
theorem pinPages_inRange {page quota count : Nat} (low : 1 ≤ count) (high : count ≤ 4096) (hq : quota ≤ 8) :
    pinPages page quota count = some ((List.range count).map (page + ·)) :=
  if_neg (by omega)

/-- A run that ends within the Unified Range is taken whole. -/
theorem takeWhile_run {page count limit : Nat} (h : page + count ≤ limit) :
    ((List.range count).map (page + ·)).takeWhile (fun p => decide (p < limit)) = (List.range count).map (page + ·) := by
  have inRange : ∀ p ∈ (List.range count).map (page + ·), decide (p < limit) = true := by
    intro p hp
    obtain ⟨i, hi, rfl⟩ := List.mem_map.mp hp
    have below := List.mem_range.mp hi
    exact decide_eq_true (by omega)
  simpa only [List.append_nil, List.takeWhile_nil] using List.takeWhile_append_of_pos (l₂ := []) inRange

/-! ## Quotas (R114) -/

/-- A quota takes its way groups when no other quota holds one of them. -/
theorem State.setQuota_free {s : State} {quota ways : Nat}
    (h : ∀ q < 9, q ≠ quota → ∀ w < 16, bit ways w = true → bit (s.fld .urQuotaWays q) w = false) :
    s.setQuota quota ways = s.setFld .urQuotaWays quota ways := by
  have apart : (List.range 9).any (fun q => decide (q ≠ quota) && (List.range 16).any (fun w =>
      bit ways w && bit (s.fld .urQuotaWays q) w)) = false := by
    simpa using h
  exact if_neg (ne_true_of_eq_false apart)

/-! ## The commands -/

/-- Settles O8: each check of a command passes by the hypotheses, so that its meaning is the effect stated. -/
theorem unifiedRangeCommandsComplete : Obligations.UnifiedRangeCommandsComplete := by
  refine ⟨?read, ?write, ?fill, ?writeBack, ?decay, ?pin, ?unpin, ?quota, ?pstate, ?retire, ?loss⟩
  case read =>
    intro s init secure off len obs bs u bytesRead
    change execUnifiedRangeAccess init secure false off len [] obs s = _
    refine State.command_next ?_
    simp only [Bool.false_eq_true, if_false, bytesRead]
  case write =>
    intro s init secure off data obs u written
    change execUnifiedRangeAccess init secure true off data.length data obs s = _
    refine State.command_next ?_
    simp only [if_true, written]
  case fill =>
    intro s quarter x filling
    refine ⟨fun good => ?_, fun k => ?_⟩
    · change execGranaryFillComplete quarter none s = _
      refine State.command_next ?_
      simp only [filling, State.noCause_of_grainsGood good]
    · change execGranaryFillComplete quarter (some k) s = _
      refine State.command_next ?_
      simp only [filling]
  case writeBack =>
    intro s quarter w front seals
    change execGranaryWriteBackComplete quarter false s = _
    refine State.command_next ?_
    simp only [front, State.noBadGrain_of_sealsMatch seals, Bool.false_and, Bool.or_self, Bool.false_eq_true, if_false]
    cases w.fill <;> rfl
  case decay =>
    intro s at_
    change execMigrationDecay at_ s = _
    exact State.command_next rfl
  case pin =>
    intro s page quota count low high hq idle
    change execUrPin page quota count true s = _
    refine State.command_next ?_
    simp only [Bool.not_true, Bool.false_eq_true, if_false, idle, pinPages_inRange low high hq]
  case unpin =>
    intro s page quota count low high hq inRange idle
    have whole := takeWhile_run (limit := ((s.setPin page 1 quota count).setPinning none).urPages) inRange
    change execUrUnpin page quota count true s = _
    refine State.command_next ?_
    simp only [Bool.not_true, Bool.false_eq_true, if_false, idle, pinPages_inRange low high hq, whole, List.length_map,
      List.length_range, if_true]
  case quota =>
    intro s quota ways apart
    change execUrQuotaWrite quota ways true s = _
    refine State.command_next ?_
    simp only [if_true, State.setQuota_free apart]
  case pstate =>
    intro s page q sheaf inRange
    have listed : ¬ (s.setFld .urPstateSelPage 0 page).urPages ≤ page := Nat.not_le.mpr inRange
    change execUrPstateWrite page q sheaf true s = _
    refine State.command_next ?_
    simp only [Bool.not_true, Bool.false_eq_true, if_false, listed, Bool.not_eq_true']
  case retire =>
    intro s quarter draining noWriteBack
    change execQuarterRetireComplete quarter s = _
    refine State.command_next ?_
    simp only [draining, noWriteBack, Bool.not_true, Option.isSome_none, Bool.or_self, Bool.false_eq_true, if_false]
  case loss =>
    intro s quarter serving
    change execQuarterLoss quarter s = _
    refine State.command_next ?_
    simp only [serving, Bool.not_true, Bool.false_eq_true, if_false]

end Sys2Proof.Machine

/-!
PROOFS. The commands of the DRAM controller (spec 07, R133, R138 to R145): what each completes with where its checks pass.
-/
namespace Sys2Proof.Machine

/-! ## A request that arrives (R138, R139) -/

/-- The request that joins those held back is the first of its port, when none of its port was held. -/
theorem find?_held_of_portFree {held : List McReq} {r : McReq} (h : ∀ y ∈ held, y.port ≠ r.port) :
    (held ++ [r]).find? (fun x => x.port == r.port) = some r := by
  have noneOlder : held.find? (fun x => x.port == r.port) = none :=
    List.find?_eq_none.mpr fun y hy => by simpa using h y hy
  simp [List.find?_append, noneOlder]

/-- A request that enters its queue leaves those held before it as they were, when none of its port was held. -/
theorem erase_held_of_portFree {held : List McReq} {r : McReq} (h : ∀ y ∈ held, y.port ≠ r.port) :
    (held ++ [r]).erase r = held := by
  have isNew : r ∉ held := fun hr => h r hr rfl
  rw [List.erase_append_right _ isNew, List.erase_cons_head, List.append_nil]

/-- A request whose port has none held enters its queue where it finds an entry, and is held where it finds none. -/
theorem State.mcTake_of_portFree {s : State} {r : McReq} (h : ∀ y ∈ s.mc.held, y.port ≠ r.port) :
    ({ s with mc := { s.mc with held := s.mc.held ++ [r] } } : State).mcTake r =
      if s.mcAccepts r then s.setMcQueue r.channel (s.mcQueue r.channel ++ [r])
      else { s with mc := { s.mc with held := s.mc.held ++ [r] } } := by
  have accepts : ({ s with mc := { s.mc with held := s.mc.held ++ [r] } } : State).mcAccepts r = s.mcAccepts r := rfl
  simp only [State.mcTake, find?_held_of_portFree h, accepts, beq_self_eq_true, Bool.true_and]
  split
  · simp only [State.setMcQueue, State.mcQueue, erase_held_of_portFree h]
  · rfl

/-! ## A request that is served (R139) -/

/-- Nothing stands before the request at the head of its queue. -/
theorem takeWhile_ne_of_head {q : List McReq} {r : McReq} (h : q.head? = some r) : q.takeWhile (fun x => decide (x ≠ r)) = [] := by
  obtain ⟨rest, rfl⟩ := List.head?_eq_some_iff.mp h
  simp

/-- What a channel leaves that has served a request without a link error: a row hit that passes an older request of its level is counted,
a row that was not open is activated, and a request that ends after its target is counted. -/
def State.afterServing (s : State) (channel : Nat) (r : McReq) : State :=
  let older := ((s.mcQueue channel).takeWhile (fun x => decide (x ≠ r))).any (fun x =>
    x.write == r.write && decide (s.levelOf x = s.levelOf r))
  let n := if s.rowHit r && older then SMap.get s.mc.passed channel 0 + 1 else 0
  let s := { s with mc := { s.mc with passed := SMap.put s.mc.passed channel n 0 } }
  let late := decide (s.mcTarget r.port < s.time - r.arrival)
  let s := if s.rowHit r then s else s.activate r.bankKey r.row
  let s := s.setMcQueue channel ((s.mcQueue channel).erase r)
  let s := if late then s.bumpObj .lateReq (r.port + 1) 1 else s
  (s.runUpdate channel).mcAdmit

/-- A command slot without a link error serves the request that the channel picks once its bus is turned. -/
theorem execDramRequestComplete_of_pick {s : State} {channel at_ : Nat} {r : McReq} :
    let v := (s.reach at_).mcSlot channel
    let u : State := { v with mc := { v.mc with turned := SMap.put v.mc.turned channel (v.busTurn channel) false } }
    u.mcPick channel = some r →
      execDramRequestComplete channel false false at_ s = .next { u.afterServing channel r with pending := s.pending } := by
  intro v u picked
  refine State.command_next ?_
  simp only [u, v] at picked
  simp only [picked]
  rfl

/-- The count of row hits opens no row, changes no target and moves no request. -/
theorem State.rowHit_passed (s : State) (m : SMap Nat) (r : McReq) :
    ({ s with mc := { s.mc with passed := m } } : State).rowHit r = s.rowHit r := rfl

theorem State.mcTarget_passed (s : State) (m : SMap Nat) (port : Nat) :
    ({ s with mc := { s.mc with passed := m } } : State).mcTarget port = s.mcTarget port := rfl

theorem State.mcQueue_passed (s : State) (m : SMap Nat) (channel : Nat) :
    ({ s with mc := { s.mc with passed := m } } : State).mcQueue channel = s.mcQueue channel := rfl

/-- A row hit at the head of the queue passes no older request; in time, it is not counted as late. -/
theorem State.afterServing_of_head {s : State} {channel : Nat} {r : McReq} (hit : s.rowHit r = true)
    (atHead : (s.mcQueue channel).head? = some r) (inTime : s.time - r.arrival ≤ s.mcTarget r.port) :
    s.afterServing channel r =
      ((({ s with mc := { s.mc with passed := SMap.put s.mc.passed channel 0 0 } } : State).setMcQueue channel
        ((s.mcQueue channel).erase r)).runUpdate channel).mcAdmit := by
  simp only [State.afterServing, takeWhile_ne_of_head atHead, List.any_nil, Bool.and_false, Bool.false_eq_true, if_false,
    State.rowHit_passed, hit, if_true, State.mcTarget_passed, State.mcQueue_passed, Nat.not_lt.mpr inTime, decide_false]

/-! ## Retraining (R144, R461) -/

/-- A drift beyond the range leaves the controller's own state as it was. -/
@[simp] theorem State.driftError_mc (s : State) (channel : Nat) : (s.driftError channel).mc = s.mc :=
  (State.driftError_touches channel (Touches.refl [.regs, .objs, .log] s) (List.Subset.refl _)).keep .mc (by decide)

/-! ## The commands -/

/-- Settles O9: each check of a command passes by the hypotheses, so that its meaning is the effect stated. -/
theorem dramCommandsComplete : Obligations.DramCommandsComplete := by
  refine ⟨?arrive, ?place, ?serve, ?refresh, ?mr4, ?window, ?trained, ?failed, ?retrain, ?forced, ?powerDown, ?region0, ?region1⟩
  case arrive =>
    intro s port off write deadline at_
    change execDramRequest port off write deadline at_ s = _
    exact State.command_next rfl
  case place =>
    intro s port off write deadline at_ portFree
    change execDramRequest port off write deadline at_ s = _
    refine State.command_next (congrArg Host.Outcome.next ?_)
    let u : State := { s.reach at_ with mc := { s.mc with lastReq := (s.reach at_).time, powerDown := false } }
    exact State.mcTake_of_portFree (s := u) portFree
  case serve =>
    intro s channel at_ r v u picked hit atHead inTime
    have served := execDramRequestComplete_of_pick picked
    rwa [State.afterServing_of_head hit atHead inTime] at served
  case refresh =>
    intro s channel rank bank key u owed reqs later
    change (_ → execPerBankRefresh channel rank bank s = _) ∧ (_ → _ → execPerBankRefresh channel rank bank s = _) ∧
      (_ → _ → _ → execPerBankRefresh channel rank bank s = _) ∧ (_ → _ → ∃ n : Nat, _ ∧ execPerBankRefresh channel rank bank s = _)
    refine ⟨fun pulledIn => ?_, fun urgent within => ?_, fun due waiting goes => ?_, fun due idle => ?_⟩
    · exact State.command_next (if_pos pulledIn)
    · refine State.command_next ?_
      by_cases pulledIn : owed ≤ 0
      · exact if_pos pulledIn
      · exact (if_neg pulledIn).trans (if_pos ⟨urgent, within⟩)
    · have notPostponed : ¬ (reqs.any (fun r => decide (5 ≤ u.levelOf r)) = true ∧ owed ≤ 8) := by
        rintro ⟨urgent, within⟩
        rcases goes with calm | atLimit
        · exact absurd urgent (ne_true_of_eq_false calm)
        · omega
      have busy : ¬ reqs.isEmpty = true := by simpa using waiting
      exact State.command_next ((if_neg (Int.not_le.mpr due)).trans ((if_neg notPostponed).trans (if_neg busy)))
    · have noneUrgent : ¬ (reqs.any (fun r => decide (5 ≤ u.levelOf r)) = true ∧ owed ≤ 8) := by simp [idle]
      refine ⟨Config.freeNat u.fresh.1 % 9, by omega, State.command_next ?_⟩
      exact (if_neg (Int.not_le.mpr due)).trans ((if_neg noneUrgent).trans (if_pos (List.isEmpty_iff.mpr idle)))
  case mr4 =>
    intro s channel multiplier
    change execMr4Read channel multiplier false s = _ ∧ execMr4Read channel multiplier true s = _
    exact ⟨State.command_next rfl, State.command_next rfl⟩
  case window =>
    intro s
    change execActWindowClear s = _
    exact State.command_next rfl
  case trained =>
    intro s quad rfm notFailed notReady inRange untrained u
    change (_ → execDramTrainingComplete quad none s rfm = _) ∧ (_ → execDramTrainingComplete quad none s rfm = _)
    refine ⟨fun more => State.command_next ?_, fun last => State.command_next ?_⟩
    · simp [notFailed, notReady, untrained, more, u]
    · simp [notFailed, notReady, untrained, last, u]
  case failed =>
    intro s quad ch rfm notFailed notReady full first lower
    change execDramTrainingComplete quad (some ch) s rfm = _
    refine State.command_next ?_
    have lowerLeft : (s.fld .mcStatusRate 0 == 0) = false := by simpa using lower
    simp only [notFailed, notReady, Bool.or_self, Bool.false_eq_true, if_false, full, first, lowerLeft]
    rfl
  case retrain =>
    intro s channel drift at_ enabled drifted idle
    change execPeriodicRetrain channel drift at_ s = _
    refine State.command_next ?_
    have asked : (s.reach at_).flag .mcCtrlRetrainEn 0 = true := enabled
    have someDrift : (drift == 0) = false := by simpa using (show drift ≠ 0 by omega)
    have noneWaits : SMap.get (if drift = 2 then (s.reach at_).driftError channel else s.reach at_).mc.update channel 0 = 0 := by
      rw [apply_ite State.mc, State.driftError_mc, ite_self]
      exact idle
    simp only [asked, someDrift, noneWaits, Bool.not_true, Bool.or_self, Bool.false_eq_true, if_false, if_true]
  case forced =>
    intro s channel at_ waits due
    change execForcedRetrainUpdate channel at_ s = _
    exact State.command_next (if_pos ⟨waits, due⟩)
  case powerDown =>
    intro s at_ ready noQueue noHeld quiet
    change execDramPowerDown at_ s = _
    refine State.command_next (if_pos ?_)
    have serving : (s.reach at_).flag .mcStatusReady 0 = true := ready
    have mcKept : (s.reach at_).mc = s.mc := rfl
    simp only [serving, mcKept, noQueue, noHeld, quiet, List.isEmpty_nil, decide_true, Bool.and_self]
  case region0 =>
    intro s n value unlocked u shape legal
    change execMcRegionWrite n 0 value true s = _
    refine State.command_next ?_
    simp [unlocked, u, shape, legal]
  case region1 =>
    intro s n value unlocked u shape legal
    change execMcRegionWrite n 1 value true s = _
    refine State.command_next ?_
    simp [unlocked, u, shape, legal]

end Sys2Proof.Machine

/-!
PROOFS. The records of the Session Ledger (spec 08, R163, R164): a handle names its slot and its generation, and a record holds the fields
that it was opened with.
-/
namespace Sys2Proof.Machine

/-! ## Handles (R163) -/

/-- The fields of a HANDLE32 from bit 0 up: the generation, the index and the bank. -/
def handleFields (slot gen : Nat) : List (Nat × Nat) := [(14, gen), (16, slot % 65536), (2, slot / 65536)]

/-- A HANDLE32 is its fields side by side. -/
theorem handleOf_eq_packed (slot gen : Nat) : handleOf slot gen = packed (handleFields slot gen) := by
  simp only [handleOf, handleFields, packed]
  omega

section
variable {slot gen : Nat} (inLedger : slot < 4 * 65536) (fits : gen < 2 ^ 14)
include inLedger fits

/-- The fields of a handle of the Ledger fit their places. -/
theorem handleFields_fit : ∀ f ∈ handleFields slot gen, f.2 < 2 ^ f.1 := by
  simp only [handleFields, List.forall_mem_cons]
  exact ⟨fits, Nat.mod_lt _ (by decide), by omega, List.forall_mem_nil _⟩

theorem handleGen_handleOf : handleGen (handleOf slot gen) = gen :=
  handleOf_eq_packed slot gen ▸ bits_packed (handleFields_fit inLedger fits) 0 rfl rfl

/-- A handle names its bank and its index, which make the slot. -/
theorem handleSlot_handleOf : handleSlot (handleOf slot gen) = slot := by
  have index : bits (handleOf slot gen) 29 14 = slot % 65536 :=
    handleOf_eq_packed slot gen ▸ bits_packed (handleFields_fit inLedger fits) 1 rfl rfl
  have bank : bits (handleOf slot gen) 31 30 = slot / 65536 :=
    handleOf_eq_packed slot gen ▸ bits_packed (handleFields_fit inLedger fits) 2 rfl rfl
  rw [handleSlot, index, bank]
  exact Nat.div_add_mod' slot 65536

end

/-! ## The fields of a record (R164) -/

/-- A number cut to `n` bits has `n` bits. -/
theorem mod_two_pow_lt (v n : Nat) : v % 2 ^ n < 2 ^ n := Nat.mod_lt v (Nat.two_pow_pos n)

/-- The fields of an open record from bit 0 up: its header, and bytes 8 to 63. -/
def recordFields (type part owner gen : Nat) (secure : Bool) (body : Nat) : List (Nat × Nat) :=
  [(8, type), (3, 1), (1, b2n secure), (3, part), (1, 0), (14, gen), (2, 0), (32, owner), (448, body)]

/-- An open record with body `body`, as OPEN writes it. -/
def openRecord (type part owner gen : Nat) (secure : Bool) (body : Nat) : Nat :=
  recHeader type part owner gen secure + body % 2 ^ 448 * 2 ^ 64

/-- An open record is its fields side by side. -/
theorem openRecord_eq_packed (type part owner gen : Nat) (secure : Bool) (body : Nat) :
    openRecord type part owner gen secure body = packed (recordFields type part owner gen secure (body % 2 ^ 448)) := by
  simp only [openRecord, recHeader, recordFields, packed]
  omega

section
variable {type part owner gen : Nat} (htype : type < 256) (hpart : part < 8) (howner : owner < 2 ^ 32) (hgen : gen < 2 ^ 14)
  (secure : Bool) (body : Nat)
include htype hpart howner hgen

/-- The fields of an open record fit their places; its body is cut to bytes 8 to 63. -/
theorem recordFields_fit : ∀ f ∈ recordFields type part owner gen secure (body % 2 ^ 448), f.2 < 2 ^ f.1 := by
  have bodyFits : body % 2 ^ 448 < 2 ^ 448 := mod_two_pow_lt body 448
  simp only [recordFields, List.forall_mem_cons, b2n_lt, bodyFits, true_and]
  exact ⟨htype, by decide, hpart, by decide, hgen, by decide, howner, List.forall_mem_nil _⟩

/-- The bits of an open record at the place of a field are the field. -/
theorem bits_openRecord (k : Nat) {hi lo v : Nat}
    (hf : (recordFields type part owner gen secure (body % 2 ^ 448))[k]? = some (hi + 1 - lo, v))
    (hlo : widthOf ((recordFields type part owner gen secure (body % 2 ^ 448)).take k) = lo) :
    bits (openRecord type part owner gen secure body) hi lo = v :=
  openRecord_eq_packed type part owner gen secure body ▸ bits_packed (recordFields_fit htype hpart howner hgen secure body) k hf hlo

theorem recType_openRecord : recType (openRecord type part owner gen secure body) = type :=
  bits_openRecord htype hpart howner hgen secure body 0 rfl rfl

theorem recState_openRecord : recState (openRecord type part owner gen secure body) = 1 :=
  bits_openRecord htype hpart howner hgen secure body 1 rfl rfl

theorem recWorld_openRecord : recWorld (openRecord type part owner gen secure body) = b2n secure :=
  bits_openRecord htype hpart howner hgen secure body 2 rfl rfl

theorem recPart_openRecord : recPart (openRecord type part owner gen secure body) = part :=
  bits_openRecord htype hpart howner hgen secure body 3 rfl rfl

theorem recGen_openRecord : recGen (openRecord type part owner gen secure body) = gen :=
  bits_openRecord htype hpart howner hgen secure body 5 rfl rfl

end

/-! ## Slots and generations (R163) -/

/-- A slot reads back the record written to it. -/
@[simp] theorem State.recAt_setRec_same (s : State) (slot v : Nat) : (s.setRec slot v).recAt slot = v := SMap.get_put_same

theorem recGen_lt (r : Nat) : recGen r < 2 ^ 14 := Nat.mod_lt _ (by decide)

theorem State.nextRecGen_pos (s : State) (slot : Nat) : 0 < s.nextRecGen slot := Nat.succ_pos _

/-- The generation that OPEN gives fits the field of a handle and of a header. -/
theorem State.nextRecGen_lt (s : State) (slot : Nat) : s.nextRecGen slot < 2 ^ 14 := by
  unfold State.nextRecGen
  omega

/-- The generation after 16,383 is 1, and after any other the next one. -/
theorem State.nextRecGen_ne (s : State) (slot : Nat) : s.nextRecGen slot ≠ recGen (s.recAt slot) := by
  have := recGen_lt (s.recAt slot)
  unfold State.nextRecGen
  omega

/-- A handle names a record that is open and has its generation, which is not 0. -/
theorem State.stale_eq_false_iff {s : State} {h : Nat} :
    s.stale h = false ↔ handleGen h ≠ 0 ∧ handleGen h = recGen (s.recOf h) ∧ recState (s.recOf h) ≠ 0 := by
  simp [State.stale, State.recOf, and_assoc]

/-- A record that is free makes every handle of its slot stale. -/
theorem State.stale_of_recState_zero {s : State} {h : Nat} (free : recState (s.recOf h) = 0) : s.stale h = true :=
  eq_true_of_ne_false fun named => (stale_eq_false_iff.mp named).2.2 free

/-- What a freed record keeps is its generation: its state reads FREE. -/
theorem recState_genOnly (g : Nat) : recState (g * 2 ^ 16) = 0 := by
  simp only [recState, bits]
  omega

theorem State.recState_freeRec (s : State) (slot : Nat) : recState ((s.freeRec slot).recAt slot) = 0 := by
  rw [State.freeRec, State.recAt_setRec_same, recState_genOnly]

/-- Settles O48: the generation that OPEN takes fits its field and is not the old one, so that the fields of the handle and of the record
written at its slot read back; a freed record has the state FREE. -/
theorem handlesNameTheirRecord : Obligations.HandlesNameTheirRecord := by
  refine ⟨?opened, fun s h => State.stale_of_recState_zero (s.recState_freeRec (handleSlot h))⟩
  intro s slot type part secure body htype hpart inLedger g h t
  have hgen : g < 2 ^ 14 := s.nextRecGen_lt slot
  have noOwner : 0 < 2 ^ 32 := by decide
  have hslot : handleSlot h = slot := handleSlot_handleOf inLedger hgen
  have named : handleGen h = g := handleGen_handleOf inLedger hgen
  have record : t.recOf h = openRecord type part 0 g secure body := by
    rw [State.recOf, hslot]
    exact s.recAt_setRec_same slot _
  have hstate : recState (t.recOf h) = 1 := record ▸ recState_openRecord htype hpart noOwner hgen secure body
  have sameGen : recGen (t.recOf h) = g := record ▸ recGen_openRecord htype hpart noOwner hgen secure body
  have fresh : t.stale h = false := State.stale_eq_false_iff.mpr
    ⟨named ▸ Nat.ne_of_gt (s.nextRecGen_pos slot), named.trans sameGen.symm, hstate ▸ Nat.one_ne_zero⟩
  exact ⟨hslot, named, fresh, record ▸ recType_openRecord htype hpart noOwner hgen secure body,
    record ▸ recPart_openRecord htype hpart noOwner hgen secure body,
    record ▸ recWorld_openRecord htype hpart noOwner hgen secure body, hstate, s.nextRecGen_ne slot⟩

end Sys2Proof.Machine

/-!
PROOFS. The operations of the Session Ledger (spec 08, R167, R171): what OPEN, CLOSE, TRUNCATE and READ complete with where their checks
pass.
-/
namespace Sys2Proof.Machine

/-! ## The start of an operation (R171) -/

/-- The registers and the record fetch that begin an operation leave the records as they were. -/
theorem State.ledger_started (s : State) (op type part handle a0 a1 a2 : Nat) :
    (s.lgStart op type part handle a0 a1 a2).lgFetch.ledger = s.ledger :=
  (State.lgFetch_touches (State.lgStart_touches op type part handle a0 a1 a2 (Touches.refl [.regs, .free, .objs] s) (by decide))
    (by decide)).keep .ledger (by decide)

/-- The record that a handle names is read from the Ledger alone, and so is whether the handle is stale. -/
theorem State.recOf_congr {s t : State} (h : t.ledger = s.ledger) (handle : Nat) : t.recOf handle = s.recOf handle := by
  simp only [State.recOf, State.recAt, h]

theorem State.stale_congr {s t : State} (h : t.ledger = s.ledger) (handle : Nat) : t.stale handle = s.stale handle := by
  simp only [State.stale, State.recAt, h]

/-- A handle names, once an operation has begun, the record that it named before. -/
@[simp] theorem State.recOf_started (s : State) (op type part handle a0 a1 a2 h : Nat) :
    (s.lgStart op type part handle a0 a1 a2).lgFetch.recOf h = s.recOf h :=
  State.recOf_congr (s.ledger_started ..) h

/-! ## The operations (R167) -/

/-- The checks of an operation are on its record alone. -/
theorem State.lgCheck_congr {s t : State} (h : t.ledger = s.ledger) (handle : Nat) (secure sessionOk : Bool) :
    t.lgCheck handle secure sessionOk = s.lgCheck handle secure sessionOk := by
  simp only [State.lgCheck, State.recOf_congr h, State.stale_congr h]

@[simp] theorem State.lgCheck_started (s : State) (op type part handle a0 a1 a2 h : Nat) (secure sessionOk : Bool) :
    (s.lgStart op type part handle a0 a1 a2).lgFetch.lgCheck h secure sessionOk = s.lgCheck h secure sessionOk :=
  State.lgCheck_congr (s.ledger_started ..) h secure sessionOk

/-- The checks of an operation pass for an open record that the caller may use. -/
theorem State.lgCheck_done {s : State} {h : Nat} {secure sessionOk : Bool} (opened : recState (s.recOf h) ≠ 0)
    (world : recWorld (s.recOf h) = 1 → secure = true) (session : recType (s.recOf h) = 8 → (sessionOk && secure) = true)
    (named : s.stale h = false) : s.lgCheck h secure sessionOk = .done := by
  have worldPasses : ¬ ((!secure) = true ∧ recWorld (s.recOf h) = 1) := fun ⟨nonSecure, ofSecure⟩ => by
    simp [world ofSecure] at nonSecure
  have sessionPasses : ¬ (recType (s.recOf h) = 8 ∧ (!(sessionOk && secure)) = true) := fun ⟨isSession, no⟩ => by
    simp [session isSession] at no
  simp only [State.lgCheck, opened, worldPasses, sessionPasses, named, if_false, Bool.false_eq_true]

/-- OPEN of a record that no sequence owns. -/
theorem State.lgOpen_done {w u : State} {type part bank a0 a1 a2 slot body : Nat} {secure : Bool} {obs : List Obs} {m : Nat × Nat × Nat}
    (args : lgArgBits type = some m) (noPage : type ≠ 2) (arg0 : onlyBits a0 m.1 = true) (arg1 : onlyBits a1 m.2.1 = true)
    (arg2 : onlyBits a2 m.2.2 = true) (partOk : w.lgPartOk part secure = true) (free : w.freeRecord bank = some slot)
    (made : w.lgBody type part (handleOf slot (w.nextRecGen slot)) a0 a1 a2 secure obs = (.ok body, u)) :
    w.lgOpen type part bank a0 a1 a2 secure obs =
      (.done, (u.setRec slot (openRecord type part 0 (w.nextRecGen slot) secure body)).setFld .lgHandleValue 0
        (handleOf slot (w.nextRecGen slot))) := by
  simp only [State.lgOpen, args, arg0, arg1, arg2, partOk, Bool.and_self, Bool.not_true, Bool.false_eq_true, noPage, if_false,
    ne_eq, not_true_eq_false, free, made, openRecord]

/-- CLOSE of an open record, when what depends on it is released. -/
theorem State.lgClose_done {w u : State} {h : Nat} {secure : Bool} {obs : List Obs} (checked : w.lgCheck h secure false = .done)
    (opened : recState (w.recOf h) = 1) (released : w.lgRelease h obs = (none, u)) :
    w.lgClose h secure obs = (.done, u.freeRec (handleSlot h)) := by
  have idle : ¬ recState (w.recOf h) = 2 := by omega
  simp only [State.lgClose, checked, idle, if_false, released]

/-- TRUNCATE of an open sequence to at most its length, when the writes of its page-table entries are admitted. -/
theorem State.lgTruncate_done {w v u : State} {h n : Nat} {secure : Bool} {obs : List Obs} (checked : w.lgCheck h secure false = .done)
    (opened : recState (w.recOf h) = 1) (sequence : recType (w.recOf h) = 1) (shorter : n ≤ kvLen (w.recOf h))
    (admitted : w.admitEntries h ((w.pagesOf h).map (fun p => pgPidx (pageWord (w.recAt p)))) obs = (none, v))
    (cut : v.truncatePages h n (w.pagesOf h) = (none, u)) :
    w.lgTruncate h n secure obs = (.done, u.setRec (handleSlot h) (setKvLen (u.recOf h) n)) := by
  have idle : ¬ recState (w.recOf h) = 2 := by omega
  have allowed : ¬ (recType (w.recOf h) ≠ 1 ∨ kvLen (w.recOf h) < n) := by omega
  simp only [State.lgTruncate, checked, idle, allowed, if_false, admitted, cut]

/-! ## The commands -/

/-- Settles O10: the checks of each operation pass by the hypotheses, since its start leaves the records as they were. -/
theorem ledgerCommandsComplete : Obligations.LedgerCommandsComplete := by
  refine ⟨?openRec, ?close, ?truncate, ?read⟩
  case openRec =>
    intro s type part handle a0 a1 a2 secure obs m slot body u w args noPage arg0 arg1 arg2 partOk free made
    change execLedgerOpen type part handle a0 a1 a2 secure s obs = _
    have opens := State.lgOpen_done args noPage arg0 arg1 arg2 partOk free made
    exact State.command_next (congrArg (fun r => Host.Outcome.next (r.2.lgEnd r.1)) opens)
  case close =>
    intro s handle secure obs u w opened world noSession named released
    change execLedgerClose handle secure s obs = _
    have isOpen : recState (s.recOf handle) ≠ 0 := opened ▸ Nat.one_ne_zero
    have checked : w.lgCheck handle secure false = .done :=
      (s.lgCheck_started ..).trans (State.lgCheck_done isOpen world (fun session => absurd session noSession) named)
    have closes := State.lgClose_done checked ((congrArg recState (s.recOf_started ..)).trans opened) released
    exact State.command_next (congrArg (fun r => Host.Outcome.next (r.2.lgEnd r.1).settle) closes)
  case truncate =>
    intro s handle len secure obs v u w opened world sequence named shorter admitted cut
    change execLedgerTruncate handle len secure s obs = _
    have isOpen : recState (s.recOf handle) ≠ 0 := opened ▸ Nat.one_ne_zero
    have noSession : recType (s.recOf handle) ≠ 8 := sequence ▸ by decide
    have record : w.recOf handle = s.recOf handle := s.recOf_started ..
    have checked : w.lgCheck handle secure false = .done :=
      (s.lgCheck_started ..).trans (State.lgCheck_done isOpen world (fun session => absurd session noSession) named)
    have truncates := State.lgTruncate_done checked ((congrArg recState record).trans opened) ((congrArg recType record).trans sequence)
      (Nat.le_trans shorter (Nat.le_of_eq (congrArg kvLen record).symm)) admitted cut
    exact State.command_next (congrArg (fun r => Host.Outcome.next (r.2.lgEnd r.1)) truncates)
  case read =>
    intro s handle secure w opened world session named
    change execLedgerRead handle secure s = _
    have checked : s.lgCheck handle secure true = .done := State.lgCheck_done opened world session named
    refine State.command_next ?_
    simp only [State.lgCheck_started, checked, State.recOf_started, w]

end Sys2Proof.Machine

/-!
PROOFS. The end of a call of the Sieve (spec 10, R198, R206, R207): what it writes and counts, and when a lease moves with it.
-/
namespace Sys2Proof.Machine

/-! ## The output of a call -/

/-- What the end of a call that succeeds leaves (R206): header and body in their grains, DONE raised for each of them, and the counts. -/
def State.svOutput (s : State) (c : SvCall) : State :=
  let n := 1 + c.body.length / 256
  let gs := (List.range n).map (c.grain + ·)
  let u : State := { s with sv := { s.sv with run := none } }
  let u := (u.binStore c.bin (placed (c.grain * 256) (c.header ++ c.body)) (gs.map (fun g => (g, true)))).raiseTally c.bin c.done n
  let u := (u.bumpFld .svCntCount 0 1).bumpFld .svCntCount 1 c.passed
  let u := if c.flags % 2 = 1 then u.bumpObj .sieveCapped 0 1 else u
  if c.passed = 0 then u else u.bumpFld .svCntCount 2 c.count

section
variable {s : State} {c : SvCall}

/-- A call without an error, whose output lies in the holder's Bins and serves, leaves its output. -/
theorem State.svFinish_served (good : c.status = 0) (inside : s.svInside (c.bin, c.grain) ((1 + c.body.length / 256) * 256) = true)
    (serves : BinServes s s.svReq true c.bin ((List.range (1 + c.body.length / 256)).map (c.grain + ·))) : s.svFinish c = s.svOutput c := by
  have admitted := State.binAdmit_serves (s := { s with sv := { s.sv with run := none } }) serves 7
  have lies : State.svInside { s with sv := { s.sv with run := none } } (c.bin, c.grain) ((1 + c.body.length / 256) * 256) = true := inside
  have request : State.svReq { s with sv := { s.sv with run := none } } = s.svReq := rfl
  simp only [State.svFinish, lies, request, admitted, good, Bool.not_true, Bool.false_eq_true, if_false, ne_eq, not_true_eq_false,
    State.svOutput, List.map_map, Function.comp_def]

/-- The end of such a call: the lease moves when SV_LEASE shows after the output that it waits (R198), and no sooner. -/
theorem sieveCallComplete_served (running : s.sv.run = some c) (good : c.status = 0)
    (inside : s.svInside (c.bin, c.grain) ((1 + c.body.length / 256) * 256) = true)
    (serves : BinServes s s.svReq true c.bin ((List.range (1 + c.body.length / 256)).map (c.grain + ·))) :
    After .sieveCallComplete s
      (if (s.svOutput c).flag .svLeasePending 0 then (s.svOutput c).svMove.pwrSync else s.svOutput c).settle := by
  change execSieveCallComplete s = _
  refine State.command_next ?_
  simp only [running, State.svFinish_served good inside serves]

/-- The output of a call is written and counted outside SV_LEASE, when its DONE is a tally that its Bin has. -/
theorem State.svOutput_leasePending (hb : c.bin < 8) (hd : c.done < 1024) :
    (s.svOutput c).flag .svLeasePending 0 = s.flag .svLeasePending 0 := by
  have counted (u : State) (i n : Nat) (hi : i < 65536) : (u.bumpFld .svCntCount i n).fld .svLeasePending 0 = u.fld .svLeasePending 0 :=
    State.fld_setFld_of_reg u _ (by decide) (by decide) hi
  have raised (u : State) (n : Nat) : (u.raiseTally c.bin c.done n).fld .svLeasePending 0 = u.fld .svLeasePending 0 :=
    State.fld_setFld_of_reg u _ (by decide) (by decide) (by omega)
  have capped (u : State) : (u.bumpObj .sieveCapped 0 1).fld .svLeasePending 0 = u.fld .svLeasePending 0 := rfl
  simp only [State.flag, State.svOutput]
  split <;> split <;> simp only [counted, raised, capped, Nat.reduceLT] <;> rfl

/-- The clause of O11 on the end of a call, for a DONE that its Bin has. -/
theorem sieveCallComplete_tallyOfBin (hb : c.bin < 8) (hd : c.done < 1024) (running : s.sv.run = some c) (good : c.status = 0)
    (idle : s.flag .svLeasePending 0 = false) (inside : s.svInside (c.bin, c.grain) ((1 + c.body.length / 256) * 256) = true)
    (serves : BinServes s s.svReq true c.bin ((List.range (1 + c.body.length / 256)).map (c.grain + ·))) :
    After .sieveCallComplete s (s.svOutput c).settle := by
  have ends := sieveCallComplete_served running good inside serves
  rwa [State.svOutput_leasePending hb hd, idle, if_neg Bool.false_ne_true] at ends

end

/-! ## A call whose DONE is no tally -/

/-- A call without a body to grain 0 of Bin 0, whose DONE lies as far above the 1,024 tallies of the Bin as SV_LEASE.PENDING lies above tally 0. -/
def callDonePastTallies : SvCall := ⟨0, [], 0, 0, 60 * 65536, 0, 0, 0, 0, 0, []⟩

/-- The secure partition 0 over core 0 holds the Sieve, Bin 0 is READY, that call runs, and SV_LEASE, with EN = 0, is not pending. -/
def sieveDonePastTallies : State :=
  { State.reset.setFlds 0 [(.binStatusReady, 1), (.rtPartWorld, 1)] with sv := ⟨some 0, some callDonePastTallies⟩ }

/-- Its output lies in the holder's Bin, and the regions allow the write (R206, R321). -/
theorem sieveDonePastTallies_serves : sieveDonePastTallies.flag .svLeasePending 0 = false ∧
    sieveDonePastTallies.svInside (0, 0) 256 = true ∧ BinServes sieveDonePastTallies sieveDonePastTallies.svReq true 0 [0] := by
  refine ⟨by decide, by decide, by decide, ?_⟩
  simpa using (by decide : 0 < binGrains ∧ sieveDonePastTallies.allowed sieveDonePastTallies.svReq true 1 0 = true)

/-- The raise of that DONE is taken for SV_LEASE.PENDING; the lease that no write asked to move then leaves its holder. -/
theorem sieveDonePastTallies_moves :
    let u := sieveDonePastTallies.svOutput callDonePastTallies
    u.flag .svLeasePending 0 = true ∧ u.calm = true ∧ u.sv.holder = some 0 ∧ u.svMove.sv.holder = none := by
  decide

/-- A lease that moves leaves a calm state calm. -/
theorem State.svMove_pwrSync_calm {s : State} (h : s.calm = true) : s.svMove.pwrSync.calm = true :=
  have touched := State.pwrSync_touches (State.svMove_touches (.refl [.regs, .sv, .pwr] s) (by decide)) (by decide)
  (SameQueues.of_touches touched (by decide)).calm h

/-- The domains that follow a lease do not move it. -/
theorem State.pwrSync_sv (s : State) : s.pwrSync.sv = s.sv :=
  (State.pwrSync_touches (.refl [.pwr] s) (List.Subset.refl _)).keep .sv (by decide)

/-- Refutes O11: its clause on the end of a call takes any number as DONE, and one past the tallies of a Bin names, in the numbering of the
registers, SV_LEASE.PENDING, so that the lease moves with the call's end.  A descriptor's DONE has ten bits, and for those
`sieveCallComplete_tallyOfBin` proves the clause. -/
theorem not_sieveCommandsComplete : ¬ Obligations.SieveCommandsComplete := by
  unfold Obligations.SieveCommandsComplete
  rintro ⟨-, -, -, -, -, ends⟩
  obtain ⟨idle, inside, serves⟩ := sieveDonePastTallies_serves
  obtain ⟨pending, calm, holds, moved⟩ := sieveDonePastTallies_moves
  have stated : After .sieveCallComplete sieveDonePastTallies (sieveDonePastTallies.svOutput callDonePastTallies).settle :=
    ends sieveDonePastTallies callDonePastTallies rfl rfl idle inside serves
  have runs := sieveCallComplete_served (s := sieveDonePastTallies) (c := callDonePastTallies) rfl rfl inside serves
  generalize sieveDonePastTallies.svOutput callDonePastTallies = u at pending calm holds moved stated runs
  rw [if_pos pending, State.settle_calm (State.svMove_pwrSync_calm calm)] at runs
  rw [State.settle_calm calm] at stated
  have same : u.svMove.pwrSync.sv.holder = u.sv.holder := congrArg (·.sv.holder) (Host.Outcome.next.inj (runs.symm.trans stated))
  rw [State.pwrSync_sv, moved, holds] at same
  cases same

end Sys2Proof.Machine

/-!
PROOFS. The commands of the Rota (spec 11, R213, R218, R221, R223, R230, R231, R234): what each completes with once its checks pass.
-/
namespace Sys2Proof.Machine

/-! ## The passing of time -/

section
variable (s : State) (t : Nat)

@[simp] theorem State.fld_reach (f : Fld) (i : Nat) : (s.reach t).fld f i = s.fld f i := rfl

@[simp] theorem State.flag_reach (f : Fld) (i : Nat) : (s.reach t).flag f i = s.flag f i := rfl

@[simp] theorem State.sqLen_reach (r : Nat) : (s.reach t).sqLen r = s.sqLen r := rfl

@[simp] theorem State.ringSecure_reach (r : Nat) : (s.reach t).ringSecure r = s.ringSecure r := rfl

end

/-! ## Worlds and rings (R8) -/

/-- A requester that is secure where its target is may reach it. -/
theorem mayReach_of_imp {secure target : Bool} (h : target = true → secure = true) : mayReach secure target = true := by
  cases target
  · simp [mayReach]
  · simp [mayReach, h rfl]

/-- A write of RT_ABORT leaves every ring in its world. -/
theorem State.ringSecure_writeAbort (s : State) {ring : Nat} (ra ia : Nat) (hr : ring < 65536) :
    (s.setFlds 0 [(.rtAbortRing, ra), (.rtAbortIndex, ia)]).ringSecure ring = s.ringSecure ring := by
  have kept : (s.setFlds 0 [(.rtAbortRing, ra), (.rtAbortIndex, ia)]).fld .rtRingWorld ring = s.fld .rtRingWorld ring :=
    State.fld_setFlds_of_reg s (r := .rtAbort) rfl (by decide) hr (by decide)
  simp [State.ringSecure, State.flag, kept]

/-- RT_ABORT holds a ring and an index that fit its fields. -/
theorem State.fld_writeAbort (s : State) {ring index : Nat} (hr : ring < 256) (hi : index < 4096) :
    (s.setFlds 0 [(.rtAbortRing, ring), (.rtAbortIndex, index)]).fld .rtAbortRing 0 = ring ∧
    (s.setFlds 0 [(.rtAbortRing, ring), (.rtAbortIndex, index)]).fld .rtAbortIndex 0 = index := by
  have distinct : ([(Fld.rtAbortRing, ring), (.rtAbortIndex, index)].map (·.1.ctorIdx)).Nodup := by
    change [Fld.rtAbortRing.ctorIdx, Fld.rtAbortIndex.ctorIdx].Nodup
    decide
  have ringWidth : Fld.width .rtAbortRing = 8 := by decide
  have indexWidth : Fld.width .rtAbortIndex = 12 := by decide
  have ringBack := State.fld_setFlds_of_mem (f := .rtAbortRing) (i := 0) (v := ring) s distinct (by simp)
  have indexBack := State.fld_setFlds_of_mem (f := .rtAbortIndex) (i := 0) (v := index) s distinct (by simp)
  rw [ringWidth] at ringBack
  rw [indexWidth] at indexBack
  exact ⟨ringBack.trans (Nat.mod_eq_of_lt hr), indexBack.trans (Nat.mod_eq_of_lt hi)⟩

/-- The abort of a job that can be withdrawn, by a world that may, answers RESULT 0; cores that are free then decide (R230). -/
theorem State.abortJob_withdrawn {s u : State} {ring index : Nat} {secure : Bool} (hr : ring < 256)
    (hs : s.ringSecure ring = true → secure = true) (hw : s.withdraw ring index abortEnding = (true, u)) :
    s.abortJob ring index secure = (0, u.settle.decideNext) := by
  simp [State.abortJob, mayReach_of_imp hs, hw, Nat.not_le.mpr hr]

/-! ## The commands -/

/-- Settles O15: the checks of each command hold by the hypotheses, so that its meaning is the effect stated; RT_ABORT reads back the ring and the
index it was given and changes the world of no ring. -/
theorem rotaCommandsComplete : Obligations.RotaCommandsComplete := by
  refine ⟨?apply, ?resume, ?doorbell, ?cqhead, ?periodic, ?guarded, ?abort, ?selftest⟩
  case apply =>
    intro s legal
    change execPartApply true s = _
    refine State.command_next ?_
    simp [State.apply, legal]
  case resume =>
    intro s part applying quiet up
    change execPartitionApplyResume part s = _
    refine State.command_next ?_
    have furrowUp : ((s.partGoal part).furrow && (s.partGoal part).cores.any (fun c =>
        !(s.powerGood (31 + c) && s.powerGood (39 + c) && !s.flag .clkStatusHeld 0))) = false :=
      Bool.and_eq_false_imp.mpr fun furrow => by simpa [and_assoc] using up furrow
    simp only [applying, quiet, furrowUp, Bool.not_true, Bool.false_eq_true, if_false]
  case doorbell =>
    intro s ring tail at_ secure world enabled
    change execSubmissionDoorbell ring tail at_ secure s = _
    refine State.command_next ?_
    simp only [State.ringSecure_reach, mayReach_of_imp world, State.flag_reach, enabled, Bool.not_true, Bool.false_eq_true, if_false]
    rfl
  case cqhead =>
    intro s ring value secure world
    change execCqheadWrite ring value secure s = _
    refine State.command_next ?_
    simp [mayReach_of_imp world]
  case periodic =>
    intro s part slot at_ k u enabled periodic instant job served
    change execPeriodicRelease part slot at_ s = _
    refine State.command_next ?_
    simp [enabled, periodic, instant, job, served, k, u, and_assoc]
  case guarded =>
    intro s net at_ u r enabled due
    constructor
    · intro ready free
      have onTime : (s.flag .rtGnetMode net && !u.atInstant (s.fld .rtGnetPeriod net) (s.fld .rtGnetOffset net)) = false :=
        Bool.and_eq_false_imp.mpr fun periodic => by simpa using (due periodic).1
      have notMissed : (s.flag .rtGnetMode net && (s.sqLen r == 0 || !s.flag .rtRingEn r)) = false :=
        Bool.and_eq_false_imp.mpr fun periodic => by simpa using (due periodic).2
      change execGuardedRelease net at_ s = _
      refine State.command_next ?_
      simp [enabled, onTime, notMissed, ready, free, u, r]
    · intro periodic waits
      obtain ⟨instant, job, served⟩ := due periodic
      have behind : ¬(u.netReady net = true ∧ (u.net net).due = []) := by
        rintro ⟨ready, free⟩
        exact waits.elim (by simp [ready]) (· free)
      change execGuardedRelease net at_ s = _
      refine State.command_next ?_
      simp [enabled, periodic, instant, job, served, behind, u, r]
  case abort =>
    intro s ring index secure at_ u hr hi world withdrawn
    change execRotaAbort none ring index secure at_ s = _
    refine State.command_next ?_
    obtain ⟨ringBack, indexBack⟩ := State.fld_writeAbort (s.reach at_) hr hi
    have sameWorld := State.ringSecure_writeAbort (s.reach at_) ring index (ring := ring) (by omega)
    have aborted := State.abortJob_withdrawn (secure := secure) hr (fun h => world (sameWorld ▸ h)) withdrawn
    simp only [ringBack, indexBack, aborted]
  case selftest =>
    intro s core badRows badCores at_ i testing
    change execSelftestSegmentEnd core badRows badCores at_ s = _
    refine State.command_next ?_
    simp only [State.core_reach, testing]
    rfl

end Sys2Proof.Machine

/-!
PROOFS. The commands of the Hopper (spec 12, R237, R240, R244 to R246, R248, R250): what each completes with once its checks pass.
-/
namespace Sys2Proof.Machine

/-! ## What the checks read -/

section
variable (s : State)

@[simp] theorem State.hpFeed_reach (t n : Nat) : (s.reach t).hpFeed n = s.hpFeed n := rfl

@[simp] theorem State.hpReady_reach (t : Nat) : (s.reach t).hpReady = s.hpReady := rfl

/-- A record fetch leaves the records as they were. -/
@[simp] theorem State.recOf_lgFetch (h : Nat) : s.lgFetch.recOf h = s.recOf h := rfl

@[simp] theorem State.stale_lgFetch (h : Nat) : s.lgFetch.stale h = s.stale h := rfl

end

/-! ## The enable of a feed (R237, R250) -/

/-- The enable of a feed whose handle names a feed record of its slot, in a world that the caller reaches and with a good configuration, answers
RESULT OK and a feed that starts at sample 0. -/
theorem State.hpEnable_ok {s u : State} {n h r : Nat} {secure : Bool} {st : List Word} (handle : s.fld .hpFeedHandle n = h)
    (record : s.recOf h = r) (fresh : s.stale h = false) (world : (recWorld r == 1) = true → secure = true) (isFeed : recType r = 7)
    (ofSlot : recField r 8 26 24 = n)
    (stats : s.lgFetch.hpStats (recField r 8 23 0) (bit (recField r 28 31 0) 25) (recWorld r == 1) = (.ok st, u))
    (good : u.hpCfgOk (recPart r) (hpCfg r st) = true) :
    s.hpEnable n secure = (0, u.setHpFeed n (some ⟨h, recWorld r == 1, hpCfg r st, 0, 0, 0, 0, [], [], true, none⟩)) := by
  have named : ¬(recType r ≠ 7 ∨ recField r 8 26 24 ≠ n) := not_or.mpr ⟨not_not.mpr isFeed, not_not.mpr ofSlot⟩
  simp only [State.hpEnable, handle, State.recOf_lgFetch, State.stale_lgFetch, record, fresh, mayReach_of_imp world, Bool.not_true,
    Bool.false_eq_true, if_false, if_neg named, stats, good]

/-! ## The commands -/

/-- Settles O16: the checks of each command hold by the hypotheses, so that its meaning is the effect stated. -/
theorem hopperCommandsComplete : Obligations.HopperCommandsComplete := by
  refine ⟨?enable, ?disable, ?doorbell, ?start, ?finish, ?budget, ?release⟩
  case enable =>
    intro s feed secure u h r world clock off fresh reach isFeed ofSlot st stats good
    change execHpFeedEnable feed secure s = _
    refine State.command_next ?_
    have enables := State.hpEnable_ok rfl rfl fresh reach isFeed ofSlot stats good
    simp only [clock, off, enables, Bool.not_true, Option.isSome_none, Bool.false_eq_true, if_false, if_true]
    rfl
  case disable =>
    intro s feed secure f clock on reach
    change execHpFeedDisable feed secure s = _
    refine State.command_next ?_
    simp only [clock, on, mayReach_of_imp reach, Bool.not_true, Bool.false_eq_true, if_false, if_true]
  case doorbell =>
    intro s feed tail secure f size n clock on reach fits
    change execHpDoorbell feed tail secure s = _
    refine State.command_next ?_
    have room : ¬ size < f.tail + n - f.published * f.cfg.b := Nat.not_lt.mpr fits
    simp only [clock, on, mayReach_of_imp reach, Bool.not_true, Bool.false_eq_true, if_false]
    exact if_neg room
  case start =>
    intro s lane at_ n f inRange ready idle next on
    change execLaneSampleStart lane at_ s = _
    refine State.command_next ?_
    have free : s.hp.lanes.any (fun l => l.lane == lane) = false := by simpa using idle
    have goes : ¬(16 ≤ lane ∨ (s.reach at_).hpReady = false ∨ (s.reach at_).hp.lanes.any (fun l => l.lane == lane) = true) := by
      simp [inRange, ready, free]
    refine (if_neg goes).trans ?_
    simp only [State.hpFeed_reach, State.reach_frame, next, on]
  case finish =>
    intro s lane obs at_ l f b u busy on prepared
    change execSampleFinish lane obs at_ s = _
    refine State.command_next ?_
    simp only [State.reach_frame, State.hpFeed_reach, busy, on, prepared]
  case budget =>
    intro s lane at_ l f busy on budgeted enough reached
    change execSampleBudgetExpiry lane at_ s = _
    refine State.command_next ?_
    simp only [State.reach_frame, State.hpFeed_reach, busy, on]
    exact if_pos ⟨budgeted, enough, reached⟩
  case release =>
    intro s feed add secure f clock on reach _ atMost
    change execHpRelease feed add secure s = _
    refine State.command_next ?_
    simp only [clock, on, mayReach_of_imp reach, Bool.true_eq_false, Bool.not_true, Bool.false_eq_true, and_false, if_false,
      if_neg (Nat.not_lt.mpr atMost)]

end Sys2Proof.Machine

/-!
PROOFS. The person-facing inputs (spec 15, R291, R293 to R296): what each command completes with once its checks pass.
-/
namespace Sys2Proof.Machine

/-- Settles O19: each command finds a level, a press or an instant that its checks pass, and its meaning is the effect stated. -/
theorem doorCommandsComplete : Obligations.DoorCommandsComplete := by
  refine ⟨?press, ?release, ?long, ?touch, ?camera, ?microphones, ?shutter, ?led⟩
  case press =>
    intro s button edge at_ up
    change execButtonChange button true edge at_ s = _
    refine State.command_next ?_
    simp only [State.fld_reach, up, Bool.false_eq_true, Bool.not_true, Bool.false_and, Bool.true_and, if_false, if_true]
    rfl
  case release =>
    intro s button edge at_ down aboveRecovery
    change execButtonChange button false edge at_ s = _
    refine State.command_next ?_
    have noDecision : decide (button ≤ 1) = false := decide_eq_false (by omega)
    simp only [State.fld_reach, down, noDecision, Bool.true_eq_false, Bool.false_eq_true, Bool.not_false, Bool.true_and, Bool.false_and, if_false]
    rfl
  case long =>
    intro s button at_ due down notYet reached
    change execButtonLong button at_ s = _
    exact State.command_next (if_pos ⟨down, notYet, reached⟩)
  case touch =>
    intro s meas at_
    change execTouchScan meas at_ s = _
    exact State.command_next rfl
  case camera =>
    intro s input edge at_ isCamera absent
    change execHpdChange input true edge at_ s = _
    refine State.command_next ?_
    simp only [State.fld_reach, isCamera, absent, Bool.false_eq_true, if_false, if_true]
  case microphones =>
    intro s input edge at_ isMic absent
    change execHpdChange input true edge at_ s = _
    refine State.command_next ?_
    simp only [State.fld_reach, Nat.not_lt.mpr isMic, absent, Bool.false_eq_true, if_false, if_true]
    rfl
  case shutter =>
    intro s link closed edge at_ moved
    change execShutterChange link closed edge at_ s = _
    exact State.command_next (if_neg moved)
  case led =>
    intro s led value at_ clock
    change execDoorLedWrite led value at_ s = _
    refine State.command_next ?_
    have runs : (s.reach at_).clocked 1 = true := clock
    simp only [runs, Bool.not_true, Bool.false_eq_true, if_false]
    rfl

end Sys2Proof.Machine

/-!
PROOFS. The safety monitor (spec 16, R300, R305 to R312, R317): the comparator, the watchdogs that a register arms, SAFE_FAULT and injected
faults; and the seal.
-/
namespace Sys2Proof.Machine

/-! ## What the checks read -/

section
variable (s : State) (t : Nat)

@[simp] theorem State.net_reach (k : Nat) : (s.reach t).net k = s.net k := rfl

@[simp] theorem State.windowsOf_reach (k : Nat) : (s.reach t).windowsOf k = s.windowsOf k := rfl

end

/-! ## The commands -/

/-- Settles O20: the checks of each command hold by the hypotheses; a frame that agrees changes no register before its tally is raised. -/
theorem safetyCommandsComplete : Obligations.SafetyCommandsComplete := by
  refine ⟨?start, ?complete, ?arm, ?kick, ?expiry, ?clear, ?compare, ?watchdog⟩
  case start =>
    intro s net comparing
    change execComparatorStart net s = _
    exact State.command_next (congrArg _ (if_pos comparing))
  case complete =>
    intro s net obs at_ x y v u n base count injected d d' reading west east
    change execComparatorComplete net obs at_ s = _
    refine State.command_next ?_
    have read : (s.net net).reading = true := reading
    have westRead : (s.reach at_).cmpRead (s.net net).west (s.fld .cmpNetBase net) (s.fld .cmpNetCount net) obs = (some x, v) := west
    have eastRead : v.cmpRead (s.net net).east (s.fld .cmpNetBase net) (s.fld .cmpNetCount net) obs = (some y, u) := east
    simp only [State.net_reach, State.fld_reach, read, westRead, eastRead, Bool.not_true, Bool.false_eq_true, if_false]
    by_cases withheld : u.fld .cmpNetThresh net < d'.length
    · exact (if_pos withheld).trans (congrArg _ (if_pos withheld).symm)
    · exact (if_neg withheld).trans (congrArg _ (if_neg withheld).symm)
  case arm =>
    intro s ww at_ armed
    change execWwKickArm ww at_ s = _
    exact State.command_next (congrArg _ (if_pos armed))
  case kick =>
    intro s ww at_ x r armed first
    change execWwKick ww at_ s = _
    refine State.command_next ?_
    simp only [State.fld_reach, armed, State.windowsOf_reach, first, ne_eq, not_true_eq_false, if_false, List.head?_cons]
  case expiry =>
    intro s ww at_
    change execWatchdogLimitExpiry ww at_ s = _
    exact State.command_next rfl
  case clear =>
    intro s
    change execSafeFaultClear 31 true s = _
    exact State.command_next rfl
  case compare =>
    intro s net inRange
    change execSafeInjectCompare net true s = _
    refine State.command_next ?_
    simp only [Nat.mod_eq_of_lt inRange, if_true]
  case watchdog =>
    intro s ww inRange
    change execSafeInjectWatchdog ww true s = _
    refine State.command_next ?_
    simp only [Nat.mod_eq_of_lt inRange, if_true]

/-! ## The seal (R300) -/

/-- The polynomial has bit 31, which a shift leaves 0: that bit tells whether the bit shifted out was set. -/
theorem crcBit_top (c : Word) : (crcBit c).getLsbD 31 = c.getLsbD 0 := by
  unfold crcBit
  split <;> simp_all

/-- A bit step loses nothing: bit 31 gives back the bit shifted out, and with it the rest. -/
theorem crcBit_injective : Function.Injective crcBit := by
  intro c d same
  have low : c.getLsbD 0 = d.getLsbD 0 := by rw [← crcBit_top, same, crcBit_top]
  have high : c >>> 1 = d >>> 1 := by
    unfold crcBit at same
    rw [low] at same
    split at same
    · exact (BitVec.xor_left_inj _).mp same
    · exact same
  refine BitVec.eq_of_getLsbD_eq fun i inWord => ?_
  cases i with
  | zero => exact low
  | succ i =>
    have bit := congrArg (BitVec.getLsbD · i) high
    simpa [Nat.add_comm] using bit

/-- From one register, different bytes lead to different registers. -/
theorem crcByte_injective (c : Word) : Function.Injective (crcByte c) := by
  intro a b same
  have entered : c ^^^ a.setWidth 32 = c ^^^ b.setWidth 32 := by
    unfold crcByte at same
    simpa only [crcBit_injective.eq_iff] using same
  have widened := (BitVec.xor_right_inj c).mp entered
  simpa using congrArg (BitVec.setWidth 8) widened

/-- The check value of R300. -/
theorem crc32c_checkValue : crc32c [0x31, 0x32, 0x33, 0x34, 0x35, 0x36, 0x37, 0x38, 0x39] = 0xE3069283#32 := by
  simp [crc32c, crcByte, crcBit]

/-- Settles O43: the check value is computed; the last byte enters by a step that loses nothing. -/
theorem sealIsCrc32c : Obligations.SealIsCrc32c := by
  refine ⟨crc32c_checkValue, rfl, fun bs a b differ same => differ ?_⟩
  unfold crc32c at same
  rw [List.foldl_append, List.foldl_append] at same
  exact crcByte_injective _ ((BitVec.xor_left_inj _).mp same)

end Sys2Proof.Machine

/-!
PROOFS. Steps and the queue of waiting commands (spec 01, notes/assumptions/1): what a step takes, that no command stops it, and the order
in which commands run.
-/
namespace Sys2Proof.Machine

/-! ## Every meaning answers a next state -/

/-- The outcome is a next state: neither a fault nor a refusal. -/
def GoesOn (o : Host.Outcome State Fault Refusal) : Prop := ∃ t, o = .next t

theorem GoesOn.next (t : State) : GoesOn (.next t) := ⟨t, rfl⟩

theorem GoesOn.ite {c : Prop} [Decidable c] {a b : Host.Outcome State Fault Refusal} (ha : GoesOn a) (hb : GoesOn b) :
    GoesOn (if c then a else b) := by
  split <;> assumption

/-- A command whose meaning goes on answers a next state with the queue as it was. -/
theorem GoesOn.command {s : State} {f : State → Host.Outcome State Fault Refusal} (h : GoesOn (f s)) :
    ∃ t, s.command f = .next t ∧ t.pending = s.pending :=
  let ⟨_, answer⟩ := h
  ⟨_, State.command_next answer, rfl⟩

/-- A line: the sensor and its open frame are cases, and the other branches are conditions. -/
theorem execCsiLongPacket_goesOn (link vc dt : Nat) (line : List Nat) (hdr : Nat) (crcBad : Bool) (overflow at_ : Nat) (s : State) :
    ∃ t, execCsiLongPacket link vc dt line hdr crcBad overflow at_ s = .next t ∧ t.pending = s.pending := by
  unfold execCsiLongPacket
  refine GoesOn.command ?_
  extract_lets s₁ s₂ s₃ s₄
  refine GoesOn.ite (.next _) ?_
  cases s₃.sensorOf link vc with
  | none => exact .next _
  | some k =>
    dsimp -zeta only
    extract_lets short
    refine GoesOn.ite (.next _) ?_
    cases (s₄.sensor k).frame with
    | none => exact .next _
    | some f =>
      exact .ite (.next _) (.ite (.next _) (.ite (.next _) (.ite (.next _) (.ite (.next _) (.next _)))))

/-- The end of the comparator's reading: what each network's run answered are cases, and the agreement is a condition. -/
theorem execComparatorComplete_goesOn (net : Nat) (obs : List Obs) (at_ : Nat) (s : State) :
    ∃ t, execComparatorComplete net obs at_ s = .next t ∧ t.pending = s.pending := by
  unfold execComparatorComplete
  refine GoesOn.command ?_
  extract_lets u n base count a b
  refine GoesOn.ite (.next _) ?_
  cases a.1 <;> cases b.1
  case some.some => exact .ite (.next _) (.next _)
  all_goals exact .next _

/-- The meanings without a branch are next states as they stand; in the others every branch ends in one. -/
theorem exec_goesOn (i : Instr) (s : State) : ∃ t, exec i s = .next t ∧ t.pending = s.pending := by
  cases i
  case
      gateArrival | svLeaseWrite | sieveDecode | sieveCrop | commandComplete | hearthCfgWrite | tcCtrlHalt | migrationDecay |
      urQuotaWrite | partApply | cameraHotplugLoss | csiLossTimeout | camColourWrite | audioRelease | watchVerdictReject |
      lockOpenExpiry | erasingComplete | watchPull | listenMicLost | touchScan | comparatorStart | wwKickArm | watchdogLimitExpiry |
      safeInjectCompare | safeInjectWatchdog | attestNonceWrite | hlRetrain | hlLinkack | nhlwakePulse | ledgerOpen | ledgerClose |
      ledgerTruncate | brownOut | nporLow | nrstLow | nrstRelease | extestSelect | extestDeselect | rstCtrlWarm | vddAonInRemoved |
      clockSourceReturn | pmbusAlert | logFlush | updBegin | updData | updFinish | updCancel | updActivate | almanacSave |
      almanacRestore | almanacSaveComplete | crierIdentify | crierOpen | crierClose | crierSubscribe | objectRead | objectWrite |
      readBlock | writeBlock | crierPull | crierAck | unknownOperation | arpRequest | icmpEcho | tc10RemoteWake | dramRequest | mr4Read |
      actWindowClear | gemmNSplit | gemmKSplit | gemmBTransposed | convDense | convDiagonal | attnForward | attnBackward | scanDiagonal |
      scanMatrixValued | scanStep | vecCopy | vecAdd | vecMultiply | vecFusedMultiplyAdd | vecMaximum | vecMinimum | vecExp | vecLog |
      vecReciprocal | vecSigmoid | vecTanh | vecSilu | vecGelu | vecSumAlongD0 | vecMaximumAlongD0 | vecRequantise | poolMax |
      poolAverage | dmaUnifiedRangeToBin | dmaBinToUnifiedRange | dmaBinToBin | dmaBinToRemoteGate | waitTally |
      scalePerRowAbsoluteMaximum | scaleLoad | scaleAdapt | spillOut | spillIn | stilePoint | reservedClassCommand => exact ⟨_, rfl, rfl⟩
  case csiLongPacket => exact execCsiLongPacket_goesOn _ _ _ _ _ _ _ _ s
  case comparatorComplete => exact execComparatorComplete_goesOn _ _ _ s
  all_goals
    dsimp only [exec]
    delta
      execAgreeHandshakeEnd execAttestReportSigned execAudStreamEnable execAudioBlock execBinInit execBinPortAccess execBinRepair
      execBinZeroingComplete execBootRomVerifyComplete execBoundaryRegionWrite execButtonChange execButtonLong execClkEnWrite
      execClkReturnTimeout execClkTcselSwitch execClockSourceFailure execCorrectedWordWriteBack
      execCqheadWrite execCrierNotify execCsiFrameEnd execCsiFrameStart execDeadlineExpiry execDebugToken
      execDebugUnlock execDeviceRootFormed execDomainPowerGood execDomainStart execDomainSwitchOff execDoorLedWrite execDozeEntry
      execDramPowerDown execDramRequestComplete execDramTrainingComplete execFallbackStart execFieldRowRepair
      execForcedRetrainUpdate execFrameStartTimeout execGapRecord execGateClose execGateOpen execGovernorPeriod execGptpMessage
      execGranaryFillComplete execGranaryWriteBackComplete execGuardedRelease execHardwareThrottle execHearthSwapInComplete
      execHearthSwapOutComplete execHlData execHlHello execHlMgmt execHlPortDown execHlPortUp execHlReplay execHlReply
      execHlReplyTimeout execHlSync execHlSyncLoss execHlSyncSend execHlUnknownPacket execHostFirmwareVerified execHpDoorbell
      execHpFeedDisable execHpFeedEnable execHpRelease execHpdChange execIdleEntry execKeySlotAgree execKeySlotClear
      execKeySlotDerive execLaneSampleStart execLedgerRead execListenEntry execLogRegisterClear execMcRegionWrite execMuteAssert
      execMuteRelease execNporRelease execOsDisable execOsEnable execOsRelease execPartitionApplyResume execPatrolScrub
      execPerBankRefresh execPeriodicRelease execPeriodicRetrain execPllLock execPreEmptionSaveComplete execQuarterLoss
      execQuarterRetireComplete execRecoveryDecision execRegOk execRegOkTimeout execRegRetry execRegionZeroingComplete
      execRegisterWrite execRestEntry execResultPublish execResumeComplete execRotaAbort execRstCtrlPartition execSafeFaultClear
      execSampleBudgetExpiry execSampleFinish execSecMeasWrite execSecUnwrap execSecWmapWrite execSelftestSegmentEnd
      execSessionTimeout execShutterChange execSieveCallComplete execSlotMapWrite execSpanPush execSpanPushComplete
      execStateEntryComplete execSubmissionDoorbell execSvDoorbell execSwitchRestoreComplete execTallyWrite execTclkSwitchComplete
      execThermalTrip execUnifiedRangeAccess execUnwrapComplete execUpdCommitComplete execUpdVerifyComplete execUpdWriteComplete
      execUrPin execUrPstateWrite execUrUnpin execVadFrame execVerifyTimeout execWaitTallyTimeout execWakeAlarm
      execWarmResetZeroingComplete execWatchImageVerified execWatchRegulatorOverload execWatchSpanWrite execWatchVerdictAccept
      execWwKick
    refine GoesOn.command ?_
    repeat' (first | exact GoesOn.next _ | apply GoesOn.ite | split | dsimp only)


/-- Settles O3: every branch of every meaning ends in a next state, and `State.command` puts the queue back. -/
theorem everyCommandAnswersNextState : Obligations.EveryCommandAnswersNextState := exec_goesOn

/-! ## Steps -/

/-- Settles O1: by the definition of a step. -/
theorem stepRunsFrontCommand : Obligations.StepRunsFrontCommand := fun _ _ _ => rfl

/-- A step with commands waiting runs the first and leaves the rest waiting. -/
theorem step_pending_cons {s : State} {c : Instr} {r : List Instr} (waits : s.pending = c :: r) :
    ∃ t, step s = .next t ∧ t.pending = r := by
  obtain ⟨t, runs, kept⟩ := exec_goesOn c { s with pending := r }
  refine ⟨t, ?_, kept⟩
  simpa only [step, waits] using runs

/-- Settles O4, by induction on the number of steps. -/
theorem queuedCommandsRunInOrder : Obligations.QueuedCommandsRunInOrder := by
  intro k
  induction k with
  | zero => exact fun s _ => ⟨s, rfl, rfl⟩
  | succ k ih =>
    intro s enough
    cases waits : s.pending with
    | nil => simp [waits] at enough
    | cons c r =>
      obtain ⟨t, runs, rest⟩ := step_pending_cons waits
      obtain ⟨u, later, left⟩ := ih t (by simpa [waits, rest] using enough)
      refine ⟨u, ?_, by rw [left, rest, List.drop_succ_cons]⟩
      simpa only [afterSteps, runs] using later

/-- Settles O2: with an empty queue a step is one tick, which is 4 ns while nothing is slewed. -/
theorem emptyQueueStepIsOneTick : Obligations.EmptyQueueStepIsOneTick := by
  intro s empty
  refine ⟨s.tick, by simp only [step, empty], fun still => ?_, rfl⟩
  simp [State.tick, State.tickNs, still]

/-- Settles O5: the reset state lists no field, no object and no byte, so each reads as its reset value. -/
theorem resetLeavesTableValues : Obligations.ResetLeavesTableValues := by
  refine ⟨rfl, rfl, fun _ _ => rfl, fun _ _ => rfl, fun _ _ _ => ?_, rfl, rfl, rfl⟩
  simp [State.binRead, State.reset, SMap.getRun, SMap.get]

end Sys2Proof.Machine

/-!
PROOFS. The migration loop (R392), the Ringer (R413) and the regions of the boundary (R321, R322, R324).
-/
namespace Sys2Proof.Machine

/-! ## The migration loop -/

/-- Settles O51: the three cases of the count of evictions. -/
theorem migrationLoopSetsPromote : Obligations.MigrationLoopSetsPromote := by
  intro s
  have promoted : s.migrationLoop.obj .migPromote 0 =
      (if s.ur.evictions > 4096 then min (s.obj .migPromoteMax 0) (2 * s.obj .migPromote 0)
       else if s.ur.evictions < 256 then max (s.obj .migPromoteMin 0) (s.obj .migPromote 0 - s.obj .migPromote 0 / 4)
       else s.obj .migPromote 0) := State.obj_setObj_same ..
  refine ⟨rfl, promoted, fun low high => ?_⟩
  rw [promoted]
  split
  · omega
  · split <;> omega

/-! ## The Ringer -/

/-- The domain at the head of the queue starts now (R413). -/
def State.startHead (s : State) (d : Nat) (rest : List Nat) : State :=
  s.setPwr { s.pwr with
    queue := rest
    started := s.pwr.started ++ [d]
    level := s.bucket - weightOf d * 10000
    levelAt := s.time
    lastStart := s.time + 1 }

/-- A start, or nothing but the instant: what DOMAIN_START can do (R413). -/
theorem domainStart_cases {s t : State} {at_ : Nat} (runs : exec (.domainStart at_) s = .next t) :
    t = s.reach at_ ∨
      ∃ d rest, s.pwr.queue = d :: rest ∧ s.flag .pwrStatusRegOk 0 = true ∧ weightOf d * 10000 ≤ (s.reach at_).bucket ∧
        (s.pwr.lastStart = 0 ∨ s.pwr.lastStart - 1 + 2000 ≤ (s.reach at_).time) ∧
        t = (s.reach at_).startHead d rest := by
  have only {u : State} (answer : execDomainStart at_ s = .next u) : t = u := Host.Outcome.next.inj (runs.symm.trans answer)
  cases waiting : s.pwr.queue with
  | nil =>
    refine .inl (only ?_)
    refine State.command_next (t := s.reach at_) ?_
    simp only [State.reach, waiting]
  | cons d rest =>
    have waits : (s.reach at_).pwr.queue = d :: rest := waiting
    by_cases starts : s.flag .pwrStatusRegOk 0 = true ∧ weightOf d * 10000 ≤ (s.reach at_).bucket ∧
      (s.pwr.lastStart = 0 ∨ s.pwr.lastStart - 1 + 2000 ≤ (s.reach at_).time)
    · obtain ⟨ok, weight, spaced⟩ := starts
      refine .inr ⟨d, rest, rfl, ok, weight, spaced, only ?_⟩
      refine State.command_next (t := (s.reach at_).startHead d rest) ?_
      simp only [waits]
      exact if_pos ⟨ok, weight, spaced⟩
    · refine .inl (only ?_)
      refine State.command_next (t := s.reach at_) ?_
      simp only [waits]
      exact if_neg starts

/-- Settles O52: by what DOMAIN_START can do. -/
theorem startsKeepToTheInrushBudget : Obligations.StartsKeepToTheInrushBudget := by
  refine ⟨fun s => Nat.min_le_right _ _, fun s t at_ runs moved => ?_, fun s t at_ runs => ?_⟩
  · obtain rfl | ⟨d, rest, waiting, ok, weight, spaced, rfl⟩ := domainStart_cases runs
    · exact absurd rfl moved
    · exact ⟨d, waiting, rfl, ok, spaced, Nat.sub_add_cancel weight⟩
  · obtain rfl | ⟨d, rest, waiting, ok, weight, spaced, rfl⟩ := domainStart_cases runs
    · rfl
    · rfl

/-! ## The regions of the boundary -/

/-- The region in force at a unit is an enabled one that holds it. -/
theorem State.mem_of_regionAt {s : State} {space unit : Nat} {r : Region} (found : s.regionAt space unit = some r) :
    ∃ e ∈ s.sec.regions, e.2 = r ∧ e.2.en = true ∧ e.2.space = space ∧ e.2.base ≤ unit ∧ unit ≤ e.2.limit := by
  obtain ⟨e, first, rfl⟩ := Option.map_eq_some_iff.mp found
  have holds := List.find?_some first
  simp only [Bool.and_eq_true, beq_iff_eq, decide_eq_true_eq] at holds
  obtain ⟨⟨en, inSpace⟩, low, high⟩ := holds
  exact ⟨e, List.mem_of_find?_eq_some first, rfl, en, inSpace, low, high⟩

/-- A unit that no enabled region holds has none in force. -/
theorem State.regionAt_eq_none {s : State} {space unit : Nat}
    (outside : ∀ e ∈ s.sec.regions, ¬ (e.2.en = true ∧ e.2.space = space ∧ e.2.base ≤ unit ∧ unit ≤ e.2.limit)) :
    s.regionAt space unit = none := by
  cases found : s.regionAt space unit with
  | none => rfl
  | some r =>
    obtain ⟨e, mem, -, holds⟩ := State.mem_of_regionAt found
    exact absurd holds (outside e mem)

/-- Settles O38: by the region in force at the unit, and by whether it is a MODEL region. -/
theorem regionsDecideAccess : Obligations.RegionsDecideAccess := by
  refine ⟨fun s space unit outside => ?_, fun s q write space unit world model ok => ?_, fun s q write space unit model ok => ?_,
    fun s q space unit fromModel ok => ?_⟩
  · simp [State.unitSecure, State.unitModel, State.regionAt_eq_none outside]
  · have open_ : s.unitSecure space unit = false := by
      simp only [State.allowed, model, Bool.false_eq_true, if_false, world, Bool.false_or] at ok
      split at ok
      · cases ok
      · simpa using ok
    unfold State.unitSecure at open_
    cases found : s.regionAt space unit with
    | none => simp [found] at open_
    | some r =>
      obtain ⟨e, mem, rfl, en, inSpace, low, high⟩ := State.mem_of_regionAt found
      exact ⟨e, mem, en, inSpace, low, high, by simpa [found] using open_⟩
  · simp only [State.allowed, model, if_true] at ok
    split at ok
    case isTrue engine => exact .inl ⟨engine, ok⟩
    case isFalse =>
      split at ok
      case isTrue core =>
        obtain ⟨low, high, world⟩ := core
        exact .inr ⟨low, high, world, fun isWrite => by simpa [isWrite] using ok⟩
      case isFalse => cases ok
  · by_contra model
    simp [State.allowed, model, fromModel] at ok

/-- While BR_ERRLOG holds an error, a refused access changes no register. -/
theorem State.refuseAccess_regs_of_valid {s : State} (q : Requester) (write : Bool) (space unit : Nat) (valid : s.flag .brErrlogValid 0 = true) :
    (s.refuseAccess q write space unit).regs = s.regs := by
  simp only [State.refuseAccess]
  split
  · rfl
  · rw [State.logIt_regs, if_pos]
    · rfl
    · exact valid

/-- Of the security engine a refused access changes the instants of the last refusals alone. -/
theorem State.refuseAccess_sec (s : State) (q : Requester) (write : Bool) (space unit : Nat) :
    (s.refuseAccess q write space unit).sec = { s.sec with lastRefusal := (s.refuseAccess q write space unit).sec.lastRefusal } := by
  have logged (u : State) (a b c : Nat) : (u.logIt .boundary q.init 2 a b c).sec = u.sec :=
    (State.logIt_touches .boundary q.init 2 a b c (.refl [.objs, .log] u) (List.Subset.refl _)).keep .sec (by decide)
  simp only [State.refuseAccess]
  split
  · rfl
  · rw [logged]
    split <;> rfl

/-- What a refused access changes: registers, objects, the log and the instants of the last refusals. -/
theorem State.refuseAccess_frame (s : State) (q : Requester) (write : Bool) (space unit : Nat) :
    s.refuseAccess q write space unit =
      { s with
        regs := (s.refuseAccess q write space unit).regs
        objs := (s.refuseAccess q write space unit).objs
        log := (s.refuseAccess q write space unit).log
        sec := { s.sec with lastRefusal := (s.refuseAccess q write space unit).sec.lastRefusal } } := by
  have kept := State.refuseAccess_touches q write space unit (.refl [.regs, .objs, .log, .sec] s) (List.Subset.refl _)
  refine State.eq_of_sameParts fun p => ?_
  have keep := kept.keep p
  cases p
  case regs | objs | log => rfl
  case sec => exact s.refuseAccess_sec q write space unit
  all_goals exact keep (by decide)

/-- Settles O39: what a refused access leaves, part by part. -/
theorem refusedAccessIsCounted : Obligations.RefusedAccessIsCounted := by
  intro s q write space unit
  exact ⟨s.obj_refuseAccess q write space unit, s.refuseAccess_frame q write space unit,
    fun f i hi other => State.fld_refuseAccess_of_reg s q write space unit other hi,
    State.refuseAccess_regs_of_valid q write space unit⟩

end Sys2Proof.Machine

/-!
PROOFS. The security engine (spec 17, R320 to R336): the bits that SEC_WMAP changes, what each command completes with, and a warm cause that
zeroes no key slot.
-/
namespace Sys2Proof.Machine

/-! ## Single bits of a number -/

theorem bit_eq_testBit (v i : Nat) : bit v i = v.testBit i := by
  rw [Nat.testBit_eq_decide_div_mod_eq]
  rfl

/-- A bit that is set reads back, and the others stay. -/
theorem bit_setBits_one (v n m : Nat) (b : Bool) : bit (setBits v n n (b2n b)) m = if m = n then b else bit v m := by
  have parts : setBits v n n (b2n b) = 2 ^ n * (2 ^ 1 * (v / 2 ^ (n + 1)) + b2n b) + v % 2 ^ n := by
    have one : b2n b % 2 ^ (n + 1 - n) = b2n b := by cases b <;> simp [b2n]
    rw [setBits, one, Nat.pow_succ]
    ring
  have small : b2n b < 2 ^ 1 := by cases b <;> decide
  rw [bit_eq_testBit, bit_eq_testBit, parts, Nat.testBit_two_pow_mul_add _ (Nat.mod_lt _ (Nat.two_pow_pos n))]
  obtain below | rfl | above := Nat.lt_trichotomy m n
  · rw [if_pos below, if_neg (Nat.ne_of_lt below), Nat.testBit_mod_two_pow]
    simp [below]
  · rw [if_neg (Nat.lt_irrefl m), if_pos rfl, Nat.sub_self, Nat.testBit_two_pow_mul_add _ small]
    cases b <;> rfl
  · rw [if_neg (Nat.lt_asymm above), if_neg (Nat.ne_of_gt above), Nat.testBit_two_pow_mul_add _ small, if_neg (by omega),
      Nat.testBit_div_two_pow]
    congr 1
    omega

/-! ## SEC_WMAP (R320) -/

/-- The bits of a list that are not kept take those of the value, and the others stay. -/
theorem bit_foldl_setBits (kept : Nat → Bool) (value m : Nat) (l : List Nat) (old : Nat) :
    bit (l.foldl (fun v n => if kept n = true then v else setBits v n n (b2n (bit value n))) old) m =
      if m ∈ l ∧ kept m = false then bit value m else bit old m := by
  induction l generalizing old with
  | nil => simp
  | cons n l ih =>
    rw [List.foldl_cons, ih]
    by_cases later : m ∈ l ∧ kept m = false
    · rw [if_pos later, if_pos ⟨List.mem_cons_of_mem n later.1, later.2⟩]
    · rw [if_neg later]
      by_cases keeps : kept n = true
      · have stays : ¬ (m ∈ n :: l ∧ kept m = false) := by
          rintro ⟨mem, free⟩
          obtain rfl | mem := List.mem_cons.mp mem
          · simp [free] at keeps
          · exact later ⟨mem, free⟩
        rw [if_pos keeps, if_neg stays]
      · rw [if_neg keeps, bit_setBits_one]
        by_cases here : m = n
        · subst here
          rw [if_pos rfl, if_pos ⟨List.mem_cons_self, by simpa using keeps⟩]
        · rw [if_neg here, if_neg (by simpa [here] using later)]

/-- What SEC_WMAP_OS takes of a value: the bits of the streams that are not enabled. -/
def State.wmapOs (s : State) (value : Nat) : Nat :=
  (List.range 16).foldl (fun v n => if s.flag .osEn n = true then v else setBits v n n (b2n (bit value n))) (s.fld .secWmapOs 0)

/-- What SEC_WMAP_AUD and SEC_WMAP_WATCH take of a value's bit: nothing while the audio stream is enabled. -/
def State.wmapAudio (s : State) (f : Fld) (value i : Nat) : Nat := if s.flag .audStreamEn 0 = true then s.fld f 0 else bits value i i

/-- A stream's bit follows the value, unless the stream is enabled. -/
theorem State.bit_wmapOs (s : State) (value : Nat) {n : Nat} (hn : n < 16) :
    bit (s.wmapOs value) n = if s.flag .osEn n = true then bit (s.fld .secWmapOs 0) n else bit value n := by
  rw [State.wmapOs, bit_foldl_setBits]
  cases s.flag .osEn n <;> simp [hn]

/-- Sixteen bits of a value, one by one. -/
theorem bit_bits_low (value m : Nat) : bit (bits value 15 0) m = (decide (m < 16) && bit value m) := by
  rw [bit_eq_testBit, bit_eq_testBit, bits, Nat.pow_zero, Nat.div_one, Nat.testBit_mod_two_pow]

/-- One bit of a value, as a field of one bit. -/
theorem bit_bits_one (value i : Nat) : bit (bits value i i) 0 = bit value i := by
  simp [bit, bits]

/-- With no stream enabled the whole word is taken. -/
theorem State.wmapOs_of_idle {s : State} (value : Nat) (idle : ∀ n < 16, s.flag .osEn n = false) (small : s.fld .secWmapOs 0 < 2 ^ 16) :
    s.wmapOs value = bits value 15 0 := by
  refine Nat.eq_of_testBit_eq fun m => ?_
  rw [← bit_eq_testBit, ← bit_eq_testBit, bit_bits_low]
  by_cases hm : m < 16
  · simp [State.bit_wmapOs s value hm, idle m hm, hm]
  · rw [State.wmapOs, bit_foldl_setBits, if_neg (by simp [hm]), bit_eq_testBit,
      Nat.testBit_lt_two_pow (Nat.lt_of_lt_of_le small (Nat.pow_le_pow_right (by decide) (Nat.le_of_not_lt hm)))]
    simp [hm]

/-- The three fields of SEC_WMAP after a write of the secure world. -/
def State.wmapTaken (s : State) (value : Nat) : State :=
  s.setFlds 0 [(.secWmapOs, s.wmapOs value), (.secWmapAud, s.wmapAudio .secWmapAud value 16), (.secWmapWatch, s.wmapAudio .secWmapWatch value 17)]

/-- Every bit of the value was taken. -/
def State.wmapWhole (s : State) (value : Nat) : Prop :=
  s.wmapOs value = bits value 15 0 ∧ s.wmapAudio .secWmapAud value 16 = bits value 16 16 ∧
    s.wmapAudio .secWmapWatch value 17 = bits value 17 17

/-- A write that is taken whole is not counted. -/
theorem secWmapWrite_of_whole {s : State} {value : Nat} (whole : s.wmapWhole value) :
    After (.secWmapWrite value true) s (s.wmapTaken value) := by
  change execSecWmapWrite value true s = _
  exact State.command_next (congrArg Host.Outcome.next (if_pos whole))

/-- A write that is not taken whole is counted in BR_FAULTS. -/
theorem secWmapWrite_of_partial {s : State} {value : Nat} (less : ¬ s.wmapWhole value) :
    After (.secWmapWrite value true) s ((s.wmapTaken value).bumpObj .brFaults 3 1) := by
  change execSecWmapWrite value true s = _
  exact State.command_next (congrArg Host.Outcome.next (if_neg less))

/-- What a command answers, when it left the queue as it was. -/
theorem After.exec_eq {i : Instr} {s t : State} (h : After i s t) (kept : t.pending = s.pending) : exec i s = .next t := by
  rw [h, ← kept]

theorem State.wmapTaken_pending (s : State) (value : Nat) : (s.wmapTaken value).pending = s.pending :=
  (State.setFlds_touches _ _ (.refl [.regs] s) (List.Subset.refl _)).keep .pending (by decide)

/-- A field of SEC_WMAP after a write. -/
theorem State.fld_wmapTaken (s : State) (value : Nat) :
    (s.wmapTaken value).fld .secWmapOs 0 = s.wmapOs value % 2 ^ 16 ∧
      (s.wmapTaken value).fld .secWmapAud 0 = s.wmapAudio .secWmapAud value 16 % 2 ^ 1 ∧
      (s.wmapTaken value).fld .secWmapWatch 0 = s.wmapAudio .secWmapWatch value 17 % 2 ^ 1 := by
  have apart : [Fld.secWmapOs.ctorIdx, Fld.secWmapAud.ctorIdx, Fld.secWmapWatch.ctorIdx].Nodup := by decide
  exact ⟨State.fld_setFlds_of_mem s apart (by simp), State.fld_setFlds_of_mem s apart (by simp), State.fld_setFlds_of_mem s apart (by simp)⟩

/-- SEC_WMAP is no object. -/
theorem State.obj_wmapTaken (s : State) (value : Nat) (o : Obj) (i : Nat) : (s.wmapTaken value).obj o i = s.obj o i := State.obj_congr rfl o i

/-- An audio bit as SEC_WMAP holds it after a write. -/
theorem State.bit_wmapAudio (s : State) (f : Fld) (value i : Nat) :
    bit (s.wmapAudio f value i % 2 ^ 1) 0 = if s.flag .audStreamEn 0 = true then bit (s.fld f 0) 0 else bit value i := by
  have low (v : Nat) : bit (v % 2 ^ 1) 0 = bit v 0 := by simp [bit]
  rw [low, State.wmapAudio]
  split
  · rfl
  · exact bit_bits_one value i

/-- A counter object is no register and no command. -/
theorem State.bumpObj_regs_pending (s : State) (o : Obj) (i n : Nat) :
    (s.bumpObj o i n).regs = s.regs ∧ (s.bumpObj o i n).pending = s.pending := ⟨rfl, rfl⟩

/-- After a write, counted or not, the bits of the disabled units are those of the value, and the others stay. -/
theorem State.bits_of_wmapTaken (s t : State) (value : Nat) (same : t.regs = (s.wmapTaken value).regs) :
    (∀ n < 16, bit (t.fld .secWmapOs 0) n = if s.flag .osEn n then bit (s.fld .secWmapOs 0) n else bit value n) ∧
    bit (t.fld .secWmapAud 0) 0 = (if s.flag .audStreamEn 0 then bit (s.fld .secWmapAud 0) 0 else bit value 16) ∧
    bit (t.fld .secWmapWatch 0) 0 = (if s.flag .audStreamEn 0 then bit (s.fld .secWmapWatch 0) 0 else bit value 17) := by
  obtain ⟨os, aud, watch⟩ := s.fld_wmapTaken value
  rw [State.fld_congr same, State.fld_congr same, State.fld_congr same, os, aud, watch]
  refine ⟨fun n hn => ?_, s.bit_wmapAudio _ value 16, s.bit_wmapAudio _ value 17⟩
  rw [bit_eq_testBit, Nat.testBit_mod_two_pow, ← bit_eq_testBit, s.bit_wmapOs value hn]
  simp [hn]

/-- A value taken whole agrees with the bit of every enabled stream. -/
theorem State.bit_os_of_whole {s : State} {value n : Nat} (whole : s.wmapWhole value) (hn : n < 16) (on : s.flag .osEn n = true) :
    bit (s.fld .secWmapOs 0) n = bit value n := by
  have stays := s.bit_wmapOs value hn
  rw [if_pos on, whole.1, bit_bits_low, decide_eq_true hn, Bool.true_and] at stays
  exact stays.symm

/-- A value taken whole agrees with both audio bits while the audio stream is enabled. -/
theorem State.bit_audio_of_whole {s : State} {value : Nat} (whole : s.wmapWhole value) (on : s.flag .audStreamEn 0 = true) :
    bit (s.fld .secWmapAud 0) 0 = bit value 16 ∧ bit (s.fld .secWmapWatch 0) 0 = bit value 17 := by
  obtain ⟨-, aud, watch⟩ := whole
  rw [State.wmapAudio, if_pos on] at aud watch
  rw [aud, watch, bit_bits_one, bit_bits_one]
  exact ⟨rfl, rfl⟩

/-- While every unit is disabled the value is taken whole. -/
theorem State.wmapWhole_of_idle {s : State} (value : Nat) (idle : ∀ n < 16, s.flag .osEn n = false) (quiet : s.flag .audStreamEn 0 = false)
    (small : s.fld .secWmapOs 0 < 2 ^ 16) : s.wmapWhole value :=
  ⟨s.wmapOs_of_idle value idle small, by simp [State.wmapAudio, quiet], by simp [State.wmapAudio, quiet]⟩

/-- Settles O41: the bits that a write takes, and whether it takes them all. -/
theorem secWmapFollowsOnlyDisabledUnits : Obligations.SecWmapFollowsOnlyDisabledUnits := by
  intro s value
  by_cases whole : s.wmapWhole value
  · obtain ⟨os, aud, watch⟩ := s.bits_of_wmapTaken (s.wmapTaken value) value rfl
    refine ⟨_, (secWmapWrite_of_whole whole).exec_eq (s.wmapTaken_pending value), os, aud, watch, ?_, fun on differs => ?_,
      fun _ _ _ => s.obj_wmapTaken value _ _⟩
    · rintro ⟨n, hn, on, differs⟩
      exact absurd (State.bit_os_of_whole whole hn on) differs
    · obtain ⟨sameAud, sameWatch⟩ := State.bit_audio_of_whole whole on
      exact absurd differs (by simp [sameAud, sameWatch])
  · obtain ⟨regs, pending⟩ := (s.wmapTaken value).bumpObj_regs_pending .brFaults 3 1
    obtain ⟨os, aud, watch⟩ := s.bits_of_wmapTaken _ value regs
    have counted := State.obj_bumpObj_same (s.wmapTaken value) .brFaults 3 1
    rw [s.obj_wmapTaken] at counted
    exact ⟨_, (secWmapWrite_of_partial whole).exec_eq (pending.trans (s.wmapTaken_pending value)), os, aud, watch, fun _ => counted,
      fun _ _ => counted, fun idle quiet small => absurd (State.wmapWhole_of_idle value idle quiet small) whole⟩

/-! ## Key slots (R328) -/

/-- A device in RUN that a lost clock source holds for good (R432), with key slot 0 loaded. -/
def heldForGood : State :=
  let s := State.reset.setFld .clkStatusHeld 0 1
  { s with
    clk := { s.clk with gaveUp := true }
    boot := { s.boot with stage := .run }
    sec := { s.sec with slots := [(0, ⟨true, false, [], 0, 0, 0⟩)] } }

/-- A device that is held for good takes no warm cause of the host's. -/
theorem rstCtrlWarm_heldForGood : After (.rstCtrlWarm true 0) heldForGood heldForGood := by
  change execRstCtrlWarm true 0 heldForGood = _
  exact State.command_next rfl

/-- Refutes O42: its clause on RST_CTRL.WARM asks for RUN alone, and a state held for good by R432 stays in RUN, takes nRST alone, and keeps its
slots. -/
theorem not_keySlotsAreZeroed : ¬ Obligations.KeySlotsAreZeroed := by
  unfold Obligations.KeySlotsAreZeroed
  rintro ⟨-, -, warm, -⟩
  obtain ⟨t, answer, zeroed⟩ := warm heldForGood 0 rfl
  obtain rfl := Host.Outcome.next.inj (answer.symm.trans rstCtrlWarm_heldForGood)
  exact absurd (zeroed 0) (by decide)

/-! ## What the commands of the security engine complete with -/

/-- Settles O21: each command on the branch that its checks lead to. -/
theorem securityCommandsComplete : Obligations.SecurityCommandsComplete := by
  refine ⟨?region, ?zeroed, ?zeroing, ?wmap, ?agree, ?handshake, ?derive, ?clear, ?unwrap, ?unwrapped, ?nonce, ?report, ?word, ?commit,
    ?token, ?unlock⟩
  case region =>
    intro s n word r free en ok none
    change execBoundaryRegionWrite n word true s = _
    refine State.command_next ?_
    simp only [free, Bool.not_true, Bool.false_eq_true, if_false]
    rw [if_neg (by simp [r] at en; simp [en]), if_neg (not_not.mpr ok), if_pos (by simp [r, none])]
  case zeroed =>
    intro s n word r free en ok some
    change execBoundaryRegionWrite n word true s = _
    refine State.command_next ?_
    simp only [free, Bool.not_true, Bool.false_eq_true, if_false]
    rw [if_neg (by simp [r] at en; simp [en]), if_neg (not_not.mpr ok), if_neg (by simpa using some)]
  case zeroing =>
    intro s n c pending
    change execRegionZeroingComplete n s = _
    refine State.command_next ?_
    simp only [pending]
  case wmap =>
    intro s value idle quiet small
    have whole := State.wmapWhole_of_idle value idle quiet small
    obtain ⟨os, aud, watch⟩ := id whole
    have runs := secWmapWrite_of_whole whole
    rwa [State.wmapTaken, os, aud, watch] at runs
  case agree =>
    intro s slot part src at_ secure free world small base listed
    change execKeySlotAgree slot part src at_ secure s = _
    refine State.command_next ?_
    have free' : (s.reach at_).kslotBusy = false := free
    have listed' : ((s.reach at_).kslotFields 0 slot part src).sec.peers.contains src = true := List.contains_iff_mem.mpr listed
    rw [if_neg (by simp [free']), mayReach_of_imp world, if_neg (by simp),
      decide_eq_true base, decide_eq_true small, listed']
    rfl
  case handshake =>
    intro s key fixed at_ a agreed inTime
    change execAgreeHandshakeEnd key fixed true at_ s = _
    refine State.command_next ?_
    have agreed' : (s.reach at_).sec.agree = some a := agreed
    simp only [agreed']
    exact if_pos ⟨trivial, inTime⟩
  case derive =>
    intro s slot part src context secure free world sameWorld loaded k
    change execKeySlotDerive slot part src context secure s = _
    refine State.command_next ?_
    have loaded' : (((s.kslotFields 1 slot part src).setFlds 0
        [(.secKslotContextLo, context), (.secKslotContextHi, context / 2 ^ 32)]).keySlot src).loaded = true := loaded
    rw [if_neg (by simp [free]), if_neg (by simp [mayReach_of_imp world, sameWorld]), loaded']
    rfl
  case clear =>
    intro s slot secure free world
    change execKeySlotClear slot secure s = _
    refine State.command_next ?_
    rw [if_neg (by simp [free]), mayReach_of_imp world]
    rfl
  case unwrap =>
    intro s src dst idle
    change execSecUnwrap src dst true s = _
    refine State.command_next ?_
    simp only [idle, Option.isSome_none, Bool.not_true, Bool.false_eq_true, if_false]
  case unwrapped =>
    intro s obs at_ src dst h v
    dsimp only
    intro busy read
    change execUnwrapComplete obs at_ s = _
    refine State.command_next ?_
    have busy' : (s.reach at_).sec.unwrap = some (src, dst) := busy
    simp only [busy', read]
    by_cases passed : (v.unwrapCheck h dst).1 = 0
    · rw [if_neg (not_not.mpr passed), if_neg (not_not.mpr passed)]
      generalize State.unwrapChunks (v.unwrapCheck h dst).2 (Config.shake256 h 64) obs (leNat (hdrField h 12 4)) 0
        (leNat (hdrField h 184 8)) (src * 4096 + 384) v = r
      obtain ⟨e | p, u⟩ := r
      · rfl
      · by_cases same : Config.shake256 p 64 = hdrField h 192 64
        · exact (if_neg (not_not.mpr same)).trans (congrArg Host.Outcome.next (if_pos same).symm)
        · exact (if_pos same).trans (congrArg Host.Outcome.next (if_neg same).symm)
    · rw [if_pos passed, if_pos passed]
  case nonce =>
    intro s nonce long
    change execAttestNonceWrite nonce s = _
    exact State.command_next (congrArg Host.Outcome.next (if_pos long))
  case report =>
    intro s at_ n asked
    change execAttestReportSigned at_ s = _
    refine State.command_next ?_
    have asked' : (s.reach at_).sec.nonce = some n := asked
    simp only [asked']
    rfl
  case word =>
    intro s index value open_ inRange
    change execSecMeasWrite index value true s = _
    refine State.command_next ?_
    have low : index % 16 = index := Nat.mod_eq_of_lt (by omega)
    simp only [open_, low, Bool.not_true, Bool.false_eq_true, if_false]
    exact if_neg (by omega)
  case commit =>
    intro s value open_
    change execSecMeasWrite 15 value true s = _
    refine State.command_next ?_
    simp only [open_, Bool.not_true, Bool.false_eq_true, if_false]
    rfl
  case token =>
    intro s level sig left idle named
    change execDebugToken level sig s = _
    refine State.command_next ?_
    have known : (level == 1 || level == 2) = true := by simpa using named
    rw [if_neg (by simp [idle]; omega)]
    simp only [known, Bool.true_and]
    split <;> rfl
  case unlock =>
    intro s level unlocking idle
    change execDebugUnlock s = _
    refine State.command_next ?_
    simp only [unlocking, idle, Option.isSome_none, Bool.false_eq_true, if_false]

end Sys2Proof.Machine

/-!
PROOFS. Reset and start-up (spec 23, R332, R335, R435 to R442): what the straps keep, what the Reeve's start leaves unchanged, and what each
command completes with.
-/
namespace Sys2Proof.Machine

/-! ## What a power-on reset keeps -/

section Kept
variable {L : List Part} {Z s : State}

theorem State.keepFlds_touches (t : State) (l : List (Fld × Nat)) (hT : Touches L Z s) (hl : [.regs] ⊆ L) : Touches L Z (s.keepFlds t l) :=
  Touches.foldl _ _ hT fun _ _ h => State.setFld_touches _ _ _ h hl

theorem State.keepObjs_touches (t : State) (l : List (Obj × Nat)) (hT : Touches L Z s) (hl : [.objs] ⊆ L) : Touches L Z (s.keepObjs t l) :=
  Touches.foldl _ _ hT fun _ _ h => State.setObjVal_touches _ _ _ h hl

theorem State.updAfter_touches (t : State) (hT : Touches L Z s) (hl : [.objs] ⊆ L) : Touches L Z (s.updAfter t) :=
  Touches.ite (State.setObj_touches _ _ _ hT hl) hT

end Kept

/-- A power-on reset carries fields and objects over into a fresh state, whose inputs hold the device as before. -/
theorem State.powerOnState_eq (s : State) (cause : Nat) : ∃ z : State,
    s.powerOnState cause = ((((z.keepFlds s (strapFlds ++ doorFlds)).keepObjs s (strapObjs ++ flashObjs)).updAfter s).setFld
      .rstStatusCause 0 cause).setObj .resetCause 0 cause ∧ z.boot.holds = s.boot.holds := ⟨_, rfl, rfl⟩

/-- After it, a power-on reset sets the sequence of the log alone. -/
theorem State.powerOn_eq (s : State) (cause : Nat) : ∃ n, s.powerOn cause = (s.powerOnState cause).setObj .logNext 0 n := by
  unfold State.powerOn
  split
  · exact ⟨_, rfl⟩
  · exact ⟨_, rfl⟩

/-- A power-on reset leaves the inputs that hold the device as they were. -/
theorem State.powerOn_holds (s : State) (cause : Nat) : (s.powerOn cause).boot.holds = s.boot.holds := by
  obtain ⟨n, on⟩ := s.powerOn_eq cause
  obtain ⟨z, carried, holds⟩ := s.powerOnState_eq cause
  have keeps : Touches [.regs, .objs] z (s.powerOn cause) := by
    rw [on, carried]
    refine State.setObj_touches _ _ _ (State.setObj_touches _ _ _ (State.setFld_touches _ _ _ ?_ ?_) ?_) ?_
    · exact State.updAfter_touches s (State.keepObjs_touches s _ (State.keepFlds_touches s _ (.refl _ z) (by decide)) (by decide)) (by decide)
    all_goals decide
  rw [show (s.powerOn cause).boot = z.boot from keeps.keep .boot (by decide), holds]

/-- A field that is carried over reads as the low bits of what it was. -/
theorem State.fld_keepFlds {f : Fld} {i : Nat} {l : List (Fld × Nat)} (s t : State) (listed : (f, i) ∈ l)
    (apart : ∀ e ∈ l, f.key i = e.1.key e.2 → e = (f, i)) : (s.keepFlds t l).fld f i = t.fld f i % 2 ^ f.width := by
  induction l using List.reverseRecOn with
  | nil => cases listed
  | append_singleton l e ih =>
    rw [State.keepFlds, List.foldl_append, List.foldl_cons, List.foldl_nil, ← State.keepFlds]
    by_cases here : f.key i = e.1.key e.2
    · obtain rfl := apart e (by simp) here
      exact State.fld_setFld_same ..
    · rw [State.fld_setFld_ne _ here]
      refine ih ?_ fun e' mem => apart e' (List.mem_append_left _ mem)
      obtain mem | mem := List.mem_append.mp listed
      · exact mem
      · obtain rfl := List.mem_singleton.mp mem
        exact absurd rfl here

/-- An object that is carried over reads as it did. -/
theorem State.obj_keepObjs {o : Obj} {i : Nat} {l : List (Obj × Nat)} (s t : State) (listed : (o, i) ∈ l)
    (apart : ∀ e ∈ l, o.key i = e.1.key e.2 → e = (o, i)) : (s.keepObjs t l).obj o i = t.obj o i := by
  induction l using List.reverseRecOn with
  | nil => cases listed
  | append_singleton l e ih =>
    rw [State.keepObjs, List.foldl_append, List.foldl_cons, List.foldl_nil, ← State.keepObjs]
    by_cases here : o.key i = e.1.key e.2
    · obtain rfl := apart e (by simp) here
      simp [State.obj, State.objVal, State.setObjVal]
    · rw [State.obj, State.objVal_setObjVal_ne _ here, ← State.obj]
      refine ih ?_ fun e' mem => apart e' (List.mem_append_left _ mem)
      obtain mem | mem := List.mem_append.mp listed
      · exact mem
      · obtain rfl := List.mem_singleton.mp mem
        exact absurd rfl here

/-- A power-on reset keeps the straps, as wide as their fields (R437). -/
theorem State.straps_powerOn (s : State) (cause : Nat) :
    (s.powerOn cause).fld .rstStatusMasterSel 0 = s.fld .rstStatusMasterSel 0 % 2 ∧
      (s.powerOn cause).fld .rstStatusCascadeId 0 = s.fld .rstStatusCascadeId 0 % 8 ∧
      (s.powerOn cause).obj .cascadeId 0 = s.obj .cascadeId 0 ∧ (s.powerOn cause).obj .master 0 = s.obj .master 0 := by
  obtain ⟨n, on⟩ := s.powerOn_eq cause
  obtain ⟨z, carried, -⟩ := s.powerOnState_eq cause
  rw [on, carried]
  generalize strapped : z.keepFlds s (strapFlds ++ doorFlds) = u
  generalize kept : u.keepObjs s (strapObjs ++ flashObjs) = v
  have regs : v.regs = u.regs := by
    subst kept
    exact (State.keepObjs_touches s _ (.refl [.objs] u) (List.Subset.refl _)).keep .regs (by decide)
  have upd : (v.updAfter s).regs = v.regs := (State.updAfter_touches s (.refl [.objs] v) (List.Subset.refl _)).keep .regs (by decide)
  have field (f : Fld) (other : Fld.key f 0 ≠ Fld.key .rstStatusCause 0) :
      (((((v.updAfter s).setFld .rstStatusCause 0 cause).setObj .resetCause 0 cause).setObj .logNext 0 n).fld f 0) = u.fld f 0 :=
    (State.fld_setFld_ne (v.updAfter s) other).trans (State.fld_congr (upd.trans regs) f 0)
  have object (o : Obj) (other : ∀ p ∈ [Obj.updResult, .resetCause, .logNext], o.key 0 ≠ p.key 0) :
      (((((v.updAfter s).setFld .rstStatusCause 0 cause).setObj .resetCause 0 cause).setObj .logNext 0 n).obj o 0) = v.obj o 0 := by
    rw [State.obj_setObj_ne _ _ (other _ (by simp)), State.obj_setObj_ne _ _ (other _ (by simp))]
    change (v.updAfter s).obj o 0 = v.obj o 0
    unfold State.updAfter
    split
    · exact State.obj_setObj_ne _ _ (other _ (by simp))
    · rfl
  refine ⟨?_, ?_, ?_, ?_⟩
  · exact (field _ (by decide)).trans (strapped ▸ State.fld_keepFlds z s (by decide) (by decide))
  · exact (field _ (by decide)).trans (strapped ▸ State.fld_keepFlds z s (by decide) (by decide))
  · exact (object _ (by decide)).trans (kept ▸ State.obj_keepObjs u s (by decide) (by decide))
  · exact (object _ (by decide)).trans (kept ▸ State.obj_keepObjs u s (by decide) (by decide))

/-! ## The straps (R437) -/

/-- The power stage of start-up changes no field outside PWR_STATUS. -/
theorem State.fld_startPower (s : State) {f : Fld} {i : Nat} (other : f.desc.reg ≠ .pwrStatus) (hi : i < 65536) :
    s.startPower.fld f i = s.fld f i := by
  unfold State.startPower
  dsimp only
  split
  · exact State.fld_congr ((State.requestAll_touches (.refl [.pwr] _) (List.Subset.refl _)).keep .regs (by decide)) f i
  · unfold State.regFull
    split
    · rfl
    · exact State.fld_setFld_of_reg (g := .pwrStatusRegLp) (j := 0) _ 0 other hi (by decide)

theorem State.startPower_objs (s : State) : s.startPower.objs = s.objs :=
  (State.startPower_touches (.refl [.regs, .pwr, .boot] s) (List.Subset.refl _)).keep .objs (by decide)

/-- nPOR is released with its straps in the objects (R437). -/
def State.nporUp (s : State) (masterSel : Bool) (id buttons : Nat) : State :=
  let s := (s.setObj .master 0 (b2n masterSel)).setObj .cascadeId 0 (id % 8)
  let s := (s.setDoor { s.door with longDone := buttons % 16 }).setHold 0 false
  s.setBoot { s.boot with startAt := s.time, stage := .held }

theorem State.nporUp_regs (s : State) (m : Bool) (id buttons : Nat) : (s.nporUp m id buttons).regs = s.regs := rfl

theorem State.obj_nporUp (s : State) (m : Bool) (id buttons : Nat) :
    (s.nporUp m id buttons).obj .master 0 = b2n m ∧ (s.nporUp m id buttons).obj .cascadeId 0 = id % 8 := by
  have objs : (s.nporUp m id buttons).objs = ((s.setObj .master 0 (b2n m)).setObj .cascadeId 0 (id % 8)).objs := rfl
  rw [State.obj_congr objs, State.obj_congr objs, State.obj_setObj_ne _ _ (by decide), State.obj_setObj_same, State.obj_setObj_same]
  exact ⟨rfl, rfl⟩

/-- What the release of nPOR samples (R437). -/
def State.strapsSampled (s : State) (masterSel : Bool) (id buttons : Nat) : State :=
  (s.setFlds 0 [(.rstStatusMasterSel, b2n masterSel), (.rstStatusCascadeId, id), (.doorStatusBtn, buttons)]).nporUp masterSel id buttons

/-- How start-up goes on once nPOR is released: it waits for the buttons, for another input, or not. -/
def State.afterNpor (s : State) (buttons : Nat) : State :=
  if buttons % 4 = 3 then s.setStage .buttons else if s.boot.holds ≠ 0 then s else s.startPower

theorem nporRelease_of_held {s : State} (m : Bool) (id buttons at_ : Nat) (held : s.boot.stage = .held) (low : bit s.boot.holds 0 = true) :
    After (.nporRelease m id buttons at_) s (((s.reach at_).strapsSampled m id buttons).afterNpor buttons) := by
  change execNporRelease m id buttons at_ s = _
  refine State.command_next ((if_neg ?_).trans ?_)
  · simp [State.reach, held, low]
  · have follows (v : State) :
        (if buttons % 4 = 3 then .next (v.setStage .buttons) else if v.boot.holds ≠ 0 then .next v else .next v.startPower) =
          (.next (v.afterNpor buttons) : Host.Outcome State Fault Refusal) := by
      unfold State.afterNpor
      split
      · rfl
      · split <;> rfl
    exact follows ((s.reach at_).strapsSampled m id buttons)

/-- The two straps as their registers and objects show them. -/
def State.showsStraps (t : State) (m : Bool) (id : Nat) : Prop :=
  t.flag .rstStatusMasterSel 0 = m ∧ t.fld .rstStatusCascadeId 0 = id % 8 ∧ t.isMaster = m ∧ t.obj .cascadeId 0 = id % 8

/-- They are read from the registers of RST_STATUS and from the objects. -/
theorem State.showsStraps_congr {s t : State} {m : Bool} {id : Nat} (regs : ∀ f : Fld, f.desc.reg = .rstStatus → t.fld f 0 = s.fld f 0)
    (objs : t.objs = s.objs) (shown : s.showsStraps m id) : t.showsStraps m id := by
  unfold State.showsStraps State.flag State.isMaster at *
  rwa [regs _ (by decide), regs _ (by decide), State.obj_congr objs, State.obj_congr objs]

theorem State.showsStraps_sampled (s : State) (m : Bool) (id buttons : Nat) : (s.strapsSampled m id buttons).showsStraps m id := by
  have apart : [Fld.rstStatusMasterSel.ctorIdx, Fld.rstStatusCascadeId.ctorIdx, Fld.doorStatusBtn.ctorIdx].Nodup := by decide
  have field {f : Fld} {v : Nat} (h : (f, v) ∈ [(Fld.rstStatusMasterSel, b2n m), (.rstStatusCascadeId, id), (.doorStatusBtn, buttons)]) :
      (s.strapsSampled m id buttons).fld f 0 = v % 2 ^ f.width :=
    (State.fld_congr (State.nporUp_regs ..) f 0).trans (State.fld_setFlds_of_mem s apart h)
  have sel : (s.strapsSampled m id buttons).fld .rstStatusMasterSel 0 = b2n m % 2 ^ 1 := field (by simp)
  have num : (s.strapsSampled m id buttons).fld .rstStatusCascadeId 0 = id % 2 ^ 3 := field (by simp)
  obtain ⟨master, own⟩ := State.obj_nporUp
    (s.setFlds 0 [(.rstStatusMasterSel, b2n m), (.rstStatusCascadeId, id), (.doorStatusBtn, buttons)]) m id buttons
  refine ⟨?_, num, ?_, own⟩
  · rw [State.flag, sel]
    cases m <;> rfl
  · rw [State.isMaster, State.strapsSampled, master]
    cases m <;> rfl

theorem State.showsStraps_afterNpor {s : State} {m : Bool} {id : Nat} (buttons : Nat) (shown : s.showsStraps m id) :
    (s.afterNpor buttons).showsStraps m id := by
  unfold State.afterNpor
  split
  · exact shown
  · split
    · exact shown
    · exact State.showsStraps_congr (fun f reg => State.fld_startPower _ (by simp [reg]) (by decide)) (State.startPower_objs _) shown

/-- The straps read as in `s`, as wide as their fields. -/
def State.keepsStraps (s t : State) : Prop :=
  t.fld .rstStatusMasterSel 0 = s.fld .rstStatusMasterSel 0 % 2 ∧ t.fld .rstStatusCascadeId 0 = s.fld .rstStatusCascadeId 0 % 8 ∧
    t.obj .cascadeId 0 = s.obj .cascadeId 0 ∧ t.obj .master 0 = s.obj .master 0

/-- The queue of waiting commands holds no strap. -/
theorem State.straps_pending (t : State) (p : List Instr) :
    (∀ m id, t.showsStraps m id → ({ t with pending := p } : State).showsStraps m id) ∧
      ∀ s : State, s.keepsStraps t → s.keepsStraps { t with pending := p } := ⟨fun _ _ h => h, fun _ h => h⟩

/-- Time and the inputs that hold the device are no straps. -/
theorem State.keepsStraps_powerOn (s : State) (b : BootGroup) (at_ cause : Nat) : s.keepsStraps (((s.reach at_).setBoot b).powerOn cause) :=
  ((s.reach at_).setBoot b).straps_powerOn cause

theorem State.keepsStraps_setBoot {s t : State} (b : BootGroup) (h : s.keepsStraps t) : s.keepsStraps (t.setBoot b) := h

/-- Settles O54: what nPOR's release samples, and what a power-on reset carries over. -/
theorem strapsAreSampledAtNporRelease : Obligations.StrapsAreSampledAtNporRelease := by
  refine ⟨fun s m id buttons at_ held low => ?_, fun s m id buttons at_ high => ?_, fun i s at_ mem => ?_⟩
  · exact ⟨_, nporRelease_of_held m id buttons at_ held low,
      (State.straps_pending _ _).1 m id (State.showsStraps_afterNpor buttons ((s.reach at_).showsStraps_sampled m id buttons))⟩
  · change execNporRelease m id buttons at_ s = _
    exact State.command_next (if_pos (by simp [State.reach, high]))
  · obtain rfl | rfl : i = .nporLow at_ ∨ i = .vddAonInRemoved at_ := by simpa using mem
    · change ∃ t, execNporLow at_ s = _ ∧ _
      exact ⟨_, State.command_next rfl, (State.straps_pending _ _).2 s (s.keepsStraps_powerOn _ at_ 1)⟩
    · change ∃ t, execVddAonInRemoved at_ s = _ ∧ _
      exact ⟨_, State.command_next rfl,
        (State.straps_pending _ _).2 s (State.keepsStraps_setBoot _ (s.keepsStraps_powerOn s.boot at_ 1))⟩

/-! ## What the Reeve's start leaves unchanged -/

section Start
variable {L : List Part} {Z s : State}

theorem Touches.bin (x : BinGroup) (hT : Touches L Z s) (hl : [.bin] ⊆ L) : Touches L Z { s with bin := x } := by
  refine hT.of fun p hp => ?_
  cases p
  case bin => exact absurd (hl (by decide)) hp
  all_goals rfl

theorem Touches.mc (x : McGroup) (hT : Touches L Z s) (hl : [.mc] ⊆ L) : Touches L Z { s with mc := x } := by
  refine hT.of fun p hp => ?_
  cases p
  case mc => exact absurd (hl (by decide)) hp
  all_goals rfl

/-- A Bin that loads its repair map (R105). -/
theorem State.loadBin_touches (b : Nat) (hT : Touches L Z s) (hl : [.regs, .bin] ⊆ L) : Touches L Z (s.loadBin b) := by
  have regs : [.regs] ⊆ L := List.Subset.trans (by decide) hl
  have bin : [.bin] ⊆ L := List.Subset.trans (by decide) hl
  unfold State.loadBin
  exact .ite hT (State.startZeroing_touches _ (State.setFld_touches _ _ _ (Touches.bin _ hT bin) regs) regs)

/-- Boot ROM's copy of the repair maps (R105). -/
theorem State.buildCopy_touches (rejected : List Nat) (hT : Touches L Z s) (hl : [.regs, .bin] ⊆ L) : Touches L Z (s.buildCopy rejected) := by
  have bin : [.bin] ⊆ L := List.Subset.trans (by decide) hl
  unfold State.buildCopy
  exact .ite hT (Touches.foldl _ _ (Touches.bin _ hT bin) fun _ _ h => .ite (State.loadBin_touches _ h hl) h)

/-- A port's target (R137). -/
theorem State.setTarget_touches (port v : Nat) (hT : Touches L Z s) (hl : [.regs, .mc] ⊆ L) : Touches L Z (s.setTarget port v) :=
  State.setFld_touches _ _ _ (Touches.mc _ hT (List.Subset.trans (by decide) hl)) (List.Subset.trans (by decide) hl)

/-- The settings that the Reeve writes at each start. -/
theorem State.reeveWrites_touches (hT : Touches L Z s) (hl : [.regs, .objs, .mc] ⊆ L) : Touches L Z s.reeveWrites := by
  have regs : [.regs] ⊆ L := List.Subset.trans (by decide) hl
  have objs : [.objs] ⊆ L := List.Subset.trans (by decide) hl
  have both : [.regs, .mc] ⊆ L := List.Subset.trans (by decide) hl
  unfold State.reeveWrites
  refine Touches.foldl _ _ ?_ fun _ _ h => State.setFlds_touches _ _ h regs
  refine .ite ?_ (State.setFld_touches _ _ _ ?_ regs)
  all_goals
    refine Touches.foldl _ _ (State.setObj_touches _ _ _ (State.setFlds_touches _ _ ?_ regs) objs) fun _ _ h => State.setTarget_touches _ _ h both
    exact Touches.foldl _ _ hT fun _ _ h => State.setFld_touches _ _ _ h regs

end Start

/-- The Reeve's settings are none of the Ringer's. -/
theorem State.reeveWrites_pwr (s : State) : s.reeveWrites.pwr = s.pwr :=
  (State.reeveWrites_touches (.refl [.regs, .objs, .mc] s) (List.Subset.refl _)).keep .pwr (by decide)

/-- What Boot ROM leaves of start-up's own record, up to the start of the Reeve. -/
def State.romVerified (s : State) (slot version seq : Nat) (rejected : List Nat) (auth reeveMeas confMeas : List Byte) (peers : List Nat) : State :=
  let u := s.setSec
    { s.sec with
      auth := auth
      peers := peers
      meas := SMap.put (SMap.put s.sec.meas 0 reeveMeas []) 4 confMeas []
      versions := SMap.put s.sec.versions 0 version 0 }
  let u := ((u.setObj .configSeq 6 seq).buildCopy rejected).setObj .slotActive 1 slot
  rejected.foldl (fun (v : State) i => v.logIt .record 0x16 4 i 0 0) u

theorem State.romVerified_boot (s : State) (slot version seq : Nat) (rejected : List Nat) (auth reeveMeas confMeas : List Byte)
    (peers : List Nat) : (s.romVerified slot version seq rejected auth reeveMeas confMeas peers).boot = s.boot := by
  refine Touches.keep (l := [.regs, .objs, .bin, .log, .sec]) ?_ .boot (by decide)
  refine Touches.foldl _ _ (State.setObj_touches _ _ _ (State.buildCopy_touches _ (State.setObj_touches _ _ _ ?_ (by decide)) (by decide))
    (by decide)) fun _ _ h => State.logIt_touches _ _ _ _ _ _ h (by decide)
  refine (Touches.refl _ s).of fun p hp => ?_
  cases p
  case sec => exact absurd (by decide) hp
  all_goals rfl

/-- The Reeve starts from what Boot ROM has verified (R342, R441). -/
def State.reeveStarts (s : State) : State :=
  let u := s.loadSaved.applyNet.reeveWrites
  ((u.setPwr { u.pwr with allNeeds := false }).setStage .reeve).pwrSync.sourcesBack

/-- Register fields are no part of start-up's record. -/
theorem State.setFlds_boot (s : State) (i : Nat) (l : List (Fld × Nat)) : (s.setFlds i l).boot = s.boot :=
  (State.setFlds_touches i l (.refl [.regs] s) (List.Subset.refl _)).keep .boot (by decide)

/-- What Boot ROM has verified, with RV_STATUS.READY set. -/
def State.romDone (s : State) (slot version seq : Nat) (rejected : List Nat) (auth reeveMeas confMeas : List Byte) (peers : List Nat) : State :=
  let u := s.romVerified slot version seq rejected auth reeveMeas confMeas peers
  u.setFlds 0 [(.rvStatusReady, 1), (.rstStatusRecovery, b2n (u.flag .rstStatusRecovery 0))]

theorem State.romDone_boot (s : State) (slot version seq : Nat) (rejected : List Nat) (auth reeveMeas confMeas : List Byte) (peers : List Nat) :
    (s.romDone slot version seq rejected auth reeveMeas confMeas peers).boot = s.boot := by
  rw [State.romDone, State.setFlds_boot, State.romVerified_boot]

/-- At start-up, with a good Reeve slot, no recovery and no trip to log, the Reeve starts from what Boot ROM has verified (R332, R441). -/
theorem bootRomVerifyComplete_starts {s : State} {slot : Nat} (version seq : Nat) (rejected : List Nat) (auth reeveMeas confMeas : List Byte)
    (peers : List Nat) (at_ : Nat) (rom : s.boot.stage = .rom) (usual : s.boot.recovery = false) (slots : slot < 2)
    (untripped : s.boot.tripLog = false) :
    After (.bootRomVerifyComplete slot version seq rejected auth reeveMeas confMeas peers at_) s
      ((s.reach at_).romDone slot version seq rejected auth reeveMeas confMeas peers).reeveStarts := by
  change execBootRomVerifyComplete slot version seq rejected auth reeveMeas confMeas peers at_ s = _
  refine State.command_next ?_
  extract_lets u starts recov sec u1 u2 u3 u4 u5 boot u6 u7 pwr u8 u9
  have isStart : starts = true := beq_iff_eq.mpr rom
  have noRecovery : recov = false := by
    change (s.boot.recovery || decide (2 ≤ slot)) = false
    simpa [usual] using slots
  have done : u5 = u.romDone slot version seq rejected auth reeveMeas confMeas peers := by
    simp only [u5, u4, u3, noRecovery, Bool.false_or, if_pos (show slot ≤ 1 by omega)]
    rfl
  have quiet : u6 = u5 := if_neg (by rw [done, u.romDone_boot, show u.boot.tripLog = false from untripped]; decide)
  have saved : u7 = u5.loadSaved.applyNet := (if_pos isStart).trans (by rw [quiet])
  have wrote : u8 = u7.reeveWrites.setPwr { u7.reeveWrites.pwr with allNeeds := false } := by rw [State.reeveWrites_pwr]
  have staged : u9 = u8.setStage .reeve := (if_pos isStart).trans (by rw [noRecovery]; rfl)
  rw [if_neg (by simp [isStart]), staged, wrote, saved, ← done]
  clear_value u5
  rfl

/-! ## What the commands of reset and start-up complete with -/

/-- Settles O28: each command on the branch that its hypotheses lead to. -/
theorem resetCommandsComplete : Obligations.ResetCommandsComplete := by
  refine ⟨?npor, ?release, ?recovery, ?nrst, ?extest, ?nrstUp, ?extestUp, ?warm, ?part, ?zeroed, ?overload, ?removed, ?root, ?rom, ?image, ?host⟩
  case npor => exact fun _ _ => rfl
  case release =>
    intro s m id buttons at_ held holds pressed
    have runs := nporRelease_of_held m id buttons at_ held (by rw [holds]; decide)
    have none : ((s.reach at_).strapsSampled m id buttons).boot.holds = 0 := by
      change setBits s.boot.holds 0 0 (b2n false) = 0
      rw [holds]
      decide
    rwa [State.afterNpor, if_neg pressed, if_neg (not_not.mpr none)] at runs
  case recovery =>
    intro s at_ waiting pressed late
    change execRecoveryDecision at_ s = _
    exact State.command_next (if_pos ⟨waiting, pressed, late⟩)
  case nrst => exact fun _ _ => rfl
  case extest => exact fun _ _ => rfl
  case nrstUp => exact fun _ _ => rfl
  case extestUp => exact fun _ _ => rfl
  case warm => exact fun _ _ => rfl
  case part =>
    intro s part inRange active
    change execRstCtrlPartition part true s = _
    refine State.command_next ?_
    simp only [Nat.mod_eq_of_lt inRange, active, Bool.not_true, Bool.false_eq_true, if_false]
  case zeroed =>
    intro s bad at_ warm
    change execWarmResetZeroingComplete bad at_ s = _
    exact State.command_next (if_neg (not_not.mpr warm))
  case overload =>
    intro s at_ on ok free
    change execWatchRegulatorOverload at_ s = _
    refine State.command_next ((if_neg ?_).trans (congrArg Host.Outcome.next (if_pos ?_)))
    · have full : (s.reach at_).flag .pwrStatusRegOk 0 = true := ok
      exact fun stops => stops.elim on (by simp [full])
    · exact ((s.reach at_).powerOn_holds 2).trans free
  case removed => exact fun _ _ => rfl
  case root =>
    intro s at_ powering good unformed
    change execDeviceRootFormed true at_ s = _
    refine State.command_next ((if_neg ?_).trans ?_)
    · have off : (s.reach at_).flag .secStatusRootOk 0 = false := unformed
      have on : (s.reach at_).powerGood 47 = true := good
      simp [State.reach_frame, powering, off, on]
    · simp only [State.reach, powering, beq_self_eq_true, if_true]
      rfl
  case rom =>
    intro s slot version seq rejected auth reeveMeas confMeas peers at_ rom usual slots untripped
    have runs := bootRomVerifyComplete_starts version seq rejected auth reeveMeas confMeas peers at_ rom usual slots untripped
    extract_lets sec u1 u2 u3 u4 u5 pwr
    have done : u4 = (s.reach at_).romDone slot version seq rejected auth reeveMeas confMeas peers := rfl
    rw [← done] at runs
    clear_value u4
    exact runs
  case image =>
    intro s modelId watchMeas modelMeas v w at_ ready
    change execWatchImageVerified true modelId watchMeas modelMeas v w at_ s = _
    have runs : (s.reach at_).flag .rvStatusReady 0 = true := ready
    exact State.command_next ((if_neg (by simp [runs])).trans (if_pos rfl))
  case host =>
    intro s slot version wmap regions measurement at_ reeve trained opened slots
    change execHostFirmwareVerified slot version wmap regions measurement at_ s = _
    refine State.command_next ((if_neg ?_).trans ?_)
    · have ready : (s.reach at_).flag .mcStatusReady 0 = true := trained
      exact fun stops => stops.elim (fun other => other reeve) (by simp [ready])
    · have is : ((s.reach at_).ring 0).isOpen = true := opened
      have first : slot ≤ 1 := by omega
      simp only [is, first, if_true]

end Sys2Proof.Machine

/-!
PROOFS. The camera (spec 13, R256, R257): a line of the frame's width that does not enter the ISP as it came.
-/
namespace Sys2Proof.Machine

/-- A frame of sensor 0 whose last good line is longer than the WIDTH that its sensor has now. -/
def widerFrame : CamFrame := ⟨0, 0, [], some [1, 2], 0, 0, 0, false, false, false, false, []⟩

/-- Link 0 receives, and its sensor 0 of 1 x 1 pixels has that frame open. -/
def narrowed : State :=
  { State.reset with
    regs := [(Fld.csiCtrlEn.key 0, 1), (Fld.ispSensorEn.key 0, 1), (Fld.ispSensorDt.key 0, 0x2A), (Fld.ispSensorWidth.key 0, 1),
      (Fld.ispSensorHeight.key 0, 1), (Fld.pwrPg0Pg.key 0, 0xE20), (Fld.clkStatusLock.key 0, 0x100), (Fld.clkEnEn.key 0, 0x388)]
    cam := ⟨[(0, ⟨.present, some widerFrame, none, [], 0⟩)], []⟩ }

/-- The line [3] has the frame's width; what the last good line has beyond it follows it into the ISP. -/
theorem csiLongPacket_narrowed :
    After (.csiLongPacket 0 0 0x2A [3] 0 false 0 0) narrowed
      ((narrowed.setFld .csiStatusHs 0 1).takeLine 0 { widerFrame with lastGood := some [3] } [3, 2]).settle := by
  change execCsiLongPacket 0 0 0x2A [3] 0 false 0 0 narrowed = _
  exact State.command_next rfl

/-- Refutes O17: its clause on a good line lets the line alone enter the ISP, and the model fits it with what the last good line has beyond
its end. -/
theorem not_cameraCommandsComplete : ¬ Obligations.CameraCommandsComplete := by
  unfold Obligations.CameraCommandsComplete
  rintro ⟨-, line, -⟩
  have stated := line narrowed 0 0 0x2A [3] 0 widerFrame 0 (by decide) (by decide) (by decide) (by decide) (by decide) (by decide)
    (by decide) (by decide)
  have same := Host.Outcome.next.inj (csiLongPacket_narrowed.symm.trans stated)
  have lines := congrArg (fun t => ((State.sensor t 0).frame.map CamFrame.lines)) same
  exact absurd lines (by decide)

end Sys2Proof.Machine

/-!
PROOFS. The microphones and the Watch (spec 14, R276 to R289): what recording leaves of the voice hold, and what each command completes with.
-/
namespace Sys2Proof.Machine

@[simp] theorem State.obj_reach (s : State) (t : Nat) (o : Obj) (i : Nat) : (s.reach t).obj o i = s.obj o i := rfl

/-! ## The voice hold -/

/-- Recording samples leaves the voice hold to the score of the 10 ms. -/
theorem WatchGroup.voiceHold_record (w : WatchGroup) (samples : List Int) : (samples.foldl WatchGroup.record w).voiceHold = w.voiceHold := by
  induction samples generalizing w with
  | nil => rfl
  | cons x r ih => exact ih (w.record x)

theorem WatchGroup.voiceHold_trim (w : WatchGroup) : w.trim.voiceHold = w.voiceHold := by
  rw [WatchGroup.trim]

/-- The Watch after 10 ms of samples (R279), with the voice hold that follows. -/
def WatchGroup.heard (w : WatchGroup) (samples : List Int) (at_ hold : Nat) : WatchGroup :=
  { (samples.foldl WatchGroup.record w).trim with
    lastTime := at_
    voiceHold := hold }

/-- While a microphone listens, the samples enter the pre-roll; a detection needs the voice and the wake model's score. -/
theorem vadFrame_hears {s : State} {hold : Nat} (samples : List Int) (vad score at_ : Nat) (hears : s.micsStopped = false)
    (listens : s.watch.mic ≠ none) (follows : (if s.obj .vadThreshold 0 < vad then 31 else s.watch.voiceHold - 1) = hold) :
    After (.vadFrame samples vad score at_) s
      (let u := (s.reach at_).setWatch ((s.reach at_).watch.heard samples at_ hold)
       if 0 < hold ∧ s.obj .wakeThreshold 0 ≤ score then u.firstStage else u) := by
  subst follows
  change execVadFrame samples vad score at_ s = _
  have runs : (s.reach at_).micsStopped = false := hears
  have present : (s.reach at_).watch.mic.isNone = false := Option.isNone_eq_false_iff.mpr (Option.isSome_iff_ne_none.mpr listens)
  have kept : ((samples.foldl WatchGroup.record (s.reach at_).watch).trim).voiceHold = s.watch.voiceHold :=
    (WatchGroup.voiceHold_trim _).trans (WatchGroup.voiceHold_record ..)
  refine State.command_next ((if_neg (by rw [runs, present]; decide)).trans ?_)
  simp only [kept, State.obj_reach]
  exact (apply_ite Host.Outcome.next ..).symm

/-! ## What the commands of the microphones and the Watch complete with -/

/-- Settles O18: each command on the branch that its hypotheses lead to. -/
theorem audioCommandsComplete : Obligations.AudioCommandsComplete := by
  refine ⟨?skipped, ?written, ?enable, ?disable, ?release, ?silent, ?voice, ?push, ?pushed, ?accept, ?reject, ?timeout, ?expiry, ?erased,
    ?pull, ?place, ?mute, ?unmute, ?lost⟩
  case skipped =>
    intro s mics refs lost stamp at_ a w run on good clocked free full
    change execAudioBlock mics refs lost stamp at_ s = _
    refine State.command_next ?_
    have is : (s.reach at_).audTake.aud.stream = some a := run
    simp only [is]
    exact (if_neg (by simp [on, show (s.reach at_).audTake.powerGood 4 = true from good,
      show (s.reach at_).audTake.clocked 2 = true from clocked,
      show (s.reach at_).audTake.flag .clkStatusHeld 0 = false from free])).trans (if_pos full)
  case written =>
    intro s mics refs stamp at_ a v u
    dsimp only
    intro run on good clocked free room wrote sealed
    change execAudioBlock mics refs false stamp at_ s = _
    refine State.command_next ?_
    simp only [run, Bool.false_and, Bool.not_false, Bool.and_true, Bool.false_eq_true, if_false]
    refine (if_neg (by simp [on, good, clocked, free])).trans ((if_neg (Nat.not_le.mpr room)).trans ?_)
    simp only [wrote, sealed, Option.isSome_none, Bool.false_eq_true, if_false]
  case enable =>
    intro s a clocked off ok
    change execAudStreamEnable true s = _
    refine State.command_next ?_
    simp only [clocked, off, Option.isSome_none, Bool.not_true, Bool.false_eq_true, if_false]
    rw [ok, if_pos rfl]
  case disable =>
    intro s a clocked run
    change execAudStreamEnable false s = _
    refine State.command_next ?_
    simp only [clocked, run, Option.isSome_some, Bool.not_true, Bool.not_false, Bool.false_eq_true, if_false, if_true]
  case release =>
    intro s a run
    change execAudioRelease s = _
    refine State.command_next (congrArg Host.Outcome.next ?_)
    simp only [State.audTake, run]
  case silent =>
    intro s samples vad score at_ hears listens quiet
    have runs := vadFrame_hears samples vad score at_ hears listens (hold := 0) (by rw [if_neg (by omega)]; omega)
    rwa [if_neg (by simp)] at runs
  case voice =>
    intro s samples vad score at_ hears listens loud known
    have runs := vadFrame_hears samples vad score at_ hears listens (hold := 31) (if_pos loud)
    rwa [if_pos ⟨by decide, known⟩] at runs
  case push =>
    intro s at_ b base span idle serves
    change execSpanPush at_ s = _
    refine State.command_next ?_
    have admitted : (s.reach at_).binAdmit (s.reach at_).watchReq true 5 ((s.reach at_).fld .watchSpanBin 0)
        ((List.range (s.reach at_).spanGrains).map ((s.reach at_).fld .watchSpanBase 0 + ·)) = (none, s.reach at_) :=
      State.binAdmit_serves (s := s.reach at_) serves 5
    have none : (s.reach at_).watch.span.isSome = false := by rw [show (s.reach at_).watch.span = none from idle]; rfl
    have ready : (s.reach at_).binReady ((s.reach at_).fld .watchSpanBin 0) = true := serves.1
    refine (if_neg ?_).trans ?_
    · rw [none, ready]
      simpa using show (s.reach at_).watch.lock = .span from span
    · simp only [admitted]
      rfl
  case pushed =>
    intro s at_ x u pushing undone wrote
    change execSpanPushComplete at_ s = _
    refine State.command_next ?_
    have is : (s.reach at_).watch.span = some x := pushing
    have wrote : (s.reach at_).binUnitWrite (s.reach at_).watchReq 5 x.bin (x.base * 256) ((s.reach at_).spanBytes x.grains) = (none, u) := wrote
    simp only [is, undone, wrote, Bool.false_eq_true, if_false]
  case accept =>
    intro s at_ span
    change execWatchVerdictAccept at_ s = _
    exact State.command_next (if_neg (not_not.mpr span))
  case reject =>
    intro s span
    change execWatchVerdictReject s = _
    exact State.command_next (congrArg Host.Outcome.next (if_pos span))
  case timeout =>
    intro s at_ x pushed span done late
    change execVerifyTimeout at_ s = _
    refine State.command_next ?_
    have is : (s.reach at_).watch.span = some x := pushed
    simp only [is]
    exact congrArg Host.Outcome.next (if_pos ⟨span, done, late⟩)
  case expiry =>
    intro s at_ opened late
    change execLockOpenExpiry at_ s = _
    exact State.command_next (congrArg Host.Outcome.next (if_pos ⟨opened, late⟩))
  case erased =>
    intro s erasing
    change execErasingComplete s = _
    exact State.command_next (congrArg Host.Outcome.next (if_pos erasing))
  case pull =>
    intro s bin base count tally start u hbin hbase hcount htally pulled
    change execWatchPull bin base count tally start s = _
    refine State.command_next (congrArg Host.Outcome.next ?_)
    simp only [Nat.mod_eq_of_lt hbin, Nat.mod_eq_of_lt hbase, Nat.mod_eq_of_lt hcount, Nat.mod_eq_of_lt htally, pulled]
  case place =>
    intro s value secure world locked
    change execWatchSpanWrite value secure s = _
    refine State.command_next ((if_neg ?_).trans (if_neg (not_not.mpr locked)))
    simpa using world
  case mute =>
    intro s at_ open_
    change execMuteAssert at_ s = _
    refine State.command_next (if_neg ?_)
    rw [show (s.reach at_).muted = false from open_]
    decide
  case unmute =>
    intro s at_ muted
    change execMuteRelease at_ s = _
    refine State.command_next (if_neg ?_)
    rw [show (s.reach at_).muted = true from muted]
    decide
  case lost =>
    intro s at_ m open_ listens
    change execListenMicLost at_ s = _
    refine State.command_next (congrArg Host.Outcome.next ((if_neg ?_).trans ?_))
    · rw [show (s.reach at_).muted = false from open_]
      decide
    · have is : (s.reach at_).watch.mic = some m := listens
      simp only [State.micLost, is]
      rfl

end Sys2Proof.Machine

/-!
PROOFS. The Hedgeline (spec 19, R370 to R380): what each command completes with.
-/
namespace Sys2Proof.Machine

@[simp] theorem State.isMaster_reach (s : State) (t : Nat) : (s.reach t).isMaster = s.isMaster := rfl

/-- Settles O24: each command on the branch that its hypotheses lead to. -/
theorem hedgelineCommandsComplete : Obligations.HedgelineCommandsComplete := by
  refine ⟨?up, ?down, ?retrain, ?hello, ?data, ?reply, ?ack, ?replay, ?timeout, ?send, ?sync, ?loss, ?wake, ?fromNet, ?toNet, ?unknown⟩
  case up =>
    intro s port width rate powered notUp
    change execHlPortUp port width rate s = _
    refine State.command_next (if_neg ?_)
    simpa [powered] using notUp
  case down =>
    intro s port up
    change execHlPortDown port s = _
    exact State.command_next (if_pos up)
  case retrain =>
    intro s port powered down
    change execHlRetrain port s = _
    exact State.command_next (congrArg Host.Outcome.next (if_pos ⟨powered, down⟩))
  case hello =>
    intro s port id master digest members ring up long u wired
    change execHlHello port id master digest members ring s = _
    refine State.command_next ((if_neg (by simp [up])).trans (if_pos ?_))
    rw [long]
    exact (Bool.and_true _).trans wired
  case data =>
    intro s port dst src lseq tally gate offset bin xfer ctr body q u r x arrived taken route
    change execHlData port dst src lseq tally gate offset bin xfer ctr body true s = _
    refine State.command_next ?_
    subst taken
    have here : s.arrive port ⟨1, dst % 8, src % 8, lseq, tally % 1024, gate % 64, offset, bin % 8, 0, xfer, ctr, body⟩ true = (.consume, u) := arrived
    simp only [here]
    have way : (u.takeGrain port ⟨1, dst % 8, src % 8, lseq, tally % 1024, gate % 64, offset, bin % 8, 0, xfer, ctr, body⟩).2.route
      (src % 8) = some q := route
    simp only [way]
    rfl
  case reply =>
    intro s port dst src lseq xfer offset code u arrived
    change execHlReply port dst src lseq xfer offset code true s = _
    refine State.command_next ?_
    simp only [arrived]
  case ack =>
    intro s port lseq up
    change execHlLinkack port lseq s = _
    exact State.command_next (congrArg Host.Outcome.next (if_pos up))
  case replay =>
    intro s port lseq x n up held few
    change execHlReplay port lseq s = _
    refine State.command_next ((if_neg (by simp [up])).trans ?_)
    simp only [held]
    exact if_neg (Nat.not_le.mpr few)
  case timeout =>
    intro s xfer grain at_ t o sending out late
    change execHlReplyTimeout xfer grain at_ s = _
    refine State.command_next ?_
    have sends : (s.reach at_).hedge.transfers.find? (fun t => decide (t.xfer = xfer)) = some t := sending
    simp only [sends, out]
    exact if_pos late
  case send =>
    intro s at_ master
    change execHlSyncSend at_ s = _
    exact State.command_next (if_neg (by simp [master]))
  case sync =>
    intro s port src lseq stamp delay at_ u follower x arrived still
    change execHlSync port src lseq stamp delay true at_ s = _
    refine State.command_next ?_
    have here : (s.reach at_).arrive port ⟨4, (s.reach at_).cascadeId, src % 8, lseq, 0, 0, 0, 0, 0, 0, 0, natLe 8 stamp⟩ true =
      (.consume, u) := arrived
    simp only [here, still, Bool.false_eq_true, if_false]
    rfl
  case loss =>
    intro s at_ follower late
    change execHlSyncLoss at_ s = _
    refine State.command_next (if_neg ?_)
    rw [State.isMaster_reach, follower]
    simpa using late
  case wake =>
    intro s at_ all
    change execNhlwakePulse at_ s = _
    refine State.command_next (congrArg Host.Outcome.next (if_neg ?_))
    rw [State.isMaster_reach]
    simpa [bne_iff_ne] using all
  case fromNet =>
    intro s port dst src lseq frame crcOk master low high
    change execHlMgmt true port dst src lseq frame crcOk s = _
    exact State.command_next ((if_pos rfl).trans (congrArg Host.Outcome.next (if_pos ⟨master, low, high⟩)))
  case toNet =>
    intro s port dst src lseq frame u arrived master
    change execHlMgmt false port dst src lseq frame true s = _
    refine State.command_next ((if_neg Bool.false_ne_true).trans ?_)
    simp only [arrived, master, if_true]
  case unknown =>
    intro s port carries
    change execHlUnknownPacket port s = _
    exact State.command_next (if_pos carries)

end Sys2Proof.Machine

/-!
PROOFS. Power management (spec 21, R406 to R419): what each command completes with.
-/
namespace Sys2Proof.Machine

/-- No source of a wake is latched. -/
theorem State.wakes_isEmpty {s : State} (none : s.pwr.wakes = []) : s.pwr.wakes.isEmpty = true := by rw [none]; rfl

/-- Settles O26: each command on the branch that its hypotheses lead to. -/
theorem powerCommandsComplete : Obligations.PowerCommandsComplete := by
  refine ⟨?idle, ?doze, ?rest, ?listen, ?entered, ?resumed, ?alarm, ?start, ?good, ?off, ?regOk, ?regTimeout, ?regRetry, ?brownOut⟩
  case idle =>
    intro s at_ may active still local_
    change execIdleEntry at_ s = _
    refine State.command_next (if_pos ⟨may, active, ?_, ?_⟩)
    · exact List.all_eq_true.mpr fun c hc => List.isEmpty_iff.mpr (still c (List.mem_range.mp hc))
    · exact List.isEmpty_iff.mpr local_
  case doze =>
    intro s at_ may shallow timer idle
    change execDozeEntry at_ s = _
    exact State.command_next (if_pos ⟨may, shallow, timer, idle⟩)
  case rest =>
    intro s at_ may doze timer idle free none done
    change execRestEntry at_ s = _
    refine State.command_next ((if_pos ⟨may, doze, timer, idle, free, State.wakes_isEmpty none⟩).trans (congrArg Host.Outcome.next (if_neg ?_)))
    rw [show (s.reach at_).updHolds = false from done]
    exact Bool.false_ne_true
  case listen =>
    intro s refused at_ may rest timer safe locked none done
    change execListenEntry refused at_ s = _
    refine State.command_next ((if_pos ⟨may, rest, timer, safe, locked, State.wakes_isEmpty none⟩).trans (congrArg Host.Outcome.next (if_neg ?_)))
    rw [show (s.reach at_).updHolds = false from done]
    exact Bool.false_ne_true
  case entered =>
    intro s bad at_ entering closed
    change execStateEntryComplete bad at_ s = _
    refine State.command_next (if_neg ?_)
    rw [show (s.reach at_).entering = true from entering]
    have shut : s.pwr.target = 3 → (s.reach at_).frameOpen = false := closed
    simpa using shut
  case resumed =>
    intro s at_ resuming resumed
    change execResumeComplete at_ s = _
    refine State.command_next (if_neg ?_)
    rw [show (s.reach at_).resuming = true from resuming, show (s.reach at_).resumed = true from resumed]
    decide
  case alarm =>
    intro s at_ set some late
    change execWakeAlarm at_ s = _
    exact State.command_next (if_pos ⟨set, some, late⟩)
  case start =>
    intro s at_ d r u waiting ok weight spaced
    change execDomainStart at_ s = _
    refine State.command_next ?_
    have waits : (s.reach at_).pwr.queue = d :: r := waiting
    simp only [waits]
    exact if_pos ⟨ok, weight, spaced⟩
  case good =>
    intro s domain at_ started
    change execDomainPowerGood domain at_ s = _
    refine State.command_next (if_neg ?_)
    rw [show (s.reach at_).pwr.started.contains domain = true from started]
    decide
  case off =>
    intro s domain at_ since left late awake unwanted
    change execDomainSwitchOff domain at_ s = _
    refine State.command_next (if_pos ⟨left, late, ?_⟩)
    rw [show (s.reach at_).resuming = false from awake]
    exact unwanted
  case regOk =>
    intro s at_ tried stage
    change execRegOk at_ s = _
    refine State.command_next ((if_neg ?_).trans (congrArg Host.Outcome.next (if_neg stage)))
    rw [show (s.reach at_).pwr.regTry = true from tried]
    decide
  case regTimeout =>
    intro s at_ tried
    change execRegOkTimeout at_ s = _
    refine State.command_next (if_neg ?_)
    rw [show (s.reach at_).pwr.regTry = true from tried]
    decide
  case regRetry =>
    intro s at_ resuming latched
    change execRegRetry at_ s = _
    refine State.command_next (if_pos ?_)
    have some : (s.reach at_).pwr.wakes.isEmpty = false := List.isEmpty_eq_false_iff.mpr latched
    rw [show (s.reach at_).resuming = true from resuming, some]
    rfl
  case brownOut =>
    intro s at_
    change execBrownOut at_ s = _
    exact State.command_next rfl

end Sys2Proof.Machine

/-!
PROOFS. The clocks (spec 22, R424 to R432, R454): what each command completes with.
-/
namespace Sys2Proof.Machine

/-! ## The failure and the return of sources -/

/-- A field that is not among those written reads as before. -/
theorem State.fld_setFlds_of_idx (s : State) {f : Fld} {i : Nat} {l : List (Fld × Nat)} (h : f.ctorIdx ∉ l.map (·.1.ctorIdx)) :
    (s.setFlds i l).fld f i = s.fld f i :=
  State.fld_setFlds_of_notMem s fun _ mem same => h (same ▸ List.mem_map_of_mem mem)

/-- A counter object is no field. -/
theorem State.fld_bumpObj (s : State) (o : Obj) (j n : Nat) (f : Fld) (i : Nat) : (s.bumpObj o j n).fld f i = s.fld f i :=
  State.fld_congr (s.bumpObj_regs_pending o j n).1 f i

/-- A first failure is held, with what has failed and since when (R431, R432). -/
def State.sourceHeld (s : State) (source : Nat) : State :=
  (s.setClk
    { s.clk with
      failing := setBits s.clk.failing source source 1
      heldAt := s.time
      gaveUp := s.obj .clkReturnMs 0 == 0 }).setFlds 0
    [(.clkFailSrc, setBits (s.fld .clkFailSrc 0) source source 1), (.clkStatusFail, 1), (.clkStatusHeld, 1)]

/-- The Reeve changes to its own source, when that runs, and the failure is counted. -/
def State.reeveSource (s : State) (losc : Nat) : State := (s.setFld .clkStatusReeveLosc 0 losc).bumpObj .clkFails 0 1

/-- The clocks' fields tell nothing of the device state. -/
theorem State.pwrState_sourceHeld (s : State) (source losc : Nat) : ((s.sourceHeld source).reeveSource losc).pwrState = s.pwrState := by
  have other : Fld.pwrStatusState.ctorIdx ∉ [Fld.clkFailSrc.ctorIdx, Fld.clkStatusFail.ctorIdx, Fld.clkStatusHeld.ctorIdx] := by decide
  rw [State.pwrState, State.reeveSource, State.fld_bumpObj, State.fld_setFld_of_reg _ _ (by decide) (by decide) (by decide),
    State.sourceHeld, State.fld_setFlds_of_idx _ other]
  rfl

/-- With every source back in time, the Reeve requests a warm reset (R432). -/
theorem State.sourcesBack_of_held {s : State} (held : s.flag .clkStatusHeld 0 = true) (back : s.clk.failing = 0)
    (inTime : s.clk.gaveUp = false) (ready : s.flag .rvStatusReady 0 = true) : s.sourcesBack = s.warmReset 4 :=
  if_pos ⟨held, back, inTime, ready⟩

/-- CLK_STATUS.FAIL is neither HELD nor the Reeve's READY. -/
theorem State.flag_setFail (s : State) (v : Nat) :
    (s.setFld .clkStatusFail 0 v).flag .clkStatusHeld 0 = s.flag .clkStatusHeld 0 ∧
      (s.setFld .clkStatusFail 0 v).flag .rvStatusReady 0 = s.flag .rvStatusReady 0 := by
  unfold State.flag
  rw [State.fld_setFld_ne s (by decide), State.fld_setFld_ne s (by decide)]
  exact ⟨rfl, rfl⟩

/-- The failure of an oscillator outside LISTEN, when none is held: the device is held and the outputs are forced (R430, R431). -/
theorem clockSourceFailure_holds {s : State} {source : Nat} (at_ : Nat) (low : source < 3) (present : s.boot.stage ≠ .off)
    (free : s.flag .clkStatusHeld 0 = false) (awake : s.pwrState ≠ 4) :
    After (.clockSourceFailure source at_) s
      (((((s.reach at_).sourceHeld source).reeveSource
        (if bit ((s.reach at_).sourceHeld source).clk.failing 3 && ((s.reach at_).sourceHeld source).locked 9 then 0 else 1)).forceOutputs).logIt
          .clock 0xFF 12 source 0 0) := by
  change execClockSourceFailure source at_ s = _
  refine State.command_next ?_
  extract_lets u first clk u1 u2 losc u3 u4
  have isFirst : first = true := by
    change (!s.flag .clkStatusHeld 0) = true
    rw [free]
    rfl
  have watched : u.monitored source = true := by
    have other : (source != 4) = true := by simpa using (by omega : source ≠ 4)
    have on : (u.boot.stage != .off) = true := bne_iff_ne.mpr present
    simp [State.monitored, other, on, show source < 16 by omega, show source < 5 by omega]
  have held : u1 = u.sourceHeld source := by
    simp only [u1, isFirst, if_true]
    rfl
  have same : u2 = u1 := if_neg (by omega)
  have one : losc = 1 := if_neg (by omega)
  have counted : u3 = (u.sourceHeld source).reeveSource
      (if bit (u.sourceHeld source).clk.failing 3 && (u.sourceHeld source).locked 9 then 0 else 1) := by
    simp only [u3, same, held, one]
    rfl
  have stays : u4 = u3 := by
    refine if_neg fun listen => awake ?_
    rw [counted, State.pwrState_sourceHeld] at listen
    exact listen.1
  rw [if_neg (by simp [watched]), stays, counted]

/-- The clocks after the return of sources, when none is left that has failed. -/
theorem clockSourceReturn_warms {s : State} {sources : Nat} (at_ : Nat)
    (all : (List.range 16).foldl (fun m i => if bit sources i then setBits m i i 0 else m) s.clk.failing = 0)
    (held : s.flag .clkStatusHeld 0 = true) (inTime : s.clk.gaveUp = false) (ready : s.flag .rvStatusReady 0 = true)
    (early : (s.reach at_).time ≤ s.clk.heldAt + s.obj .clkReturnMs 0 * 1000000) :
    After (.clockSourceReturn sources at_) s
      ((((s.reach at_).setClk { s.clk with failing := 0, gaveUp := false }).setFld .clkStatusFail 0 0).warmReset 4) := by
  change execClockSourceReturn sources at_ s = _
  refine State.command_next ?_
  extract_lets u left late clk u1
  have none : left = 0 := all
  have notLate : late = false := decide_eq_false (Nat.not_lt.mpr early)
  have still : u.clk.gaveUp = false := inTime
  have back : u1 = (u.setClk { u.clk with failing := 0, gaveUp := false }).setFld .clkStatusFail 0 0 := by
    simp only [u1, none, notLate, still, Bool.and_false, Bool.or_false]
    rfl
  obtain ⟨heldStays, readyStays⟩ := (u.setClk { u.clk with failing := 0, gaveUp := false }).flag_setFail 0
  rw [back]
  exact congrArg Host.Outcome.next <| State.sourcesBack_of_held (heldStays.trans held) rfl rfl (readyStays.trans ready)

/-! ## What the commands of the clocks complete with -/

/-- Settles O27: each command on the branch that its hypotheses lead to. -/
theorem clockCommandsComplete : Obligations.ClockCommandsComplete := by
  refine ⟨?ask, ?switched, ?lock, ?failure, ?back, ?timeout, ?enable, ?throttle, ?trip⟩
  case ask =>
    intro s core src u hcore hsrc locked free
    change execClkTcselSwitch core src true s = _
    refine State.command_next ?_
    have idle : s.clk.switches.any (fun x => x.1 == core) = false := by simpa using free
    simp only [Nat.mod_eq_of_lt hcore, Nat.mod_eq_of_lt hsrc, Bool.not_true, Bool.false_eq_true, if_false]
    refine (if_neg ?_).trans (if_neg ?_)
    · rw [show ((s.setFlds 0 [(.clkTcselCore, core), (.clkTcselSrc, src)]).locked src) = true from locked]
      decide
    · exact fun busy => Bool.false_ne_true (idle.symm.trans busy)
  case switched =>
    intro s c src free next
    change execTclkSwitchComplete s = _
    refine State.command_next ?_
    simp only [free, next, Bool.false_eq_true, if_false]
  case lock =>
    intro s pll fed hpll good
    change execPllLock pll s = _
    exact State.command_next (if_pos (by simp [fed, hpll, good]))
  case failure =>
    intro s source at_ low present free awake
    exact clockSourceFailure_holds at_ low present free awake
  case back =>
    intro s sources at_ left held all inTime ready early
    exact clockSourceReturn_warms at_ all held inTime ready early
  case timeout =>
    intro s at_ held failing late
    change execClkReturnTimeout at_ s = _
    exact State.command_next (if_pos ⟨held, failing, late⟩)
  case enable =>
    intro s value spared
    change execClkEnWrite value true s = _
    refine State.command_next ((if_neg (by decide)).trans (congrArg Host.Outcome.next (if_neg ?_)))
    simp only [List.any_eq_true, List.mem_range, Bool.and_eq_true, Bool.not_eq_true', not_exists, not_and]
    intro b hb on
    cases domain : enableDomain b with
    | none => simp
    | some d => simpa using spared b hb on.1 on.2 d domain
  case throttle =>
    intro s highest at_ hot
    change execHardwareThrottle highest at_ s = _
    exact State.command_next (if_pos hot)
  case trip =>
    intro s reading since at_ hot long present
    change execThermalTrip reading since at_ s = _
    refine State.command_next (if_neg ?_)
    rintro (cool | short | off)
    · exact absurd hot (Int.not_le.mpr cool)
    · exact absurd long (Nat.not_le.mpr short)
    · exact present off

end Sys2Proof.Machine

/-!
PROOFS. The Reeve's governor and a firmware update (spec 20, R386 to R402): what each command completes with.
-/
namespace Sys2Proof.Machine

/-- What a period of the governor leaves in its own record (R394). -/
def State.periodEnd (s : State) (restricted : Bool) : State :=
  (s.setReeve { s.reeve with lastPeriod := s.time }).setFld .rvStatusRestricted 0 (b2n restricted)

theorem State.periodEnd_full (s : State) :
    s.periodEnd false = (s.setReeve { s.reeve with lastPeriod := s.time }).setFld .rvStatusRestricted 0 0 := rfl

theorem State.periodEnd_restricted (s : State) :
    s.periodEnd true = (s.setReeve { s.reeve with lastPeriod := s.time }).setFld .rvStatusRestricted 0 1 := rfl

/-- A period that does not overrun: the loops of REST, those of an update, or the full ones (R387, R394). -/
theorem governorPeriod_runs {s : State} (temps : List (Option Int)) (pouts : List (Option Nat)) (status : List Nat) (vout : Nat)
    (margins ces ues : List Nat) (at_ : Nat) (ready : s.flag .rvStatusReady 0 = true) :
    After (.governorPeriod temps pouts status vout margins ces ues false at_) s
      ((if decide (s.pwrState = 3) then ((s.reach at_).readSensors temps).idleLoop
        else if s.updWriting then (s.reach at_).updatePeriod ⟨temps, pouts, status, vout, margins, ces, ues⟩
        else (s.reach at_).fullPeriod ⟨temps, pouts, status, vout, margins, ces, ues⟩).periodEnd
          (decide (s.pwrState = 3) || s.updWriting)) := by
  change execGovernorPeriod temps pouts status vout margins ces ues false at_ s = _
  refine State.command_next ((if_neg ?_).trans ?_)
  · rw [State.flag_reach, ready]
    decide
  · exact congrArg Host.Outcome.next (if_neg Bool.false_ne_true)

/-- Settles O25: each command on the branch that its hypotheses lead to. -/
theorem reeveCommandsComplete : Obligations.ReeveCommandsComplete := by
  refine ⟨?period, ?alert, ?flush, ?begin_, ?data, ?finish, ?cancel, ?activate, ?verified, ?wrote, ?committed⟩
  case period =>
    intro s temps pouts status vout margins ces ues at_ ready
    dsimp only
    have runs := governorPeriod_runs temps pouts status vout margins ces ues at_ ready
    refine ⟨fun awake free => ?_, fun awake writes => ?_, fun rest => ?_⟩
    · rwa [free, decide_eq_false awake, if_neg Bool.false_ne_true, if_neg Bool.false_ne_true, Bool.or_false, State.periodEnd_full] at runs
    · rwa [writes, decide_eq_false awake, if_neg Bool.false_ne_true, if_pos rfl, Bool.or_true, State.periodEnd_restricted] at runs
    · rwa [decide_eq_true rest, if_pos rfl, Bool.true_or, State.periodEnd_restricted] at runs
  case alert => exact fun _ => rfl
  case flush =>
    intro s at_ ready
    change execLogFlush at_ s = _
    exact State.command_next (congrArg Host.Outcome.next (if_pos ready))
  case begin_ =>
    intro s idle low high fits
    change execUpdBegin true s = _
    refine State.command_next (congrArg Host.Outcome.next ?_)
    have known : ¬ (s.obj .updKind 0 = 0 ∨ 4 < s.obj .updKind 0) := by omega
    simp only [State.updWrite, State.updBegin, idle, if_neg known, if_neg (Nat.not_lt.mpr fits), if_true, ne_eq, not_true_eq_false, if_false]
  case data =>
    intro s bytes receives small fits
    change execUpdData bytes true s = _
    refine State.command_next (congrArg Host.Outcome.next ((if_pos rfl).trans ((if_pos small).trans ?_)))
    exact (if_neg (not_not.mpr receives)).trans (if_neg (Nat.not_lt.mpr fits))
  case finish =>
    intro s receives
    change execUpdFinish true s = _
    exact State.command_next (congrArg Host.Outcome.next ((if_pos rfl).trans (if_pos receives)))
  case cancel =>
    intro s busy
    change execUpdCancel true s = _
    exact State.command_next (congrArg Host.Outcome.next ((if_pos rfl).trans (if_neg busy)))
  case activate => exact fun _ _ => rfl
  case verified =>
    intro s verifies whole
    change execUpdVerifyComplete 0 s = _
    exact State.command_next ((if_neg (not_not.mpr verifies)).trans ((if_neg (not_not.mpr whole)).trans (if_neg (by decide))))
  case wrote =>
    intro s writes
    change execUpdWriteComplete true s = _
    exact State.command_next ((if_neg (not_not.mpr writes)).trans (congrArg Host.Outcome.next (if_pos rfl)))
  case committed =>
    intro s commits
    change execUpdCommitComplete true s = _
    exact State.command_next ((if_neg (not_not.mpr commits)).trans (if_neg (by decide)))

end Sys2Proof.Machine

/-!
PROOFS. The result rings (R346 to R350): what a ring reads after a publication and after an ACK.
-/
namespace Sys2Proof.Machine

/-! ## Rings -/

@[simp] theorem State.ring_setRing_same (s : State) (r : Nat) (x : Ring) : (s.setRing r x).ring r = x := SMap.get_put_same

theorem State.ring_setRing_ne {s : State} {r q : Nat} {x : Ring} (h : q ≠ r) : (s.setRing r x).ring q = s.ring q := SMap.get_put_ne h

theorem State.ring_congr {s t : State} (h : t.ledger = s.ledger) (r : Nat) : t.ring r = s.ring r :=
  congrArg (fun l : LedgerGroup => SMap.get l.rings r Ring.closed) h

/-! ## ACK -/

theorem State.ack_published {s : State} {r a : Nat} (h : a < (s.ring r).nextSeq) :
    s.ack r a = (.ok, s.setRing r { s.ring r with retired := max (s.ring r).retired (a + 1) }) := if_neg (Nat.not_le.mpr h)

theorem State.ack_unpublished {s : State} {r a : Nat} (h : (s.ring r).nextSeq ≤ a) : s.ack r a = (.badValue, s) := if_pos h

/-- Two indices from 0x1000 name an open ring, unless the ring is secure and the reader is not. -/
theorem State.ringAt_open {s : State} {r : Nat} (small : r < 4096) (isOpen : (s.ring r).isOpen = true) (secure : Bool) :
    s.ringAt (0x1000 + r) secure = if (s.ring r).secure = true ∧ secure = false then .error .world else .ok r := by
  have index : 0x1000 + r - 0x1000 = r := Nat.add_sub_cancel_left ..
  have range : ¬ (0x1000 + r < 0x1000 ∨ 0x2000 ≤ 0x1000 + r) := by omega
  rw [State.ringAt, if_neg range, index, isOpen]
  simp

/-- What a channel's data area takes leaves the rings. -/
theorem State.setChData_ledger (s : State) (ch : Nat) (b : List Byte) : (s.setChData ch b).ledger = s.ledger := rfl

theorem State.windowOp_ack_ledger {s : State} {ch r : Nat} {last : Bool} (found : s.ringAt (s.fld .chObjIndex ch) (decide (8 ≤ ch)) = .ok r) :
    (s.windowOp ch 11 last []).2.ledger = (s.ack r (s.fld .chSeqSeq ch)).2.ledger := by
  simp only [State.windowOp, found]
  split
  · exact State.setChData_ledger ..
  · rfl

/-! ## The window -/

/-- An operation that a writer may start runs, and leaves its code, DONE and the interrupt (R343). -/
theorem State.windowGo_runs {ch : Nat} {secure : Bool} (inRange : ch < 16) (world : 8 ≤ ch → secure = true) (s : State) (op : Nat)
    (last : Bool) (obs : List Obs) : s.windowGo ch op last secure obs =
      let r := (s.setFlds ch [(.chCmdOp, op), (.chCmdLast, b2n last)]).windowOp ch op last obs
      (r.2.setFlds ch [(.chCmdCode, r.1.num), (.chCmdDone, 1)]).send ⟨.hostIrq, 0x100, [ch], []⟩ :=
  (if_neg (Nat.not_le.mpr inRange)).trans (if_neg (channel_allowed world))

theorem crierAck_via (s : State) (v : Via) (at_ : Nat) : After (.crierAck v at_) s ((s.reach at_).via 11 v []) := by
  change execCrierAck v at_ s = _
  exact State.command_next rfl

/-- Settles O46: RETIRED is the maximum, and an ACK of the window changes the rings as the ACK does. -/
theorem ackSetsRetired : Obligations.AckSetsRetired := by
  refine ⟨?published, ?unpublished, ?world, ?window⟩
  case published =>
    intro s r a below
    rw [State.ack_published below]
    refine ⟨rfl, ?_, ?_, fun q other => State.ring_setRing_ne other⟩
    · rw [State.ring_setRing_same]
      change max (s.ring r).retired (a + 1) = _
      split
      · exact Nat.max_eq_right (Nat.le_of_lt ‹_›)
      · exact Nat.max_eq_left (Nat.not_lt.mp ‹_›)
    · rw [State.ring_setRing_same]
  case unpublished => exact fun s r a above => State.ack_unpublished above
  case world => exact fun s r secure small isOpen => State.ringAt_open small isOpen secure
  case window =>
    intro s ch last secure at_ inRange world u r found
    refine ⟨_, crierAck_via s (.window ch last secure) at_, ?_⟩
    change ((s.reach at_).windowGo ch 11 last secure []).ledger = _
    rw [State.windowGo_runs inRange world]
    exact State.windowOp_ack_ledger found

/-! ## Publication -/

theorem State.urWrite_ledger {s u : State} {q : Requester} {off : Nat} {bs : List Byte} {e : Option UrErr}
    (h : s.urWrite q off bs [] = (e, u)) : u.ledger = s.ledger :=
  ((State.urWrite_touches q off bs [] (.refl _ s) (List.Subset.refl _)).of_answer h).keep .ledger (by decide)

/-- A slot of a ring's store that a new record has taken has not been read (R348). -/
def State.forgetRead (s : State) (slot : Nat) : State :=
  { s with ledger := { s.ledger with readBit := SMap.put s.ledger.readBit slot false false } }

@[simp] theorem State.ring_forgetRead (s : State) (slot r : Nat) : (s.forgetRead slot).ring r = s.ring r := rfl

/-- A record that its ring's store takes advances NEXT_SEQ (R347). -/
theorem State.publishDue_taken {s u : State} {r subject evidence cls flags code : Nat} {payload : List Byte} {due : Option Nat}
    (isOpen : (s.ring r).isOpen = true)
    (wrote : s.urWrite (unitReq 0x17 ((s.ring r).secure || r == 0)) ((s.ring r).store * 4096 + (s.ring r).nextSeq % 4096 * 64)
      (resultBytes (s.ring r).nextSeq subject evidence s.time cls
        (flags / 2 * 2 + (match due with | some d => b2n (decide (d < s.time)) | none => 0)) code payload) [] = (none, u)) :
    s.publishDue r subject evidence cls flags code payload due =
      (u.setRing r { u.ring r with nextSeq := (s.ring r).nextSeq + 1 }).forgetRead (r * 4096 + (s.ring r).nextSeq % 4096) := by
  cases due
  all_goals
    refine (if_neg (by simp [isOpen])).trans ?_
    dsimp only at wrote ⊢
    rw [wrote]
    rfl

/-- Settles O47: the write of the slot leaves the rings, and NEXT_SEQ alone advances. -/
theorem publicationAdvancesTheRing : Obligations.PublicationAdvancesTheRing := by
  refine ⟨?published, ?dropped⟩
  case published =>
    intro s r subject evidence cls flags code payload due u x late bs isOpen wrote t
    have same (q : Nat) : u.ring q = s.ring q := State.ring_congr (State.urWrite_ledger wrote) q
    have taken : t = (u.setRing r { u.ring r with nextSeq := x.nextSeq + 1 }).forgetRead (r * 4096 + x.nextSeq % 4096) :=
      State.publishDue_taken isOpen wrote
    have this : t.ring r = { s.ring r with nextSeq := x.nextSeq + 1 } := by
      rw [taken, State.ring_forgetRead, State.ring_setRing_same, same]
    have other (q : Nat) (h : q ≠ r) : t.ring q = s.ring q := by
      rw [taken, State.ring_forgetRead, State.ring_setRing_ne h, same]
    rw [this]
    exact ⟨rfl, rfl, rfl, rfl, other, by rw [taken]; rfl⟩
  case dropped =>
    intro s r subject evidence cls flags code payload due closed
    exact (if_pos (by simp [closed])).trans (if_neg (by simp [closed]))

end Sys2Proof.Machine

/-!
PROOFS. Requests of the Crier (R353 to R359): a frame that arrives at an awake device reaches its operation, and a request that has been
answered is not run again.
-/
namespace Sys2Proof.Machine

/-! ## Arrival -/

section Arrival
variable {s : State} {op : Nat} {f : CrierFrame}

/-- The checks of R352 and R354 that come before the operations. -/
theorem FrameArrives.reaches (h : FrameArrives s op f) :
    (!s.crierUp || (f.transport == 0 && s.crier.net.ip == 0) || (f.broadcast && op != 1)) = false ∧ (!frameIntact f op) = false ∧
      decide (s.pwrState = 4 ∨ (s.entering = true ∧ s.pwr.target = 4)) = false := by
  obtain ⟨up, address, narrow, intact, -, notListen, notEntering⟩ := h
  refine ⟨?_, by simp [intact], by simpa using ⟨notListen, notEntering⟩⟩
  simpa [up] using ⟨address, narrow⟩

/-- IDENTIFY and OPEN are served where they arrive in the open. -/
theorem FrameArrives.greeting (h : FrameArrives s op f) (greets : op = 1 ∨ op = 2) (isOpen : frameSecure f = false) (obs : List Obs) :
    s.frameIn op f obs = if op = 1 then s.identify (framePeer f) f.seq else s.serveOpen (framePeer f) f.seq f.payload := by
  obtain ⟨reaches, intact, awake⟩ := h.reaches
  obtain ⟨-, -, -, -, request, -, -⟩ := h
  rw [State.frameIn, reaches, intact, request, awake]
  simp [greets, isOpen]

/-- Any other request goes to its session. -/
theorem FrameArrives.request (h : FrameArrives s op f) (noGreeting : ¬ (op = 1 ∨ op = 2)) (obs : List Obs) :
    s.frameIn op f obs = s.onSession op f obs := by
  obtain ⟨reaches, intact, awake⟩ := h.reaches
  obtain ⟨-, -, -, -, request, -, -⟩ := h
  rw [State.frameIn, reaches, intact, request, awake]
  simp [noGreeting]

end Arrival

/-! ## A session's request -/

theorem State.recordSession_touches {L : List Part} {Z s : State} (x : Session) (hT : Touches L Z s) (hl : [.ledger] ⊆ L) :
    Touches L Z (s.recordSession x) := by
  rw [State.recordSession]
  exact State.setRec_touches _ _ hT hl

theorem State.takenOn_touches (s : State) (n : Nat) (x : Session) : Touches [.crier, .ledger] s (s.takenOn n x) := by
  rw [State.takenOn]
  exact State.recordSession_touches _ (State.setSession_touches _ _ (.refl _ s) (by decide)) (by decide)

theorem State.waiting_setSession (s : State) (n : Nat) (x : Option Session) : (s.setSession n x).crier.waiting = s.crier.waiting := rfl

/-- The requests that wait for a resume are not the session's. -/
theorem State.waiting_takenOn (s : State) (n : Nat) (x : Session) : (s.takenOn n x).crier.waiting = s.crier.waiting := by
  rw [State.takenOn, (State.recordSession_touches _ (.refl [.ledger] _) (List.Subset.refl _)).keep .crier (by decide),
    State.waiting_setSession]

theorem State.mustWait_takenOn (s : State) (n : Nat) (x : Session) (op : Nat) (p : List Byte) :
    (s.takenOn n x).mustWait op p = s.mustWait op p := by
  have touched := s.takenOn_touches n x
  have regs : (s.takenOn n x).regs = s.regs := touched.keep .regs (by decide)
  have pwr : (s.takenOn n x).pwr = s.pwr := touched.keep .pwr (by decide)
  have state : (s.takenOn n x).pwrState = s.pwrState := State.fld_congr regs ..
  have entering : (s.takenOn n x).entering = s.entering := congrArg (· == 1) (State.fld_congr regs ..)
  rw [State.mustWait, State.mustWait, state, entering, pwr]

section Request
variable {s : State} {f : CrierFrame} {x : Session} (found : s.session f.session = some x) (peer : x.peer = framePeer f)
  (isOpen : x.secure = false) (clear : frameSecure f = false)
include found peer isOpen clear

/-- A request whose SEQ is more than 64 below the highest is dropped. -/
theorem State.onSession_late (late : f.seq + 64 < x.maxSeq.getD 0) (op : Nat) (obs : List Obs) :
    s.onSession op f obs = s.takenOn f.session x := by
  have same : ¬ (x.peer ≠ framePeer f ∨ frameSecure f ≠ x.secure) := by simp [peer, isOpen, clear]
  have notSecure : ¬ x.secure = true := by simp [isOpen]
  simp only [State.onSession, found, if_neg same, if_neg notSecure, if_pos late]
  rw [State.takenOn]

/-- A request that has been answered is answered from what is held. -/
theorem State.onSession_answered {a : Answer} (recent : x.maxSeq.getD 0 ≤ f.seq + 64)
    (held : x.answers.find? (fun a => decide (a.seq = f.seq)) = some a) (op : Nat) (obs : List Obs) :
    s.onSession op f obs = ((s.takenOn f.session x).bumpObj .duplicates 0 1).sendOn f.session a.op respFlags f.seq
      (a.payload.getD (natLe 1 Code.duplicate.num)) := by
  have same : ¬ (x.peer ≠ framePeer f ∨ frameSecure f ≠ x.secure) := by simp [peer, isOpen, clear]
  have notSecure : ¬ x.secure = true := by simp [isOpen]
  simp only [State.onSession, found, if_neg same, if_neg notSecure, if_neg (Nat.not_lt.mpr recent), held]
  rw [State.takenOn]

/-- A new request of an open session runs, unless it waits for a resume. -/
theorem State.onSession_new (recent : x.maxSeq.getD 0 ≤ f.seq + 64) (op : Nat) (obs : List Obs)
    (new : x.answers.find? (fun a => decide (a.seq = f.seq)) = none)
    (unheard : ¬ (s.takenOn f.session x).crier.waiting.any (fun w => decide (w.session = f.session ∧ w.seq = f.seq)) = true)
    (atOnce : ¬ (s.takenOn f.session x).mustWait op f.payload = true) :
    s.onSession op f obs = (s.takenOn f.session x).serve f.session f.seq op f.payload (frameLast f) obs := by
  have same : ¬ (x.peer ≠ framePeer f ∨ frameSecure f ≠ x.secure) := by simp [peer, isOpen, clear]
  have notSecure : ¬ x.secure = true := by simp [isOpen]
  rw [State.takenOn] at unheard atOnce ⊢
  simp only [State.onSession, found, if_neg same, if_neg notSecure, if_neg (Nat.not_lt.mpr recent), new, if_neg unheard, if_neg atOnce]

end Request

/-- A frame that is a new request of an open session is served. -/
theorem SessionServes.served {s : State} {op : Nat} {f : CrierFrame} {x : Session} (h : SessionServes s op f x)
    (noGreeting : ¬ (op = 1 ∨ op = 2)) (obs : List Obs) :
    s.frameIn op f obs = (s.takenOn f.session x).serve f.session f.seq op f.payload (frameLast f) obs := by
  obtain ⟨arrives, found, peer, isOpen, clear, recent, new, unheard, atOnce⟩ := h
  rw [arrives.request noGreeting]
  refine State.onSession_new found peer isOpen clear recent op obs ?_ ?_ ?_
  · simpa using new
  · rw [State.waiting_takenOn]
    simpa using unheard
  · rw [State.mustWait_takenOn, atOnce]
    decide

/-! ## The operations -/

section Via
variable (s : State) (v : Via) (at_ : Nat)

theorem objectRead_via : After (.objectRead v at_) s ((s.reach at_).via 4 v []) := by
  change execObjectRead v at_ s = _
  exact State.command_next rfl

theorem objectWrite_via : After (.objectWrite v at_) s ((s.reach at_).via 5 v []) := by
  change execObjectWrite v at_ s = _
  exact State.command_next rfl

theorem readBlock_via : After (.readBlock v at_) s ((s.reach at_).via 6 v []) := by
  change execReadBlock v at_ s = _
  exact State.command_next rfl

theorem writeBlock_via : After (.writeBlock v at_) s ((s.reach at_).via 7 v []) := by
  change execWriteBlock v at_ s = _
  exact State.command_next rfl

theorem crierPull_via (obs : List Obs) : After (.crierPull v obs at_) s ((s.reach at_).via 10 v obs) := by
  change execCrierPull v obs at_ s = _
  exact State.command_next rfl

theorem rotaAbort_via (ring index : Nat) (secure : Bool) : After (.rotaAbort (some v) ring index secure at_) s ((s.reach at_).via 12 v []) := by
  change execRotaAbort (some v) ring index secure at_ s = _
  exact State.command_next rfl

theorem unknownOperation_via (op : Nat) : After (.unknownOperation op v at_) s ((s.reach at_).via (op % 256) v []) := by
  change execUnknownOperation op v at_ s = _
  exact State.command_next rfl

end Via

theorem crierClose_frame (s : State) (f : CrierFrame) (at_ : Nat) : After (.crierClose f at_) s ((s.reach at_).via 3 (.frame f) []) := by
  change execCrierClose f at_ s = _
  exact State.command_next rfl

theorem crierSubscribe_frame (s : State) (f : CrierFrame) (at_ : Nat) :
    After (.crierSubscribe f at_) s ((s.reach at_).via 8 (.frame f) []) := by
  change execCrierSubscribe f at_ s = _
  exact State.command_next rfl

/-- The commands that come as frames of a session, with their operation and the instants that they observe (R355). -/
def sessionOperations (f : CrierFrame) (at_ : Nat) (obs : List Obs) : List (Instr × Nat × List Obs) :=
  [(.crierClose f at_, 3, []), (.objectRead (.frame f) at_, 4, []), (.objectWrite (.frame f) at_, 5, []), (.readBlock (.frame f) at_, 6, []),
   (.writeBlock (.frame f) at_, 7, []), (.crierSubscribe f at_, 8, []), (.crierPull (.frame f) obs at_, 10, obs),
   (.crierAck (.frame f) at_, 11, []), (.rotaAbort (some (.frame f)) 0 0 false at_, 12, [])]

theorem sessionOperations_run {i : Instr} {op at_ : Nat} {obs : List Obs} {f : CrierFrame} (s : State)
    (mem : (i, op, obs) ∈ sessionOperations f at_ obs) :
    After i s ((s.reach at_).via op (.frame f) obs) ∧ ¬ (op = 1 ∨ op = 2) := by
  simp only [sessionOperations, List.mem_cons, List.not_mem_nil, or_false, Prod.mk.injEq] at mem
  obtain ⟨rfl, rfl, rfl⟩ | ⟨rfl, rfl, rfl⟩ | ⟨rfl, rfl, rfl⟩ | ⟨rfl, rfl, rfl⟩ | ⟨rfl, rfl, rfl⟩ | ⟨rfl, rfl, rfl⟩ | ⟨rfl, rfl, -⟩ |
    ⟨rfl, rfl, rfl⟩ | ⟨rfl, rfl, rfl⟩ := mem
  exacts [⟨crierClose_frame .., by decide⟩, ⟨objectRead_via .., by decide⟩, ⟨objectWrite_via .., by decide⟩, ⟨readBlock_via .., by decide⟩,
    ⟨writeBlock_via .., by decide⟩, ⟨crierSubscribe_frame .., by decide⟩, ⟨crierPull_via .., by decide⟩, ⟨crierAck_via .., by decide⟩,
    ⟨rotaAbort_via .., by decide⟩]

/-- Settles O53: the held response is sent, and a SEQ too far below the highest is dropped. -/
theorem answeredRequestsAreNotRunAgain : Obligations.AnsweredRequestsAreNotRunAgain := by
  refine ⟨?answered, ?late⟩
  case answered =>
    intro i op obs s at_ f x a mem arrives found peer isOpen clear recent held
    have listed : (i, op, obs) ∈ sessionOperations f at_ obs := by
      simp only [sessionOperations, List.mem_cons, List.not_mem_nil, or_false] at mem ⊢
      tauto
    obtain ⟨runs, noGreeting⟩ := sessionOperations_run s listed
    rw [State.via, arrives.request noGreeting, State.onSession_answered (s := s.reach at_) found peer isOpen clear recent held] at runs
    exact runs
  case late =>
    intro s at_ f x arrives found peer isOpen clear late
    have runs := objectRead_via s (.frame f) at_
    rw [State.via, arrives.request (by decide), State.onSession_late (s := s.reach at_) found peer isOpen clear late] at runs
    exact runs

/-- The commands that come through a channel of the window, with their operation and the instants that they observe (R343). -/
def windowOperations (v : Via) (secure : Bool) (at_ : Nat) (obs : List Obs) : List (Instr × Nat × List Obs) :=
  [(.objectRead v at_, 4, []), (.objectWrite v at_, 5, []), (.readBlock v at_, 6, []), (.writeBlock v at_, 7, []),
   (.crierPull v obs at_, 10, obs), (.crierAck v at_, 11, []), (.rotaAbort (some v) 0 0 secure at_, 12, [])]

theorem windowOperations_run {i : Instr} {op at_ : Nat} {obs : List Obs} {v : Via} {secure : Bool} (s : State)
    (mem : (i, op, obs) ∈ windowOperations v secure at_ obs) : After i s ((s.reach at_).via op v obs) := by
  simp only [windowOperations, List.mem_cons, List.not_mem_nil, or_false, Prod.mk.injEq] at mem
  obtain ⟨rfl, rfl, rfl⟩ | ⟨rfl, rfl, rfl⟩ | ⟨rfl, rfl, rfl⟩ | ⟨rfl, rfl, rfl⟩ | ⟨rfl, rfl, -⟩ | ⟨rfl, rfl, rfl⟩ | ⟨rfl, rfl, rfl⟩ := mem
  exacts [objectRead_via .., objectWrite_via .., readBlock_via .., writeBlock_via .., crierPull_via .., crierAck_via .., rotaAbort_via ..]

/-- The window answers any other code with BAD_OP. -/
theorem State.windowOp_unknown {op : Nat} (other : op ∉ [4, 5, 6, 7, 10, 11, 12]) (s : State) (ch : Nat) (last : Bool) (obs : List Obs) :
    s.windowOp ch op last obs = (.badOp, s) := by
  rw [State.windowOp]
  all_goals
    rintro rfl
    exact other (by decide)

/-- Settles O22: through the window and on a session alike, an operation that its checks pass runs to its answer. -/
theorem objectCommandsComplete : Obligations.ObjectCommandsComplete := by
  refine ⟨?window, ?session, ?unknown⟩
  case window =>
    intro i op obs s at_ ch last secure u mem inRange world ran
    have runs := windowOperations_run s mem
    rw [State.via, State.windowGo_runs inRange world, ran] at runs
    exact runs
  case session =>
    intro i op obs s at_ f x mem serves
    obtain ⟨runs, noGreeting⟩ := sessionOperations_run s mem
    rw [State.via, serves.served noGreeting] at runs
    exact runs
  case unknown =>
    intro s op at_ ch last secure inRange world byte other
    have runs := unknownOperation_via s (.window ch last secure) at_ op
    rw [Nat.mod_eq_of_lt byte, State.via, State.windowGo_runs inRange world, State.windowOp_unknown other] at runs
    exact runs

end Sys2Proof.Machine

/-!
PROOFS. The Crier and the Ethernet port (spec 18, R342 to R366): what each command completes with.
-/
namespace Sys2Proof.Machine

theorem crierIdentify_frame (s : State) (f : CrierFrame) (at_ : Nat) : After (.crierIdentify f at_) s ((s.reach at_).frameIn 1 f []) := by
  change execCrierIdentify f at_ s = _
  exact State.command_next rfl

theorem crierOpen_frame (s : State) (f : CrierFrame) (at_ : Nat) : After (.crierOpen f at_) s ((s.reach at_).frameIn 2 f []) := by
  change execCrierOpen f at_ s = _
  exact State.command_next rfl

/-- An OPEN that its checks pass is answered with its session's number. -/
theorem State.serveOpen_opened {s u : State} {peer : Peer} {p rest : List Byte} {n : Nat} (opened : s.openSession peer p = (.ok, n, rest, u))
    (seq : Nat) : s.serveOpen peer seq p = u.sendOpen peer 2 respFlags n seq (natLe 1 Code.ok.num ++ natLe 2 n ++ rest) := by
  rw [State.serveOpen, opened]
  rfl

/-- A subscription whose bytes have changed, and whose INTERVAL has passed, sends them (R360). -/
theorem crierNotify_sends {s : State} {session kind index sub at_ : Nat} {x : Session} {y : Subscription} {a b : List Byte}
    (up : (s.reach at_).crierUp = true) (found : (s.reach at_).session session = some x)
    (subscribed : x.subs.find? (fun y => decide (y.kind = kind ∧ y.index = index ∧ y.sub = sub)) = some y)
    (watches : (s.reach at_).watched kind index sub x.secure = .ok (a, b)) (changed : b ≠ y.shown)
    (due : y.at_ ≠ 0 → y.at_ - 1 + y.interval * 1000000 ≤ (s.reach at_).time) :
    After (.crierNotify session kind index sub at_) s
      (let subs := x.subs.map (fun z => if z = y then { z with shown := b, at_ := (s.reach at_).time + 1 } else z)
       let v := (s.reach at_).setSession session (some { x with subs := subs })
       (v.setCrier { v.crier with notifySeq := (s.crier.notifySeq + 1) % 2 ^ 32 }).sendOn session 9 notifyFlags s.crier.notifySeq
        (natLe 1 kind ++ natLe 2 index ++ natLe 1 sub ++ b)) := by
  change execCrierNotify session kind index sub at_ s = _
  have sends : ¬ (b = y.shown ∨ (y.at_ ≠ 0 ∧ (s.reach at_).time < y.at_ - 1 + y.interval * 1000000)) := by
    rintro (same | ⟨shownBefore, early⟩)
    · exact changed same
    · exact Nat.not_lt.mpr (due shownBefore) early
  refine State.command_next ((if_neg (by simp [up])).trans ?_)
  simp only [found, subscribed, watches]
  exact if_neg sends

/-- In a cascade only the master follows or serves a grandmaster (R366). -/
theorem State.servesTime {s : State} (h : s.isMaster = true ∨ s.obj .members 0 = 0) : (s.isMaster || s.obj .members 0 == 0) = true := by
  simpa using h

/-- Settles O23: each command on the branch that its hypotheses lead to. -/
theorem crierCommandsComplete : Obligations.CrierCommandsComplete := by
  refine ⟨?identify, ?opens, ?close, ?subscribe, ?notify, ?timeout, ?publish, fun _ _ => rfl, fun _ _ => rfl, fun _ _ _ _ _ => rfl, ?arp,
    ?echo, ?wake, ?gptp⟩
  case identify =>
    intro s f at_ arrives isOpen
    have runs := crierIdentify_frame s f at_
    rw [arrives.greeting (.inl rfl) isOpen, if_pos rfl] at runs
    exact runs
  case opens =>
    intro s f at_ n rest u arrives isOpen opened
    have runs := crierOpen_frame s f at_
    rw [arrives.greeting (.inr rfl) isOpen, if_neg (by decide), State.serveOpen_opened opened] at runs
    exact runs
  case close =>
    intro s f at_ x serves
    have runs := crierClose_frame s f at_
    rw [State.via, serves.served (by decide)] at runs
    exact runs
  case subscribe =>
    intro s f at_ x serves
    have runs := crierSubscribe_frame s f at_
    rw [State.via, serves.served (by decide)] at runs
    exact runs
  case notify =>
    intro s session kind index sub at_ x y a b u up found subscribed watches changed due
    exact crierNotify_sends up found subscribed watches changed due
  case timeout =>
    intro s session at_ x found silent
    change execSessionTimeout session at_ s = _
    refine State.command_next ?_
    have is : (s.reach at_).session session = some x := found
    simp only [is, if_pos silent]
  case publish =>
    intro s handle subject evidence cls flags code payload at_
    change execResultPublish none handle subject evidence cls flags code payload at_ s = _
    exact State.command_next rfl
  case arp =>
    intro s target ip mac up
    change execArpRequest target ip mac s = _
    exact State.command_next (congrArg Host.Outcome.next (if_pos up))
  case echo =>
    intro s target ip mac payload up
    change execIcmpEcho target ip mac payload s = _
    exact State.command_next (congrArg Host.Outcome.next (if_pos up))
  case wake =>
    intro s at_ partner
    change execTc10RemoteWake at_ s = _
    exact State.command_next (congrArg Host.Outcome.next (if_neg (Bool.eq_false_iff.mp partner)))
  case gptp =>
    intro s offset delay at_ up
    refine ⟨?delay, ?response, ?follow, ?serve⟩
    case delay =>
      change execGptpMessage 1 offset delay at_ s = _
      exact State.command_next (if_neg (by simp [up]))
    case response =>
      change execGptpMessage 2 offset delay at_ s = _
      exact State.command_next (if_neg (by simp [up]))
    case follow =>
      intro mode alone
      change execGptpMessage 0 offset delay at_ s = _
      exact State.command_next ((if_neg (by simp [up])).trans ((if_pos rfl).trans
        (congrArg Host.Outcome.next (if_pos ⟨mode, State.servesTime alone⟩))))
    case serve =>
      intro mode alone
      change execGptpMessage 3 offset delay at_ s = _
      exact State.command_next ((if_neg (by simp [up])).trans (congrArg Host.Outcome.next (if_pos ⟨mode, State.servesTime alone⟩)))

end Sys2Proof.Machine
